-- ==== Sys2Proof/Word.lean ====
section
/-!
DEFINITION. The word and byte types of the module (R16, R19) and the one container type used for sparse state.
-/
namespace Sys2Proof

/-- A register: 32 bits (R19). -/
abbrev Word := BitVec 32

/-- A byte of a memory structure (R16). -/
abbrev Byte := BitVec 8

/-- A run of bytes, the lowest address first. -/
abbrev Bytes := List Byte

/-- A sparse table: entries by rising key, an absent key standing for the default its reader names. -/
abbrev Tbl (α : Type) := List (Nat × α)

end Sys2Proof
end

