-- ==== Sys2Proof/Syntax.lean ====
section
/-!
DEFINITION. The commands the module takes from outside: register accesses, bus commands, frames, supply and clock events
and the instants at which its own engines take a step, one constructor per row of the table of operations and events.
An operand is what the outside world or an engine brings to the step: an address, a value, a time, a frame, a measured
quantity, or which waiting item the step takes.
-/
namespace Sys2Proof

/-- A Phirov frame as its header and payload say (R405, R406). -/
structure PxFrame where
  kind : Nat
  cls : Nat := 0
  ctx : Nat := 0
  src : Nat := 0
  dst : Nat := 0
  session : Nat := 0
  seq : Nat := 0
  slots : Nat := 0
  status : Nat := 0
  req : Nat := 0
  address : Nat := 0
  length : Nat := 0
  credit : Nat := 0
  payload : Bytes := []
  deriving DecidableEq, Repr

/-- A drive's status slot (R430). -/
structure DriveSlot where
  q : Int
  qd : Int
  /-- Sample instant in ns. -/
  t : Nat
  st : Nat
  tickLow : Nat
  deriving DecidableEq, Repr

/-- Where an operand of a stage's item stands. -/
inductive Source where
  /-- The first `n` parcels of a hopper queue; `scale` is the declared FP32 scale of an integer format. -/
  | queue (q n scale : Nat)
  /-- `count` elements at a local address; the E8M0 scales and the tag plane, where the tensor has them. -/
  | mem (addr format scale count : Nat) (scales tags : Option Nat)
  /-- FP32 constants of the declared operation. -/
  | const (codes : List Nat)
  /-- The next steps of the chunk that layer 0 of the job's stream runs (R195). -/
  | chunk (scale : Nat)
  deriving DecidableEq, Repr

/-- Elementwise operations of one operand (R75); constants are FP32 codes. -/
inductive UnaryOp where
  | copy | abs | neg | relu
  | clamp (lo hi : Nat)
  | scale (c : Nat)
  deriving DecidableEq, Repr

/-- Elementwise operations of two or three operands (R61, R75): compare says whether a < b, select takes b where a is the word
of a true comparison and c elsewhere. -/
inductive BinaryOp where
  | add | sub | mul | fma | min | max | less | select
  deriving DecidableEq, Repr

/-- Reductions (R75). -/
inductive ReduceOp where
  | sum | mean | max | min
  deriving DecidableEq, Repr

/-- The functions of R76. A piecewise table has up to 256 segments, each with its first argument, its value there and its
slope, in rising order, and the last argument of the table; all FP32 codes. -/
inductive SpecialFn where
  | exp | recip | sqrt | rsqrt | logistic | sin | cos
  | table (segs : List (Nat × Nat × Nat)) (last : Nat)
  deriving DecidableEq, Repr

/-- A layer of an SV8 tile-fused layout (R160): 0 a convolution under R147, 1 pooling under R152, 2 an elementwise operation. Its
tensors, groups or pooling mode, kernel, stride, dilation and padding; the weights; and the format (INT8 or FP16) with the
declared scale in which the next layer takes its output. -/
structure FusedLayer where
  kind : Nat
  inH : Nat
  inW : Nat
  inC : Nat
  outC : Nat
  mode : Nat := 1
  kh : Nat := 1
  kw : Nat := 1
  sh : Nat := 1
  sw : Nat := 1
  dh : Nat := 1
  dw : Nat := 1
  padT : Nat := 0
  padB : Nat := 0
  padL : Nat := 0
  padR : Nat := 0
  replicate : Bool := false
  w : Source := .const []
  f : UnaryOp := .copy
  format : Nat
  scale : Nat := 0
  deriving DecidableEq, Repr

/-- The declared operation of a stage (R75, R91), as its program and parameters give it. -/
inductive Oper where
  /-- `m` results over K = `k` for each of `n` columns: the rows of `w` with runs of `k` elements of `x`. -/
  | matmul (x w : Source) (m n k : Nat)
  | unary (f : UnaryOp) (x : Source)
  | binary (f : BinaryOp) (a b c : Source)
  /-- Over runs of `n` elements. -/
  | reduce (f : ReduceOp) (n : Nat) (x : Source)
  /-- A function of R76 of every element. -/
  | special (f : SpecialFn) (x : Source)
  /-- Softmax of rows of `n`. -/
  | softmax (n : Nat) (x : Source)
  /-- RMS normalisation of rows of `n` with η (an FP32 code) and γ. -/
  | rms (n eta : Nat) (x gamma : Source)
  /-- Layer normalisation of rows of `n` with η, γ and β. -/
  | layer (n eta : Nat) (x gamma beta : Source)
  /-- The image operator that the stage's parameters declare (R163): results `first` … `first + n − 1` of the item in the order in
  which its output is stored, from the input tensor `x` and the weights `w`. A striped stage computes its stripe. -/
  | image (x w : Source) (first n : Nat)
  /-- Result i is element `perm[i]`; `conv`: a format change. -/
  | move (x : Source) (perm : List Nat) (conv : Bool)
  /-- Split-K add of partial results in their order of arrival. -/
  | merge (xs : List Source)
  /-- Rotary embedding of heads, one position each (R168). -/
  | rotary (x : Source) (pos : List Nat)
  /-- Scores of the query rows `q`, one query head each, against the keys of a sequence at the job's positions (R166, R167). -/
  | score (q : Source) (slot : Nat)
  /-- The rows of probabilities `p`, one query head each, times the values of a sequence at the job's positions (R166). -/
  | value (p : Source) (slot : Nat)
  /-- The next `n` steps of a recurrent layer (R191). LINEAR_DIAG: a, u. SSM: Δ, A, B, C, D, x. CONV_SHORT: kernel, x. GRU and LSTM:
  the input parts of the gates, the recurrent weights. -/
  | scan (n : Nat) (ins : List Source)
  /-- The T × T output tile at (`oy`, `ox`) of the fused layers, from the input tile `x` (R160). -/
  | fused (t oy ox : Nat) (layers : List FusedLayer) (x : Source)
  deriving DecidableEq, Repr

/-- One step of a stage on an item. -/
structure StageJob where
  op : Oper
  /-- Hopper queues whose front parcel the step takes. -/
  takes : List Nat := []
  /-- Tokens of tier requests whose completion the step takes. -/
  tokens : List Nat := []
  /-- Output format of R53 and declared FP32 scale of an integer one. -/
  format : Nat
  scale : Nat := 0
  /-- Channels of an argmax of a MATMUL stage, 0 for none; and whether the second plane of R161 is emitted. -/
  argmax : Nat := 0
  argmaxValue : Bool := false
  /-- The step begins, or ends, the item. -/
  first : Bool := true
  last : Bool := true
  seq : Nat := 0
  /-- Blocks of the item that earlier steps have emitted (R93: the offset within the item). -/
  offset : Nat := 0
  /-- A write to millpond or HBM in place of emission: elements, E8M0 scales, tag plane. -/
  store : Option (Nat × Nat × Nat) := none
  /-- Cycles for the counters ML_STONE0_BUSY, ML_STONE1_BUSY and ML_BANK_CONFLICT. -/
  busy0 : Nat := 0
  busy1 : Nat := 0
  conflicts : Nat := 0
  /-- The stream whose chunk a SCAN stage runs (R197). -/
  stream : Option Nat := none
  /-- An attention step: the query head of its first row, the query position, the key positions with those that are bucket padding
  (R167); query rows that are padding (R180); whether it is a decode step. -/
  head : Nat := 0
  qpos : Nat := 0
  kpos : List (Nat × Bool) := []
  rowPad : List Bool := []
  decode : Bool := false
  deriving DecidableEq, Repr

/-- A matrix of S32 mantissas by rows, with its exponent (R325). -/
structure Mat where
  rows : List (List Int)
  exp : Int
  deriving DecidableEq, Repr

/-- One stage of the QP as the assembly program builds it (R328): H_k, g_k, C_k with its bounds and their exponents, the
shared-state selection P_k as pairs (component, shared state), and further problems of the stage that the program factors
by LU (R331). -/
structure QpStage where
  h : Mat
  g : List Int
  gExp : Int
  c : Mat
  lo : List Int
  loExp : Int := 0
  hi : List Int
  hiExp : Int := 0
  shared : List (Nat × Nat)
  lus : List Mat := []
  /-- Values that saturated while the stage was assembled (R329). -/
  sats : Nat := 0
  deriving DecidableEq, Repr

/-- What the extraction program reads from the solution (R337): positions, velocities and torques of each stage as Q15 integers, the
gains, and the conversions that saturated. -/
structure Extract where
  gainMode : Nat
  /-- q_ref, qd_ref and tau_ff at each stage. -/
  points : List (List Int × List Int × List Int)
  gainShift : List Nat
  gains : List (List Int)
  sats : Nat
  deriving DecidableEq, Repr


/-- The commands of the module: one constructor per row of the table of operations and events, in its order. -/
inductive Instr where
  /-- REGISTER_WRITE (R21). A host write to an RW register that has no behaviour of its own sets its value, ignoring
  reserved and read-only fields. `a` is the window address of the register, here and in the other register accesses.
  -/
  | registerWrite (a v : Nat)
  /-- W1C_WRITE (R21). A write to a W1C register clears each bit written 1, while an event setting a bit in the same
  cycle keeps it set. `ev`: the bits that events set in the same clock cycle. -/
  | w1cWrite (a v ev : Nat)
  /-- W1S_WRITE (R21). A write to a W1S register sets each bit written 1. -/
  | w1sWrite (a v : Nat)
  /-- RC_READ (R22). A read of an RC register returns its value and clears it, keeping any event of the same cycle for
  the next read. `ev`: what events of the same clock cycle leave in the register. -/
  | rcRead (a ev : Nat)
  /-- CAPTURE_READ_LOW_WORD (R19). A read of the low word of a 64-bit pair captures the high word for the next read.
  -/
  | captureReadLowWord (a : Nat)
  /-- LEDGER_FAULT (R41). A pool's counts break R39; LEDGER_FAULT is raised, the owning pipeline stops at its next
  credit boundary, and the owning mill may enter FAULT. The pool, and its counts as they stand. -/
  | ledgerFault (p held inFlight parked returned reclaimed : Nat)
  /-- LG_FAULT_CLEAR (R41). Clearing ledger_fault in LG_FAULT invalidates LG_FAULT_POOL without restarting any stopped
  pipeline. -/
  | lgFaultClear (v : Nat)
  /-- LG_SNAP_CTRL (R42). A write to LG_SNAP_CTRL starts the capture of one pool's six counts, or is ignored while a
  capture is busy. -/
  | lgSnapCtrl (v : Nat)
  /-- SNAP_CAPTURE_DONE (R42). The ledger completes a snapshot within 16 fabric cycles, sets valid and clears busy. -/
  | snapCaptureDone
  /-- INNER_TICK (R275). At each 4 kHz tick instant the governor runs fusion, the joint slices and frame assembly. -/
  | innerTick
  /-- CONFLICT_LIMIT_EXPIRY (R319). The conflict time reaches conflict_limit_ms, so the fused state becomes unusable
  and HOLD cause fusion is set. -/
  | conflictLimitExpiry
  /-- ACCEPTANCE_WINDOW_CLOSE (R269). At the close of the acceptance window the input distributor fixes the inputs of
  the tick. -/
  | acceptanceWindowClose
  /-- CYCLE_BOUNDARY (R52). At each 1 ms boundary the assembly front stage freezes its inputs, adopts the newest plan
  and starts the solve. What the assembly program of the solver block builds from the frozen inputs (R328). -/
  | cycleBoundary (qp : List QpStage)
  /-- VOTE_V1 (R272). At T + 35 µs the voter compares the lanes' fused-state records and uses the majority. What sets
  a lane apart from the others at the voting point: byte offset of the word and value, or none where its result has
  not arrived; here and in the other votes. -/
  | voteV1 (dev : List (Nat × Option (Nat × Nat)))
  /-- VOTE_V2 (R272). At T + L − 45 µs the voter votes the torque frame and the brake-wheel state and places the frame
  in both launch queues. `cycles`: the longest slice computation. -/
  | voteV2 (cycles : Nat) (dev : List (Nat × Option (Nat × Nat)))
  /-- VOTE_V3 (R336). At 160 + 25 n_it µs the voter votes the set-point record, the fallback set-points and the warm
  start. Phase durations in µs, and what the extraction program writes. -/
  | voteV3 (assembly iter extract : Nat) (out : Extract) (dev : List (Nat × Option (Nat × Nat)))
  /-- VOTE_V4 (R272). The voter votes each return-route item at its emission and admits it at weir 41. The return
  route. -/
  | voteV4 (r : Nat) (dev : List (Nat × Option (Nat × Nat)))
  /-- TORQUE_LAUNCH (R362). A ring port starts a queued frame at its launch time, on the nearest block boundary. Ring
  port, and the launch error in 2^−8 ns. -/
  | torqueLaunch (p : Nat) (err : Int)
  /-- LAUNCH_ENTRY_PLACE (R361). A management core places an entry in a launch queue when one of its three places is
  free. Ring port 0 or 1, launch time in ns, frame buffer reference. -/
  | launchEntryPlace (p time ref : Nat)
  /-- SUPPLY_WARNING (R445). The input stays below 33 V for 10 µs, so the supply enters DIP, the brake wheel takes
  cause supply and the fabric pauses. `v` is the input voltage in 10 mV units, here and in the other supply events. -/
  | supplyWarning (v : Nat)
  /-- SUPPLY_RISE (R444). The input reaches 35 V in DIP and the supply enters RECOVERING. -/
  | supplyRise (v : Nat)
  /-- SUPPLY_FALL (R444). The input falls below 35 V in RECOVERING and the supply returns to DIP. -/
  | supplyFall (v : Nat)
  /-- RECOVERY_QUALIFIED (R445). The input stays above 35 V for 5 ms, so the supply returns to NORMAL, the fabric
  resumes and cause supply clears. Input now and its minimum in the dip in 10 mV units, time below 33.0 V in 100 µs
  units, hold-up energy left in mJ. -/
  | recoveryQualified (v lowest below left : Nat)
  /-- HOLDUP_TAKEOVER (R446). The input falls below 28 V and hold-up storage feeds the motion domain. -/
  | holdupTakeover (v : Nat)
  /-- SUPPLY_RESET (R447). The reset qualifies, so STO is entered, the fabric rails go off and the ordered shutdown
  begins. -/
  | supplyReset (v : Nat)
  /-- SHUTDOWN_STO_DONE (R447). After the STO frames the supply log is written and the motion rails switch off. The
  figures of the supply log entry, as in RECOVERY_QUALIFIED. -/
  | shutdownStoDone (lowest below left : Nat)
  /-- START_QUALIFIED (R443). The input stays at or above 36 V for 10 ms and bring-up starts at MOTION_POWER. `cold`:
  the input had been absent before. -/
  | startQualified (v : Nat) (cold : Bool)
  /-- OVER_VOLTAGE_NOTICE (R449). The input stays above 62 V for 100 µs, so PW_EVENTS.over is set and a record is
  written. -/
  | overVoltageNotice (v : Nat)
  /-- THROTTLE_UPDATE (R452). Every 100 µs the power controller adjusts the throttle level under the FIELD power cap.
  Input power, 1 ms average, in 0.1 W units, and the temperatures in 0.1 °C. -/
  | throttleUpdate (p : Nat) (fabric motion face : Int)
  /-- PW_CAP (R451). A write of PW_CAP.mode selects the FULL budget or the FIELD power cap, taking effect within 1 ms.
  -/
  | pwCap (v : Nat)
  /-- THERMAL_THROTTLE (R505). The fabric die reaches 100 °C and thermal throttling starts. The die temperature in 0.1
  °C, here and in the other thermal events. -/
  | thermalThrottle (t : Int)
  /-- THERMAL_FABRIC_RESET (R505). The fabric die reaches 110 °C and the fabric group is held in reset. -/
  | thermalFabricReset (t : Int)
  /-- THERMAL_SHUTDOWN (R505). The motion die reaches 115 °C and the module shuts down in order. -/
  | thermalShutdown (t : Int)
  /-- THERMAL_RELEASE (R505). A die temperature falls below its release level and the thermal action is released.
  Whether it is the motion die. -/
  | thermalRelease (motion : Bool) (t : Int)
  /-- SR_RESEED (R65). After 2^24 draws the mill reseeds its generator and runs the noise health test. Whether the
  health test of the noise source passes. -/
  | srReseed (m : Nat) (pass : Bool)
  /-- STAGE_ITEM (R88). A stage processes one item and its tailrace reduces, rounds, tags and packs the output. The
  mill, its stage, and the step on the item. -/
  | stageItem (m i : Nat) (job : StageJob)
  /-- TAILRACE_EMIT (R89). The tailrace emits a parcel once every destination holds a credit. The mill, its stage, and
  the cycles the parcel waited. -/
  | tailraceEmit (m i wait : Nat)
  /-- WEIR_ADMIT (R102). A weir admits a waiting parcel when its row holds a token. The weir, the destination byte of
  the copy it admits (at weir 16 the channel), and the cycles it waited. -/
  | weirAdmit (w dest wait : Nat)
  /-- ROUTER_HOP (R99). A router forwards a parcel by class priority when the downstream class buffer has room.
  `wait`: cycles an input stood stalled. The router (row × 4 + column), the output (0 local, 1 north, 2 south, 3 east,
  4 west) and the input that the arbitration among equals takes. -/
  | routerHop (k out input wait : Nat)
  /-- HOPPER_WRITE (R94). An arriving parcel is written into a hopper slot and its credit becomes held by the
  consumer. The destination byte; `loop`: from loopback of mill `m`; `cycles` is the traversal in fabric cycles. -/
  | hopperWrite (dest : Nat) (loop : Bool) (m cycles : Nat)
  /-- SLOT_FREE (R94). The consumer frees a slot and the credit is returned on the sideband, or parked while the
  sluice is closed. The mill and its queue. -/
  | slotFree (m q : Nat)
  /-- CREDIT_ARRIVE (R94). A returning credit reaches its producer and becomes held. The pool, and the producer by its
  weir. -/
  | creditArrive (p w : Nat)
  /-- PARCEL_HEADER_ERROR (R458). An uncorrectable error in parcel bytes 0–15 resets the fabric group. -/
  | parcelHeaderError
  /-- CORE_HEARTBEAT (R90). The miller core increments ML_CORE_HEARTBEAT every 1 ms. -/
  | coreHeartbeat (m : Nat)
  /-- WATCHDOG_EXPIRY (R90). The heartbeat does not advance for 3 ms, so the mill enters FAULT with the watchdog
  cause. -/
  | watchdogExpiry (m : Nat)
  /-- MILL_UNCORRECTABLE (R457). An uncorrectable millpond, hopper or weight-buffer error moves the mill to FAULT. -/
  | millUncorrectable (m : Nat)
  /-- SCRUB_PASS (R457). A periodic scrub of a protected structure corrects single-bit errors and acts on
  uncorrectable ones. The structure (0 millpond, 1 hopper, tailrace or weight buffers, 2 leat payload, 3 leat header,
  4 HBM, 5 store page, 6 page map entry, 7 host-port SRAM, 8 ledger counters, 9 bolter grid store, 10 governor-
  interface queue, 11 lane SRAM, 12 HyperRAM, 13 record buffer); its unit: mill, router buffer, pool, bolter, queue or
  lane; the address, page, slot or record number in it; the errors corrected, and whether an uncorrectable error was
  met there. -/
  | scrubPass (code unit addr corrected : Nat) (ue : Bool)
  /-- COPY_VERIFY (R124). The loader checks the source range and copies the image from the host pond into staging. -/
  | copyVerify
  /-- COPY_DONE (R124). The staging copy completes and verification starts. -/
  | copyDone
  /-- VERIFY_DONE (R122). Verification completes, staging the millplan or rejecting it with a cause and a record. -/
  | verifyDone
  /-- LOAD (R126). The loader sizes quotas, writes weirs, preloads, writes sections, grants credits and opens every
  sluice. -/
  | load
  /-- PRELOAD (R130). The staged section's preload list runs through weir 16 while the mill keeps running. -/
  | preload
  /-- PRELOAD_DONE (R514). A swap's preload completes, the replacement becomes READY, and a SWAP starts if auto_swap
  is set. -/
  | preloadDone
  /-- SWAP (R133). The loader closes the mill's sluice and drains it for a READY swap or reload. -/
  | swap
  /-- DRAIN_COMPLETE (R132). The mill is drained, and the loader compares parked counts, writes the section, grants
  and reopens. The mill that has drained. -/
  | drainComplete (m : Nat)
  /-- DRAIN_TIMEOUT (R135). drain_bound_us elapses before the drain ends, so the swap aborts and the old section
  resumes. The mill that has not. -/
  | drainTimeout (m : Nat)
  /-- SECTION_REPLACE_APPLY (R137). A replacement of a non-mill section takes effect at its point of change, such as a
  cycle boundary or the end of a batch. -/
  | sectionReplaceApply
  /-- DISCARD (R126). DISCARD frees the staged millplan and any preloaded pages. -/
  | discard
  /-- UNLOAD (R127). UNLOAD drains every mill, sizes every pool to 0 and empties the mills. -/
  | unload
  /-- EVACUATE (R141). The loader resets the failed mill and moves its work to the affected set of its FALLBACK
  section. -/
  | evacuate (m : Nat)
  /-- AUTO_EVACUATE (R141). A mill enters FAULT and, with auto_evacuate set, the loader starts its evacuation. -/
  | autoEvacuate (m : Nat)
  /-- RESTORE (R145). RESTORE applies the primary sections to the affected set of a repaired mill. -/
  | restore (m : Nat)
  /-- STRIPE_START (R155). A consumer stripe starts once the watermark passes the last row it reads. The mill, its
  stage, and the cycles it waited for the watermark. -/
  | stripeStart (m i wait : Nat)
  /-- FRAME_BUFFER_START (R155). A producer starts frame n once every consumer has finished frame n − B, and the
  watermark is reset. The producing stage, or (`ingress`) the stream `i`; the cycles it waited for a free buffer. -/
  | frameBufferStart (ingress : Bool) (m i wait : Nat)
  /-- KV_WRITE_STEP (R175). KV_WRITE writes a step's keys and values after the previous step's reads, charging pages
  and advancing committed. The KV_WRITE stage, the sequence slot, the identifier, layer and limit a sequence opens
  with, the first position and the number of positions, the request of the item; `decode`: the item is a decode step;
  `fail`: a write completes with TIER_FAIL; `pages`: the pages that the module takes where it needs some; the step on
  the item. -/
  | kvWriteStep (m i slot seqId layer maxTokens p0 count idx : Nat) (decode fail : Bool) (pages : List Nat) (job : StageJob)
  /-- KV_READ_RESUME (R174). A waiting score or value read proceeds once committed passes its position. The reading
  stage, the sequence slot, the position and the granules of the read, the request of the item, the cycles it waited.
  -/
  | kvReadResume (m i slot pos granules idx wait : Nat)
  /-- SEQUENCE_CLOSE (R177). Closing a sequence returns its pages and clears its descriptor once the reads in progress
  finish. A stage that names the descriptor table, and the sequence slot. -/
  | sequenceClose (m i slot : Nat)
  /-- PREFILL_DISPATCH (R180). Firmware dispatches a prefill batch when it is full or its oldest item has waited 200
  µs. The mill, the bucket, and the prefill items that have come since: context, submission index, length. -/
  | prefillDispatch (m b : Nat) (join : List (Nat × Nat × Nat))
  /-- ATTN_MERGE_EMIT (R183). ATTN_MERGE emits the merged result when the last partial of a step arrives. The merge
  stage, the step and query head, the cycles it waited; `down`: a Phirov link that carries partials has gone down; the
  step on the item with the merged elements. -/
  | attnMergeEmit (m i step head wait : Nat) (down : Bool) (job : StageJob)
  /-- START (R205). START zeroes every layer's state, raises the generation and makes the stream ACTIVE. -/
  | streamStart (ctx idx : Nat)
  /-- PAUSE (R205). PAUSE stops layer 0 starting chunks and makes the stream PAUSED. -/
  | streamPause (ctx idx : Nat)
  /-- RESUME (R205). RESUME returns a paused stream to ACTIVE. -/
  | streamResume (ctx idx : Nat)
  /-- RESET (R205). RESET raises the generation and returns queued chunks with STALE_GEN. -/
  | streamReset (ctx idx : Nat)
  /-- END (R205). END acts as RESET and frees the stream at its chunk boundary. -/
  | streamEnd (ctx idx : Nat)
  /-- EXPORT (R209). EXPORT raises or keeps the generation and waits for the chunk boundary to write a state package.
  -/
  | streamExport (ctx idx : Nat)
  /-- IMPORT (R210). IMPORT checks a state package, writes the state, queues its chunks and pauses the stream. -/
  | streamImport (ctx idx : Nat)
  /-- CHUNK_BOUNDARY (R209). A stream reaches its chunk boundary, so a waiting EXPORT or END proceeds. -/
  | chunkBoundary (stream : Nat)
  /-- CHUNK_ENQUEUE (R196). A chunk enters its stream's queue when its last byte is written, charging slot pages.
  `host`: the CHUNK request at (ctx, idx); else a chunk that a producing stage of context `ctx` has emitted. -/
  | chunkEnqueue (host : Bool) (ctx idx : Nat) (chunk : Bytes)
  /-- LAYER_CHUNK_START (R197). A layer starts a stream's next chunk, checking its generation and applying reset
  marks. -/
  | layerChunkStart (stream layer : Nat)
  /-- HOIST (R230). A HOIST descriptor is submitted to move pages between tiers through the sack hoist. The accepted
  request, here and in the other tier, stream, bolter and pond commands. -/
  | hoist (ctx idx : Nat)
  /-- ALLOC (R232). ALLOC charges and allocates a contiguous run of HBM or store pages. `first`: the page with which
  the run begins that the module chooses. -/
  | alloc (ctx idx first : Nat)
  /-- FREE (R232). FREE releases pages that the context holds. -/
  | free (ctx idx : Nat)
  /-- TIER_CMD_START (R233). A tier command starts on a channel once its ordering dependences have completed. `ch` is
  the channel that is free. -/
  | tierCmdStart (ctx idx ch : Nat)
  /-- HOIST_PAGE_DONE (R234). A sack-hoist page completes, and the descriptor completes after its last page. `fault`:
  0 none, 1 late, 2 uncorrectable HBM read, 3 NAND read failed after 8 retries, 4 NAND program failed after 3 more
  slots, 5 page map check failure; `line`: the 64-byte line of the page in error; `slot`: the physical slot of a
  page written. -/
  | hoistPageDone (ch fault line slot : Nat)
  /-- TIER_REQUEST (R235). A stage issues a tier request on one of its mill's tokens. The mill, its stage and the
  token's number; the class; 58-bit global HBM or remote address, local millpond address, bytes. -/
  | tierRequest (mill stage id cls : Nat) (write : Bool) (hbm pond len : Nat)
  /-- TIER_REQUEST_DONE (R235). A tier request completes and its token returns with the status. `ue`: the 64-byte line of
  the request in which the read met an uncorrectable error. -/
  | tierRequestDone (mill stage id : Nat) (ue : Option Nat)
  /-- TIER_LATE_EXPIRY (R237). A request reaches its late limit and ends with TIER_LATE. -/
  | tierLateExpiry (mill stage id : Nat)
  /-- PURGE (R227). MT_CMD PURGE frees every store page of one context while no millplan is loaded. -/
  | purge (ctx : Nat)
  /-- COMMIT (R241). MT_CMD COMMIT writes the listed repairs as a new REPAIR OTP generation. -/
  | commit
  /-- HBM_ROW_REPAIR (R240). An uncorrectable error, or 16 corrected errors in one hour, starts a soft repair of an
  HBM row. `lines`: local addresses of lines in the row, one of each 64 KiB page that has some. -/
  | hbmRowRepair (station channel bank row : Nat) (lines : List Nat)
  /-- HBM_REPAIR_DONE (R240). The repaired row is written and the bank is released. -/
  | hbmRepairDone
  /-- BATCH (R254). A BATCH entry queues a candidate batch at a bolter. -/
  | batch (ctx idx : Nat)
  /-- BATCH_START (R254). A bolter starts the next queued batch, urgent first, checking grid staleness. The bolter,
  here and in the other bolter commands. -/
  | batchStart (b : Nat)
  /-- CHECKING_END (R258). Checking ends and selection picks the winner, the best colliding candidate or NO_PATH.
  `late`: candidates whose record reads ended TIER_LATE or TIER_FAIL. -/
  | checkingEnd (b : Nat) (late : List Nat)
  /-- BATCH_DEADLINE (R262). Module time reaches the deadline, so the lanes stop and selection runs with flag timeout.
  `tested`: the candidates completely tested. -/
  | batchDeadline (b : Nat) (tested late : List Nat)
  /-- GRID_PUBLISH (R247). A grid frame is published and the bolter starts building its pyramid. The frame, and the
  timestamp in ns of that frame of the time stream where the fusion units do not hold it. -/
  | gridPublish (b n : Nat) (stamp : Int)
  /-- PYRAMID_BUILD_DONE (R249). A pyramid build completes and becomes active, or waits until the batch is selected.
  `failed`: 64 KiB pages of the buffer whose reads ended TIER_LATE or TIER_FAIL. -/
  | pyramidBuildDone (b : Nat) (failed : List Nat)
  /-- PYRAMID_ACTIVATE (R249). The waiting pyramid becomes active when the bolter is idle. -/
  | pyramidActivate (b : Nat)
  /-- RESULT_EMIT (R260). The bolter emits the result record to its governor queue once credits and tokens are
  available. -/
  | resultEmit (b : Nat)
  /-- CLEAR_WATCH (R264). A CLEAR_WATCH entry removes the bolter's active plan. -/
  | clearWatch (ctx idx : Nat)
  /-- REPAIR_BATCH (R265). The planner firmware answers a watch signal with an urgent repair batch. The local HBM
  address of the batch that the planner firmware has written. -/
  | repairBatch (b addr : Nat)
  /-- ENABLE (R289). GV_CMD ENABLE takes the brake wheel from STANDBY with HOLD cause plan. -/
  | enable
  /-- HOLD (R290). GV_CMD HOLD sets HOLD cause host. -/
  | hold
  /-- RELEASE (R290). GV_CMD RELEASE clears HOLD cause host. -/
  | release
  /-- STOP (R289). GV_CMD STOP sends the brake wheel to STO with cause host. -/
  | stop
  /-- CLEAR_STO (R293). CLEAR_STO leaves STO for STANDBY when its conditions hold. -/
  | clearSto
  /-- READMIT (R294). GV_CMD READMIT takes an OUT lane to ISOLATED when two lanes are in service. The lane, here and
  in the other lane commands. -/
  | readmit (l : Nat)
  /-- LANE_RESET_DONE (R295). An isolated lane's reset completes and its copy from two agreeing lanes starts. -/
  | laneResetDone (l : Nat)
  /-- LANE_COPY_DONE (R295). The lane copy completes, or goes OUT on a mismatch, and the lane enters SHADOW at the
  next boundary. `ok`: the two copies of every unit agreed. -/
  | laneCopyDone (l : Nat) (ok : Bool)
  /-- SHADOW_PASS (R294). After 8 cycles in SHADOW without a minority result, the lane enters IN_SERVICE. -/
  | shadowPass (l : Nat)
  /-- SINGLE_LANE_TIMEOUT (R298). With one lane in service for single_lane_ms, the brake wheel enters STO with cause
  single_lane. -/
  | singleLaneTimeout
  /-- GOVIF_RECORD_ARRIVE (R286). A governor-interface record arrives and is applied, or rejected under R80 or R280.
  The queue, and the fabric cycles of the parcel's traversal. -/
  | govifRecordArrive (q cycles : Nat)
  /-- HOLD_LAST_EXPIRY (R286). More than hold_last periods are missing, so the queue's miss_action applies. -/
  | holdLastExpiry (q : Nat)
  /-- PLAN_RECORD_ARRIVE (R288). A plan record or a watch notice arrives, and a watch notice withdraws the current
  plan. As GOVIF_RECORD_ARRIVE. -/
  | planRecordArrive (q cycles : Nat)
  /-- SYNC_RECEIVE (R355). A Sync on the slave port yields an offset and a fantail servo update. `p` is the timing
  port, `origin` the preciseOriginTimestamp in ns, `corr` the correctionField and `cap` the captured stamp in 2^−16
  ns. -/
  | syncReceive (p origin : Nat) (corr cap : Int)
  /-- PDELAY_EXCHANGE (R353). A completed peer-delay exchange updates the mean link delay. Captured t1 and t4 and the
  neighbour's t2 and t3 in 2^−16 ns; `r` is the neighborRateRatio in units of 2^−40. -/
  | pdelayExchange (p : Nat) (t1 t2 t3 t4 : Int) (r : Nat)
  /-- ANNOUNCE_RECEIVE (R359). An Announce arrives and the BMCA may choose another grandmaster, sending the fantail
  into HOLDOVER. The grandmaster data set of the Announce: priority1, clockClass, clockAccuracy, variance, priority2,
  identity, steps removed, timeSource. -/
  | announceReceive (p p1 cls acc var p2 id steps src : Nat)
  /-- REFERENCE_TIMEOUT (R359). Sync or Announce messages stop arriving, so the reference vanishes and the fantail
  enters HOLDOVER. `announce`: Announce rather than Sync messages stopped. -/
  | referenceTimeout (announce : Bool)
  /-- SYNC_TRANSMIT (R352). A master port sends a one-step Sync at each Sync interval. `cap` is the captured egress
  stamp in 2^−16 ns, `rate` the rateRatio in units of 2^−40. -/
  | syncTransmit (p : Nat) (cap : Int) (rate : Nat)
  /-- PPS_EDGE (R360). A 1PPS rising edge is captured and, in PPS mode, updates the servo. -/
  | ppsEdge
  /-- PPS_TIMEOUT (R360). No 1PPS edge arrives for 2.5 s and the reference vanishes. -/
  | ppsTimeout
  /-- HOLDOVER_EXPIRED (R358). HOLDOVER lasts 60 s and holdover_expired is set. -/
  | holdoverExpired
  /-- SET (R357). TM_CMD SET requests a load of module time at the next cycle boundary, in STANDBY. -/
  | timeSet
  /-- TIME_STEP_APPLY (R357). A step or SET takes effect at a cycle boundary and fusion sources return to ACQUIRE. -/
  | timeStepApply
  /-- REACQUIRE (R358). TM_CMD REACQUIRE leaves HOLDOVER to qualify any grandmaster. -/
  | reacquire
  /-- TM_TICK_PHASE_WRITE (R347). A write to TM_TICK_PHASE in STANDBY changes the tick phase after the next tick. -/
  | tmTickPhaseWrite (v : Nat)
  /-- TM_NOW_CAPTURE (R346). A read of TM_NOW_NS or TM_PPS_CAP_NS captures the rest of its time value. `pps`: the read
  is of TM_PPS_CAP_NS. -/
  | tmNowCapture (pps : Bool)
  /-- TIME_COPY_MISMATCH (R345). A disagreeing time-base copy is overwritten, or with no majority STO is entered. How
  far each copy has strayed at the edge, in the units of the time copies. -/
  | timeCopyMismatch (da db dc : Int)
  /-- REPLICA_REALIGN (R366). Every 1,024 I/O cycles a port replica realigns to the time base. -/
  | replicaRealign (p : Nat)
  /-- RESET_N_ASSERT (R382). RESET_n resets the host-port domain, disables every ring and reclaims host credits. -/
  | resetNAssert
  /-- HOST_PORT_INIT_READY (R381). The host port reaches INIT and HOST_ALERT_N is released. Time since start
  qualification in ms. -/
  | hostPortInitReady (ms : Nat)
  /-- HP_CTRL_SERVICE (R380). Writing HP_CTRL.service in INIT enters SERVICE and switches the crossings to service
  mode. The word written to HP_CTRL. -/
  | hpCtrlService (v : Nat)
  /-- HOST_PORT_DOMAIN_RESET (R383). A host-port reset not caused by RESET_n returns the port to INIT with its rings
  disabled. -/
  | hostPortDomainReset
  /-- MODE_REGISTER_WRITE (R368). An MRW command sets a supported mode register. The channel, the mode register, the
  value. -/
  | modeRegisterWrite (ch r v : Nat)
  /-- MODE_REGISTER_READ (R368). An MRR command returns a mode register value. -/
  | modeRegisterRead (ch r : Nat)
  /-- TRAINING (R369). A JESD209-5C training command runs command-bus, WCK2CK, read DQ, write FIFO or VREF training.
  Kind 0 command bus, 1 WCK2CK leveling, 2 RDC, 3 WFF, 4 RFF, 5 VREF of CA, 6 VREF of DQ; the data rate in MT/s; the
  burst written by WFF. -/
  | training (kind rate : Nat) (data : Bytes)
  /-- REFRESH (R367). A refresh command is accepted with no effect. -/
  | refresh
  /-- POWER_DOWN (R367). A self-refresh, power-down or deep-sleep entry is accepted while the content is kept. -/
  | powerDown
  /-- READ_BURST (R373). A READ returns one 32-byte burst from one instant, counting as a read of every register
  covered. The device address (R370): `bank` is bank group and bank, or the bank of 16-bank mode. -/
  | readBurst (row bank ch col : Nat)
  /-- WRITE_BURST (R374). A WRITE writes only those registers whose four bytes are unmasked, and seals ring slots. As
  READ_BURST; bit i of `mask` is 1 where byte i is masked. -/
  | writeBurst (row bank ch col : Nat) (data : Bytes) (mask : Nat)
  /-- HP_CTX_SQ_DB (R387). A producer-index doorbell announces entries or sends the ring to ERROR. The context and the
  word written. -/
  | hpCtxSqDb (ctx v : Nat)
  /-- ENTRY_ACCEPT (R385). An announced, sealed entry is copied, accepted in index order and takes a host credit. The
  context, 64 for the mailbox. -/
  | entryAccept (ctx : Nat)
  /-- SEAL_WAIT_TIMEOUT (R386). An announced entry waits for its seal for over 1 ms and seal_wait is set. -/
  | sealWaitTimeout (ctx : Nat)
  /-- HP_CTX_CQ_DB (R391). A completion doorbell acknowledges completions and returns their credits to the host. -/
  | hpCtxCqDb (ctx v : Nat)
  /-- COMPLETION_WRITE (R390). A completed request writes one atomic completion entry and returns its credit. -/
  | completionWrite
  /-- CTX_ENABLE (R393). HP_CTX_CMD ENABLE sizes the credit pool and enables a context's rings. -/
  | ctxEnable (ctx : Nat)
  /-- CTX_DISABLE (R394). HP_CTX_CMD DISABLE stops acceptance and disables the ring once it is drained. -/
  | ctxDisable (ctx : Nat)
  /-- CTX_RESET (R394). HP_CTX_CMD RESET stops acceptance and drops completions so that the ring leaves ERROR. -/
  | ctxReset (ctx : Nat)
  /-- CHUNK (R397). A CHUNK entry feeds a stream chunk from the host pond. -/
  | chunk (ctx idx : Nat)
  /-- ITEM (R398). An ITEM entry gives one item to a host-pond entry point. `fmt`: the format of R53 in which the
  pipeline takes the item. -/
  | item (ctx idx fmt : Nat)
  /-- ALERT_HOLDOFF_EXPIRY (R399). holdoff_us passes after a release, so HOST_ALERT_N may be asserted again. -/
  | alertHoldoffExpiry
  /-- HP_MB_SQ_DB (R401). The mailbox producer doorbell announces privileged firmware requests. -/
  | hpMbSqDb (v : Nat)
  /-- HP_MB_CQ_DB (R401). The mailbox completion doorbell acknowledges mailbox completions. -/
  | hpMbCqDb (v : Nat)
  /-- PX_MODULE_ID_WRITE (R408). A write of PX_MODULE_ID sets the module ID, or is ignored while any Phirov port is
  enabled. -/
  | pxModuleIdWrite (v : Nat)
  /-- PHIROV_PORT_ENABLE (R407). Enabling a Phirov port sizes its pools to the response reserve. The port and the word
  written to PX_PORT_CFG_p. -/
  | phirovPortEnable (p v : Nat)
  /-- PX_PEER_WRITE (R410). A write to PX_PEER sets the route to a module while its pairing is DOWN. The module and
  the word written to PX_PEER_m. -/
  | pxPeerWrite (m v : Nat)
  /-- LINK_UP (R410). A port's link comes up and its valid pairings enter JOINING. The timing port. -/
  | linkUp (t : Nat)
  /-- HELLO_TIMER (R410). A port sends a HELLO every 100 µs in JOINING, or after 100 µs idle in UP. The peer module.
  -/
  | helloTimer (m : Nat)
  /-- HELLO_RECEIVE (R410). A HELLO carrying the current session brings the pairing UP and grants credits. Port, peer
  module, dst field, and the two sessions of the payload. -/
  | helloReceive (p m dst own echo : Nat)
  /-- CREDIT_RECEIVE (R411). A CREDIT frame adds granted slots to the peer credit table. -/
  | creditReceive (p m : Nat) (f : PxFrame)
  /-- PHIROV_FRAME_SEND (R412). A frame leaves for a peer once the peer credit table holds its slots. Peer module and
  class. -/
  | phirovFrameSend (m c : Nat)
  /-- CREDIT_RETURN_SEND (R412). Freed receive slots are returned to their sender within 1 µs. -/
  | creditReturnSend (m : Nat)
  /-- WRITE_FRAME_RECEIVE (R414). A remote WRITE frame is checked, written and acknowledged. Port, sending module,
  frame. -/
  | writeFrameReceive (p m : Nat) (f : PxFrame)
  /-- READ_FRAME_RECEIVE (R414). A remote READ frame is checked and answered with RESPONSE frames. -/
  | readFrameReceive (p m : Nat) (f : PxFrame)
  /-- RESPONSE_RECEIVE (R414). A RESPONSE arrives for an outstanding request, and the last one completes it. -/
  | responseReceive (p m : Nat) (f : PxFrame)
  /-- COLLECT_RECEIVE (R419). A COLLECT frame delivers collective data, or a LINK_DOWN abort. -/
  | collectReceive (p m : Nat) (f : PxFrame)
  /-- PFC_RECEIVE (R403). A received PFC frame is honoured for a port's class priorities when pfc is set. Port, and
  the priorities the frame pauses. -/
  | pfcReceive (p mask : Nat)
  /-- PEER_LOST (R415). A peer is lost, its pairing goes DOWN, credits are reclaimed and its requests complete with
  LINK_DOWN. Peer module, cause code of the record. -/
  | peerLost (m cause : Nat)
  /-- PEER_TIMEOUT (R415). No frame arrives from a peer for the timeout and it is lost. -/
  | peerTimeout (m : Nat)
  /-- LINK_DOWN_EVENT (R415). A port's link goes down and all of its peers are lost. The timing port. -/
  | linkDownEvent (t : Nat)
  /-- COLLECTIVE_REQUEST (R419). A member starts its part of a collective on a tier request token. The stage, its
  token number and the group. -/
  | collectiveRequest (mill stage id g : Nat)
  /-- COLLECTIVE_DONE (R419). A collective completes on a module, and its token returns with status and peak tag. -/
  | collectiveDone (g : Nat)
  /-- FRAGMENT_RECEIVE (R424). A sensor fragment is taken into assembly, admitted, torn, refused or discarded. The
  lane and the fields of the fragment's header (R422); `src` is t_src in ns, `cap` the captured last-byte stamp in
  2^−16 ns. -/
  | fragmentReceive (l stream format number index offset src bytes : Nat) (first last : Bool) (cap : Int) (payload : Bytes)
  /-- INGRESS_DELIVERY_DONE (R425). Delivery of an admitted frame completes and its ingress slot frees. -/
  | ingressDeliveryDone (stream : Nat)
  /-- PTP_MESSAGE_RECEIVE (R348). A PTP message is stamped and handled, or counted in TM_PORT_ERR as unsupported.
  `kind` is the messageType, `cap` the captured stamp in 2^−16 ns. -/
  | ptpMessageReceive (p kind domain : Nat) (malformed : Bool) (cap : Int)
  /-- RING_COPY_RETURN (R430). A cyclic frame copy returns at a ring port and its status slots are taken. The tick and
  copy of the returned frame, the ring port it reached, its launch-to-return time in ns, its status slots by node. -/
  | ringCopyReturn (tick copy port traversal : Nat) (slots : List (Nat × DriveSlot))
  /-- RING_RETURN_DEADLINE (R432). At apply_time + 10 µs the tick is classed and the ring state may change. -/
  | ringReturnDeadline (tick : Nat)
  /-- MR_CFG_WRITE (R428). A write to MR_CFG is applied in STANDBY with every field in range, or ignored as a whole.
  -/
  | mrCfgWrite (v : Nat)
  /-- CLOCK_CHECK_FAIL (R434). A generated clock fails its check window and the module acts by clock. Clock 0 motion
  PLL, 1 fabric PLL, 2 HBM PLL of stack `unit`, 3 SerDes PLL of timing port `unit`. -/
  | clockCheckFail (clock unit : Nat)
  /-- REFERENCE_ABSENT (R434). No reference edge for 20 µs causes a clock failure with all rails off. -/
  | referenceAbsent
  /-- CLOCK_RESTART_ATTEMPT (R434). After a clock failure the module tries to start again once per second. Whether the
  reference is present again. -/
  | clockRestartAttempt (present : Bool)
  /-- CDC_TIMEOUT (R437). A crossing sees no heartbeat for 4,096 cycles and takes its action. As CK_CDC_LAST shows
  them. -/
  | cdcTimeout (crossing side : Nat)
  /-- DOMAIN_RESET (R440). A reset domain is held in reset, its crossings flush and its items are reconciled. Domain
  code of R438. -/
  | domainReset (d : Nat)
  /-- FABRIC_GROUP_RESET (R439). The fabric group domains reset together, millplans are discarded and fabric pools are
  reconciled. -/
  | fabricGroupReset
  /-- DOMAIN_RELEASE (R440). A reset domain is released after at least 1 µs with good clocks and restarts in handshake
  mode. Domain code of R438; 127 for the fabric group. -/
  | domainRelease (d : Nat)
  /-- PW_RESET_CMD (R442). A host reset request is accepted for permitted domains or rejected. -/
  | pwResetCmd (v : Nat)
  /-- BOOT_STAGE_DONE (R453). A bring-up stage completes and the next one starts. At the end of ROM: bit k set for
  each firmware class k whose image fails its signature or digest. -/
  | bootStageDone (bad : Nat)
  /-- BOOT_STAGE_OVERRUN (R455). A bring-up stage exceeds its bound, and after three times the module stays in that
  stage. -/
  | bootStageOverrun
  /-- PORT_RETRAIN (R463). A port crosses its error threshold and retrains when its group allows. The timing port. -/
  | portRetrain (t : Nat)
  /-- PORT_RETRAIN_END (R463). A retraining comes up, fails and retries, or leaves the port down after three failures.
  -/
  | portRetrainEnd (t : Nat) (up : Bool)
  /-- MILL_TEST (R464). MILL_TEST resets a mill, runs its march test and self-tests, and maps spare rows. The mailbox
  request; whether every self-test passed; the failing rows that the march test finds, as (bank, row). -/
  | millTest (idx : Nat) (passed : Bool) (rows : List (Nat × Nat))
  /-- EV_CAPTURE (R471). EV_CAPTURE writes a range of records, with placeholders, into the mailbox data area.
  Submission index of the mailbox request. -/
  | evCapture (idx : Nat)
  /-- CHALLENGE (R471). CHALLENGE issues a clear or return challenge record. -/
  | challenge (idx : Nat)
  /-- EV_CLEAR (R472). EV_CLEAR verifies a customer token and marks records of the masked channels up to B as cleared.
  -/
  | evClear (idx : Nat)
  /-- RETURN_ENTER (R473). RETURN_ENTER verifies the co-signed token, writes the record and programs RETURN into
  LIFECYCLE. -/
  | returnEnter (idx : Nat)
  /-- LIVE_RECORD_ENTER (R467). A pending live record enters the record buffer within 1 ms of its event. -/
  | liveRecordEnter
  /-- RECORD_FLUSH (R467). The record buffer writes records to the ring while the store path runs. -/
  | recordFlush
  /-- COALESCED_RECORD (R467). When buffer space returns, a channel writes one coalesced record with its count. The
  channel. -/
  | coalescedRecord (ch : Nat)
  /-- OP_SECONDS_SAVE (R469). Every 60 s the record buffer saves op_seconds. -/
  | opSecondsSave
  /-- EV_RD_SEQ_HI_WRITE (R470). A write of EV_RD_SEQ_HI latches a record into EV_RD_DATA. -/
  | evRdSeqHiWrite (v : Nat)
  /-- EV_CTX_SEL_HI_WRITE (R470). A write of EV_CTX_SEL_HI latches a record into the context window. -/
  | evCtxSelHiWrite (ctx v : Nat)
  /-- RECORD_LATCH_DONE (R470). A record latch completes within 100 µs and busy clears. The context whose window it
  is, 64 for the privileged window. -/
  | recordLatchDone (k : Nat)
  /-- ATTEST (R492). ATTEST writes a signed attestation report once no loader or firmware change is running. -/
  | attest (idx : Nat)
  /-- CERT_READ (R494). CERT_READ returns the device certificate. -/
  | certRead (idx : Nat)
  /-- FW_STAGE (R488). FW_UPDATE stage copies an image into the firmware working area and verifies it. -/
  | fwStage (idx : Nat)
  /-- FW_APPLY (R488). FW_UPDATE apply applies the staged image unit by unit, then commits it and raises the epoch. -/
  | fwApply (idx : Nat)
  /-- FW_UNIT_DONE (R486). One unit finishes loading the staged image and the next unit's turn starts. Whether the
  unit runs its new image. -/
  | fwUnitDone (ok : Bool)
  /-- FW_ABORT (R488). FW_UPDATE abort returns every updated unit to the committed image. -/
  | fwAbort (idx : Nat)
  /-- OTP_CHALLENGE (R485). OTP_CHALLENGE issues a purpose-3 challenge. -/
  | otpChallenge (idx : Nat)
  /-- OTP_WRITE (R485). OTP_WRITE verifies a token and programs the next generation of a customer group. -/
  | otpWrite (idx : Nat)
  /-- OTP_WRITE_START (R478). A waiting OTP write starts once the supply is NORMAL and hold-up is not low. -/
  | otpWriteStart
  /-- OTP_WRITE_DONE (R477). An OTP generation finishes programming and commits within 50 ms. -/
  | otpWriteDone
  /-- OTP_READ (R494). OTP_READ returns one generation of an OTP group. -/
  | otpRead (idx : Nat)
  /-- HOLDUP_END (R446). The input rises back to or above 28.0 V, so the input feeds the motion domain again and hold-
  up recharge starts. `left` is the hold-up energy left, in mJ. -/
  | holdupEnd (v left : Nat)
  /-- HOLDUP_LOW_CHANGE (R446). The stored hold-up energy crosses its 450 mJ reserve, setting or clearing
  PW_STATUS.holdup_low and PW_EVENTS.holdup_low. -/
  | holdupLowChange (left : Nat)
  /-- LANE_WATCHDOG_EXPIRY (R294). A governor lane's watchdog expires and the lane is isolated with cause watchdog. -/
  | laneWatchdogExpiry (l : Nat)
  /-- AS_CAPABLE_LOST (R359). The slave port loses asCapable, so the reference vanishes and the fantail enters
  HOLDOVER. -/
  | asCapableLost (p : Nat)
  /-- ANNOUNCE_TRANSMIT (R348). A port sends an Announce at its Announce interval. -/
  | announceTransmit (p : Nat)
  /-- PDELAY_REQUEST_TRANSMIT (R353). A gPTP port sends a Pdelay request at its log_pdelay interval, starting a peer-
  delay exchange. -/
  | pdelayRequestTransmit (p : Nat) (cap : Int)
  /-- POWER_DOWN_EXIT (R437). The host takes the device out of power-down, self refresh or deep sleep, and the
  crossing-7 heartbeat check resumes. -/
  | powerDownExit
  /-- FRAME_DISCARD (R404). A received frame with a wrong EtherType, FCS, address, kind or module ID is discarded and
  counted in the port's error counter. The timing port. -/
  | frameDiscard (t : Nat)
  /-- PHIROV_PORT_DISABLE (R415). Writing PX_PORT_CFG.enable to 0 disables a Phirov port and loses all its peers. The
  port and the word written to PX_PORT_CFG_p. -/
  | phirovPortDisable (p v : Nat)
  /-- TM_CTRL_SOURCE_WRITE (R354). A write of TM_CTRL.source selects AUTO, PPS or SELF_ONLY, and SELF_ONLY puts the
  fantail into FREE_RUN. The word written to TM_CTRL. -/
  | tmCtrlSourceWrite (v : Nat)
  /-- HBM_STACK_FAILURE (R459). An HBM channel or stack fails, a channel 5 record is written and the fabric group is
  reset. The station; the channel 0–11, or 0xFF for a whole stack; the stack. -/
  | hbmStackFailure (station ch stack : Nat)
  deriving DecidableEq, Repr

end Sys2Proof
end

