-- ==== Sys2Proof/Decode.lean ====
section
/-!
DEFINITION. The command that a word of the table spells: the table gives no row any bits, so no word spells one.
-/
namespace Sys2Proof

/-- The command of a table word. No row of the table has bits (log entry 6). -/
def decodeTableWord (_nbits _w : Nat) : Option Instr := none

end Sys2Proof
end

