-- ==== Sys2Proof/Config.lean ====
section
/-!
DEFINITION. What an implementation fixes and what the spec leaves open: constants without a body, so that a statement
holds whatever they are, and the data the module carries when it ships.
-/
namespace Sys2Proof.Config

/-- A free value: the `n`-th value that the spec leaves open, drawn by advancing `State.freeN`. -/
opaque freeWord : Nat → Nat

/-- The FP32 word by which the vector unit shows the outcome of a comparison (R61). -/
opaque compareWord : Bool → Nat

/-- The byte an address reads when a memory's contents are undefined, by generation (R382, R383, R439). -/
opaque undefByte : Nat → Nat → Byte

/-- The digest bytes of the LIFECYCLE generation written when the module ships (R476). -/
opaque shipDigest : Bytes

/-- OTP contents written at manufacture: REPAIR, OPTIC_TRIM, IDENT, CUSTOMER_ROOT (R476). -/
opaque repairData : Bytes
opaque opticData : Bytes
opaque identData : Bytes
opaque customerRoot : Bytes

/-- Whether a quotient the spec does not say how to round is rounded up, by draw. -/
opaque roundUp : Nat → Bool

/-- By how much the centre of a sphere, as the bolter transforms it in FP32, differs from the exact one (R255), by sphere
test and axis, in 2^−24 of the pitch; what exceeds the widening of R255, pitch ÷ 256, is cut to it. -/
opaque centreError : Nat → Int

/-- Exponents of the vectors inside a solver iteration that the spec does not name (R325, R334), by vector: 0 the right-hand
side r, 1 the forward solve, 2 the solve with D. They are cut to the section's range for vectors. -/
opaque solverExp : Nat → Int

/-- What the loader reads from parts whose layout the spec does not give: whether the programs of a solver block fit the windows
of R336 (R342); whether the 52 parameter bytes of a MATMUL stage name a stone mode of R58, and whether they or those of any
other stage name a firmware slot (R121, R137); whether an SV8 image addresses one mill only, and the tables and page layout of
R118 that the loader makes of it and its wrapper (R120). -/
opaque programsFit : Bytes → Bool
opaque stonePairing : Bytes → Bool
opaque namesSlot : Bytes → Nat → Bool
opaque tileOneMill : Bytes → Bool
opaque tileBody : Bytes → Bytes

/-- Where the count of class-S cycles of a router output starts after reset (R99). -/
opaque routerStart : Nat → Nat

/-- The module's own clockIdentity and offsetScaledLogVariance for the BMCA (R349). -/
opaque clockIdentity : Nat
opaque clockVariance : Nat

/-- What the mode registers of JESD209-5C encode and the spec names without its coding (R367, R368, HP_TRAIN): the readings of
MR0, MR4 and MR8; the host-port and silicon revisions; the set points that MR16 selects for writing and for operation; whether MR3
programs bank-group mode and MR18 a WCK:CK ratio of 4:1. -/
opaque mrReading : Nat → Nat
opaque portRevision : Nat
opaque siliconRevision : Nat
opaque fspWrite : Nat → Nat
opaque fspOp : Nat → Nat
opaque bankGroup : Nat → Bool
opaque wck4to1 : Nat → Bool

/-- SM3 and SM2 (GB/T 32905, GB/T 32918), which the spec names and does not spell out (R483): the hash of a message; a
check of a signature by a public key under a signer_id over a message; the module's own signature. -/
opaque sm3 : Bytes → Bytes
opaque sm2Verify : Bytes → Bytes → Bytes → Bytes → Bool
opaque deviceSign : Bytes → Bytes

/-- The vendor's public key in the boot ROM, the signer_id of the device key, and the device certificate (R483). -/
opaque vendorKey : Bytes
opaque vendorId : Bytes
opaque deviceId : Bytes
opaque certificate : Bytes

/-- Build and epoch of each firmware class as shipped, and the digest of its image (R486, R487). -/
opaque shipBuild : Nat → Nat
opaque shipEpoch : Nat → Nat
opaque shipImage : Nat → Bytes

end Sys2Proof.Config
end

