-- ==== Sys2Proof/Machine/Bits.lean ====
section
/-!
DEFINITION. Fields of words, little-endian integers, two's complement, CRC-32 and CRC-8, and the operations of the
sparse table `Tbl`. Everything here is structural recursion or plain Nat and BitVec arithmetic.
-/
namespace Sys2Proof.Machine

/-- The word of a number, bits [31:0]. -/
def word (n : Nat) : Word := BitVec.ofNat 32 n

/-- Field [hi:lo] of a number (R15: bit ranges are inclusive). -/
def fldN (n hi lo : Nat) : Nat := n / 2 ^ lo % 2 ^ (hi + 1 - lo)

/-- Field [hi:lo] of a register. -/
def fld (w : Word) (hi lo : Nat) : Nat := fldN w.toNat hi lo

/-- Bit [n] of a number. -/
def bitN (n i : Nat) : Bool := n / 2 ^ i % 2 = 1

/-- A number with field [hi:lo] replaced. -/
def setFldN (n hi lo v : Nat) : Nat :=
  n - fldN n hi lo * 2 ^ lo + v % 2 ^ (hi + 1 - lo) * 2 ^ lo

/-- A register with field [hi:lo] replaced. -/
def setFld (w : Word) (hi lo v : Nat) : Word := word (setFldN w.toNat hi lo v)

/-- A value placed at bit `lo`, cut to `width` bits. -/
def put (lo width v : Nat) : Nat := v % 2 ^ width * 2 ^ lo

/-- 1 for true. -/
def b2n (b : Bool) : Nat := if b then 1 else 0

/-- `n` bytes of a number, least significant first (R16). -/
def le : Nat → Nat → Bytes
  | 0, _ => []
  | n + 1, v => BitVec.ofNat 8 v :: le n (v / 256)

/-- The number whose little-endian bytes these are (R16). -/
def leNat : Bytes → Nat
  | [] => 0
  | b :: bs => b.toNat + 256 * leNat bs

/-- The number at byte offset `off`, `n` bytes long. -/
def leAt (bs : Bytes) (off n : Nat) : Nat := leNat ((bs.drop off).take n)

/-- The two's-complement value of the low `w` bits of a number. -/
def signed (w n : Nat) : Int :=
  let m := n % 2 ^ w
  if m < 2 ^ (w - 1) then (m : Int) else (m : Int) - (2 ^ w : Nat)

/-- The `w`-bit two's-complement form of an integer. -/
def twos (w : Nat) (i : Int) : Nat := (i % ((2 ^ w : Nat) : Int)).toNat

/-- An integer saturated to `w`-bit two's complement. -/
def satS (w : Nat) (i : Int) : Int :=
  let top : Int := ((2 ^ (w - 1) : Nat) : Int)
  if i < -top then -top else if top ≤ i then top - 1 else i

/-- An integer kept within [lo, hi]. -/
def clampI (lo hi i : Int) : Int := if i < lo then lo else if hi < i then hi else i

/-- The absolute value of an integer. -/
def iabs (i : Int) : Int := (i.natAbs : Int)

/-- A number that stops at 0xFFFF_FFFF. -/
def sat32 (n : Nat) : Nat := min n 0xFFFFFFFF

/-- `n` zero bytes. -/
def zeros (n : Nat) : Bytes := List.replicate n 0

/-- Bytes padded with zeros, or cut, to `n`. -/
def padTo (n : Nat) (bs : Bytes) : Bytes := (bs ++ zeros n).take n

/-- Whether every byte is zero. -/
def allZero (bs : Bytes) : Bool := bs.all (· == 0)

/-- A run of bytes with `new` written at offset `off`. -/
def patch (bs : Bytes) (off : Nat) (new : Bytes) : Bytes :=
  bs.take off ++ new ++ bs.drop (off + new.length)

/-- One bit step of the reflected CRC-32. -/
def crcBit : Nat → Nat → Nat
  | 0, c => c
  | k + 1, c => crcBit k (if c % 2 = 1 then (c / 2) ^^^ 0xEDB88320 else c / 2)

/-- CRC-32 (polynomial 0x04C1_1DB7, as IEEE 802.3) over a run of bytes (R466). -/
def crc32 (bs : Bytes) : Nat :=
  (bs.foldl (fun c b => crcBit 8 (c ^^^ b.toNat)) 0xFFFFFFFF) ^^^ 0xFFFFFFFF

/-- One bit step of the CRC-8 of the page map (R222): polynomial 0x07, most significant bit first. -/
def crc8Bit : Nat → Nat → Nat
  | 0, c => c
  | k + 1, c => crc8Bit k (if 128 ≤ c then ((2 * c) ^^^ 0x07) % 256 else 2 * c)

/-- CRC-8 over a run of bytes, initial value 0. -/
def crc8 (bs : Bytes) : Nat := bs.foldl (fun c b => crc8Bit 8 (c ^^^ b.toNat)) 0

/-- The entry of a table, if it has one. -/
def Tbl.find {α : Type} : Tbl α → Nat → Option α
  | [], _ => none
  | (j, a) :: t, k => if j = k then some a else Tbl.find t k

/-- The entry of a table, or the default. -/
def Tbl.getD {α : Type} (t : Tbl α) (k : Nat) (d : α) : α := (Tbl.find t k).getD d

/-- A table with the entry at `k` set, keys kept rising. -/
def Tbl.set {α : Type} : Tbl α → Nat → α → Tbl α
  | [], k, v => [(k, v)]
  | (j, a) :: t, k, v =>
    if k < j then (k, v) :: (j, a) :: t
    else if j = k then (k, v) :: t
    else (j, a) :: Tbl.set t k v

/-- A table without the entry at `k`. -/
def Tbl.erase {α : Type} (t : Tbl α) (k : Nat) : Tbl α := t.filter (fun e => e.1 != k)

/-- A table without the entries whose keys satisfy `p`. -/
def Tbl.drop {α : Type} (t : Tbl α) (p : Nat → Bool) : Tbl α := t.filter (fun e => !p e.1)

/-- Element `i` of a list, or the default. -/
def nth {α : Type} (l : List α) (i : Nat) (d : α) : α := (l[i]?).getD d

/-- A list with element `i` replaced, unchanged where it has no element `i`. -/
def setNth {α : Type} (l : List α) (i : Nat) (a : α) : List α := l.set i a

/-- Whether `n` is a member of a list of numbers. -/
def has (l : List Nat) (n : Nat) : Bool := l.contains n

/-- A list of numbers with `n` in it. -/
def addN (l : List Nat) (n : Nat) : List Nat := if has l n then l else l ++ [n]

/-- A list of numbers without `n`. -/
def remN (l : List Nat) (n : Nat) : List Nat := l.filter (fun x => x != n)

/-- The greatest member, or `d`. -/
def maxL (l : List Nat) (d : Nat) : Nat := l.foldl max d

/-- The mask with bit m set for each member m. -/
def maskOf (l : List Nat) : Nat := l.foldl (fun a m => a ||| 2 ^ m) 0

/-- The members of 0 … n−1 whose bit is set. -/
def bitsOf (n mask : Nat) : List Nat := (List.range n).filter (fun i => bitN mask i)

/-- The sum of a list. -/
def sumN (l : List Nat) : Nat := l.foldl (· + ·) 0

end Sys2Proof.Machine
end

