-- ==== Sys2Proof/Machine/State.lean ====
section
/-!
DEFINITION. The state of the module, as plain data, and its value right after power-up.
-/
namespace Sys2Proof.Machine

/-! ### Memories -/

/-- A byte memory in one canonical form: addresses strictly rising, no entry equal to what an unlisted address reads
as. `gen` counts how often its whole contents became undefined (R382, R383, R439). -/
structure Mem where
  gen : Nat := 0
  cells : List Host.Cell := []
  deriving DecidableEq, Repr

/-- What an unlisted address of a memory reads as: zero until the contents first become undefined (DESIGN CHOICE, log
entry 3), an unknown byte of that generation afterwards. -/
def Mem.unlisted (gen a : Nat) : Byte := if gen = 0 then 0 else Config.undefByte gen a

/-- The byte memories of the module (R36, R376, R377, R401). -/
structure Memories where
  /-- Host-port SRAM by window address: ring windows, mailbox area, host pond. -/
  sram : Mem := {}
  /-- Millponds by local address (R48). -/
  pond : Mem := {}
  /-- HBM by local address (R48). -/
  hbm : Mem := {}
  /-- Store pages by local address (R48). -/
  store : Mem := {}
  /-- HyperRAM of the governor lanes: lane × 64 MiB + offset (R2, R216). -/
  ram : Mem := {}
  deriving DecidableEq, Repr

/-! ### The ledger (R38–R42) -/

/-- The counts of one pool (R39). -/
structure Pool where
  size : Nat := 0
  held : Nat := 0
  inFlight : Nat := 0
  parked : Nat := 0
  returned : Nat := 0
  reclaimed : Nat := 0
  deriving DecidableEq, Repr

/-- The capture of LG_SNAP_CTRL (R42). -/
structure Snap where
  busy : Bool := false
  valid : Bool := false
  ignored : Bool := false
  pool : Nat := 0
  counts : Pool := {}
  deriving DecidableEq, Repr

/-- The ledger: 512 pools and its registers (R38–R42). -/
structure Ledger where
  pools : Tbl Pool := []
  /-- Pools in fault and not yet fault-reconciled (R41, R460). -/
  faulted : List Nat := []
  /-- LG_FAULT_POOL: the first faulted pool, while valid. -/
  faultPool : Option Nat := none
  recons : Nat := 0
  reclaimTotal : Nat := 0
  snap : Snap := {}
  /-- The pool that the accepted write of LG_SNAP_CTRL named. -/
  snapReq : Nat := 0
  deriving DecidableEq, Repr

/-! ### The event recorder (R465–R472) -/

/-- One 64-byte event record (R466). -/
structure Rec where
  seq : Nat
  opSeconds : Nat
  powerCycles : Nat
  timeNs : Nat
  channel : Nat
  status : Nat
  context : Nat
  flags : Nat
  source : Nat
  event : Nat
  detail : Bytes
  /-- The record's CRC fails (R466, R470). -/
  bad : Bool := false
  deriving DecidableEq, Repr

/-- One latch window: EV_RD_* or the EV_CTX_* registers of one context (R470). -/
structure Latch where
  busy : Bool := false
  status : Nat := 0
  data : Bytes := []
  deriving DecidableEq, Repr

/-- A clear of R472: bound and channel mask (channels 0–18 in bits [18:0], 60–63 in bits [22:19]). -/
structure Cleared where
  bound : Nat
  mask : Nat
  deriving DecidableEq, Repr

/-- A challenge issued under R471 or R485. -/
structure Challenge where
  purpose : Nat
  bytes : Bytes
  opSeconds : Nat
  powerCycles : Nat
  head : Nat
  deriving DecidableEq, Repr

/-- The event recorder. -/
structure Recorder where
  /-- The number the next record takes (R466: from 1). -/
  next : Nat := 1
  head : Nat := 0
  /-- Records in the non-volatile record buffer, oldest first. -/
  buffer : List Rec := []
  /-- The ring of the store partition, by record number. -/
  ring : Tbl Rec := []
  /-- The lowest number the ring can still hold is head − 1,048,575; `flushed` is the highest number written to it. -/
  flushed : Nat := 0
  /-- Live records that have not entered (R467). -/
  pendingLive : List Rec := []
  /-- Records counted and not taken, by channel (R467). -/
  coalesce : Tbl Nat := []
  cleared : List Cleared := []
  opSeconds : Nat := 0
  /-- Governor clock edges of the current second (R469). -/
  opEdges : Nat := 0
  /-- op_seconds as last saved in the non-volatile buffer (R469). -/
  opSaved : Nat := 0
  powerCycles : Nat := 0
  latches : Tbl Latch := []
  challenges : List Challenge := []
  /-- EV_RETRAIN and EV_PORT_DOWN (R463): the port retraining per group, ports left down, failures by port with the
  module time of each, ports that wait. -/
  retraining : Tbl Nat := []
  retrainWait : List Nat := []
  retrainFails : Tbl (List Nat) := []
  portDown : List Nat := []
  /-- Module time of the last stray-access record and the strays since it (R379). -/
  strayLast : Option Nat := none
  straySince : Nat := 0
  strayFirst : Nat := 0
  deriving DecidableEq, Repr

/-! ### The host port (R367–R401) -/

/-- An accepted request that has not completed (R385). -/
structure Request where
  /-- Context 0–63, or 64 for the mailbox. -/
  ctx : Nat
  idx : Nat
  target : Nat
  notify : Bool
  tag : Nat
  body : Bytes
  /-- A command of the table has begun it. -/
  begun : Bool := false
  /-- Result bytes of an ITEM written so far, the largest tag and the worst status of its blocks (R398). -/
  got : Nat := 0
  tagMax : Nat := 0
  worst : Nat := 0
  deriving DecidableEq, Repr

/-- A request that has completed and whose completion entry is not yet written (R390). -/
structure Done where
  req : Request
  status : Nat
  result : Nat
  /-- Further credits the completion returns: chunk credits of an EXPORT (R209). -/
  extra : Nat := 0
  time : Nat := 0
  deriving DecidableEq, Repr

/-- The state of a context ring (HP_CTX_STATUS.state). -/
inductive RingState where
  | disabled | run | error | draining
  deriving DecidableEq, Repr

/-- One submission and completion ring pair (R384–R394); number 64 is the mailbox (R401). -/
structure Ring where
  state : RingState := .disabled
  cause : Nat := 0
  /-- A RESET is draining: completions are not written (R394). -/
  resetting : Bool := false
  sqCons : Nat := 0
  announced : Nat := 0
  cqProd : Nat := 0
  cqAck : Nat := 0
  /-- Requests accepted whose completion is not written. -/
  outstanding : Nat := 0
  /-- Burst seals by window address of the burst (R385). -/
  sealed : List Nat := []
  /-- Requests accepted before a host-port reset, which run on without a completion (R382). -/
  orphans : Nat := 0
  deriving DecidableEq, Repr

/-- HP_STATUS.state (R380). -/
inductive HpState where
  | off | init | service
  deriving DecidableEq, Repr

/-- One frequency set point's trained settings (R369, HP_TRAIN): bits 0 command bus, 1 WCK2CK, 2 read DQ, 3 write FIFO, and
the data rate in MT/s. -/
structure Fsp where
  trained : Nat := 0
  rate : Nat := 0
  deriving DecidableEq, Repr

/-- The host port. -/
structure HostPort where
  state : HpState := .off
  /-- RESET_n is asserted (the line is low). -/
  resetN : Bool := true
  /-- HOST_ALERT_N is asserted outside the meaning of R399 (R381, R383). -/
  holdAlert : Bool := true
  /-- The holdoff after a release is running (R399). -/
  holdoff : Bool := false
  rings : Tbl Ring := []
  requests : List Request := []
  done : List Done := []
  cmdResult : Nat := 0
  /-- Mode registers (R368): key frequency set point × 1,024 + channel × 256 + register; set point 0 for those that have
  one copy. -/
  modeRegs : Tbl Nat := []
  /-- By frequency set point. -/
  fsps : Tbl Fsp := []
  /-- Write FIFO of write training, at most 8 bursts (R369). -/
  fifo : List Bytes := []
  /-- Power-down, self refresh or deep sleep (R437). -/
  lowPower : Bool := false
  /-- Bursts of host-port SRAM that hold an uncorrectable error (R375). -/
  bad : List Nat := []
  /-- What the last READ, register read or MRR returned. -/
  readData : List Word := []
  deriving DecidableEq, Repr

/-! ### Clocks, crossings, reset domains, supply, bring-up, temperature (chapters 16 and 19) -/

/-- PW_STATUS.supply (R444). -/
inductive Supply where
  | normal | dip | recovering | shutdown
  deriving DecidableEq, Repr

/-- An entry of the non-volatile supply log (R448): 1 dip, 2 shutdown, 5 clock failure as channel 61 codes them. -/
structure LogEntry where
  event : Nat
  minV : Nat
  below : Nat
  used : Nat
  left : Nat
  copied : Bool := false
  deriving DecidableEq, Repr

/-- PW_THERMAL.state and the motion shutdown row of R505. -/
inductive Thermal where
  | normal | throttling | fabricHeld
  deriving DecidableEq, Repr

/-- Supply, hold-up, power cap, bring-up and temperature (R443–R455, R505). -/
structure Power where
  /-- Motion rails are on. -/
  motionOn : Bool := false
  /-- Fabric rails are on. -/
  fabricOn : Bool := false
  supply : Supply := .normal
  /-- Input voltage in 10 mV units (PW_SUPPLY). -/
  inputV : Nat := 0
  /-- Input power, 1 ms average, 0.1 W units (PW_INPUT). -/
  inputP : Nat := 0
  onHoldup : Bool := false
  /-- Usable hold-up energy in mJ (PW_HOLDUP). -/
  holdup : Nat := 0
  holdupLow : Bool := false
  /-- Minimum input and the hold-up energy at the start of the dip in progress (R445). -/
  dipMin : Nat := 0xFFFF
  dipHoldup : Nat := 0
  /-- PW_DIP_LAST. -/
  lastDipMin : Nat := 0
  lastDipBelow : Nat := 0
  capUnmet : Bool := false
  /-- Throttle level of the FIELD power cap and of thermal throttling (R452, R505). -/
  capLevel : Nat := 0
  thermLevel : Nat := 0
  thermal : Thermal := .normal
  /-- The motion die has reached 115 °C and has not cooled below 95 °C (R505). -/
  motionHot : Bool := false
  fabricT : Int := 0
  motionT : Int := 0
  faceT : Int := 0
  /-- PW_BOOT: stage code of R453 (0 before MOTION_POWER), recovery, time to HOST_INIT. -/
  stage : Nat := 0
  recovery : Bool := false
  toHostMs : Nat := 0
  /-- Consecutive overruns of the current stage (R455). -/
  overruns : Nat := 0
  stuck : Bool := false
  /-- PW_RESET_CAUSE. -/
  cold : Bool := true
  wasShutdown : Bool := false
  wasClockFailure : Bool := false
  fabricResets : Nat := 0
  /-- PW_RESET_STATUS. -/
  resetBusy : Bool := false
  resetResult : Nat := 0
  resetDomain : Nat := 0
  /-- Non-volatile supply log, at most 64 entries, oldest first. -/
  log : List LogEntry := []
  /-- Stage codes that the service UART has sent a line for (R500); 16 + stage for an overrun line. -/
  uart : List Nat := []
  /-- The fabric is paused (R445, R109). -/
  fabricPaused : Bool := false
  /-- Module time at which the pause began. -/
  pausedAt : Nat := 0
  /-- A clock failure stopped the module (R434); the reference is absent. -/
  clockFailed : Bool := false
  refAbsent : Bool := false
  deriving DecidableEq, Repr

/-- Clocks, crossings and reset domains (R433–R441). -/
structure Clocks where
  tcxoOk : Bool := false
  motionLock : Bool := false
  fabricLock : Bool := false
  /-- HBM stacks whose PLL is locked. -/
  hbmLock : List Nat := []
  /-- Timing ports whose SerDes PLL has failed its check. -/
  serdesBad : List Nat := []
  /-- Crossings in service mode; every other crossing is in handshake mode (R435, R454). -/
  service : List Nat := []
  /-- Domain codes held in reset (R440). -/
  held : List Nat := []
  /-- CK_CDC_LAST. -/
  cdcLast : Option (Nat × Nat) := none
  deriving DecidableEq, Repr

/-! ### Security, OTP and firmware (chapter 18) -/

/-- One generation of an OTP group (R477). -/
structure OtpGen where
  consumed : Bool := false
  marker : Bool := false
  crcOk : Bool := true
  data : Bytes := []
  deriving DecidableEq, Repr

/-- One OTP group: its four generations and the copy in force (R476, R478, R480). -/
structure OtpGroup where
  gens : Tbl OtpGen := []
  /-- The current generation read at start-up or written since, 0 for blank. -/
  current : Nat := 0
  /-- The data in effect. -/
  shadow : Bytes := []
  pending : Bool := false
  checkFail : Bool := false
  deriving DecidableEq, Repr

/-- An OTP write that waits or runs (R477, R478). -/
structure OtpJob where
  group : Nat
  data : Bytes
  /-- The mailbox request to complete, or none for MT_CMD COMMIT. -/
  req : Option Nat
  deriving DecidableEq, Repr

/-- One firmware class (R486, R487). -/
structure FwClass where
  build : Nat := 0
  epoch : Nat := 0
  digest : Bytes := []
  valid : Bool := true
  deriving DecidableEq, Repr

/-- Phase of FW_UPDATE (SC_FW_UPDATE.phase). -/
inductive FwPhase where
  | idle | stage | apply | commit
  deriving DecidableEq, Repr

/-- The firmware update in progress (R488). -/
structure FwUpdate where
  phase : FwPhase := .idle
  cls : Nat := 0
  unit : Nat := 0
  done : List Nat := []
  rollback : Bool := false
  staged : Bool := false
  build : Nat := 0
  epoch : Nat := 0
  voteCompat : Bool := false
  image : Bytes := []
  length : Nat := 0
  voteAll : Bool := false
  digest : Bytes := []
  /-- The unit's turn has been repeated once (R490). -/
  repeated : Bool := false
  skipped : List Nat := []
  req : Option Nat := none
  deriving DecidableEq, Repr

/-- Security, OTP and firmware state. -/
structure Security where
  groups : Tbl OtpGroup := []
  otpQueue : List OtpJob := []
  otpRunning : Bool := false
  classes : Tbl FwClass := []
  /-- Running build of each unit: class × 32 + unit. -/
  running : Tbl Nat := []
  update : FwUpdate := {}
  debugOpen : Bool := false
  deriving DecidableEq, Repr

/-! ### Mills and the leat (chapter 3) -/

/-- ML_STATE.state (R109). -/
inductive MillState where
  | empty | loading | run | paused | closed | fault | evacuated
  deriving DecidableEq, Repr

/-- A parcel (R93). -/
structure Parcel where
  /-- Destination byte: endpoint in [4:0], queue in [7:5]. -/
  dest : Nat
  cls : Nat
  ctx : Nat
  priv : Bool := false
  last : Bool := false
  stage : Nat := 0
  mill : Nat := 0
  blocks : Nat := 1
  format : Nat := 0
  /-- Bytes 8–15: the item sequence number and the offset within the item, in blocks (log entry 50). -/
  seq : Nat := 0
  off : Nat := 0
  tags : List Nat := []
  status : List Nat := []
  payload : Bytes := []
  /-- The weir the parcel enters by, which names its producer for its credit (R94). -/
  weir : Nat := 0
  /-- The ingress stream the parcel carries a frame of, plus 1; 0 for none. -/
  origin : Nat := 0
  deriving DecidableEq, Repr

/-- A parcel in a tailrace output stage, with the destinations still to be admitted (R89, R102). -/
structure TailSlot where
  stage : Nat
  parcel : Parcel
  /-- Destination bytes with class and weir row of the routes of the stage. -/
  dests : List (Nat × Nat × Nat)
  /-- Every destination's credit has been taken. -/
  credited : Bool := false
  /-- The parcel is the first of its item. -/
  first : Bool := true
  deriving DecidableEq, Repr

/-- A section of a millplan: table entry fields and its bytes (R112, R114). -/
structure Section where
  typ : Nat
  target : Nat
  flags : Nat := 0
  digest : Bytes := []
  bytes : Bytes
  /-- plan_generation of the millplan that brought it (R129). -/
  gen : Nat := 0
  deriving DecidableEq, Repr

/-- One mill (R82–R92, R109). -/
structure Mill where
  state : MillState := .empty
  drained : Bool := false
  ledgerStop : Bool := false
  watchdog : Bool := false
  uncorrectable : Bool := false
  faultPool : Nat := 0
  heartbeat : Nat := 0
  coreRunning : Bool := false
  sec : Option Section := none
  /-- The section comes from the FALLBACK section of this failed mill (MP_MILL_SECTION). -/
  fallbackFor : Option Nat := none
  /-- Parcels in each hopper queue, oldest first (R87). -/
  hopper : Tbl (List Parcel) := []
  /-- Parcels read by a stage whose slot is not yet freed, by queue. -/
  reading : Tbl (List Parcel) := []
  /-- The tailrace output stages (R89). -/
  tail : List TailSlot := []
  /-- Parcels on in-mill loopback (R92). -/
  loop : List Parcel := []
  /-- Stages stopped under R41 or R144, until the section is written again. -/
  stopped : List Nat := []
  /-- Stages that have begun an item and not ended it. -/
  items : List Nat := []
  /-- Stages whose item has left the tailrace in part (R132). -/
  emitting : List Nat := []
  /-- Draws since the last reseed, and whether SR is degraded to RNE (R65). -/
  srDraws : Nat := 0
  srDegraded : Bool := false
  /-- MILL_TEST passed since the mill last entered FAULT (R145, R464). -/
  tested : Bool := false
  /-- A MILL_TEST runs. -/
  testing : Bool := false
  /-- Pages of its section that a reload has released already (R136). -/
  freed : Nat := 0
  deriving DecidableEq, Repr

/-- The leat and the weirs (R96–R105). -/
structure Leat where
  /-- Router input buffers: key router × 64 + input × 4 + class (R98). -/
  bufs : Tbl (List Parcel) := []
  /-- Parcels on the link to their destination, by destination byte. -/
  arrived : Tbl (List Parcel) := []
  /-- Parcels that wait at an edge weir for a token, by weir (R102). -/
  waiting : Tbl (List Parcel) := []
  /-- L cycles since the last S cycle at an output: key router × 8 + output (R99). -/
  sCount : Tbl Nat := []
  /-- Credits held by a producer: key pool × 64 + weir (R94). -/
  credits : Tbl Nat := []
  /-- Credits on the sideband to a producer. -/
  returning : Tbl Nat := []
  /-- Credits parked for a producer (R132). -/
  parked : Tbl Nat := []
  /-- Weir rows, key weir × 64 + row, as WR_ROW holds them. -/
  rows : Tbl Nat := []
  /-- Row tokens in 1/1,024 parcel. -/
  tokens : Tbl Nat := []
  /-- Weirs that have stopped admitting, and edge weirs that admit no new item (R137, R141). -/
  shut : List Nat := []
  closing : List Nat := []
  /-- Streams, as stream + 1, whose bindings are about to change: what they have admitted still passes (R137). -/
  leaving : List Nat := []
  mFloor : Nat := 0
  vFloor : Nat := 0
  msCap : Nat := 0
  /-- LT_M_BOUND_MAX: largest D and its weir. -/
  boundMax : Nat := 0
  boundWeir : Nat := 0
  deriving DecidableEq, Repr

/-! ### The millplan loader (chapter 4) -/

/-- A verified millplan (R110–R112). -/
structure Plan where
  planId : Nat := 0
  gen : Nat := 0
  replacement : Bool := false
  minFw : Nat := 0
  signer : Bytes := []
  sections : List Section := []
  deriving DecidableEq, Repr

/-- MP_STATUS.state. -/
inductive LoaderState where
  | idle | copying | verifying | preloading | swapping | loading | unloading | evacuating | restoring
  deriving DecidableEq, Repr

/-- The millplan loader. -/
structure Loader where
  state : LoaderState := .idle
  ignored : Bool := false
  result : Nat := 0
  cause : Nat := 0
  status : Nat := 0
  failSection : Nat := 0
  loaded : Option Plan := none
  staged : Option Plan := none
  /-- The staged replacement is a reload (R131). -/
  reload : Bool := false
  ready : Bool := false
  preloadDone : Nat := 0
  preloadTotal : Nat := 0
  /-- Parcels of the preload lists in progress that have passed weir 16 (R130). -/
  passed : Nat := 0
  /-- Length of the image being copied or verified. -/
  srcOffset : Nat := 0
  srcLength : Nat := 0
  /-- Step of the swap, reload, evacuation or restore in progress, its start time and its mill. -/
  step : Nat := 0
  started : Nat := 0
  mill : Nat := 0
  /-- A queued EVACUATE (R138). -/
  queued : Option Nat := none
  /-- MP_LAST_SWAP. -/
  lastUs : Nat := 0
  lastKind : Nat := 0
  /-- The affected set that is in force in place of primary sections, and its failed mill (R141). -/
  placed : List Section := []
  placedFor : Option Nat := none
  /-- Mills whose pipelines are stopped under R144. -/
  stopped : List Nat := []
  /-- Millpond pages charged, by context, for the preload lists of the staged section or of the command in progress. -/
  charged : Tbl Nat := []
  loads : Nat := 0
  /-- Items abandoned by the evacuation in progress (R142), their numbers, and the mills that were reset with them (R189, R212). -/
  abandoned : Nat := 0
  lostItems : List Nat := []
  lostMills : List Nat := []
  deriving DecidableEq, Repr

/-! ### Image operators, attention and streams (chapters 5–7) -/

/-- ML_STRIPE_POS_s: frame and stripe of a striped stage (R153, R155). -/
structure StripePos where
  frame : Nat := 0
  stripe : Nat := 0
  /-- A stripe is in progress. -/
  active : Bool := false
  /-- A producer has started the frame in a free buffer (R155). -/
  frameOpen : Bool := false
  deriving DecidableEq, Repr

/-- A frame buffer of a striped tensor: the frame it holds and its write watermark (R155). -/
structure FrameBuf where
  frame : Nat := 0
  rows : Nat := 0
  /-- Rows marked NOT_CERTIFIED by an evacuation (R159): from this row on. -/
  uncertFrom : Option Nat := none
  deriving DecidableEq, Repr

/-- A sequence descriptor (R172). -/
structure SeqDesc where
  seqId : Nat := 0
  layer : Nat := 0
  ctx : Nat := 0
  ring : Bool := false
  kvHeads : Nat := 0
  dimCode : Nat := 0
  format : Nat := 0
  maxTokens : Nat := 0
  window : Nat := 0
  slots : Nat := 0
  committed : Nat := 0
  /-- Positions written on this module, in position order (R174, R186). -/
  written : Nat := 0
  pagesPerRing : Nat := 0
  pageList : Nat := 0
  pagesHeld : Nat := 0
  isOpen : Bool := false
  closing : Bool := false
  /-- Page-list pages charged with the sequence (R176). -/
  listPages : Nat := 0
  deriving DecidableEq, Repr

/-- A QK_SCORE or PV_VALUE read, by the place of its descriptor: one that waits for committed (R174), or one in
progress (R175, R177). -/
structure KvWait where
  mill : Nat
  stage : Nat
  slot : Nat
  pos : Nat
  deriving DecidableEq, Repr

/-- A prefill item that waits for its batch (R180). -/
structure PrefillItem where
  ctx : Nat
  idx : Nat
  len : Nat
  since : Nat
  deriving DecidableEq, Repr

/-- What a split's softmax leaves for its partial (R182): the stage's mill, the step, the query head, the FP32 codes of m, l and β, and
n. -/
structure Side where
  mill : Nat
  step : Nat
  head : Nat
  m : Nat
  l : Nat
  beta : Nat
  n : Nat
  deriving DecidableEq, Repr

/-- One split's partial (R182): the elements are FP32 codes. -/
structure Partial where
  o : List Nat
  m : Nat
  l : Nat
  beta : Nat
  n : Nat
  tags : List Nat
  status : Nat
  deriving DecidableEq, Repr

/-- The partials of one step and query head that have arrived (R183). -/
structure Merge where
  mill : Nat
  stage : Nat
  step : Nat
  head : Nat
  partials : List Partial
  deriving DecidableEq, Repr

/-- Image operators and attention. -/
structure Ops where
  /-- By mill × 8 + stage. -/
  stripes : Tbl StripePos := []
  /-- By local HBM address of the buffer. -/
  bufs : Tbl FrameBuf := []
  /-- Frames that ingress has delivered into a tensor, by stream, and the streams that have started the next (R156). -/
  inFrames : Tbl Nat := []
  inOpen : List Nat := []
  /-- By the local HBM address of the descriptor. -/
  seqs : Tbl SeqDesc := []
  waits : List KvWait := []
  reads : List KvWait := []
  /-- The stages, mill × 8 + stage, that have yet to finish their reads of a sequence's last step (R175). -/
  readers : Tbl (List Nat) := []
  /-- By mill × 8 + bucket. -/
  prefill : Tbl (List PrefillItem) := []
  sides : List Side := []
  merges : List Merge := []
  deriving DecidableEq, Repr

/-- MP_STREAM_n.state (R203). -/
inductive StreamState where
  | free | active | paused | exporting | importing | stopped
  deriving DecidableEq, Repr

/-- A chunk (R195). -/
structure Chunk where
  gen : Nat
  seq : Nat := 0
  steps : Nat
  marks : List Nat := []
  endAfter : Bool := false
  data : Bytes := []
  /-- The slot of the chunk queue that holds it (R196). -/
  slot : Nat := 0
  /-- The CHUNK request to complete, context and index. -/
  req : Option (Nat × Nat) := none
  deriving DecidableEq, Repr

/-- A started chunk and the layer that runs it next, or runs it (R197). -/
structure ChunkRun where
  chunk : Chunk
  layer : Nat
  /-- The layer has started it and not yet emitted all of it. -/
  running : Bool
  /-- Steps that the layer has run. -/
  steps : Nat := 0
  deriving DecidableEq, Repr

/-- A stream command that waits for the chunk boundary (R205, R209). -/
structure StreamWait where
  ctx : Nat
  idx : Nat
  isExport : Bool
  keep : Bool := false
  address : Nat := 0
  length : Nat := 0
  prior : StreamState := .active
  /-- Pages of a package that go to, or come from, another module; 0 where none have been asked for. -/
  remotePages : Nat := 0
  deriving DecidableEq, Repr

/-- One stream slot (R203–R213). -/
structure Stream where
  state : StreamState := .free
  gen : Nat := 0
  ctx : Nat := 0
  /-- Layers whose state is not certified (R200). -/
  bad : List Nat := []
  keep : Bool := false
  queue : List Chunk := []
  started : List ChunkRun := []
  /-- Generation of the state that each layer's slot in its millpond holds (R198, R206). -/
  layers : Tbl Nat := []
  nextSeq : Nat := 0
  stepsDone : Nat := 0
  /-- The newest generation that was reached with zero state, through START or RESET (R206). -/
  fresh : Nat := 0
  wait : Option StreamWait := none
  /-- END, or a chunk with end_after that has started: the stream ends at its boundary (R205). -/
  ending : Bool := false
  deriving DecidableEq, Repr

/-! ### Memory tiers (chapter 8) -/

/-- What HBM pages are held for (R224). -/
inductive PageKind where
  | region | alloc | cache | chunk | pageList
  deriving DecidableEq, Repr

/-- A run of allocatable HBM pages held by a context; page 0 is at 0x0100_0000_0000. -/
structure HbmRun where
  first : Nat
  pages : Nat
  ctx : Nat
  kind : PageKind
  deriving DecidableEq, Repr

/-- The state of a store page (R222). -/
inductive StoreState where
  | free | zero | data | lost
  deriving DecidableEq, Repr

/-- A page map entry (R222). -/
structure MapEntry where
  state : StoreState := .free
  ctx : Nat := 0
  busy : Bool := false
  slot : Nat := 0
  deriving DecidableEq, Repr

/-- A sack-hoist channel (R228, MT_CH_n). -/
structure Chan where
  busy : Bool := false
  /-- The next page has not begun, since the fabric is paused (R239). -/
  held : Bool := false
  waiting : Bool := false
  ctx : Nat := 0
  firmware : Bool := false
  cls : Nat := 0
  /-- The request, for channels 4–31. -/
  idx : Nat := 0
  src : Nat := 0
  dst : Nat := 0
  unit : Nat := 65536
  total : Nat := 0
  next : Nat := 0
  moved : Nat := 0
  /-- Parcels of the page in progress that have passed weir 16 (R229). -/
  passed : Nat := 0
  /-- Module time at the admission of the page's first parcel; time in PAUSED is added to it (R236). -/
  start : Nat := 0
  firstBad : Option Nat := none
  worst : Nat := 0
  deriving DecidableEq, Repr

/-- A tier request in progress (R235). -/
structure TierReq where
  mill : Nat
  stage : Nat
  id : Nat
  cls : Nat
  write : Bool
  ctx : Nat
  hbm : Nat
  pond : Nat
  len : Nat
  /-- The peer module for a remote page (R50), with the Phirov port. -/
  remote : Option Nat := none
  /-- Module time at its start; time in PAUSED is added to it (R236). -/
  start : Nat := 0
  deriving DecidableEq, Repr

/-- A repair entry (R481). -/
structure Repair where
  kind : Nat
  station : Nat := 0
  channel : Nat := 0
  bank : Nat := 0
  row : Nat := 0
  spare : Nat := 0
  mill : Nat := 0
  deriving DecidableEq, Repr

/-- A soft repair of an HBM row in progress (R240). -/
structure RowRepair where
  station : Nat
  channel : Nat
  bank : Nat
  row : Nat
  spare : Nat
  deriving DecidableEq, Repr

/-- The completion token of a tier request, until its stage takes it: status, and the tag of a collective (R235, R419). -/
structure TierResult where
  mill : Nat
  stage : Nat
  id : Nat
  status : Nat
  tag : Nat
  /-- What the request read or wrote: HBM address, millpond address and length. -/
  hbm : Nat := 0
  pond : Nat := 0
  len : Nat := 0
  deriving DecidableEq, Repr

/-- Memory tiers and the sack hoist. -/
structure Tiers where
  mapReady : Bool := false
  hbmReady : Bool := false
  storeReady : Bool := false
  runs : List HbmRun := []
  map : Tbl MapEntry := []
  /-- Poison of HBM lines: the default of every allocatable line and the lines that differ (R220, R439). -/
  poisonAll : Bool := false
  poisonFlip : List Nat := []
  chans : Tbl Chan := []
  reqs : List TierReq := []
  results : List TierResult := []
  /-- Millpond ranges whose read ended with a status other than OK and that no later read has filled: address, length and status
  (R178, R235). -/
  badReads : List (Nat × Nat × Nat) := []
  /-- The store pages whose map entries the cache holds (R222). -/
  mapCache : List Nat := []
  /-- TIER commands of R230 accepted and waiting for a channel, (context, index), in ring order. -/
  waiting : List (Nat × Nat) := []
  /-- The context that took a channel last (R228). -/
  lastCtx : Nat := 63
  repairs : List Repair := []
  committed : List Repair := []
  rowRepair : Option RowRepair := none
  lastStation : Nat := 0
  retired : List Nat := []
  /-- MT_CMD_STATUS, and a COMMIT that waits for its OTP write. -/
  cmdBusy : Bool := false
  cmdResult : Nat := 0
  deriving DecidableEq, Repr

/-! ### Bolters (chapter 9) -/

/-- A queued batch: its record's header fields (R252) and its BATCH entry (R254). -/
structure Batch where
  ctx : Nat
  /-- Submission index; firmware batches have none. -/
  idx : Option Nat
  addr : Nat
  resultAddr : Nat
  candidates : Nat
  waypoints : Nat
  urgent : Bool
  toGov : Bool
  batchId : Nat
  planStart : Nat
  deadline : Nat
  /-- A repair batch of the planner firmware (R265). -/
  repair : Bool := false
  deriving DecidableEq, Repr

/-- A pyramid as the frame buffer it was built from (R247): level-k cells are maxima over its cells. -/
structure Pyramid where
  epoch : Nat
  /-- T_e in ns (R246). -/
  te : Int
  /-- Origin x, y, z as FP32 codes. -/
  origin : List Nat
  base : Nat
  grid : Mem
  /-- Offsets in the buffer whose reads ended TIER_LATE or TIER_FAIL: [lo, hi) (R266). -/
  failed : List (Nat × Nat)
  deriving DecidableEq, Repr

/-- A checked candidate that selection keeps (R258). -/
structure Cand where
  index : Nat
  /-- FP32 code of the cost. -/
  cost : Nat
  firstHit : Nat
  hit : Bool
  horizon : Bool
  deriving DecidableEq, Repr

/-- The result of the batch in progress (R258, R259). -/
structure Result where
  batch : Batch
  status : Nat
  timeout : Bool
  rechecked : Bool
  stale : Bool
  lost : Bool
  /-- Retained valid candidates in cost order; the first is the winner. -/
  kept : List Cand
  colliding : Option Cand
  epoch : Nat
  te : Int
  checked : Nat
  valid : Nat
  elapsedUs : Nat
  /-- Parcels admitted so far (R261: from the first on, the result is fixed). -/
  sent : Nat := 0
  deriving DecidableEq, Repr

/-- BL_STATUS.state. -/
inductive BolterState where
  | idle | checking | rechecking | waiting
  deriving DecidableEq, Repr

/-- One bolter. -/
structure Bolter where
  state : BolterState := .idle
  /-- The BOLTER section in force (R267). -/
  sec : Option Section := none
  building : Option Pyramid := none
  buildStart : Nat := 0
  pendingPyr : Option Pyramid := none
  /-- A publication that waits for the pending pyramid (R249): frame, and the timestamp of the sensor frame. -/
  heldFrame : Option (Nat × Int) := none
  /-- Frames of the grid that the bolter has finished with (R155, R247). -/
  frame : Nat := 0
  active : Option Pyramid := none
  /-- The active pyramid was discarded for an error or a replacement (R266). -/
  gridLost : Bool := false
  queue : List Batch := []
  cur : Option Batch := none
  curStart : Nat := 0
  result : Option Result := none
  /-- Parcels of watch notices that wait to be emitted. -/
  notices : List Parcel := []
  /-- The active plan's record (R264). -/
  plan : Option Bytes := none
  blocked : Bool := false
  /-- Stopped under R41 until its section is written again. -/
  stopped : Bool := false
  watchHit : Nat := 0
  watchEpoch : Nat := 0
  /-- The waypoint signalled to the planner firmware (R264, R265). -/
  signal : Option Nat := none
  /-- The last repair answer was not OK: the next batch may replace every waypoint (R265). -/
  fullReplan : Bool := false
  buildUs : Nat := 0
  lastUs : Nat := 0
  deriving DecidableEq, Repr

/-! ### Governor, fusion, solver (chapters 10–12) -/

/-- GV_LANE.state (R294). -/
inductive LaneState where
  | inService | isolated | reloading | shadow | out
  deriving DecidableEq, Repr

/-- One governor lane. -/
structure Lane where
  state : LaneState := .inService
  cause : Nat := 0
  /-- Module times of its isolations (R297). -/
  isolations : List Nat := []
  /-- Cycles in SHADOW without a minority result. -/
  shadow : Nat := 0
  /-- The copy is complete; SHADOW follows at the next cycle boundary. -/
  copied : Bool := false
  /-- Module time in ns at which the copy started (R295). -/
  copyStart : Nat := 0
  deriving DecidableEq, Repr

/-- The brake wheel's states (R289). -/
inductive Wheel where
  | standby | run | brake | hold | sto
  deriving DecidableEq, Repr

/-- The brake wheel: its state and causes as GV_BRAKE_WHEEL shows them. -/
structure BrakeWheel where
  state : Wheel := .standby
  supply : Bool := false
  /-- HOLD causes 0 plan, 1 mpc, 2 queue, 3 single_lane, 4 host, 5 fusion. -/
  hold : List Nat := []
  /-- STO causes 0 supply_reset, 1 majority, 2 single_lane, 3 host. -/
  sto : List Nat := []
  capConflict : Bool := false
  capQueue : Bool := false
  /-- supply_reset has occurred since power-up (R293). -/
  everReset : Bool := false
  deriving DecidableEq, Repr

/-- A set-point record (R277): Q15 integers by joint. -/
structure SetPoint where
  cycle : Nat := 0
  status : Nat := 0
  gainMode : Nat := 0
  qRef : List Int := []
  qdRef : List Int := []
  tauFf : List Int := []
  gainShift : List Nat := []
  gains : List (List Int) := []
  deriving DecidableEq, Repr

/-- GV_JOINT_j at the last tick. -/
structure Joint where
  command : Int := 0
  /-- The level-1 output that level 2 limits until level 1 runs again (R276). -/
  level1 : Int := 0
  clamps : Nat := 0
  saturated : Bool := false
  deriving DecidableEq, Repr

/-- A governor-interface queue (R286). -/
structure GovQueue where
  sec : Option Section := none
  /-- Parcels in its slots. -/
  slots : List Parcel := []
  /-- The record in use, as the converted integers n of its elements. -/
  applied : List Int := []
  inUse : Bool := false
  missing : Bool := false
  missCount : Nat := 0
  dropped : Bool := false
  /-- Ticks since the last period began. -/
  phase : Nat := 0
  /-- A record has been applied in the current period. -/
  fresh : Bool := false
  /-- The miss_action acts (R286). -/
  acting : Bool := false
  /-- The sluice of the queue is closed for a replacement (R137). -/
  closed : Bool := false
  deriving DecidableEq, Repr

/-- The current plan (R288). -/
structure CurPlan where
  bolter : Nat
  epoch : Nat
  planStart : Nat
  lastNs : Nat
  record : Bytes
  deriving DecidableEq, Repr

/-- The governor. -/
structure Gov where
  lanes : Tbl Lane := []
  wheel : BrakeWheel := {}
  /-- The GOVERNOR section in force, and one that takes effect at the next cycle boundary. -/
  sec : Option Section := none
  nextSec : Option Section := none
  cmdIgnored : Bool := false
  mpcOk : Bool := false
  cycle : Nat := 0
  tick : Nat := 0
  /-- The point before had no majority (R274). -/
  noMajority : Bool := false
  joints : Tbl Joint := []
  latch : List Int := []
  /-- Set-point that drives the current cycle, the one voted for the next, the three fallback set-points. -/
  setPoint : Option SetPoint := none
  nextSet : Option SetPoint := none
  fallbacks : List SetPoint := []
  fallbackStep : Nat := 0
  failRun : Nat := 0
  okRun : Nat := 0
  /-- V3 of the current cycle has been held. -/
  v3Done : Bool := false
  /-- The level-0 solve takes the hold target (R291). -/
  holdTarget : Bool := false
  /-- The last certified τ_ff, and as it stood at the last cycle boundary (R291). -/
  lastTau : List Int := []
  frozenTau : List Int := []
  /-- The record voted last (R272, R277). -/
  lastSet : Option SetPoint := none
  /-- A plan record complete at the queue and not yet taken at a boundary. -/
  newPlan : Option CurPlan := none
  plan : Option CurPlan := none
  queues : Tbl GovQueue := []
  /-- Bytes 0x000–0x11F of the frame voted last, as words (R272, R428). -/
  votedFrame : List Nat := []
  /-- Inputs of the tick have been fixed (R269). -/
  windowClosed : Bool := false
  /-- Module time at which one lane was left in service (R298). -/
  singleSince : Option Nat := none
  /-- Fused-state record voted last, as 128 words (R322). -/
  fused : List Nat := []
  /-- The record the fusion units computed at this tick. -/
  tickFused : List Nat := []
  imageBytes : Nat := 0
  /-- Ticks since each return route last emitted, by route. -/
  returns : Tbl Nat := []
  /-- STO frames sent and consecutive ticks in which every enabled node reported sto_active (R447). -/
  stoFrames : Nat := 0
  stoActive : Nat := 0
  deriving DecidableEq, Repr

/-- A sample of a source: corrected instant and components. -/
structure Sample where
  t : Int
  v : List Int
  deriving DecidableEq, Repr

/-- Tracking of a stream (R306, R307). -/
inductive TrackState where
  | unbound | acquire | locked | desync
  deriving DecidableEq, Repr

/-- One sensor stream as the fusion unit tracks it. -/
structure Track where
  state : TrackState := .unbound
  offset : Int := 0
  good : Nat := 0
  /-- Offsets of the good run, newest first. -/
  run : List Int := []
  outliers : Nat := 0
  late : Bool := false
  /-- Frame numbers and corrected instants of the last 64 frames (R303). -/
  frames : List (Nat × Int) := []
  deriving DecidableEq, Repr

/-- A frame accepted for fusion: stream, source time, port time, frame number, payload. -/
structure FuFrame where
  stream : Nat
  src : Int
  port : Int
  number : Nat
  payload : Bytes
  /-- ts_valid of its stamp (R366). -/
  tsOk : Bool
  deriving DecidableEq, Repr

/-- A consistency gate (R318, R319). -/
structure Gate where
  fails : Nat := 0
  passes : Nat := 0
  failed : Bool := false
  excluded : List Nat := []
  /-- Unresolved, since this module time in ns. -/
  since : Option Int := none
  deriving DecidableEq, Repr

/-- The fusion unit's state (R316–R322). -/
structure Fusion where
  tracks : Tbl Track := []
  /-- Samples of each source, newest first, at most 8 (R310). -/
  samples : Tbl (List Sample) := []
  gates : Tbl Gate := []
  /-- Frames accepted since the previous window closed, in arrival order. -/
  inbox : List FuFrame := []
  /-- Joint samples by drive node: q and qd (R312). -/
  drives : Tbl (List Sample) := []
  pos : List Int := [0, 0, 0]
  vel : List Int := [0, 0, 0]
  att : List Int := [1073741824, 0, 0, 0]
  rate : List Int := [0, 0, 0]
  acc : List Int := [0, 0, 0]
  contacts : Nat := 0
  /-- The instant the state has been propagated to, once there is one. -/
  instant : Option Int := none
  /-- Code of FU_STATUS.ego (R315): 0 primary, 1 standby, 3 none. -/
  ego : Nat := 0
  usable : Bool := false
  conflictMs : Nat := 0
  /-- Masks of the record: sources used, gates unresolved and gates that exclude; some used source was extrapolated. -/
  usedMask : Nat := 0
  gateMask : Nat := 0
  extrapolated : Bool := false
  deriving DecidableEq, Repr

/-- Iterates of one stage (R334), as S32 mantissas: w at x_w, z and v at x_c, y and λ at x_y. -/
structure Iter where
  w : List Int
  z : List Int
  y : List Int
  l : List Int
  deriving DecidableEq, Repr

/-- The solver. -/
structure Solver where
  stages : List QpStage := []
  iters : List Iter := []
  shared : List Int := []
  /-- SV_LAST. -/
  status : Nat := 0
  pivot : Bool := false
  saturated : Bool := false
  residual : Bool := false
  cold : Bool := false
  stage : Nat := 0
  row : Nat := 0
  ratio : Nat := 0
  digest : Nat := 0
  warmDigest : Nat := 0
  /-- The voted warm start: iterates, shared values, digest (R338). -/
  warm : Option (List Iter × List Int × Nat) := none
  timing : Nat := 0
  /-- Measurement slots of the cycle: (n, e) by slot (R330). -/
  slots : Tbl (Int × Int) := []
  deriving DecidableEq, Repr

/-! ### Module time, the fantail and scheduled launch (chapter 13) -/

/-- The fantail's states (R354). -/
inductive Fantail where
  | freeRun | acquiring | locked | holdover
  deriving DecidableEq, Repr

/-- The grandmaster that an Announce names, in the order the BMCA compares (R349): priority1, clockClass, clockAccuracy,
variance, priority2, identity, steps removed; and its timeSource. -/
structure Ann where
  p1 : Nat
  cls : Nat
  acc : Nat
  var : Nat
  p2 : Nat
  id : Nat
  steps : Nat
  src : Nat
  deriving DecidableEq, Repr

/-- One timing port: TM_PORT_STATE_p and what its exchanges gave. -/
structure TimePort where
  asCapable : Bool := false
  linkUp : Bool := false
  /-- ts_valid: the replica is aligned (R366). -/
  aligned : Bool := false
  /-- Mean link delay D in 2^−16 ns (R353). -/
  delay : Int := 0
  /-- A Pdelay request is out and not answered (R353). -/
  pdelayOut : Bool := false
  /-- What the last Announce received on the port told, while it is current. -/
  ann : Option Ann := none
  deriving DecidableEq, Repr

/-- The last Sync received on the slave port (R352): preciseOriginTimestamp in ns, correctionField and receipt stamp in
2^−16 ns. -/
structure SyncIn where
  origin : Nat
  correction : Int
  rx : Int
  deriving DecidableEq, Repr

/-- A PTP message that a port has sent: kind 0 Sync, 1 Announce, 2 Pdelay request; origin in ns, correction in 2^−16 ns,
and the Announce fields (identity, quality word, timeSource, UTC offset word). -/
structure PtpOut where
  kind : Nat
  origin : Nat := 0
  correction : Int := 0
  stamp : Int := 0
  identity : Nat := 0
  quality : Nat := 0
  timeSource : Nat := 0
  utc : Nat := 0
  deriving DecidableEq, Repr

/-- The time base and the fantail. A time copy counts fifths of 2^−40 ns, so that 3.2 ns × (1 + f) is a whole number
of units (R344; log entry 12). -/
structure TimeBase where
  running : Bool := false
  copies : List Nat := [0, 0, 0]
  /-- f and f_int in units of 2^−40. -/
  f : Int := 0
  fInt : Int := 0
  fantail : Fantail := .freeRun
  gmSelf : Bool := false
  slave : Option Nat := none
  slewing : Bool := false
  far : Bool := false
  expired : Bool := false
  cmdIgnored : Bool := false
  /-- A reference has been held since power-up (R354). -/
  everRef : Bool := false
  /-- Last θ in 2^−16 ns. -/
  theta : Int := 0
  /-- Stamp of the update before, in 2^−16 ns. -/
  lastStamp : Option Int := none
  /-- f_int after the last updates, newest first, at most 16 (R358). -/
  rates : List Int := []
  lockRun : Nat := 0
  unlockRun : Nat := 0
  /-- The next update is the first of ACQUIRING (R356). -/
  first : Bool := false
  /-- Module time in ns at which HOLDOVER was entered. -/
  holdSince : Nat := 0
  gmId : Nat := 0
  /-- Consecutive valid Syncs or 1PPS edges toward qualification. -/
  qual : Nat := 0
  /-- A step by this many 2^−16 ns, or a SET, that waits for the cycle boundary (R357). -/
  stepBy : Option Int := none
  setWait : Bool := false
  phase : Nat := 0
  /-- An accepted tick phase that waits for the next tick (R347). -/
  newPhase : Option Nat := none
  /-- A phase whose first tick instant is still to come, with the earliest time of that instant (R347). -/
  armed : Option (Nat × Nat) := none
  /-- TM_PPS_CAP: module time at the edge less the path delay, in 2^−16 ns; and the edge before it. -/
  ppsCap : Int := 0
  ppsLast : Option Int := none
  sync : Option SyncIn := none
  ports : Tbl TimePort := []
  /-- The last PTP message each port sent. -/
  sent : Tbl PtpOut := []
  deriving DecidableEq, Repr

/-- An entry of a launch queue (R361). -/
structure LaunchEntry where
  time : Nat
  voter : Bool
  /-- Frame buffer reference of a management entry, 0 for the voter's. -/
  ref : Nat
  /-- The words of bytes 0x000–0x11F of a voted frame (R428). -/
  frame : List Nat
  deriving DecidableEq, Repr

/-- A frame that a ring port has launched: its entry and its actual instant in 2^−16 ns. -/
structure Launched where
  entry : LaunchEntry
  stamp : Int
  deriving DecidableEq, Repr

/-- The launch queues of ring ports 0 and 1 (R361–R364). -/
structure Launch where
  queues : Tbl (List LaunchEntry) := []
  /-- Management entries that wait for a place, by port. -/
  waiting : Tbl (List LaunchEntry) := []
  last : Tbl Launched := []
  /-- Module time in ns of the last launch-late record, and entries counted since (R364). -/
  lateLast : Option Nat := none
  lateSince : Nat := 0
  deriving DecidableEq, Repr

/-! ### Phirov, sensor lanes and the motion ring (chapter 15) -/

/-- PX_PEER_m.state (R410). -/
inductive Pairing where
  | down | joining | up
  deriving DecidableEq, Repr

/-- The pairing with one module (PX_PEER_m, R410–R413). The per-class tables are by class. -/
structure Peer where
  port : Nat := 0
  peerPort : Nat := 0
  valid : Bool := false
  state : Pairing := .down
  session : Nat := 0
  /-- Session of m's frames. -/
  expected : Nat := 0
  /-- m's session as last received, 0 if none. -/
  heard : Nat := 0
  /-- Slots the peer has granted to this module (the peer credit table, R411). -/
  credit : Tbl Nat := []
  /-- Slots of this module in flight to the peer: granted, or taken as response slots. -/
  granted : Tbl Nat := []
  response : Tbl Nat := []
  /-- Slots freed and not yet granted again. -/
  freed : Tbl Nat := []
  rxSeq : Tbl Nat := []
  txSeq : Tbl Nat := []
  deriving DecidableEq, Repr

/-- A READ or WRITE of this module that awaits its RESPONSE (R414). -/
structure Remote where
  peer : Nat
  cls : Nat
  write : Bool
  /-- Mill, stage and token number of the tier request. -/
  mill : Nat
  stage : Nat
  id : Nat
  slots : Nat
  length : Nat
  got : Nat := 0
  /-- The frame has left. -/
  sent : Bool := false
  deriving DecidableEq, Repr

/-- A received frame in a port's receive buffer, held until its content has passed on (R411). -/
structure RxHeld where
  port : Nat
  peer : Nat
  frame : PxFrame
  /-- Parcels of it that have passed the port's weir (R31). -/
  passed : Nat := 0
  deriving DecidableEq, Repr

/-- A collective in progress on this module (R418–R421). -/
structure Coll where
  mill : Nat
  stage : Nat
  id : Nat
  /-- Element bytes with their block tags as they arrive: first-round parts by sender (direct) or by block (ring), and
  final blocks by block. -/
  got : Tbl Bytes := []
  gotTags : Tbl (List Nat) := []
  final : Tbl Bytes := []
  finalTags : Tbl (List Nat) := []
  status : Nat := 0
  deriving DecidableEq, Repr

/-- The Phirov ports. -/
structure Phirov where
  linkUp : List Nat := []
  full : List Nat := []
  peers : Tbl Peer := []
  nextReq : Nat := 0
  remote : Tbl Remote := []
  rx : List RxHeld := []
  /-- Priorities paused by PFC: port × 4 + class. -/
  pfc : List Nat := []
  /-- Collectives by group. -/
  colls : Tbl Coll := []
  /-- Frames that wait for peer credits, with their peer, oldest first. -/
  tx : List (Nat × PxFrame) := []
  /-- The last frame each port sent. -/
  sent : Tbl PxFrame := []
  deriving DecidableEq, Repr

/-- A sensor frame in assembly (R424). -/
structure Assembly where
  number : Nat
  next : Nat
  offset : Nat
  bytes : Nat
  format : Nat
  /-- t_src in ns. -/
  src : Nat
  data : Bytes
  deriving DecidableEq, Repr

/-- An admitted sensor frame that occupies a slot until it is delivered (R425). -/
structure SnFrame where
  number : Nat
  src : Nat
  /-- Last-byte stamp in ns. -/
  port : Int
  format : Nat
  data : Bytes
  deriving DecidableEq, Repr

/-- The ingress of one stream (R424). -/
structure SnStream where
  asm : Option Assembly := none
  slots : List SnFrame := []
  /-- Frame numbers: last admitted (none after binding or a lane reset), last admitted shown in SN_FRAME_s, last
  admitted, torn or refused, and last counted as a torn frame without assembly. -/
  prev : Option Nat := none
  shown : Nat := 0
  last : Option Nat := none
  counted : Option Nat := none
  deriving DecidableEq, Repr

/-- The sensor lanes. -/
structure Sensors where
  /-- The LEAT body whose bindings of lanes 12–15 the motion domain keeps (R25, R27). -/
  leat : Bytes := []
  linkUp : List Nat := []
  paused : List Nat := []
  streams : Tbl SnStream := []
  deriving DecidableEq, Repr

/-- The motion ring's states (R432). -/
inductive RingHealth where
  | ok | degraded | lost
  deriving DecidableEq, Repr

/-- A returned copy of a cyclic frame: which copy, the port it reached, its launch-to-return time in ns and the slots by
node. -/
structure RingCopy where
  tick : Nat
  copy : Nat
  port : Nat
  traversal : Nat
  slots : Tbl DriveSlot
  deriving DecidableEq, Repr

/-- A node as MR_DRIVE_n shows it. -/
structure Drive where
  st : Nat := 0
  tickLow : Nat := 0
  absent : Bool := false
  deriving DecidableEq, Repr

/-- The motion ring (R427–R432). -/
structure MotionRing where
  state : RingHealth := .ok
  link0 : Bool := false
  link1 : Bool := false
  reach0 : Nat := 0
  reach1 : Nat := 0
  trav0 : Nat := 0
  trav1 : Nat := 0
  /-- Copies launched as (tick, copy) whose tick has not been classed, and those of them that returned. -/
  launched : List (Nat × Nat) := []
  copies : List RingCopy := []
  okRun : Nat := 0
  shortRun : Nat := 0
  /-- For the last ticks without a short tick, newest first, whether each was broken; at most 8. -/
  goodRun : List Bool := []
  drives : Tbl Drive := []
  deriving DecidableEq, Repr

/-! ### The whole machine -/

/-- The whole state of the module. -/
structure State where
  /-- Registers with no other home, by window address of their privileged instance; an absent one holds its reset value
  (`regReset`). -/
  regs : Tbl Word := []
  /-- High words captured by reads of low words (R19, R346), by window address. -/
  hold : Tbl Word := []
  mem : Memories := {}
  ledger : Ledger := {}
  ev : Recorder := {}
  hp : HostPort := {}
  pw : Power := {}
  ck : Clocks := {}
  sec : Security := {}
  mills : Tbl Mill := []
  leat : Leat := {}
  loader : Loader := {}
  ops : Ops := {}
  streams : Tbl Stream := []
  tiers : Tiers := {}
  bolters : Tbl Bolter := []
  gov : Gov := {}
  fus : Fusion := {}
  sol : Solver := {}
  tm : TimeBase := {}
  launch : Launch := {}
  px : Phirov := {}
  sn : Sensors := {}
  mr : MotionRing := {}
  /-- The model's own counter behind its free values (log entry 2): a value the spec leaves open is
  `Config.freeWord freeN`, and the counter then advances. -/
  freeN : Nat := 0
  /-- Commands that wait, first in, first out. -/
  pending : List Instr := []
  deriving DecidableEq, Repr

/-- What stops the module for good. -/
inductive Fault where
  /-- A voltage above the absolute maximum of R495 was put on the input: the spec gives no behaviour there. Safe: the
  model stops. Raised by the supply events that carry a voltage. -/
  | ratingExceeded
  deriving DecidableEq, Repr

/-- What the model refuses. -/
inductive Refusal where
  /-- A command of the table without a meaning yet; only `exec` raises it. Safe. -/
  | notModelled (mnemonic : String)
  deriving DecidableEq, Repr

/-- An OTP group as shipped: one committed generation whose data Config names (R476), not yet read into its shadow
registers (R453). -/
def OtpGroup.shipped (data : Bytes) : OtpGroup :=
  { gens := [(1, { consumed := true, marker := true, data := data })] }

/-- The module right after power-up with no input applied, as shipped: rails off, bring-up stage 0, host port OFF,
mills EMPTY, brake wheel STANDBY, every register at the value of its Reset column (R24). Non-volatile contents are
those of a module that has never run in the field (log entries 4 and 5). -/
def State.reset : State :=
  { sec := {
      groups :=
      [ (0, OtpGroup.shipped Config.identData),
        (1, OtpGroup.shipped (1 :: 0 :: 0 :: 0 :: Config.shipDigest)),
        (2, OtpGroup.shipped Config.repairData),
        (3, OtpGroup.shipped Config.opticData),
        (6, OtpGroup.shipped Config.customerRoot) ],
      classes := [1, 2, 3, 4, 5].map (fun k =>
        (k, { build := Config.shipBuild k, epoch := Config.shipEpoch k, digest := Config.shipImage k })) } }

end Sys2Proof.Machine
end

