-- ==== Sys2Proof/Machine/RegMap.lean ====
section
/-!
DEFINITION. The register map: every register of the spec's tables with its address, its access type, the bits a write
sets and its Reset column; and the address of each register by its name. Array registers have up to two dimensions.
-/
namespace Sys2Proof.Machine

/-- Access types (R21). -/
inductive Access where
  | ro | rw | wo | w1c | w1s | rc
  deriving DecidableEq, Repr

/-- A row of the register map: the registers base + i × stride1 + j × stride2. -/
structure RegRow where
  name : String
  base : Nat
  stride1 : Nat
  count1 : Nat
  stride2 : Nat
  count2 : Nat
  access : Access
  mask : Nat
  reset : Nat
  deriving DecidableEq, Repr

/-- Part 0 of the register map. -/
def regMap0 : List RegRow := [
  ⟨"LG_FAULT", 0x20000, 0x0, 1, 0x0, 1, .w1c, 0x0, 0x0⟩,
  ⟨"LG_FAULT_POOL", 0x20004, 0x0, 1, 0x0, 1, .ro, 0x0, 0x0⟩,
  ⟨"LG_RECON_COUNT", 0x20008, 0x0, 1, 0x0, 1, .ro, 0x0, 0x0⟩,
  ⟨"LG_SNAP_CTRL", 0x2000C, 0x0, 1, 0x0, 1, .wo, 0x0, 0x0⟩,
  ⟨"LG_SNAP_STATUS", 0x20010, 0x0, 1, 0x0, 1, .ro, 0x0, 0x0⟩,
  ⟨"LG_SNAP_SIZE", 0x20014, 0x0, 1, 0x0, 1, .ro, 0x0, 0x0⟩,
  ⟨"LG_SNAP_HELD", 0x20018, 0x0, 1, 0x0, 1, .ro, 0x0, 0x0⟩,
  ⟨"LG_SNAP_IN_FLIGHT", 0x2001C, 0x0, 1, 0x0, 1, .ro, 0x0, 0x0⟩,
  ⟨"LG_SNAP_PARKED", 0x20020, 0x0, 1, 0x0, 1, .ro, 0x0, 0x0⟩,
  ⟨"LG_SNAP_RETURNED", 0x20024, 0x0, 1, 0x0, 1, .ro, 0x0, 0x0⟩,
  ⟨"LG_SNAP_RECLAIMED", 0x20028, 0x0, 1, 0x0, 1, .ro, 0x0, 0x0⟩,
  ⟨"LG_RECLAIM_TOTAL_LO", 0x20030, 0x0, 1, 0x0, 1, .ro, 0x0, 0x0⟩,
  ⟨"LG_RECLAIM_TOTAL_HI", 0x20034, 0x0, 1, 0x0, 1, .ro, 0x0, 0x0⟩,
  ⟨"ML_ARITH_STATUS", 0x100800, 0x10000, 16, 0x0, 1, .ro, 0x0, 0x0⟩,
  ⟨"ML_SAT_COUNT", 0x100804, 0x10000, 16, 0x0, 1, .rc, 0x0, 0x0⟩,
  ⟨"ML_NOTCERT_COUNT", 0x100808, 0x10000, 16, 0x0, 1, .rc, 0x0, 0x0⟩,
  ⟨"ML_NAN_COUNT", 0x10080C, 0x10000, 16, 0x0, 1, .rc, 0x0, 0x0⟩,
  ⟨"ML_TAG_PEAK", 0x100810, 0x10000, 16, 0x0, 1, .rc, 0x0, 0x0⟩,
  ⟨"ML_SR_RESEED_COUNT", 0x100814, 0x10000, 16, 0x0, 1, .ro, 0x0, 0x0⟩,
  ⟨"ML_SR_HEALTH_FAIL", 0x100818, 0x10000, 16, 0x0, 1, .rc, 0x0, 0x0⟩,
  ⟨"GV_TAG_LIMIT", 0x502000, 0x4, 16, 0x0, 1, .ro, 0x0, 0x0⟩,
  ⟨"GV_TAG_REJECT", 0x502040, 0x4, 16, 0x0, 1, .rc, 0x0, 0x0⟩,
  ⟨"ML_ID", 0x100000, 0x10000, 16, 0x0, 1, .ro, 0x0, 0x0⟩,
  ⟨"ML_STATE", 0x100004, 0x10000, 16, 0x0, 1, .ro, 0x0, 0x0⟩,
  ⟨"ML_CORE_STATUS", 0x100020, 0x10000, 16, 0x0, 1, .ro, 0x0, 0x0⟩,
  ⟨"ML_CORE_HEARTBEAT", 0x100024, 0x10000, 16, 0x0, 1, .ro, 0x0, 0x0⟩,
  ⟨"ML_STAGE_CFG", 0x100100, 0x10000, 16, 0x4, 8, .ro, 0x0, 0x0⟩,
  ⟨"ML_HOPPER", 0x100200, 0x10000, 16, 0x4, 8, .ro, 0x0, 0x0⟩,
  ⟨"ML_BANK_CONFLICT", 0x100300, 0x10000, 16, 0x0, 1, .rc, 0x0, 0x0⟩,
  ⟨"ML_STONE0_BUSY", 0x100304, 0x10000, 16, 0x0, 1, .rc, 0x0, 0x0⟩,
  ⟨"ML_STONE1_BUSY", 0x100308, 0x10000, 16, 0x0, 1, .rc, 0x0, 0x0⟩,
  ⟨"ML_TAIL_STALL", 0x10030C, 0x10000, 16, 0x0, 1, .rc, 0x0, 0x0⟩,
  ⟨"LT_M_LAT_PEAK", 0x200010, 0x0, 1, 0x0, 1, .rc, 0x0, 0x0⟩,
  ⟨"LT_M_BOUND_MAX", 0x200014, 0x0, 1, 0x0, 1, .ro, 0x0, 0x0⟩,
  ⟨"LT_HBM_SHARE_A", 0x200020, 0x0, 1, 0x0, 1, .ro, 0x0, 0x0⟩,
  ⟨"LT_HBM_SHARE_B", 0x200024, 0x0, 1, 0x0, 1, .ro, 0x0, 0x0⟩,
  ⟨"LT_ROUTER_STALL", 0x200100, 0x4, 16, 0x0, 1, .rc, 0x0, 0x0⟩,
  ⟨"WR_STATUS", 0x208000, 0x400, 42, 0x0, 1, .ro, 0x0, 0x0⟩,
  ⟨"WR_ADMIT", 0x208004, 0x400, 42, 0x0, 1, .rc, 0x0, 0x0⟩,
  ⟨"WR_WAIT", 0x208008, 0x400, 42, 0x0, 1, .rc, 0x0, 0x0⟩]

/-- Part 1 of the register map. -/
def regMap1 : List RegRow := [
  ⟨"WR_ROW", 0x208100, 0x400, 42, 0x4, 64, .ro, 0x0, 0x0⟩,
  ⟨"MP_CMD", 0xB00000, 0x0, 1, 0x0, 1, .wo, 0x0, 0x0⟩,
  ⟨"MP_STATUS", 0xB00004, 0x0, 1, 0x0, 1, .ro, 0x0, 0x0⟩,
  ⟨"MP_SRC_OFFSET", 0xB00008, 0x0, 1, 0x0, 1, .rw, 0xFFFFFFFF, 0x0⟩,
  ⟨"MP_SRC_LENGTH", 0xB0000C, 0x0, 1, 0x0, 1, .rw, 0xFFFFFFFF, 0x0⟩,
  ⟨"MP_PLAN_ID_LO", 0xB00010, 0x0, 1, 0x0, 1, .ro, 0x0, 0x0⟩,
  ⟨"MP_PLAN_ID_HI", 0xB00014, 0x0, 1, 0x0, 1, .ro, 0x0, 0x0⟩,
  ⟨"MP_PLAN_GEN", 0xB00018, 0x0, 1, 0x0, 1, .ro, 0x0, 0x0⟩,
  ⟨"MP_STAGED", 0xB0001C, 0x0, 1, 0x0, 1, .ro, 0x0, 0x0⟩,
  ⟨"MP_PRELOAD", 0xB00020, 0x0, 1, 0x0, 1, .ro, 0x0, 0x0⟩,
  ⟨"MP_LAST_SWAP", 0xB00024, 0x0, 1, 0x0, 1, .ro, 0x0, 0x0⟩,
  ⟨"MP_CTRL", 0xB00028, 0x0, 1, 0x0, 1, .rw, 0x3, 0x1⟩,
  ⟨"MP_EVENTS", 0xB0002C, 0x0, 1, 0x0, 1, .w1c, 0x0, 0x0⟩,
  ⟨"MP_EVAC", 0xB00030, 0x0, 1, 0x0, 1, .ro, 0x0, 0x0⟩,
  ⟨"MP_LOAD_COUNT", 0xB00034, 0x0, 1, 0x0, 1, .ro, 0x0, 0x0⟩,
  ⟨"MP_MILL_SECTION", 0xB00040, 0x4, 16, 0x0, 1, .ro, 0x0, 0x0⟩,
  ⟨"ML_STRIPE_POS", 0x100400, 0x10000, 16, 0x4, 8, .ro, 0x0, 0x0⟩,
  ⟨"ML_HALO_LINES", 0x100420, 0x10000, 16, 0x0, 1, .rc, 0x0, 0x0⟩,
  ⟨"ML_ROW_WAIT", 0x100424, 0x10000, 16, 0x0, 1, .rc, 0x0, 0x0⟩,
  ⟨"ML_BUF_WAIT", 0x100428, 0x10000, 16, 0x0, 1, .rc, 0x0, 0x0⟩,
  ⟨"ML_ATTN_CFG", 0x100500, 0x10000, 16, 0x0, 1, .ro, 0x0, 0x0⟩,
  ⟨"ML_KV_RD", 0x100504, 0x10000, 16, 0x0, 1, .rc, 0x0, 0x0⟩,
  ⟨"ML_KV_WR", 0x100508, 0x10000, 16, 0x0, 1, .rc, 0x0, 0x0⟩,
  ⟨"ML_KV_WAIT", 0x10050C, 0x10000, 16, 0x0, 1, .rc, 0x0, 0x0⟩,
  ⟨"ML_MERGE_WAIT", 0x100510, 0x10000, 16, 0x0, 1, .rc, 0x0, 0x0⟩,
  ⟨"ML_PAD_KEYS", 0x100514, 0x10000, 16, 0x0, 1, .rc, 0x0, 0x0⟩,
  ⟨"ML_MERGE_DISCARD", 0x100518, 0x10000, 16, 0x0, 1, .rc, 0x0, 0x0⟩,
  ⟨"ML_BUCKET_ITEMS", 0x100520, 0x10000, 16, 0x4, 6, .rc, 0x0, 0x0⟩,
  ⟨"MP_STREAM", 0xB01000, 0x8, 256, 0x0, 1, .ro, 0x0, 0x0⟩,
  ⟨"MP_STREAM_GEN", 0xB01004, 0x8, 256, 0x0, 1, .ro, 0x0, 0x0⟩,
  ⟨"MP_STREAM_STALE", 0xB01800, 0x0, 1, 0x0, 1, .rc, 0x0, 0x0⟩,
  ⟨"MP_STREAM_MARKS", 0xB01804, 0x0, 1, 0x0, 1, .rc, 0x0, 0x0⟩,
  ⟨"MP_STREAM_MOVES", 0xB01808, 0x0, 1, 0x0, 1, .rc, 0x0, 0x0⟩,
  ⟨"MT_STATUS", 0x300000, 0x0, 1, 0x0, 1, .ro, 0x0, 0x0⟩,
  ⟨"MT_HBM_PAGES", 0x300004, 0x0, 1, 0x0, 1, .ro, 0x0, 0x0⟩,
  ⟨"MT_HBM_FREE", 0x300008, 0x0, 1, 0x0, 1, .ro, 0x0, 0x0⟩,
  ⟨"MT_STORE_FREE", 0x30000C, 0x0, 1, 0x0, 1, .ro, 0x0, 0x0⟩,
  ⟨"MT_LATE_COUNT", 0x300010, 0x0, 1, 0x0, 1, .rc, 0x0, 0x0⟩,
  ⟨"MT_FAIL_COUNT", 0x300014, 0x0, 1, 0x0, 1, .rc, 0x0, 0x0⟩,
  ⟨"MT_CE_COUNT", 0x300018, 0x0, 1, 0x0, 1, .rc, 0x0, 0x0⟩]

/-- Part 2 of the register map. -/
def regMap2 : List RegRow := [
  ⟨"MT_POISON_LINES", 0x30001C, 0x0, 1, 0x0, 1, .ro, 0x0, 0x0⟩,
  ⟨"MT_REPAIR_STATUS", 0x300020, 0x0, 1, 0x0, 1, .ro, 0x0, 0x0⟩,
  ⟨"MT_MAP_INDEX", 0x300030, 0x0, 1, 0x0, 1, .rw, 0x3FFFFF, 0x0⟩,
  ⟨"MT_MAP_ENTRY_LO", 0x300034, 0x0, 1, 0x0, 1, .ro, 0x0, 0x0⟩,
  ⟨"MT_MAP_ENTRY_HI", 0x300038, 0x0, 1, 0x0, 1, .ro, 0x0, 0x0⟩,
  ⟨"MT_MAP_CACHE_MISS", 0x30003C, 0x0, 1, 0x0, 1, .rc, 0x0, 0x0⟩,
  ⟨"MT_CMD", 0x300040, 0x0, 1, 0x0, 1, .wo, 0x0, 0x0⟩,
  ⟨"MT_CMD_STATUS", 0x300044, 0x0, 1, 0x0, 1, .ro, 0x0, 0x0⟩,
  ⟨"MT_CH", 0x300100, 0x4, 32, 0x0, 1, .ro, 0x0, 0x0⟩,
  ⟨"MT_Q_MP_SIZE", 0x301000, 0x20, 64, 0x0, 1, .ro, 0x0, 0x0⟩,
  ⟨"MT_Q_MP_HELD", 0x301004, 0x20, 64, 0x0, 1, .ro, 0x0, 0x0⟩,
  ⟨"MT_Q_HBM_SIZE", 0x301008, 0x20, 64, 0x0, 1, .ro, 0x0, 0x0⟩,
  ⟨"MT_Q_HBM_HELD", 0x30100C, 0x20, 64, 0x0, 1, .ro, 0x0, 0x0⟩,
  ⟨"MT_Q_STORE_SIZE", 0x301010, 0x20, 64, 0x0, 1, .ro, 0x0, 0x0⟩,
  ⟨"MT_Q_STORE_HELD", 0x301014, 0x20, 64, 0x0, 1, .ro, 0x0, 0x0⟩,
  ⟨"MT_Q_LATE", 0x301018, 0x20, 64, 0x0, 1, .rc, 0x0, 0x0⟩,
  ⟨"MT_Q_FAIL", 0x30101C, 0x20, 64, 0x0, 1, .rc, 0x0, 0x0⟩,
  ⟨"BL_STATUS", 0x400000, 0x10000, 2, 0x0, 1, .ro, 0x0, 0x0⟩,
  ⟨"BL_EPOCH", 0x400004, 0x10000, 2, 0x0, 1, .ro, 0x0, 0x0⟩,
  ⟨"BL_GRID_TIME_LO", 0x400008, 0x10000, 2, 0x0, 1, .ro, 0x0, 0x0⟩,
  ⟨"BL_GRID_TIME_HI", 0x40000C, 0x10000, 2, 0x0, 1, .ro, 0x0, 0x0⟩,
  ⟨"BL_BUILD_US", 0x400010, 0x10000, 2, 0x0, 1, .ro, 0x0, 0x0⟩,
  ⟨"BL_LAST_BATCH_US", 0x400014, 0x10000, 2, 0x0, 1, .ro, 0x0, 0x0⟩,
  ⟨"BL_BATCHES", 0x400018, 0x10000, 2, 0x0, 1, .rc, 0x0, 0x0⟩,
  ⟨"BL_TIMEOUTS", 0x40001C, 0x10000, 2, 0x0, 1, .rc, 0x0, 0x0⟩,
  ⟨"BL_RECHECKS", 0x400020, 0x10000, 2, 0x0, 1, .rc, 0x0, 0x0⟩,
  ⟨"BL_NO_PATH", 0x400024, 0x10000, 2, 0x0, 1, .rc, 0x0, 0x0⟩,
  ⟨"BL_COLLIDING", 0x400028, 0x10000, 2, 0x0, 1, .rc, 0x0, 0x0⟩,
  ⟨"BL_EPOCH_REJECT", 0x40002C, 0x10000, 2, 0x0, 1, .rc, 0x0, 0x0⟩,
  ⟨"BL_WATCH", 0x400030, 0x10000, 2, 0x0, 1, .ro, 0x0, 0x0⟩,
  ⟨"BL_CFG_A", 0x400040, 0x10000, 2, 0x0, 1, .ro, 0x0, 0x0⟩,
  ⟨"BL_CFG_B", 0x400044, 0x10000, 2, 0x0, 1, .ro, 0x0, 0x0⟩,
  ⟨"GV_STATUS", 0x500000, 0x0, 1, 0x0, 1, .ro, 0x0, 0x0⟩,
  ⟨"GV_BRAKE_WHEEL", 0x500004, 0x0, 1, 0x0, 1, .ro, 0x0, 0x0⟩,
  ⟨"GV_CMD", 0x500008, 0x0, 1, 0x0, 1, .wo, 0x0, 0x0⟩,
  ⟨"GV_EVENTS", 0x50000C, 0x0, 1, 0x0, 1, .w1c, 0x0, 0x0⟩,
  ⟨"GV_LANE", 0x500010, 0x4, 3, 0x0, 1, .ro, 0x0, 0x0⟩,
  ⟨"GV_CYCLE_LO", 0x500020, 0x0, 1, 0x0, 1, .ro, 0x0, 0x0⟩,
  ⟨"GV_CYCLE_HI", 0x500024, 0x0, 1, 0x0, 1, .ro, 0x0, 0x0⟩,
  ⟨"GV_VOTE_MISMATCH", 0x500028, 0x0, 1, 0x0, 1, .rc, 0x0, 0x0⟩]

/-- Part 3 of the register map. -/
def regMap3 : List RegRow := [
  ⟨"GV_NO_MAJORITY", 0x50002C, 0x0, 1, 0x0, 1, .rc, 0x0, 0x0⟩,
  ⟨"GV_CLAMP_COUNT", 0x500030, 0x0, 1, 0x0, 1, .rc, 0x0, 0x0⟩,
  ⟨"GV_SAT_COUNT", 0x500034, 0x0, 1, 0x0, 1, .rc, 0x0, 0x0⟩,
  ⟨"GV_SLICE_PEAK", 0x500038, 0x0, 1, 0x0, 1, .rc, 0x0, 0x0⟩,
  ⟨"GV_PLAN", 0x50003C, 0x0, 1, 0x0, 1, .ro, 0x0, 0x0⟩,
  ⟨"GV_CFG", 0x500040, 0x0, 1, 0x0, 1, .ro, 0x0, 0x0⟩,
  ⟨"GV_IMAGE", 0x500044, 0x0, 1, 0x0, 1, .ro, 0x0, 0x0⟩,
  ⟨"GV_PLAN_SKIP", 0x500048, 0x0, 1, 0x0, 1, .rc, 0x0, 0x0⟩,
  ⟨"GV_JOINT", 0x500100, 0x4, 64, 0x0, 1, .ro, 0x0, 0x0⟩,
  ⟨"GV_QUEUE", 0x502080, 0x4, 16, 0x0, 1, .ro, 0x0, 0x0⟩,
  ⟨"GV_CONV_SAT", 0x5020C0, 0x4, 16, 0x0, 1, .rc, 0x0, 0x0⟩,
  ⟨"FU_STATUS", 0x503000, 0x0, 1, 0x0, 1, .ro, 0x0, 0x0⟩,
  ⟨"FU_DESYNC_LO", 0x503004, 0x0, 1, 0x0, 1, .ro, 0x0, 0x0⟩,
  ⟨"FU_DESYNC_HI", 0x503008, 0x0, 1, 0x0, 1, .ro, 0x0, 0x0⟩,
  ⟨"FU_GATES", 0x50300C, 0x0, 1, 0x0, 1, .ro, 0x0, 0x0⟩,
  ⟨"FU_LATE", 0x503010, 0x0, 1, 0x0, 1, .rc, 0x0, 0x0⟩,
  ⟨"FU_OUTLIER", 0x503014, 0x0, 1, 0x0, 1, .rc, 0x0, 0x0⟩,
  ⟨"FU_DESYNC_EVENTS", 0x503018, 0x0, 1, 0x0, 1, .rc, 0x0, 0x0⟩,
  ⟨"FU_CONFLICT_EVENTS", 0x50301C, 0x0, 1, 0x0, 1, .rc, 0x0, 0x0⟩,
  ⟨"FU_MALFORMED", 0x503020, 0x0, 1, 0x0, 1, .rc, 0x0, 0x0⟩,
  ⟨"FU_STREAM", 0x503100, 0x4, 48, 0x0, 1, .ro, 0x0, 0x0⟩,
  ⟨"FU_PHASE", 0x503200, 0x4, 48, 0x0, 1, .rc, 0x0, 0x0⟩,
  ⟨"SV_LAST", 0x504000, 0x0, 1, 0x0, 1, .ro, 0x0, 0x0⟩,
  ⟨"SV_RESID", 0x504004, 0x0, 1, 0x0, 1, .ro, 0x0, 0x0⟩,
  ⟨"SV_TIMING", 0x504008, 0x0, 1, 0x0, 1, .ro, 0x0, 0x0⟩,
  ⟨"SV_CFG", 0x50400C, 0x0, 1, 0x0, 1, .ro, 0x0, 0x0⟩,
  ⟨"SV_DIGEST", 0x504010, 0x0, 1, 0x0, 1, .ro, 0x0, 0x0⟩,
  ⟨"SV_WARM_DIGEST", 0x504014, 0x0, 1, 0x0, 1, .ro, 0x0, 0x0⟩,
  ⟨"SV_NOTCERT_COUNT", 0x504018, 0x0, 1, 0x0, 1, .rc, 0x0, 0x0⟩,
  ⟨"SV_PIVOT_COUNT", 0x50401C, 0x0, 1, 0x0, 1, .rc, 0x0, 0x0⟩,
  ⟨"SV_SAT_COUNT", 0x504020, 0x0, 1, 0x0, 1, .rc, 0x0, 0x0⟩,
  ⟨"SV_MISMATCH_COUNT", 0x504024, 0x0, 1, 0x0, 1, .rc, 0x0, 0x0⟩,
  ⟨"SV_FALLBACK_COUNT", 0x504028, 0x0, 1, 0x0, 1, .rc, 0x0, 0x0⟩,
  ⟨"TM_STATUS", 0x600000, 0x0, 1, 0x0, 1, .ro, 0x0, 0x1F0⟩,
  ⟨"TM_CTRL", 0x600004, 0x0, 1, 0x0, 1, .rw, 0x3FF, 0x54⟩,
  ⟨"TM_CMD", 0x600008, 0x0, 1, 0x0, 1, .wo, 0x0, 0x0⟩,
  ⟨"TM_EVENTS", 0x60000C, 0x0, 1, 0x0, 1, .w1c, 0x0, 0x0⟩,
  ⟨"TM_NOW_NS", 0x600010, 0x0, 1, 0x0, 1, .ro, 0x0, 0x0⟩,
  ⟨"TM_NOW_SEC_LO", 0x600014, 0x0, 1, 0x0, 1, .ro, 0x0, 0x0⟩,
  ⟨"TM_NOW_SEC_HI", 0x600018, 0x0, 1, 0x0, 1, .ro, 0x0, 0x0⟩]

/-- Part 4 of the register map. -/
def regMap4 : List RegRow := [
  ⟨"TM_NOW_FRAC", 0x60001C, 0x0, 1, 0x0, 1, .ro, 0x0, 0x0⟩,
  ⟨"TM_SET_NS", 0x600020, 0x0, 1, 0x0, 1, .rw, 0xFFFFFFFF, 0x0⟩,
  ⟨"TM_SET_SEC_LO", 0x600024, 0x0, 1, 0x0, 1, .rw, 0xFFFFFFFF, 0x0⟩,
  ⟨"TM_SET_SEC_HI", 0x600028, 0x0, 1, 0x0, 1, .rw, 0xFFFF, 0x0⟩,
  ⟨"TM_OFFSET", 0x60002C, 0x0, 1, 0x0, 1, .ro, 0x0, 0x0⟩,
  ⟨"TM_RATE", 0x600030, 0x0, 1, 0x0, 1, .ro, 0x0, 0x0⟩,
  ⟨"TM_RATE_INT", 0x600034, 0x0, 1, 0x0, 1, .ro, 0x0, 0x0⟩,
  ⟨"TM_SERVO", 0x600038, 0x0, 1, 0x0, 1, .rw, 0xFFFFFF, 0x6431⟩,
  ⟨"TM_STEP_THRESHOLD", 0x60003C, 0x0, 1, 0x0, 1, .rw, 0xFFFFFFFF, 0xF4240⟩,
  ⟨"TM_HOLDOVER_S", 0x600040, 0x0, 1, 0x0, 1, .ro, 0x0, 0x0⟩,
  ⟨"TM_GM_ID_LO", 0x600044, 0x0, 1, 0x0, 1, .ro, 0x0, 0x0⟩,
  ⟨"TM_GM_ID_HI", 0x600048, 0x0, 1, 0x0, 1, .ro, 0x0, 0x0⟩,
  ⟨"TM_CLOCK_QUALITY", 0x60004C, 0x0, 1, 0x0, 1, .rw, 0xFFFFFFFF, 0xFEF8F8F8⟩,
  ⟨"TM_TICK_PHASE", 0x600050, 0x0, 1, 0x0, 1, .rw, 0xFFFFFFFF, 0x0⟩,
  ⟨"TM_PPS_DELAY", 0x600054, 0x0, 1, 0x0, 1, .rw, 0xFFFFFFFF, 0x0⟩,
  ⟨"TM_PPS_CAP_NS", 0x600058, 0x0, 1, 0x0, 1, .ro, 0x0, 0x0⟩,
  ⟨"TM_PPS_CAP_SEC_LO", 0x60005C, 0x0, 1, 0x0, 1, .ro, 0x0, 0x0⟩,
  ⟨"TM_PPS_CAP_SEC_HI", 0x600060, 0x0, 1, 0x0, 1, .ro, 0x0, 0x0⟩,
  ⟨"TM_UTC_OFFSET", 0x600064, 0x0, 1, 0x0, 1, .rw, 0x1FFFF, 0x25⟩,
  ⟨"TM_LAUNCH_LATE", 0x600068, 0x0, 1, 0x0, 1, .rc, 0x0, 0x0⟩,
  ⟨"TM_LAUNCH_ERR_PEAK", 0x60006C, 0x0, 1, 0x0, 1, .rc, 0x0, 0x0⟩,
  ⟨"TM_COPY_FIX", 0x600070, 0x0, 1, 0x0, 1, .rc, 0x0, 0x0⟩,
  ⟨"TM_PORT_CFG", 0x600100, 0x20, 8, 0x0, 1, .rw, 0x7FFF7, 0xD1⟩,
  ⟨"TM_PORT_CFG", 0x600200, 0x20, 18, 0x0, 1, .rw, 0x7FFF7, 0xD3⟩,
  ⟨"TM_PORT_STATE", 0x600104, 0x20, 26, 0x0, 1, .ro, 0x0, 0x0⟩,
  ⟨"TM_LAT_IN", 0x600108, 0x20, 26, 0x0, 1, .rw, 0xFFFFFFFF, 0x0⟩,
  ⟨"TM_LAT_OUT", 0x60010C, 0x20, 26, 0x0, 1, .rw, 0xFFFFFFFF, 0x0⟩,
  ⟨"TM_ASYM", 0x600110, 0x20, 26, 0x0, 1, .rw, 0xFFFFFFFF, 0x0⟩,
  ⟨"TM_LINK_DELAY", 0x600114, 0x20, 26, 0x0, 1, .ro, 0x0, 0x0⟩,
  ⟨"TM_PORT_ERR", 0x600118, 0x20, 26, 0x0, 1, .rc, 0x0, 0x0⟩,
  ⟨"HP_STATUS", 0x10000, 0x0, 1, 0x0, 1, .ro, 0x0, 0x0⟩,
  ⟨"HP_CTRL", 0x10004, 0x0, 1, 0x0, 1, .rw, 0x3FF0001, 0x0⟩,
  ⟨"HP_EVENTS", 0x10008, 0x0, 1, 0x0, 1, .w1c, 0x0, 0x0⟩,
  ⟨"HP_EVENT_EN", 0x1000C, 0x0, 1, 0x0, 1, .rw, 0x1FFF, 0x0⟩,
  ⟨"HP_PENDING_LO", 0x10010, 0x0, 1, 0x0, 1, .ro, 0x0, 0x0⟩,
  ⟨"HP_PENDING_HI", 0x10014, 0x0, 1, 0x0, 1, .ro, 0x0, 0x0⟩,
  ⟨"HP_STRAY_COUNT", 0x10018, 0x0, 1, 0x0, 1, .rc, 0x0, 0x0⟩,
  ⟨"HP_STRAY_ADDR", 0x1001C, 0x0, 1, 0x0, 1, .ro, 0x0, 0x0⟩,
  ⟨"HP_PARTIAL_COUNT", 0x10020, 0x0, 1, 0x0, 1, .rc, 0x0, 0x0⟩,
  ⟨"HP_DROPPED", 0x10024, 0x0, 1, 0x0, 1, .rc, 0x0, 0x0⟩]

/-- Part 5 of the register map. -/
def regMap5 : List RegRow := [
  ⟨"HP_TRAIN", 0x10028, 0x0, 1, 0x0, 1, .ro, 0x0, 0x0⟩,
  ⟨"HP_CTX_CMD", 0x10040, 0x0, 1, 0x0, 1, .wo, 0x0, 0x0⟩,
  ⟨"HP_CMD_STATUS", 0x10044, 0x0, 1, 0x0, 1, .ro, 0x0, 0x0⟩,
  ⟨"HP_MB_SQ_DB", 0x10060, 0x0, 1, 0x0, 1, .wo, 0x0, 0x0⟩,
  ⟨"HP_MB_CQ_DB", 0x10080, 0x0, 1, 0x0, 1, .wo, 0x0, 0x0⟩,
  ⟨"HP_MB_STATUS", 0x100A0, 0x0, 1, 0x0, 1, .ro, 0x0, 0x0⟩,
  ⟨"HP_CTX_STATUS", 0x11000, 0x100, 64, 0x0, 1, .ro, 0x0, 0x0⟩,
  ⟨"HP_CTX_SQ_CONS", 0x11004, 0x100, 64, 0x0, 1, .ro, 0x0, 0x0⟩,
  ⟨"HP_CTX_CQ_PROD", 0x11008, 0x100, 64, 0x0, 1, .ro, 0x0, 0x0⟩,
  ⟨"HP_CTX_CRED_A", 0x1100C, 0x100, 64, 0x0, 1, .ro, 0x0, 0x0⟩,
  ⟨"HP_CTX_CRED_B", 0x11010, 0x100, 64, 0x0, 1, .ro, 0x0, 0x0⟩,
  ⟨"HP_CTX_EVENTS", 0x11014, 0x100, 64, 0x0, 1, .w1c, 0x0, 0x0⟩,
  ⟨"HP_CTX_EVENT_EN", 0x11018, 0x100, 64, 0x0, 1, .rw, 0xF, 0x0⟩,
  ⟨"HP_CTX_CFG", 0x1101C, 0x100, 64, 0x0, 1, .rw, 0x1FFFFF, 0x0⟩,
  ⟨"HP_CTX_POND", 0x11020, 0x100, 64, 0x0, 1, .rw, 0x1FFFFF, 0x0⟩,
  ⟨"HP_CTX_SQ_DB", 0x1001000, 0x100000, 64, 0x0, 1, .wo, 0x0, 0x0⟩,
  ⟨"HP_CTX_CQ_DB", 0x1001020, 0x100000, 64, 0x0, 1, .wo, 0x0, 0x0⟩,
  ⟨"PX_MODULE_ID", 0x700000, 0x0, 1, 0x0, 1, .rw, 0x3FF, 0x0⟩,
  ⟨"PX_STATUS", 0x700004, 0x0, 1, 0x0, 1, .ro, 0x0, 0x0⟩,
  ⟨"PX_EVENTS", 0x700008, 0x0, 1, 0x0, 1, .w1c, 0x0, 0x0⟩,
  ⟨"PX_PORT_CFG", 0x701000, 0x100, 8, 0x0, 1, .rw, 0xFFFFF7, 0xA0000⟩,
  ⟨"PX_GRANT_A", 0x701004, 0x100, 8, 0x0, 1, .rw, 0x1FFF1FFF, 0x0⟩,
  ⟨"PX_GRANT_B", 0x701008, 0x100, 8, 0x0, 1, .rw, 0x1FFF1FFF, 0x0⟩,
  ⟨"PX_PORT_STATUS", 0x70100C, 0x100, 8, 0x0, 1, .ro, 0x0, 0x0⟩,
  ⟨"PX_RX_FRAMES", 0x701010, 0x100, 8, 0x0, 1, .rc, 0x0, 0x0⟩,
  ⟨"PX_TX_FRAMES", 0x701014, 0x100, 8, 0x0, 1, .rc, 0x0, 0x0⟩,
  ⟨"PX_RX_ERR", 0x701018, 0x100, 8, 0x0, 1, .rc, 0x0, 0x0⟩,
  ⟨"PX_STALE", 0x70101C, 0x100, 8, 0x0, 1, .rc, 0x0, 0x0⟩,
  ⟨"PX_PEER_LOSS", 0x701020, 0x100, 8, 0x0, 1, .rc, 0x0, 0x0⟩,
  ⟨"PX_PEER", 0x708000, 0x4, 1024, 0x0, 1, .rw, 0x7F, 0x0⟩,
  ⟨"SN_LANE", 0x780000, 0x4, 16, 0x0, 1, .ro, 0x0, 0x0⟩,
  ⟨"SN_LANE_ERR", 0x780040, 0x4, 16, 0x0, 1, .rc, 0x0, 0x0⟩,
  ⟨"SN_STREAM", 0x780100, 0x10, 48, 0x0, 1, .ro, 0x0, 0x0⟩,
  ⟨"SN_FRAME", 0x780104, 0x10, 48, 0x0, 1, .ro, 0x0, 0x0⟩,
  ⟨"SN_REFUSED", 0x780108, 0x10, 48, 0x0, 1, .rc, 0x0, 0x0⟩,
  ⟨"SN_ERR", 0x78010C, 0x10, 48, 0x0, 1, .rc, 0x0, 0x0⟩,
  ⟨"SN_UNBOUND", 0x780400, 0x0, 1, 0x0, 1, .rc, 0x0, 0x0⟩,
  ⟨"MR_STATUS", 0x788000, 0x0, 1, 0x0, 1, .ro, 0x0, 0x0⟩,
  ⟨"MR_CFG", 0x788004, 0x0, 1, 0x0, 1, .rw, 0x7FF7F, 0x35040⟩,
  ⟨"MR_EVENTS", 0x788008, 0x0, 1, 0x0, 1, .w1c, 0x0, 0x0⟩]

/-- Part 6 of the register map. -/
def regMap6 : List RegRow := [
  ⟨"MR_TRAVERSAL", 0x78800C, 0x0, 1, 0x0, 1, .ro, 0x0, 0x0⟩,
  ⟨"MR_RETURN_MISS", 0x788010, 0x0, 1, 0x0, 1, .rc, 0x0, 0x0⟩,
  ⟨"MR_RX_ERR", 0x788020, 0x4, 2, 0x0, 1, .rc, 0x0, 0x0⟩,
  ⟨"MR_DRIVE", 0x788100, 0x4, 64, 0x0, 1, .ro, 0x0, 0x0⟩,
  ⟨"CK_STATUS", 0x800000, 0x0, 1, 0x0, 1, .ro, 0x0, 0x0⟩,
  ⟨"CK_EVENTS", 0x800004, 0x0, 1, 0x0, 1, .w1c, 0x0, 0x0⟩,
  ⟨"CK_CDC_TIMEOUTS", 0x800008, 0x0, 1, 0x0, 1, .rc, 0x0, 0x0⟩,
  ⟨"CK_CDC_LAST", 0x80000C, 0x0, 1, 0x0, 1, .ro, 0x0, 0x0⟩,
  ⟨"CK_CROSS_MODE", 0x800010, 0x0, 1, 0x0, 1, .ro, 0x0, 0x3FF⟩,
  ⟨"PW_STATUS", 0x800100, 0x0, 1, 0x0, 1, .ro, 0x0, 0x0⟩,
  ⟨"PW_SUPPLY", 0x800104, 0x0, 1, 0x0, 1, .ro, 0x0, 0x0⟩,
  ⟨"PW_SUPPLY_MIN", 0x800108, 0x0, 1, 0x0, 1, .rc, 0x0, 0xFFFF⟩,
  ⟨"PW_INPUT", 0x80010C, 0x0, 1, 0x0, 1, .ro, 0x0, 0x0⟩,
  ⟨"PW_HOLDUP", 0x800110, 0x0, 1, 0x0, 1, .ro, 0x0, 0x0⟩,
  ⟨"PW_CAP", 0x800114, 0x0, 1, 0x0, 1, .rw, 0x1, 0x0⟩,
  ⟨"PW_THROTTLE", 0x800118, 0x0, 1, 0x0, 1, .ro, 0x0, 0x0⟩,
  ⟨"PW_DIP_LAST", 0x80011C, 0x0, 1, 0x0, 1, .ro, 0x0, 0x0⟩,
  ⟨"PW_DIP_COUNT", 0x800120, 0x0, 1, 0x0, 1, .rc, 0x0, 0x0⟩,
  ⟨"PW_EVENTS", 0x800124, 0x0, 1, 0x0, 1, .w1c, 0x0, 0x0⟩,
  ⟨"PW_RESET_CAUSE", 0x800128, 0x0, 1, 0x0, 1, .ro, 0x0, 0x0⟩,
  ⟨"PW_RESET_CMD", 0x80012C, 0x0, 1, 0x0, 1, .wo, 0x0, 0x0⟩,
  ⟨"PW_RESET_STATUS", 0x800130, 0x0, 1, 0x0, 1, .ro, 0x0, 0x0⟩,
  ⟨"PW_BOOT", 0x800134, 0x0, 1, 0x0, 1, .ro, 0x0, 0x0⟩,
  ⟨"EV_STATUS", 0x900000, 0x0, 1, 0x0, 1, .ro, 0x0, 0x0⟩,
  ⟨"EV_HEAD_LO", 0x900004, 0x0, 1, 0x0, 1, .ro, 0x0, 0x0⟩,
  ⟨"EV_HEAD_HI", 0x900008, 0x0, 1, 0x0, 1, .ro, 0x0, 0x0⟩,
  ⟨"EV_OLDEST_LO", 0x90000C, 0x0, 1, 0x0, 1, .ro, 0x0, 0x0⟩,
  ⟨"EV_OLDEST_HI", 0x900010, 0x0, 1, 0x0, 1, .ro, 0x0, 0x0⟩,
  ⟨"EV_OP_SECONDS", 0x900014, 0x0, 1, 0x0, 1, .ro, 0x0, 0x0⟩,
  ⟨"EV_POWER_CYCLES", 0x900018, 0x0, 1, 0x0, 1, .ro, 0x0, 0x0⟩,
  ⟨"EV_LIVE_PENDING", 0x90001C, 0x0, 1, 0x0, 1, .ro, 0x0, 0x0⟩,
  ⟨"EV_EVENTS", 0x900020, 0x0, 1, 0x0, 1, .w1c, 0x0, 0x0⟩,
  ⟨"EV_UE_COUNT", 0x900024, 0x0, 1, 0x0, 1, .rc, 0x0, 0x0⟩,
  ⟨"EV_RD_SEQ_LO", 0x900028, 0x0, 1, 0x0, 1, .rw, 0xFFFFFFFF, 0x0⟩,
  ⟨"EV_RD_SEQ_HI", 0x90002C, 0x0, 1, 0x0, 1, .rw, 0xFFFFFFFF, 0x0⟩,
  ⟨"EV_RD_STATUS", 0x900030, 0x0, 1, 0x0, 1, .ro, 0x0, 0x0⟩,
  ⟨"EV_RETRAIN", 0x900034, 0x0, 1, 0x0, 1, .ro, 0x0, 0xFFFFF⟩,
  ⟨"EV_PORT_DOWN", 0x900038, 0x0, 1, 0x0, 1, .ro, 0x0, 0x0⟩,
  ⟨"EV_RD_DATA", 0x900040, 0x4, 16, 0x0, 1, .ro, 0x0, 0x0⟩,
  ⟨"EV_CH_COUNT", 0x900100, 0x4, 64, 0x0, 1, .rc, 0x0, 0x0⟩]

/-- Part 7 of the register map. -/
def regMap7 : List RegRow := [
  ⟨"EV_CE_COUNT", 0x900200, 0x4, 13, 0x0, 1, .rc, 0x0, 0x0⟩,
  ⟨"EV_CTX_HEAD_LO", 0x1000800, 0x100000, 64, 0x0, 1, .ro, 0x0, 0x0⟩,
  ⟨"EV_CTX_HEAD_HI", 0x1000804, 0x100000, 64, 0x0, 1, .ro, 0x0, 0x0⟩,
  ⟨"EV_CTX_SEL_LO", 0x1000808, 0x100000, 64, 0x0, 1, .rw, 0xFFFFFFFF, 0x0⟩,
  ⟨"EV_CTX_SEL_HI", 0x100080C, 0x100000, 64, 0x0, 1, .rw, 0xFFFFFFFF, 0x0⟩,
  ⟨"EV_CTX_STATUS", 0x1000810, 0x100000, 64, 0x0, 1, .ro, 0x0, 0x0⟩,
  ⟨"EV_CTX_DATA", 0x1000840, 0x100000, 64, 0x4, 16, .ro, 0x0, 0x0⟩,
  ⟨"SC_ID_DEVICE", 0x0, 0x0, 1, 0x0, 1, .ro, 0x0, 0x0⟩,
  ⟨"SC_ID_SERIAL_LO", 0x4, 0x0, 1, 0x0, 1, .ro, 0x0, 0x0⟩,
  ⟨"SC_ID_SERIAL_HI", 0x8, 0x0, 1, 0x0, 1, .ro, 0x0, 0x0⟩,
  ⟨"SC_ID_LIFECYCLE", 0xC, 0x0, 1, 0x0, 1, .ro, 0x0, 0x0⟩,
  ⟨"SC_STATUS", 0xA00000, 0x0, 1, 0x0, 1, .ro, 0x0, 0x0⟩,
  ⟨"SC_EVENTS", 0xA00004, 0x0, 1, 0x0, 1, .w1c, 0x0, 0x0⟩,
  ⟨"SC_TOKEN_REJECT", 0xA00008, 0x0, 1, 0x0, 1, .rc, 0x0, 0x0⟩,
  ⟨"SC_FW_UPDATE", 0xA0000C, 0x0, 1, 0x0, 1, .ro, 0x0, 0x0⟩,
  ⟨"SC_FW_CLASS", 0xA00010, 0x4, 5, 0x0, 1, .ro, 0x0, 0x0⟩,
  ⟨"OT_GROUP", 0xA00100, 0x4, 8, 0x0, 1, .ro, 0x0, 0x0⟩,
  ⟨"PW_THERMAL", 0x800200, 0x0, 1, 0x0, 1, .ro, 0x0, 0x0⟩,
  ⟨"PW_THERMAL_EVENTS", 0x800204, 0x0, 1, 0x0, 1, .w1c, 0x0, 0x0⟩]

/-- The register map. A context register stands at its privileged instance (R20, R377); a register of the context
view alone at its window address. -/
def regMap : List RegRow :=
  regMap0 ++ regMap1 ++ regMap2 ++ regMap3 ++ regMap4 ++ regMap5 ++ regMap6 ++ regMap7

namespace Reg

def lgFault : Nat := 0x20000
def lgFaultPool : Nat := 0x20004
def lgReconCount : Nat := 0x20008
def lgSnapCtrl : Nat := 0x2000C
def lgSnapStatus : Nat := 0x20010
def lgSnapSize : Nat := 0x20014
def lgSnapHeld : Nat := 0x20018
def lgSnapInFlight : Nat := 0x2001C
def lgSnapParked : Nat := 0x20020
def lgSnapReturned : Nat := 0x20024
def lgSnapReclaimed : Nat := 0x20028
def lgReclaimTotalLo : Nat := 0x20030
def lgReclaimTotalHi : Nat := 0x20034
def mlArithStatus (i : Nat) : Nat := 0x100800 + 0x10000 * i
def mlSatCount (i : Nat) : Nat := 0x100804 + 0x10000 * i
def mlNotcertCount (i : Nat) : Nat := 0x100808 + 0x10000 * i
def mlNanCount (i : Nat) : Nat := 0x10080C + 0x10000 * i
def mlTagPeak (i : Nat) : Nat := 0x100810 + 0x10000 * i
def mlSrReseedCount (i : Nat) : Nat := 0x100814 + 0x10000 * i
def mlSrHealthFail (i : Nat) : Nat := 0x100818 + 0x10000 * i
def gvTagLimit (i : Nat) : Nat := 0x502000 + 0x4 * i
def gvTagReject (i : Nat) : Nat := 0x502040 + 0x4 * i
def mlId (i : Nat) : Nat := 0x100000 + 0x10000 * i
def mlState (i : Nat) : Nat := 0x100004 + 0x10000 * i
def mlCoreStatus (i : Nat) : Nat := 0x100020 + 0x10000 * i
def mlCoreHeartbeat (i : Nat) : Nat := 0x100024 + 0x10000 * i
def mlStageCfg (i j : Nat) : Nat := 0x100100 + 0x10000 * i + 0x4 * j
def mlHopper (i j : Nat) : Nat := 0x100200 + 0x10000 * i + 0x4 * j
def mlBankConflict (i : Nat) : Nat := 0x100300 + 0x10000 * i
def mlStone0Busy (i : Nat) : Nat := 0x100304 + 0x10000 * i
def mlStone1Busy (i : Nat) : Nat := 0x100308 + 0x10000 * i
def mlTailStall (i : Nat) : Nat := 0x10030C + 0x10000 * i
def ltMLatPeak : Nat := 0x200010
def ltMBoundMax : Nat := 0x200014
def ltHbmShareA : Nat := 0x200020
def ltHbmShareB : Nat := 0x200024
def ltRouterStall (i : Nat) : Nat := 0x200100 + 0x4 * i
def wrStatus (i : Nat) : Nat := 0x208000 + 0x400 * i
def wrAdmit (i : Nat) : Nat := 0x208004 + 0x400 * i
def wrWait (i : Nat) : Nat := 0x208008 + 0x400 * i
def wrRow (i j : Nat) : Nat := 0x208100 + 0x400 * i + 0x4 * j
def mpCmd : Nat := 0xB00000
def mpStatus : Nat := 0xB00004
def mpSrcOffset : Nat := 0xB00008
def mpSrcLength : Nat := 0xB0000C
def mpPlanIdLo : Nat := 0xB00010
def mpPlanIdHi : Nat := 0xB00014
def mpPlanGen : Nat := 0xB00018
def mpStaged : Nat := 0xB0001C
def mpPreload : Nat := 0xB00020
def mpLastSwap : Nat := 0xB00024
def mpCtrl : Nat := 0xB00028
def mpEvents : Nat := 0xB0002C
def mpEvac : Nat := 0xB00030
def mpLoadCount : Nat := 0xB00034
def mpMillSection (i : Nat) : Nat := 0xB00040 + 0x4 * i
def mlStripePos (i j : Nat) : Nat := 0x100400 + 0x10000 * i + 0x4 * j
def mlHaloLines (i : Nat) : Nat := 0x100420 + 0x10000 * i
def mlRowWait (i : Nat) : Nat := 0x100424 + 0x10000 * i
def mlBufWait (i : Nat) : Nat := 0x100428 + 0x10000 * i
def mlAttnCfg (i : Nat) : Nat := 0x100500 + 0x10000 * i
def mlKvRd (i : Nat) : Nat := 0x100504 + 0x10000 * i
def mlKvWr (i : Nat) : Nat := 0x100508 + 0x10000 * i
def mlKvWait (i : Nat) : Nat := 0x10050C + 0x10000 * i
def mlMergeWait (i : Nat) : Nat := 0x100510 + 0x10000 * i
def mlPadKeys (i : Nat) : Nat := 0x100514 + 0x10000 * i
def mlMergeDiscard (i : Nat) : Nat := 0x100518 + 0x10000 * i
def mlBucketItems (i j : Nat) : Nat := 0x100520 + 0x10000 * i + 0x4 * j
def mpStream (i : Nat) : Nat := 0xB01000 + 0x8 * i
def mpStreamGen (i : Nat) : Nat := 0xB01004 + 0x8 * i
def mpStreamStale : Nat := 0xB01800
def mpStreamMarks : Nat := 0xB01804
def mpStreamMoves : Nat := 0xB01808
def mtStatus : Nat := 0x300000
def mtHbmPages : Nat := 0x300004
def mtHbmFree : Nat := 0x300008
def mtStoreFree : Nat := 0x30000C
def mtLateCount : Nat := 0x300010
def mtFailCount : Nat := 0x300014
def mtCeCount : Nat := 0x300018
def mtPoisonLines : Nat := 0x30001C
def mtRepairStatus : Nat := 0x300020
def mtMapIndex : Nat := 0x300030
def mtMapEntryLo : Nat := 0x300034
def mtMapEntryHi : Nat := 0x300038
def mtMapCacheMiss : Nat := 0x30003C
def mtCmd : Nat := 0x300040
def mtCmdStatus : Nat := 0x300044
def mtCh (i : Nat) : Nat := 0x300100 + 0x4 * i
def mtQMpSize (i : Nat) : Nat := 0x301000 + 0x20 * i
def mtQMpHeld (i : Nat) : Nat := 0x301004 + 0x20 * i
def mtQHbmSize (i : Nat) : Nat := 0x301008 + 0x20 * i
def mtQHbmHeld (i : Nat) : Nat := 0x30100C + 0x20 * i
def mtQStoreSize (i : Nat) : Nat := 0x301010 + 0x20 * i
def mtQStoreHeld (i : Nat) : Nat := 0x301014 + 0x20 * i
def mtQLate (i : Nat) : Nat := 0x301018 + 0x20 * i
def mtQFail (i : Nat) : Nat := 0x30101C + 0x20 * i
def blStatus (i : Nat) : Nat := 0x400000 + 0x10000 * i
def blEpoch (i : Nat) : Nat := 0x400004 + 0x10000 * i
def blGridTimeLo (i : Nat) : Nat := 0x400008 + 0x10000 * i
def blGridTimeHi (i : Nat) : Nat := 0x40000C + 0x10000 * i
def blBuildUs (i : Nat) : Nat := 0x400010 + 0x10000 * i
def blLastBatchUs (i : Nat) : Nat := 0x400014 + 0x10000 * i
def blBatches (i : Nat) : Nat := 0x400018 + 0x10000 * i
def blTimeouts (i : Nat) : Nat := 0x40001C + 0x10000 * i
def blRechecks (i : Nat) : Nat := 0x400020 + 0x10000 * i
def blNoPath (i : Nat) : Nat := 0x400024 + 0x10000 * i
def blColliding (i : Nat) : Nat := 0x400028 + 0x10000 * i
def blEpochReject (i : Nat) : Nat := 0x40002C + 0x10000 * i
def blWatch (i : Nat) : Nat := 0x400030 + 0x10000 * i
def blCfgA (i : Nat) : Nat := 0x400040 + 0x10000 * i
def blCfgB (i : Nat) : Nat := 0x400044 + 0x10000 * i
def gvStatus : Nat := 0x500000
def gvBrakeWheel : Nat := 0x500004
def gvCmd : Nat := 0x500008
def gvEvents : Nat := 0x50000C
def gvLane (i : Nat) : Nat := 0x500010 + 0x4 * i
def gvCycleLo : Nat := 0x500020
def gvCycleHi : Nat := 0x500024
def gvVoteMismatch : Nat := 0x500028
def gvNoMajority : Nat := 0x50002C
def gvClampCount : Nat := 0x500030
def gvSatCount : Nat := 0x500034
def gvSlicePeak : Nat := 0x500038
def gvPlan : Nat := 0x50003C
def gvCfg : Nat := 0x500040
def gvImage : Nat := 0x500044
def gvPlanSkip : Nat := 0x500048
def gvJoint (i : Nat) : Nat := 0x500100 + 0x4 * i
def gvQueue (i : Nat) : Nat := 0x502080 + 0x4 * i
def gvConvSat (i : Nat) : Nat := 0x5020C0 + 0x4 * i
def fuStatus : Nat := 0x503000
def fuDesyncLo : Nat := 0x503004
def fuDesyncHi : Nat := 0x503008
def fuGates : Nat := 0x50300C
def fuLate : Nat := 0x503010
def fuOutlier : Nat := 0x503014
def fuDesyncEvents : Nat := 0x503018
def fuConflictEvents : Nat := 0x50301C
def fuMalformed : Nat := 0x503020
def fuStream (i : Nat) : Nat := 0x503100 + 0x4 * i
def fuPhase (i : Nat) : Nat := 0x503200 + 0x4 * i
def svLast : Nat := 0x504000
def svResid : Nat := 0x504004
def svTiming : Nat := 0x504008
def svCfg : Nat := 0x50400C
def svDigest : Nat := 0x504010
def svWarmDigest : Nat := 0x504014
def svNotcertCount : Nat := 0x504018
def svPivotCount : Nat := 0x50401C
def svSatCount : Nat := 0x504020
def svMismatchCount : Nat := 0x504024
def svFallbackCount : Nat := 0x504028
def tmStatus : Nat := 0x600000
def tmCtrl : Nat := 0x600004
def tmCmd : Nat := 0x600008
def tmEvents : Nat := 0x60000C
def tmNowNs : Nat := 0x600010
def tmNowSecLo : Nat := 0x600014
def tmNowSecHi : Nat := 0x600018
def tmNowFrac : Nat := 0x60001C
def tmSetNs : Nat := 0x600020
def tmSetSecLo : Nat := 0x600024
def tmSetSecHi : Nat := 0x600028
def tmOffset : Nat := 0x60002C
def tmRate : Nat := 0x600030
def tmRateInt : Nat := 0x600034
def tmServo : Nat := 0x600038
def tmStepThreshold : Nat := 0x60003C
def tmHoldoverS : Nat := 0x600040
def tmGmIdLo : Nat := 0x600044
def tmGmIdHi : Nat := 0x600048
def tmClockQuality : Nat := 0x60004C
def tmTickPhase : Nat := 0x600050
def tmPpsDelay : Nat := 0x600054
def tmPpsCapNs : Nat := 0x600058
def tmPpsCapSecLo : Nat := 0x60005C
def tmPpsCapSecHi : Nat := 0x600060
def tmUtcOffset : Nat := 0x600064
def tmLaunchLate : Nat := 0x600068
def tmLaunchErrPeak : Nat := 0x60006C
def tmCopyFix : Nat := 0x600070
def tmPortCfg (i : Nat) : Nat := 0x600100 + 0x20 * i
def tmPortState (i : Nat) : Nat := 0x600104 + 0x20 * i
def tmLatIn (i : Nat) : Nat := 0x600108 + 0x20 * i
def tmLatOut (i : Nat) : Nat := 0x60010C + 0x20 * i
def tmAsym (i : Nat) : Nat := 0x600110 + 0x20 * i
def tmLinkDelay (i : Nat) : Nat := 0x600114 + 0x20 * i
def tmPortErr (i : Nat) : Nat := 0x600118 + 0x20 * i
def hpStatus : Nat := 0x10000
def hpCtrl : Nat := 0x10004
def hpEvents : Nat := 0x10008
def hpEventEn : Nat := 0x1000C
def hpPendingLo : Nat := 0x10010
def hpPendingHi : Nat := 0x10014
def hpStrayCount : Nat := 0x10018
def hpStrayAddr : Nat := 0x1001C
def hpPartialCount : Nat := 0x10020
def hpDropped : Nat := 0x10024
def hpTrain : Nat := 0x10028
def hpCtxCmd : Nat := 0x10040
def hpCmdStatus : Nat := 0x10044
def hpMbSqDb : Nat := 0x10060
def hpMbCqDb : Nat := 0x10080
def hpMbStatus : Nat := 0x100A0
def hpCtxStatus (i : Nat) : Nat := 0x11000 + 0x100 * i
def hpCtxSqCons (i : Nat) : Nat := 0x11004 + 0x100 * i
def hpCtxCqProd (i : Nat) : Nat := 0x11008 + 0x100 * i
def hpCtxCredA (i : Nat) : Nat := 0x1100C + 0x100 * i
def hpCtxCredB (i : Nat) : Nat := 0x11010 + 0x100 * i
def hpCtxEvents (i : Nat) : Nat := 0x11014 + 0x100 * i
def hpCtxEventEn (i : Nat) : Nat := 0x11018 + 0x100 * i
def hpCtxCfg (i : Nat) : Nat := 0x1101C + 0x100 * i
def hpCtxPond (i : Nat) : Nat := 0x11020 + 0x100 * i
def hpCtxSqDb (i : Nat) : Nat := 0x1001000 + 0x100000 * i
def hpCtxCqDb (i : Nat) : Nat := 0x1001020 + 0x100000 * i
def pxModuleId : Nat := 0x700000
def pxStatus : Nat := 0x700004
def pxEvents : Nat := 0x700008
def pxPortCfg (i : Nat) : Nat := 0x701000 + 0x100 * i
def pxGrantA (i : Nat) : Nat := 0x701004 + 0x100 * i
def pxGrantB (i : Nat) : Nat := 0x701008 + 0x100 * i
def pxPortStatus (i : Nat) : Nat := 0x70100C + 0x100 * i
def pxRxFrames (i : Nat) : Nat := 0x701010 + 0x100 * i
def pxTxFrames (i : Nat) : Nat := 0x701014 + 0x100 * i
def pxRxErr (i : Nat) : Nat := 0x701018 + 0x100 * i
def pxStale (i : Nat) : Nat := 0x70101C + 0x100 * i
def pxPeerLoss (i : Nat) : Nat := 0x701020 + 0x100 * i
def pxPeer (i : Nat) : Nat := 0x708000 + 0x4 * i
def snLane (i : Nat) : Nat := 0x780000 + 0x4 * i
def snLaneErr (i : Nat) : Nat := 0x780040 + 0x4 * i
def snStream (i : Nat) : Nat := 0x780100 + 0x10 * i
def snFrame (i : Nat) : Nat := 0x780104 + 0x10 * i
def snRefused (i : Nat) : Nat := 0x780108 + 0x10 * i
def snErr (i : Nat) : Nat := 0x78010C + 0x10 * i
def snUnbound : Nat := 0x780400
def mrStatus : Nat := 0x788000
def mrCfg : Nat := 0x788004
def mrEvents : Nat := 0x788008
def mrTraversal : Nat := 0x78800C
def mrReturnMiss : Nat := 0x788010
def mrRxErr (i : Nat) : Nat := 0x788020 + 0x4 * i
def mrDrive (i : Nat) : Nat := 0x788100 + 0x4 * i
def ckStatus : Nat := 0x800000
def ckEvents : Nat := 0x800004
def ckCdcTimeouts : Nat := 0x800008
def ckCdcLast : Nat := 0x80000C
def ckCrossMode : Nat := 0x800010
def pwStatus : Nat := 0x800100
def pwSupply : Nat := 0x800104
def pwSupplyMin : Nat := 0x800108
def pwInput : Nat := 0x80010C
def pwHoldup : Nat := 0x800110
def pwCap : Nat := 0x800114
def pwThrottle : Nat := 0x800118
def pwDipLast : Nat := 0x80011C
def pwDipCount : Nat := 0x800120
def pwEvents : Nat := 0x800124
def pwResetCause : Nat := 0x800128
def pwResetCmd : Nat := 0x80012C
def pwResetStatus : Nat := 0x800130
def pwBoot : Nat := 0x800134
def evStatus : Nat := 0x900000
def evHeadLo : Nat := 0x900004
def evHeadHi : Nat := 0x900008
def evOldestLo : Nat := 0x90000C
def evOldestHi : Nat := 0x900010
def evOpSeconds : Nat := 0x900014
def evPowerCycles : Nat := 0x900018
def evLivePending : Nat := 0x90001C
def evEvents : Nat := 0x900020
def evUeCount : Nat := 0x900024
def evRdSeqLo : Nat := 0x900028
def evRdSeqHi : Nat := 0x90002C
def evRdStatus : Nat := 0x900030
def evRetrain : Nat := 0x900034
def evPortDown : Nat := 0x900038
def evRdData (i : Nat) : Nat := 0x900040 + 0x4 * i
def evChCount (i : Nat) : Nat := 0x900100 + 0x4 * i
def evCeCount (i : Nat) : Nat := 0x900200 + 0x4 * i
def evCtxHeadLo (i : Nat) : Nat := 0x1000800 + 0x100000 * i
def evCtxHeadHi (i : Nat) : Nat := 0x1000804 + 0x100000 * i
def evCtxSelLo (i : Nat) : Nat := 0x1000808 + 0x100000 * i
def evCtxSelHi (i : Nat) : Nat := 0x100080C + 0x100000 * i
def evCtxStatus (i : Nat) : Nat := 0x1000810 + 0x100000 * i
def evCtxData (i j : Nat) : Nat := 0x1000840 + 0x100000 * i + 0x4 * j
def scIdDevice : Nat := 0x0
def scIdSerialLo : Nat := 0x4
def scIdSerialHi : Nat := 0x8
def scIdLifecycle : Nat := 0xC
def scStatus : Nat := 0xA00000
def scEvents : Nat := 0xA00004
def scTokenReject : Nat := 0xA00008
def scFwUpdate : Nat := 0xA0000C
def scFwClass (i : Nat) : Nat := 0xA00010 + 0x4 * i
def otGroup (i : Nat) : Nat := 0xA00100 + 0x4 * i
def pwThermal : Nat := 0x800200
def pwThermalEvents : Nat := 0x800204

end Reg

end Sys2Proof.Machine
end

