-- ==== Sys2Proof/Machine/Ops.lean ====
section
/-!
DEFINITION. The named operations every command is built from: the register bank, the byte memories, the credit ledger,
the event recorder, module time and the free values.
-/
namespace Sys2Proof.Machine

/-- What a command answers. -/
abbrev Out := Host.Outcome State Fault Refusal

/-! ### The register bank (R19–R24) -/

/-- Whether a row of the map holds the register at an address. -/
def RegRow.covers (r : RegRow) (a : Nat) : Bool :=
  r.base ≤ a && a < r.base + r.stride1 * (r.count1 - 1) + r.stride2 * (r.count2 - 1) + 4 &&
  (let o := a - r.base
   let i := if r.stride1 = 0 then 0 else min (o / r.stride1) (r.count1 - 1)
   let o' := o - i * r.stride1
   let j := if r.stride2 = 0 then 0 else min (o' / r.stride2) (r.count2 - 1)
   o' = j * r.stride2)

/-- The row of the register at an address, if one is there. -/
def regRow (a : Nat) : Option RegRow := regMap.find? (fun r => r.covers a)

/-- The trimmed latency register at an address of TM_LAT_IN_p or TM_LAT_OUT_p, from OPTIC_TRIM (R350, R476). -/
def latReset (s : State) (a : Nat) : Option Nat :=
  let o := a - 0x600108
  if 0x600108 ≤ a && o / 0x20 < 26 && (o % 0x20 = 0 || o % 0x20 = 4) then
    some (leAt ((Tbl.getD s.sec.groups 3 {}).shadow) (8 * (o / 0x20) + o % 0x20) 4)
  else none

/-- The value a register has after reset: its Reset column, or its trim from OTP. -/
def regReset (s : State) (a : Nat) : Word :=
  match latReset s a with
  | some n => word n
  | none => match regRow a with
    | some r => word r.reset
    | none => 0

/-- A register of the bank. -/
def State.reg (s : State) (a : Nat) : Word :=
  match Tbl.find s.regs a with
  | some w => w
  | none => regReset s a

/-- A register of the bank as a number. -/
def State.regN (s : State) (a : Nat) : Nat := (s.reg a).toNat

/-- The bank with one register set. -/
def State.setReg (s : State) (a : Nat) (w : Word) : State := { s with regs := Tbl.set s.regs a w }

/-- A counter of the bank raised by `n`, stopping at 0xFFFF_FFFF. -/
def State.bump (s : State) (a n : Nat) : State := s.setReg a (word (sat32 (s.regN a + n)))

/-- Bits of an event register set (R21: an event sets its W1C bit). -/
def State.raise (s : State) (a mask : Nat) : State := s.setReg a (s.reg a ||| word mask)

/-- A peak register raised to `n` where it is larger. -/
def State.peakReg (s : State) (a n : Nat) : State := if s.regN a < n then s.setReg a (word n) else s

/-- Registers of a range of addresses back at their reset values. -/
def State.clearRegs (s : State) (lo hi : Nat) : State :=
  { s with regs := Tbl.drop s.regs (fun a => lo ≤ a && a < hi)
           hold := Tbl.drop s.hold (fun a => lo ≤ a && a < hi) }

/-! ### Free values -/

/-- The next free value, and the state that has drawn it. -/
def State.free (s : State) : Nat × State := (Config.freeWord s.freeN, { s with freeN := s.freeN + 1 })

/-- The state after `n` free values have been drawn; value `i` of them is `Config.freeWord (freeN + i)`. -/
def State.drew (s : State) (n : Nat) : State := { s with freeN := s.freeN + n }

/-! ### Byte memories -/

/-- A byte of a list of cells in rising order, or the byte of an unlisted address. -/
def cellRead (gen : Nat) : List Host.Cell → Nat → Byte
  | [], a => Mem.unlisted gen a
  | (k, b) :: t, a => if k = a then b else cellRead gen t a

/-- Cells with one byte written; the entry goes where the byte is what an unlisted address reads as. -/
def cellWrite (gen : Nat) : List Host.Cell → Nat → Byte → List Host.Cell
  | [], a, v => if v = Mem.unlisted gen a then [] else [(a, v)]
  | (k, b) :: t, a, v =>
    if a < k then (if v = Mem.unlisted gen a then (k, b) :: t else (a, v) :: (k, b) :: t)
    else if k = a then (if v = Mem.unlisted gen a then t else (a, v) :: t)
    else (k, b) :: cellWrite gen t a v

/-- The canonical form of cells: addresses above `lo` strictly rising, no entry equal to an unlisted byte. -/
def cellsOk (gen : Nat) : Option Nat → List Host.Cell → Bool
  | _, [] => true
  | lo, (k, b) :: t =>
    (match lo with
     | none => true
     | some l => decide (l < k)) && decide (b ≠ Mem.unlisted gen k) && cellsOk gen (some k) t

/-- A memory is in its canonical form. -/
def Mem.wf (m : Mem) : Bool := cellsOk m.gen none m.cells

/-- One byte of a memory. -/
def Mem.read (m : Mem) (a : Nat) : Byte := cellRead m.gen m.cells a

/-- One byte written. -/
def Mem.write (m : Mem) (a : Nat) (b : Byte) : Mem := { m with cells := cellWrite m.gen m.cells a b }

/-- Bytes written from an address upward. -/
def Mem.writeBytes (m : Mem) (a : Nat) : Bytes → Mem
  | [] => m
  | b :: bs => (m.write a b).writeBytes (a + 1) bs

/-- `n` bytes from an address upward. -/
def Mem.readBytes (m : Mem) (a : Nat) : Nat → Bytes
  | 0 => []
  | n + 1 => m.read a :: m.readBytes (a + 1) n

/-- A little-endian number of `n` bytes. -/
def Mem.readN (m : Mem) (a n : Nat) : Nat := leNat (m.readBytes a n)

/-- A memory whose contents have become undefined (R382, R383, R439). -/
def Mem.lose (m : Mem) : Mem := { gen := m.gen + 1, cells := [] }

/-- A memory whose bytes in [lo, hi) read as what they held at the last loss: a discarded range. -/
def Mem.drop (m : Mem) (lo hi : Nat) : Mem :=
  { m with cells := m.cells.filter (fun c => c.1 < lo || hi ≤ c.1) }

/-- The four tiers a local address can lie in (R48). -/
inductive Tier where
  | pond | host | hbm | store
  deriving DecidableEq, Repr

/-- Allocatable pages of the HBM (R219). -/
def hbmPages : Nat := 3293338

/-- The tier of a local address, none where it is unmapped or unpopulated (R48). -/
def tierOf (a : Nat) : Option Tier :=
  if a < 0x40000000 then (if a % 0x4000000 < 0x2800000 then some .pond else none)
  else if a < 0x44000000 then some .host
  else if 0x10000000000 ≤ a && a < 0x10000000000 + 216000000000 then some .hbm
  else if 0x800000000000 ≤ a && a < 0x880000000000 then some .store
  else none

/-- Whether [a, a + n) lies in one tier, none of it unmapped or unpopulated (R48). -/
def tierRange (a n : Nat) (t : Tier) : Bool :=
  tierOf a = some t && tierOf (a + n - 1) = some t &&
  (t ≠ .pond || a / 0x4000000 = (a + n - 1) / 0x4000000)

/-- `n` bytes at a local address (R48). The host pond stands at window address 0x4000_0000 as at local address. -/
def Memories.readLocal (m : Memories) (a n : Nat) : Bytes :=
  match tierOf a with
  | some .pond => m.pond.readBytes a n
  | some .host => m.sram.readBytes a n
  | some .hbm => m.hbm.readBytes a n
  | some .store => m.store.readBytes a n
  | none => zeros n

/-- Bytes written at a local address (R48). -/
def Memories.writeLocal (m : Memories) (a : Nat) (bs : Bytes) : Memories :=
  match tierOf a with
  | some .pond => { m with pond := m.pond.writeBytes a bs }
  | some .host => { m with sram := m.sram.writeBytes a bs }
  | some .hbm => { m with hbm := m.hbm.writeBytes a bs }
  | some .store => { m with store := m.store.writeBytes a bs }
  | none => m

/-- Every memory is in its canonical form. -/
def Memories.wf (m : Memories) : Bool := m.sram.wf && m.pond.wf && m.hbm.wf && m.store.wf && m.ram.wf

/-- `n` bytes at a local address of the module. -/
def State.local (s : State) (a n : Nat) : Bytes := s.mem.readLocal a n

/-- Bytes written at a local address of the module. -/
def State.setLocal (s : State) (a : Nat) (bs : Bytes) : State := { s with mem := s.mem.writeLocal a bs }

/-! ### Module time (R343–R345) -/

/-- Units of a time copy in 1 ns: fifths of 2^−40 ns. -/
def nsUnit : Nat := 5 * 2 ^ 40

/-- The time that the voter distributes: the value two copies agree on, otherwise that of the lowest-lettered lane in
service (R345). -/
def State.timeUnits (s : State) : Nat :=
  let a := nth s.tm.copies 0 0
  let b := nth s.tm.copies 1 0
  let c := nth s.tm.copies 2 0
  if a = b ∨ a = c then a
  else if b = c then b
  else
    let ok (l : Nat) : Bool := (Tbl.getD s.gov.lanes l {}).state = .inService
    if ok 0 then a else if ok 1 then b else if ok 2 then c else a

/-- Module time in ns. -/
def State.now (s : State) : Nat := s.timeUnits / nsUnit

/-- Module time in 2^−16 ns (R343: the shown fraction). -/
def State.now16 (s : State) : Nat := s.timeUnits / (5 * 2 ^ 24)

/-- The store controller serves: it has started and its domain is not in reset (R438, R453, R486). -/
def State.storeUp (s : State) : Bool := s.tiers.storeReady && !has s.ck.held 7

/-! ### The credit ledger (R38–R42) -/

/-- A pool. -/
def State.pool (s : State) (p : Nat) : Pool := Tbl.getD s.ledger.pools p {}

/-- A pool replaced. -/
def State.setPool (s : State) (p : Nat) (x : Pool) : State :=
  { s with ledger := { s.ledger with pools := Tbl.set s.ledger.pools p x } }

/-- R39. -/
def Pool.balanced (x : Pool) : Bool := x.size = x.held + x.inFlight + x.parked + x.returned + x.reclaimed

/-- The five places of R39. -/
inductive Place where
  | held | inFlight | parked | returned | reclaimed
  deriving DecidableEq, Repr

/-- The count of a place. -/
def Pool.count (x : Pool) : Place → Nat
  | .held => x.held
  | .inFlight => x.inFlight
  | .parked => x.parked
  | .returned => x.returned
  | .reclaimed => x.reclaimed

/-- A pool with the count of a place set. -/
def Pool.put (x : Pool) (p : Place) (n : Nat) : Pool :=
  match p with
  | .held => { x with held := n }
  | .inFlight => { x with inFlight := n }
  | .parked => { x with parked := n }
  | .returned => { x with returned := n }
  | .reclaimed => { x with reclaimed := n }

/-- `n` items moved from one place to another, at most what the first holds. -/
def Pool.move (x : Pool) (a b : Place) (n : Nat) : Pool :=
  let k := min n (x.count a)
  let y := x.put a (x.count a - k)
  y.put b (y.count b + k)

/-- Items of a pool moved from one place to another. -/
def State.move (s : State) (p : Nat) (a b : Place) (n : Nat) : State := s.setPool p ((s.pool p).move a b n)

/-- Pools whose index R38 reserves. -/
def poolReserved (p : Nat) : Bool := (146 ≤ p && p < 160) || 464 ≤ p

/-- A pool is in fault and not fault-reconciled (R41, R460). -/
def State.poolFault (s : State) (p : Nat) : Bool := has s.ledger.faulted p

/-! ### The event recorder (R465–R469) -/

/-- Bytes 0x00–0x3B of a record (R466). -/
def Rec.head (r : Rec) : Bytes :=
  le 8 r.seq ++ le 4 r.opSeconds ++ le 4 r.powerCycles ++ le 8 r.timeNs ++ le 1 r.channel ++ le 1 r.status ++
  le 1 r.context ++ le 1 r.flags ++ le 2 r.source ++ le 2 r.event ++ padTo 28 r.detail

/-- The 64 bytes of a record (R466). -/
def Rec.bytes (r : Rec) : Bytes := r.head ++ le 4 (crc32 r.head)

/-- The live channels (R465). -/
def liveChannel (c : Nat) : Bool := 60 ≤ c && c < 64

/-- The record buffer has no place for channels 1–59 (R467: 4,096 places, 256 of them kept). -/
def Recorder.full (r : Recorder) : Bool := 3840 ≤ r.buffer.length

/-- The record of an event as it stands at its instant, with number `seq`. -/
def State.newRec (s : State) (seq ch event status ctx source flags : Nat) (detail : Bytes) : Rec :=
  { seq := seq, opSeconds := s.ev.opSeconds, powerCycles := s.ev.powerCycles,
    timeNs := if s.tm.running then s.now else 0, channel := ch, status := status, context := ctx, flags := flags,
    source := source, event := event, detail := padTo 28 detail }

/-- A record enters the buffer and the head follows (R467). -/
def State.enterRec (s : State) (r : Rec) : State :=
  { s with ev := { s.ev with buffer := s.ev.buffer ++ [r], head := max s.ev.head r.seq } }

/-- An event writes its record (R467): a live record takes its number and is pending; any other takes its number as it
enters, or is counted for its channel where the buffer has no place. `ctx` is 0xFF for none. -/
def State.record (s : State) (ch event status ctx source : Nat) (detail : Bytes) : State :=
  let s := s.bump (Reg.evChCount ch) 1
  let n := s.ev.next
  if liveChannel ch then
    let r := s.newRec n ch event status ctx source 1 detail
    { s with ev := { s.ev with next := n + 1, pendingLive := s.ev.pendingLive ++ [r] } }
  else if ch ≠ 0 && s.ev.full then
    { s with ev := { s.ev with coalesce := Tbl.set s.ev.coalesce ch (Tbl.getD s.ev.coalesce ch 0 + 1) } }
  else
    let r := s.newRec n ch event status ctx source 0 detail
    { s with ev := { s.ev with next := n + 1 } }.enterRec r

/-! ### Repair entries (R481) -/

/-- Bits [55:0] of a repair entry. -/
def Repair.low (r : Repair) : Nat :=
  put 0 2 r.kind + put 2 3 r.station + put 5 4 r.channel + put 9 5 r.bank + put 14 18 r.row + put 32 3 r.spare +
  put 35 4 r.mill

/-- The 8 bytes of a repair entry. -/
def Repair.bytes (r : Repair) : Bytes := le 7 r.low ++ le 1 (crc8 (le 7 r.low))

/-! ### Ledger events -/

/-- Resizing through the returned count (R125, R460): not while the pool is in fault; one record on channel 1. A pool
shrinks by at most what it has returned. -/
def State.resize (s : State) (p n : Nat) : State :=
  let x := s.pool p
  if s.poolFault p || x.size = n then s
  else
    let m := max n (x.size - min x.size x.returned)
    if m = x.size then s
    else
      let y := { x with size := m, returned := x.returned + m - x.size }
      (s.setPool p y).record 1 0x40 0 0xFF p (le 4 x.size ++ le 4 m)

/-- A reconciliation of `n` items of a place into reclaimed, with its record on channel 2 (R40). `cause` 1 is the reset
of domain `code`, 2 the loss of peer `peer` on Phirov port `code`. -/
def State.reclaim (s : State) (p : Nat) (a : Place) (n cause code peer : Nat) : State :=
  let k := min n ((s.pool p).count a)
  if k = 0 then s
  else
    let s := s.move p a .reclaimed k
    let s := { s with ledger := { s.ledger with recons := s.ledger.recons + 1,
                                                reclaimTotal := s.ledger.reclaimTotal + k } }
    s.record 2 1 0 0xFF p (le 4 k ++ le 1 cause ++ le 1 code ++ le 2 peer)

/-- A reconciliation of all held and in-flight items of a pool: one record with both counts (R40). -/
def State.reclaimAll (s : State) (p cause code peer : Nat) : State :=
  let x := s.pool p
  let k := x.held + x.inFlight
  if k = 0 then s
  else
    let s := (s.move p .held .reclaimed x.held).move p .inFlight .reclaimed x.inFlight
    let s := { s with ledger := { s.ledger with recons := s.ledger.recons + 1,
                                                reclaimTotal := s.ledger.reclaimTotal + k } }
    s.record 2 1 0 0xFF p (le 4 k ++ le 1 cause ++ le 1 code ++ le 2 peer)

/-- Reclaimed items released to returned, with their record (R40). -/
def State.releasePool (s : State) (p : Nat) : State :=
  let k := (s.pool p).reclaimed
  if k = 0 then s
  else (s.move p .reclaimed .returned k).record 2 2 0 0xFF p (le 4 k)

/-- The counts of a pool as channel 63 records them (R466). -/
def Pool.detail (x : Pool) (p : Nat) : Bytes :=
  le 2 p ++ le 2 0 ++ le 4 x.size ++ le 4 x.held ++ le 4 x.inFlight ++ le 4 x.parked ++ le 4 x.returned ++
  le 4 x.reclaimed

/-- The fault flags and the record of a pool whose counts broke R39 (R41, R460). -/
def State.flagFault (s : State) (p : Nat) : State :=
  let bad := fld (s.reg Reg.lgFault) 0 0 = 1
  let s := s.raise Reg.lgFault (if bad then 2 else 1)
  let s := { s with ledger := { s.ledger with
    faulted := addN s.ledger.faulted p
    faultPool := if bad then s.ledger.faultPool else some p } }
  s.record 63 1 0x11 0xFF p ((s.pool p).detail p)

/-- Fault-reconciliation of a pool at a new size (R460): one more record with the counts, then a known start. -/
def State.faultReconcile (s : State) (p size : Nat) : State :=
  if s.poolFault p then
    let s := s.record 63 2 0x11 0xFF p ((s.pool p).detail p)
    let s := s.setPool p { size := size, returned := size }
    { s with ledger := { s.ledger with faulted := remN s.ledger.faulted p } }
  else s

/-- A pool set to a size for a recovery action or a load: fault-reconciled where it is in fault (R460), resized where it
is not (R125). -/
def State.sizePool (s : State) (p n : Nat) : State :=
  if s.poolFault p then s.faultReconcile p n else s.resize p n

end Sys2Proof.Machine
end

