-- ==== Sys2Proof/Machine/Shared.lean ====
section
/-!
DEFINITION. Operations that several families share: sections of the loaded millplan, the brake wheel and the governor
lanes, mills, streams of requests and their completions.
-/
namespace Sys2Proof.Machine

/-! ### Sections (R112–R116) -/

/-- The body of a section (R114). -/
def Section.body (x : Section) : Bytes := (x.bytes.drop (leAt x.bytes 0x18 4)).take (leAt x.bytes 4 4)

/-- The context field of a section's header (R114). -/
def Section.ctx (x : Section) : Nat := leAt x.bytes 2 1

/-- A manifest entry (R115): pool, kind (0 OWN, 1 GRANT), count, self_open. -/
structure Manifest where
  pool : Nat
  kind : Nat
  count : Nat
  selfOpen : Nat
  deriving DecidableEq, Repr

/-- The credit manifest of a section (R115). -/
def Section.manifest (x : Section) : List Manifest :=
  (List.range (leAt x.bytes 8 2)).map (fun i =>
    let o := leAt x.bytes 0x10 4 + 8 * i
    { pool := leAt x.bytes o 2 % 512, kind := leAt x.bytes (o + 2) 1, count := leAt x.bytes (o + 4) 2,
      selfOpen := leAt x.bytes (o + 6) 2 })

/-- The section of a type and target in a millplan. -/
def Plan.find (p : Plan) (typ target : Nat) : Option Section :=
  p.sections.find? (fun x => x.typ = typ && x.target = target)

/-- The section of a type and target in force: of a fallback placement, or of the loaded millplan. -/
def State.sect (s : State) (typ target : Nat) : Option Section :=
  match s.loader.placed.find? (fun x => x.typ = typ && x.target = target) with
  | some x => some x
  | none => s.loader.loaded.bind (fun p => p.find typ target)

/-- The body of a section of the loaded millplan, empty where there is none. -/
def State.body (s : State) (typ target : Nat) : Bytes :=
  match s.sect typ target with
  | some x => x.body
  | none => []

/-! ### Mills and governor lanes -/

def State.mill (s : State) (m : Nat) : Mill := Tbl.getD s.mills m {}
def State.setMill (s : State) (m : Nat) (x : Mill) : State := { s with mills := Tbl.set s.mills m x }
def State.lane (s : State) (l : Nat) : Lane := Tbl.getD s.gov.lanes l {}
def State.setLane (s : State) (l : Nat) (x : Lane) : State :=
  { s with gov := { s.gov with lanes := Tbl.set s.gov.lanes l x } }

/-- Lane l is counted in votes (R294): it is IN_SERVICE and its domain is powered. -/
def State.laneIn (s : State) (l : Nat) : Bool := s.pw.motionOn && (s.lane l).state = .inService

/-- The lanes in service. -/
def State.lanesIn (s : State) : List Nat := [0, 1, 2].filter (fun l => s.laneIn l)

/-- A mill enters FAULT (R90, R109, R457): cause bits as ML_STATE[6:4] shows them, and the faulted pool of a ledger
stop. -/
def State.millFault (s : State) (m cause pool : Nat) : State :=
  let x := s.mill m
  if x.state = .fault ∨ x.state = .evacuated then s
  else
    let s := s.setMill m { x with state := .fault, drained := false, ledgerStop := bitN cause 0, watchdog := bitN cause 1,
                                  uncorrectable := bitN cause 2, faultPool := pool, tested := false }
    s.record 4 5 (if bitN cause 0 then 0x11 else 0) 0xFF m (le 1 cause ++ le 2 pool)

/-! ### The brake wheel (R289–R293) -/

/-- Codes of R289. -/
def Wheel.code : Wheel → Nat
  | .standby => 0
  | .run => 1
  | .brake => 2
  | .hold => 3
  | .sto => 4

/-- GV_BRAKE_WHEEL, bits [15:0]. -/
def BrakeWheel.bits (w : BrakeWheel) : Nat :=
  w.state.code + put 3 1 (b2n w.supply) + put 4 6 (maskOf w.hold) + put 10 4 (maskOf w.sto) +
  put 14 1 (b2n w.capConflict) + put 15 1 (b2n w.capQueue)

/-- The state the causes call for: STO is left only through CLEAR_STO, and STANDBY only through ENABLE or an STO cause
(R289, R293). -/
def BrakeWheel.target (w : BrakeWheel) : Wheel :=
  match w.state with
  | .sto => .sto
  | .standby => if w.sto = [] then .standby else .sto
  | _ =>
    if w.sto ≠ [] then .sto
    else if w.hold ≠ [] then .hold
    else if w.supply then .brake
    else .run

/-- The speed cap of R292. -/
def BrakeWheel.cap (w : BrakeWheel) : Bool := w.supply || w.capConflict || w.capQueue

/-- The brake wheel put into a state: events and the record of a transition (R293, GV_EVENTS). -/
def State.wheelTo (s : State) (t : Wheel) : State :=
  let w := s.gov.wheel
  if t = w.state then s
  else
    let s := { s with gov := { s.gov with wheel := { w with state := t } } }
    let ev := (if t = .hold then 8 else 0) + (if w.state = .hold then 16 else 0) + (if t = .sto then 32 else 0)
    let s := s.raise Reg.gvEvents ev
    s.record 62 t.code 0 0xFF 0 (le 1 w.state.code ++ le 1 0 ++ le 2 s.gov.wheel.bits ++ le 4 s.gov.tick)

/-- The causes replaced and the state they call for taken (R289). -/
def State.setWheel (s : State) (w : BrakeWheel) : State :=
  let w := { w with state := s.gov.wheel.state }
  ({ s with gov := { s.gov with wheel := w } }).wheelTo w.target

/-- HOLD causes (R290): 0 plan, 1 mpc, 2 queue, 3 single_lane, 4 host, 5 fusion. -/
def State.holdCause (s : State) (c : Nat) (on : Bool) : State :=
  s.setWheel { s.gov.wheel with hold := if on then addN s.gov.wheel.hold c else remN s.gov.wheel.hold c }

/-- STO causes: 0 supply_reset, 1 majority, 2 single_lane, 3 host. -/
def State.stoCause (s : State) (c : Nat) : State := s.setWheel { s.gov.wheel with sto := addN s.gov.wheel.sto c }

/-- The HOLD cause single_lane follows the lanes in service (R290, R298); the time of the first moment with one lane is
kept. -/
def State.laneCount (s : State) : State :=
  match s.lanesIn.length with
  | 1 =>
    let s := { s with gov := { s.gov with singleSince := some (s.gov.singleSince.getD s.now) } }
    s.holdCause 3 true
  | 0 => s
  | _ => ({ s with gov := { s.gov with singleSince := none } }).holdCause 3 false

/-- Isolation causes as GV_LANE shows them (R294): 1 vote, 2 absent, 3 HyperRAM, 4 watchdog, 5 reset, 6 CDC_TIMEOUT,
7 copy mismatch. The record holds the voting point and the first minority word with both values (R466). A lane isolated
for the third time within one hour goes to OUT (R297). -/
def State.isolate (s : State) (l cause point off minor major : Nat) : State :=
  let x := s.lane l
  if x.state = .out ∨ x.state = .isolated then s
  else
    let recent := (s.now :: x.isolations).filter (fun t => s.now - t < 3600000000000)
    let st : LaneState := if 3 ≤ recent.length then .out else .isolated
    let s := s.setLane l { x with state := st, cause := cause, shadow := 0, copied := false,
                                  isolations := recent }
    let s := s.raise Reg.gvEvents (if st = .out then 5 else 1)
    let s := s.record 60 (if st = .out then 4 else 1) 0x1F 0xFF l
      (le 1 l ++ le 1 cause ++ le 1 point ++ le 1 0 ++ le 4 s.gov.tick ++ le 4 off ++ le 4 minor ++ le 4 major)
    s.laneCount

/-! ### Fusion sources return to ACQUIRE (R307, R357) -/

/-- Every bound source returns to ACQUIRE. -/
def State.fusionAcquire (s : State) : State :=
  { s with fus := { s.fus with
      tracks := s.fus.tracks.map (fun e => (e.1,
        if e.2.state = .unbound then e.2
        else { e.2 with state := .acquire, good := 0, run := [], outliers := 0 }))
      instant := none } }

/-! ### Host requests (R385–R392) -/

/-- The accepted request of a context at an index; 64 is the mailbox. -/
def State.request (s : State) (ctx idx : Nat) : Option Request :=
  s.hp.requests.find? (fun r => r.ctx = ctx && r.idx = idx)

/-- A request completes: it leaves the accepted ones and its completion entry waits to be written (R390). -/
def State.finish (s : State) (r : Request) (status result extra : Nat) : State :=
  { s with hp := { s.hp with
      requests := s.hp.requests.filter (fun q => !(q.ctx = r.ctx && q.idx = r.idx))
      done := s.hp.done ++ [{ req := r, status := status, result := result, extra := extra, time := s.now }] } }

/-- The request at (ctx, idx) completes, where it is still accepted. -/
def State.finishAt (s : State) (ctx idx status result : Nat) : State :=
  match s.request ctx idx with
  | some r => s.finish r status result 0
  | none => s

/-- A request is marked as begun by the unit it was for. -/
def State.begin (s : State) (r : Request) : State :=
  { s with hp := { s.hp with
      requests := s.hp.requests.map (fun q => if q.ctx = r.ctx && q.idx = r.idx then { q with begun := true } else q) } }

end Sys2Proof.Machine
end

