-- ==== Sys2Proof/Machine/Leat.lean ====
section
/-!
DEFINITION. The tables of a LEAT section (R417, R418, R423) as the units read them.
-/
namespace Sys2Proof.Machine

/-- A stream binding (R423). -/
structure Binding where
  stream : Nat
  lane : Nat
  kind : Nat
  ctx : Nat
  frameMax : Nat
  buffer : Nat
  dest : Nat
  cls : Nat
  row : Nat
  mill : Nat
  stage : Nat
  deriving DecidableEq, Repr

/-- Stream binding i of a LEAT body. -/
def leatBinding (b : Bytes) (i : Nat) : Binding :=
  let o := leAt b 0x10 4 + 32 * i
  { stream := leAt b o 1, lane := leAt b (o + 1) 1, kind := leAt b (o + 2) 1, ctx := leAt b (o + 3) 1,
    frameMax := leAt b (o + 4) 4, buffer := leAt b (o + 8) 8, dest := leAt b (o + 0x10) 1,
    cls := leAt b (o + 0x11) 1, row := leAt b (o + 0x12) 1, mill := leAt b (o + 0x14) 1,
    stage := leAt b (o + 0x15) 1 }

/-- The stream bindings of a LEAT body. -/
def leatBindings (b : Bytes) : List Binding := (List.range (leAt b 8 2)).map (leatBinding b)

/-- A host-pond entry point (R417). -/
structure EntryPoint where
  dest : Nat
  cls : Nat
  ctx : Nat
  row : Nat
  deriving DecidableEq, Repr

/-- Entry point i of a LEAT body. -/
def leatEntry (b : Bytes) (i : Nat) : EntryPoint :=
  let o := leAt b 0x14 4 + 8 * i
  { dest := leAt b o 1, cls := leAt b (o + 1) 1, ctx := leAt b (o + 2) 1, row := leAt b (o + 3) 1 }

/-- The number of entry points. -/
def leatEntries (b : Bytes) : Nat := leAt b 0x0A 2

/-- A collective group (R418). -/
structure Group where
  op : Nat
  format : Nat
  cls : Nat
  algorithm : Nat
  ctx : Nat
  elements : Nat
  members : List Nat
  buffer : Nat
  deriving DecidableEq, Repr

/-- Collective group g of a LEAT body. -/
def leatGroup (b : Bytes) (g : Nat) : Group :=
  let o := leAt b 0x18 4 + 32 * g
  let m := leAt b (o + 0xC) 4
  { op := leAt b o 1, format := leAt b (o + 1) 1, cls := leAt b (o + 2) 1, algorithm := leAt b (o + 3) 1,
    ctx := leAt b (o + 6) 1, elements := leAt b (o + 8) 4,
    members := (List.range (leAt b (o + 4) 2)).map (fun i => leAt b (m + 2 * i) 2), buffer := leAt b (o + 0x10) 8 }

/-- The number of collective groups. -/
def leatGroups (b : Bytes) : Nat := leAt b 0x0C 2

/-- The bindings in force: those of the loaded LEAT section; lanes 12–15, which belong to the motion domain, keep theirs while the
fabric is without one (R25, R27). -/
def State.bindings (s : State) : List Binding :=
  if s.body 2 0 = [] then (leatBindings s.sn.leat).filter (fun x => 12 ≤ x.lane) else leatBindings (s.body 2 0)

/-- The binding of a stream. -/
def State.binding (s : State) (stream : Nat) : Option Binding := s.bindings.find? (fun x => x.stream = stream)

end Sys2Proof.Machine
end

