-- ==== Sys2Proof/Machine/TierOps.lean ====
section
/-!
DEFINITION. Shared operations of the memory tiers: who holds a page, poison of HBM lines, the end of a tier request.
-/
namespace Sys2Proof.Machine

/-- Local address of allocatable HBM page 0 (R219). -/
def hbmBase : Nat := 0x10000000000

/-- The number of an allocatable HBM page at a local address, if it is one (R219). -/
def hbmPage (a : Nat) : Option Nat :=
  if hbmBase ≤ a ∧ a < hbmBase + hbmPages * 65536 then some ((a - hbmBase) / 65536) else none

/-- The run that holds an HBM page (R224). -/
def State.hbmRun (s : State) (page : Nat) : Option HbmRun :=
  s.tiers.runs.find? (fun r => r.first ≤ page && page < r.first + r.pages)

/-- The context that owns a mill's millpond pages: that of its section's header (R37, R114). -/
def State.pondCtx (s : State) (a : Nat) : Option Nat := (s.mill (a / 0x4000000)).sec.map Section.ctx

/-- The context that holds the page at a local address. -/
def State.pageCtx (s : State) (a : Nat) : Option Nat :=
  match tierOf a with
  | some .pond => s.pondCtx a
  | some .hbm => ((hbmPage a).bind s.hbmRun).map (·.ctx)
  | some .store => ((Tbl.find s.tiers.map ((a - 0x800000000000) / 0x200000)).bind
      (fun e => if e.state = .free then none else some e.ctx))
  | _ => none

/-- Every 64 KiB page of [a, a + n) is held by context c. -/
def State.heldBy (s : State) (c a n : Nat) : Bool :=
  (List.range (((a + n - 1) / 65536) - a / 65536 + 1)).all (fun i => s.pageCtx (max a ((a / 65536 + i) * 65536)) = some c)

/-! ### Poison (R220) -/

/-- Whether a 64-byte HBM line, by local address ÷ 64, is poisoned. -/
def Tiers.poisoned (t : Tiers) (line : Nat) : Bool := t.poisonAll != has t.poisonFlip line

/-- A line's poison bit set to a value. -/
def Tiers.setPoison (t : Tiers) (line : Nat) (v : Bool) : Tiers :=
  if t.poisoned line = v then t
  else { t with poisonFlip := if has t.poisonFlip line then remN t.poisonFlip line else t.poisonFlip ++ [line] }

/-- Some line of [a, a + n) is poisoned. -/
def State.poisonedIn (s : State) (a n : Nat) : Bool :=
  tierOf a = some .hbm && n ≠ 0 &&
  (List.range ((a + n - 1) / 64 - a / 64 + 1)).any (fun i => s.tiers.poisoned (a / 64 + i))

/-- Poison cleared on every line that [a, a + n) covers whole (R220). -/
def State.clearPoison (s : State) (a n : Nat) : State :=
  if tierOf a = some .hbm then
    let lo := (a + 63) / 64
    let hi := (a + n) / 64
    if s.tiers.poisonAll || s.tiers.poisonFlip ≠ [] then
      { s with tiers := (List.range (hi - lo)).foldl (fun t i => t.setPoison (lo + i) false) s.tiers }
    else s
  else s

/-! ### Sequence descriptors (R172) -/

/-- The 64 bytes of a descriptor. -/
def SeqDesc.bytes (d : SeqDesc) : Bytes :=
  le 4 d.seqId ++ le 2 d.layer ++ le 1 d.ctx ++ le 1 (b2n d.ring) ++ le 2 d.kvHeads ++ le 1 d.dimCode ++ le 1 d.format ++
  le 4 d.maxTokens ++ le 4 d.window ++ le 4 d.slots ++ le 4 d.committed ++ le 4 d.pagesPerRing ++ le 8 d.pageList ++
  le 4 d.pagesHeld ++ le 4 (b2n d.isOpen + 2 * b2n d.closing) ++ zeros 16

/-- The descriptors that a write of `n` bytes at `a` met keep their bytes: no stage output, sack-hoist descriptor or host access
writes them. -/
def State.keepDescs (s : State) (a n : Nat) : State :=
  (s.ops.seqs.filter (fun (e : Nat × SeqDesc) => decide (e.1 < a + n) && decide (a < e.1 + 64))).foldl
    (fun s (e : Nat × SeqDesc) => s.setLocal e.1 e.2.bytes) s

/-- Ranges with [lo, hi) taken out of them. -/
def cutRanges (l : List (Nat × Nat × Nat)) (lo hi : Nat) : List (Nat × Nat × Nat) :=
  l.flatMap (fun r =>
    if hi ≤ r.1 ∨ r.1 + r.2.1 ≤ lo then [r]
    else (if r.1 < lo then [(r.1, lo - r.1, r.2.2)] else []) ++
      (if hi < r.1 + r.2.1 then [(hi, r.1 + r.2.1 - hi, r.2.2)] else []))

/-- Bytes stored at a local address of millpond or HBM: poison is cleared on whole lines, what a failed read had left there is
gone, and descriptors keep their bytes. -/
def State.putMem (s : State) (a : Nat) (bs : Bytes) : State :=
  let s := (s.setLocal a bs).clearPoison a bs.length
  ({ s with tiers := { s.tiers with badReads := cutRanges s.tiers.badReads a (a + bs.length) } }).keepDescs a bs.length

/-! ### Tier requests (R235–R238) -/

/-- The pool of tier request tokens of a mill (R38). -/
def tokenPool (m : Nat) : Nat := 128 + m

/-- A token returns: parked while the mill's sluice is closed (R132). The sack hoist's pages hold none. -/
def State.tokenBack (s : State) (m : Nat) : State :=
  if 16 ≤ m then s
  else s.move (tokenPool m) .inFlight (if (s.mill m).state = .closed then .parked else .returned) 1

/-- The counters of a status that ended a request of a context (MT_LATE_COUNT, MT_FAIL_COUNT, MT_Q_LATE, MT_Q_FAIL). -/
def State.countStatus (s : State) (ctx status : Nat) : State :=
  if status = 1 then (s.bump Reg.mtLateCount 1).bump (Reg.mtQLate ctx) 1
  else if status = 2 then (s.bump Reg.mtFailCount 1).bump (Reg.mtQFail ctx) 1
  else s

/-- Whether a request is the one of a token. -/
def TierReq.is (r : TierReq) (mill stage id : Nat) : Bool := r.mill = mill && r.stage = stage && r.id = id

/-- A tier request ends: its token returns with the status and the tag (R235). A page of a channel is counted by the channel. -/
def State.tierEnd (s : State) (r : TierReq) (status tag : Nat) : State :=
  let t : TierResult := { mill := r.mill, stage := r.stage, id := r.id, status := status, tag := tag, hbm := r.hbm, pond := r.pond
                          len := r.len }
  let bad := if r.write ∨ 16 ≤ r.mill ∨ status = 0 then s.tiers.badReads
    else cutRanges s.tiers.badReads r.pond (r.pond + r.len) ++ [(r.pond, r.len, status)]
  let s := { s with tiers := { s.tiers with
    reqs := s.tiers.reqs.filter (fun q => !q.is r.mill r.stage r.id)
    results := s.tiers.results ++ [t]
    badReads := bad } }
  let s := s.tokenBack r.mill
  if r.mill = 16 ∧ r.stage < 32 then s else s.countStatus r.ctx status

/-- The tier request of a token. -/
def State.tierReq (s : State) (mill stage id : Nat) : Option TierReq := s.tiers.reqs.find? (fun r => r.is mill stage id)

end Sys2Proof.Machine
end

