-- ==== Sys2Proof/Machine/Sections.lean ====
section
/-!
DEFINITION. The parts of MILL, QUOTA, WEIR, STREAM and FALLBACK sections as the units read them (R118, R226, R214,
R119), the pipelines that the routes of the loaded sections join, and the owners of a pool (R41).
-/
namespace Sys2Proof.Machine

/-! ### MILL bodies (R118) -/

/-- ML_STAGE_CFG word of stage i. -/
def stageCfg (b : Bytes) (i : Nat) : Nat := leAt b (64 * i) 4
/-- Bytes 12–63 of stage entry i: its operator parameters. -/
def stageParams (b : Bytes) (i : Nat) : Bytes := (b.drop (64 * i + 12)).take 52
def cfgType (w : Nat) : Nat := fldN w 3 0
def cfgValid (w : Nat) : Bool := bitN w 4
def cfgParams (w : Nat) : Nat := fldN w 7 5
def cfgCtx (w : Nat) : Nat := fldN w 13 8
def cfgClass (w : Nat) : Nat := fldN w 15 14
def cfgSr (w : Nat) : Bool := bitN w 20
def cfgInf (w : Nat) : Bool := bitN w 21
def cfgLimit (w : Nat) : Nat := fldN w 31 24

/-- A hopper table entry. -/
structure HopperCfg where
  depth : Nat
  stage : Nat
  cls : Nat
  producers : Nat
  deriving DecidableEq, Repr

/-- Hopper table entry q. -/
def hopperCfg (b : Bytes) (q : Nat) : HopperCfg :=
  let o := 512 + 8 * q
  { depth := leAt b o 1, stage := leAt b (o + 1) 1, cls := leAt b (o + 2) 1, producers := leAt b (o + 3) 1 }

/-- A valid route table entry. -/
structure Route where
  stage : Nat
  dest : Nat
  cls : Nat
  row : Nat
  deriving DecidableEq, Repr

/-- The valid entries of the route table. -/
def routesOf (b : Bytes) : List Route :=
  (List.range 32).filterMap (fun i =>
    let o := 576 + 16 * i
    let k := leAt b o 1
    if bitN k 0 then some { stage := fldN k 3 1, dest := leAt b (o + 1) 1, cls := leAt b (o + 2) 1, row := leAt b (o + 3) 1 }
    else none)

/-- Kind of millpond page i: 0 free, 1 preloaded, 2 working. -/
def pageKind (b : Bytes) (i : Nat) : Nat := leAt b (1088 + i) 1

/-- Pages of a kind. -/
def pagesOf (b : Bytes) (k : Nat) : List Nat := (List.range 640).filter (fun i => pageKind b i = k)

/-- A preload entry (R117). -/
structure Preload where
  hbm : Nat
  offset : Nat
  pages : Nat
  cls : Nat
  deriving DecidableEq, Repr

/-- The stage, hopper and route tables and the page layout of a mill's section: the body of a MILL section, what the loader makes
of the image of a TILE_FUSED one (R118, R120; log entry 30). -/
def Section.millBody (x : Section) : Bytes := if x.typ = 1 then x.body else if x.typ = 0xA then Config.tileBody x.body else []

/-- The preload list of a section. -/
def Section.preloads (x : Section) : List Preload :=
  (List.range (leAt x.bytes 0xA 2)).map (fun i =>
    let o := leAt x.bytes 0x14 4 + 16 * i
    { hbm := leAt x.bytes o 8, offset := leAt x.bytes (o + 8) 4, pages := leAt x.bytes (o + 12) 2,
      cls := leAt x.bytes (o + 14) 1 })

/-- Working pages of a section: those its millpond layout marks 2 (R511). -/
def Section.working (x : Section) : Nat := if x.typ = 1 ∨ x.typ = 0xA then (pagesOf x.millBody 2).length else 0
/-- Pages of a section's preload list. -/
def Section.preloadPages (x : Section) : Nat := sumN (x.preloads.map (·.pages))

/-- drain_bound_us (R114). -/
def Section.drainBound (x : Section) : Nat := leAt x.bytes 0xC 2

/-- The MILL or TILE_FUSED section that runs on mill m. -/
def State.millBody (s : State) (m : Nat) : Bytes :=
  match (s.mill m).sec with
  | some x => x.millBody
  | none => []

/-- Routes of mill m's tailrace. -/
def State.millRoutes (s : State) (m : Nat) : List Route :=
  if s.millBody m = [] then [] else routesOf (s.millBody m)

/-- Hopper depth of queue q of mill m. -/
def State.depthOf (s : State) (m q : Nat) : Nat :=
  match (s.mill m).sec with
  | none => 0
  | some x => (hopperCfg x.millBody q).depth

/-! ### WEIR rows (R101) -/

/-- Rows of a WEIR body: one word each as WR_ROW_w_n lays it out, row 0 first (log entry 31). -/
def weirRows (b : Bytes) : List Nat := (List.range (b.length / 4)).map (fun i => leAt b (4 * i) 4)
def rowCls (w : Nat) : Nat := fldN w 1 0
def rowCtx (w : Nat) : Nat := fldN w 7 2
def rowPriv (w : Nat) : Bool := bitN w 8
def rowValid (w : Nat) : Bool := bitN w 9
def rowRate (w : Nat) : Nat := fldN w 20 10
def rowBurst (w : Nat) : Nat := fldN w 28 21

/-! ### QUOTA sections (R226) -/

/-- A static region: local address and pages. -/
structure Region where
  addr : Nat
  pages : Nat
  deriving DecidableEq, Repr

/-- A QUOTA body. -/
structure Quota where
  mp : Nat
  hbm : Nat
  store : Nat
  channels : Nat
  hbmLate : List Nat
  storeLate : List Nat
  regions : List Region
  deriving DecidableEq, Repr

def quotaOf (b : Bytes) : Quota :=
  { mp := leAt b 0 4, hbm := leAt b 4 4, store := leAt b 8 4, channels := if leAt b 12 1 = 0 then 4 else leAt b 12 1
    hbmLate := (List.range 4).map (fun i => leAt b (16 + 2 * i) 2)
    storeLate := (List.range 2).map (fun i => leAt b (24 + 2 * i) 2)
    regions := (List.range (leAt b 13 1)).map (fun i => { addr := leAt b (32 + 16 * i) 8, pages := leAt b (40 + 16 * i) 4 }) }

/-- The quota of a context in the loaded millplan. -/
def State.quota (s : State) (c : Nat) : Quota := quotaOf (s.body 4 c)

/-! ### STREAM sections (R214) -/

/-- A layer entry. -/
structure Layer where
  kind : Nat
  mill : Nat
  stage : Nat
  n : Nat
  c : Nat
  offset : Nat
  stride : Nat
  deriving DecidableEq, Repr

/-- A STREAM body. -/
structure StreamCfg where
  first : Nat
  count : Nat
  layers : List Layer
  maxSteps : Nat
  depth : Nat
  format : Nat
  channels : Nat
  digest : Nat
  queue : Nat
  slotPages : Nat
  deriving DecidableEq, Repr

def streamCfg (b : Bytes) : StreamCfg :=
  { first := leAt b 0 2, count := leAt b 2 2, maxSteps := leAt b 6 2, depth := leAt b 8 1, format := leAt b 9 1,
    channels := leAt b 10 2, digest := leAt b 12 4, queue := leAt b 16 8, slotPages := leAt b 24 4
    layers := (List.range (leAt b 4 2)).map (fun i =>
      let o := 32 + 16 * i
      { kind := leAt b o 1, mill := leAt b (o + 1) 1, stage := leAt b (o + 2) 1, n := leAt b (o + 3) 1,
        c := leAt b (o + 4) 2, offset := leAt b (o + 8) 4, stride := leAt b (o + 12) 4 }) }

/-- Local HBM address of queue slot i of stream n (R214). -/
def StreamCfg.queueSlot (c : StreamCfg) (n i : Nat) : Nat := c.queue + ((n - c.first) * c.depth + i) * c.slotPages * 65536

/-- State elements per stream of a layer (R191). -/
def Layer.elements (l : Layer) : Nat :=
  match l.kind with
  | 1 => l.c
  | 2 => l.c * (l.n + 1)
  | 3 => (l.n - 1) * l.c
  | 4 => l.c
  | 5 => 2 * l.c
  | _ => 0

/-- Bytes of a layer's state slot: E FP32 elements and one bound word per 32. -/
def Layer.slotBytes (l : Layer) : Nat := 4 * l.elements + 4 * ((l.elements + 31) / 32)

/-- The STREAM section that holds a stream, with its context. -/
def State.streamSection (s : State) (n : Nat) : Option (Nat × StreamCfg) :=
  match s.loader.loaded with
  | none => none
  | some p => (p.sections.filter (fun x => x.typ = 8)).findSome? (fun x =>
      let c := streamCfg x.body
      if c.first ≤ n ∧ n < c.first + c.count then some (x.target, c) else none)

/-! ### FALLBACK bodies (R119) -/

/-- The extent of an embedded section from its own header. -/
def embeddedLen (b : Bytes) : Nat :=
  let e := max (max (leAt b 0x10 4 + 8 * leAt b 8 2) (leAt b 0x14 4 + 16 * leAt b 0xA 2)) (leAt b 0x18 4 + leAt b 4 4)
  (e + 63) / 64 * 64

/-- The embedded sections, at most `fuel` of them, and whether they fill the body exactly. -/
def embedded (gen : Nat) : Nat → Bytes → List Section × Bool
  | 0, b => ([], b = [])
  | k + 1, b =>
    if b = [] then ([], true)
    else
      let n := embeddedLen b
      if n < 64 ∨ b.length < n then ([], false)
      else
        let x : Section := { typ := leAt b 0 1, target := leAt b 1 1, bytes := b.take n, gen := gen }
        let r := embedded gen k (b.drop n)
        (x :: r.1, r.2)

/-- The affected set of a FALLBACK section. -/
def Section.affected (x : Section) : List Section := (embedded x.gen 64 x.body).1

/-! ### Pipelines (R41) -/

/-- A stage as mill × 8 + stage. -/
abbrev Node := Nat

/-- Stages of mill m that its section binds. -/
def State.stagesOf (s : State) (m : Nat) : List Node :=
  match (s.mill m).sec with
  | none => []
  | some x => ((List.range 8).filter (fun i => cfgValid (stageCfg x.millBody i))).map (fun i => 8 * m + i)

/-- Pairs of stages that a route joins. -/
def State.edges (s : State) : List (Node × Node) :=
  (List.range 16).flatMap (fun m => (s.millRoutes m).filterMap (fun r =>
    if r.dest % 32 < 16 then some (8 * m + r.stage, 8 * (r.dest % 32) + (hopperCfg (s.millBody (r.dest % 32)) (r.dest / 32)).stage)
    else none))

/-- A set of stages closed under the edges: rounds until one adds nothing, at most as many as the fuel. -/
def closeNodes (edges : List (Node × Node)) : Nat → List Node → List Node
  | 0, l => l
  | k + 1, l =>
    let l' := edges.foldl (fun l e => if has l e.1 then addN l e.2 else if has l e.2 then addN l e.1 else l) l
    if l'.length = l.length then l else closeNodes edges k l'

/-- The pipelines that some stages belong to: a pipeline is a chain of stages joined by routes or loopback. -/
def State.pipelines (s : State) (l : List Node) : List Node := closeNodes s.edges 128 l

/-- Stages whose section names context c. -/
def State.stagesIn (s : State) (c : Nat) : List Node :=
  (List.range 16).flatMap (fun m => if ((s.mill m).sec.map Section.ctx) = some c then s.stagesOf m else [])

/-- The stages that own a pool (R41): those of the section that sized it, those that feed a governor queue, those of a
context, and for a Phirov pool those that reach its port in its class. -/
def State.poolOwners (s : State) (p : Nat) : List Node :=
  if p < 128 then s.stagesOf (p / 8)
  else if p < 144 then s.stagesOf (p - 128)
  else if p < 160 then []
  else if p < 352 then s.stagesIn ((p - 160) % 64)
  else if p < 416 then s.stagesIn (p - 352)
  else if p < 448 then
    let port := (p - 416) / 4
    let cls := (p - 416) % 4
    let b := s.body 2 0
    let groups := (List.range (leatGroups b)).flatMap (fun g =>
      let gr := leatGroup b g
      if gr.cls = cls ∧ gr.members.any (fun m => (Tbl.getD s.px.peers m {}).valid && (Tbl.getD s.px.peers m {}).port = port)
      then s.stagesIn gr.ctx else [])
    let remote := s.px.remote.filterMap (fun e =>
      if e.2.cls = cls ∧ (Tbl.getD s.px.peers e.2.peer {}).port = port then some (8 * e.2.mill + e.2.stage) else none)
    groups ++ remote
  else
    (List.range 16).flatMap (fun m => (s.millRoutes m).filterMap (fun r =>
      if 30 ≤ r.dest % 32 ∧ 8 * (r.dest % 32 - 30) + r.dest / 32 = p - 448 then some (8 * m + r.stage) else none))

/-- Stages stopped until their sections are written again. -/
def State.stopStages (s : State) (l : List Node) : State :=
  l.foldl (fun s n => s.setMill (n / 8) { s.mill (n / 8) with stopped := addN (s.mill (n / 8)).stopped (n % 8) }) s

/-- Streams with a layer on one of some stages. -/
def State.streamsOn (s : State) (l : List Node) : List Nat :=
  (List.range 256).filter (fun n =>
    (Tbl.getD s.streams n {}).state ≠ .free &&
    (match s.streamSection n with
     | some c => c.2.layers.any (fun y => has l (8 * y.mill + y.stage))
     | none => false))

/-- The pipelines of some stages stop (R41, R144): the streams that run on them become STOPPED (R203). -/
def State.stopPipelines (s : State) (l : List Node) : State :=
  let all := s.pipelines l
  let hit := s.streamsOn all
  let s := s.stopStages all
  { s with streams := s.streams.map (fun e => (e.1, if has hit e.1 then { e.2 with state := .stopped } else e.2)) }

end Sys2Proof.Machine
end

