-- ==== Sys2Proof/Machine/Arith.lean ====
section
/-!
DEFINITION. The ten number formats, exact dyadic values, rounding, conversions, microscaling blocks and bound tags
(chapter 2).
-/
namespace Sys2Proof.Machine

/-! ### Formats (R53–R57) -/

/-- A floating format: mantissa width, bias, largest exponent, largest mantissa at it, width, whether it has infinity. -/
structure Fmt where
  mb : Nat
  bias : Int
  emax : Int
  maxM : Nat
  width : Nat
  hasInf : Bool
  deriving DecidableEq, Repr

/-- The floating formats by their number in R53. -/
def fmtOf : Nat → Option Fmt
  | 1 => some ⟨23, 127, 127, 0x7FFFFF, 32, true⟩
  | 2 => some ⟨7, 127, 127, 0x7F, 16, true⟩
  | 3 => some ⟨10, 15, 15, 0x3FF, 16, true⟩
  | 4 => some ⟨3, 7, 8, 6, 8, false⟩
  | 5 => some ⟨2, 15, 15, 3, 8, true⟩
  | 6 => some ⟨2, 3, 4, 3, 6, false⟩
  | 7 => some ⟨1, 1, 2, 1, 4, false⟩
  | _ => none

/-- FP32. -/
def f32 : Fmt := ⟨23, 127, 127, 0x7FFFFF, 32, true⟩

/-- Width of an element of format `n` in bits. -/
def fmtWidth (n : Nat) : Nat :=
  match n with
  | 1 => 32
  | 2 | 3 | 10 => 16
  | 4 | 5 | 8 => 8
  | 6 => 6
  | 7 | 9 => 4
  | _ => 8

/-- The least normal exponent. -/
def Fmt.emin (f : Fmt) : Int := 1 - f.bias

/-- A value of a floating format: (−1)^neg × mag × 2^exp, an infinity, or NaN. -/
inductive FVal where
  | nan
  | inf (neg : Bool)
  | fin (neg : Bool) (mag : Nat) (exp : Int)
  deriving DecidableEq, Repr

/-- The value of an element code (R53). E4M3 has NaN at the top code only and no infinity; E3M2 and E2M1 have neither. -/
def Fmt.decode (f : Fmt) (code : Nat) : FVal :=
  let neg := bitN code (f.width - 1)
  let e := fldN code (f.width - 2) f.mb
  let m := code % 2 ^ f.mb
  let top := 2 ^ (f.width - 1 - f.mb) - 1
  if e = top ∧ f.hasInf = true then (if m = 0 then .inf neg else .nan)
  else if e = top ∧ f.width = 8 ∧ m = 2 ^ f.mb - 1 then .nan
  else if e = 0 then .fin neg m (f.emin - f.mb)
  else .fin neg (2 ^ f.mb + m) ((e : Int) - f.bias - f.mb)

/-- Canonical NaN of a format (R55). -/
def canonicalNan : Nat → Nat
  | 1 => 0x7FC00000
  | 2 => 0x7FC0
  | 3 => 0x7E00
  | 4 => 0x7F
  | 5 => 0x7E
  | _ => 0

/-! ### Exact values -/

/-- An exact dyadic m × 2^e. -/
structure Dy where
  m : Int
  e : Int
  deriving DecidableEq, Repr

def Dy.zero : Dy := ⟨0, 0⟩
def Dy.neg (a : Dy) : Dy := ⟨-a.m, a.e⟩
def Dy.mul (a b : Dy) : Dy := ⟨a.m * b.m, a.e + b.e⟩
/-- The mantissa of a at an exponent no larger than its own. -/
def Dy.at (a : Dy) (e : Int) : Int := a.m * (2 ^ (a.e - e).toNat : Nat)
def Dy.add (a b : Dy) : Dy := let e := min a.e b.e; ⟨a.at e + b.at e, e⟩
def Dy.sub (a b : Dy) : Dy := a.add b.neg
def Dy.lt (a b : Dy) : Bool := let e := min a.e b.e; decide (a.at e < b.at e)
def Dy.le (a b : Dy) : Bool := !b.lt a
def Dy.abs (a : Dy) : Dy := ⟨iabs a.m, a.e⟩
def Dy.max (a b : Dy) : Dy := if a.lt b then b else a
def Dy.ofInt (i : Int) : Dy := ⟨i, 0⟩
def Dy.sum (l : List Dy) : Dy := l.foldl Dy.add Dy.zero
/-- ⌊m × 2^e⌋. -/
def Dy.floor (a : Dy) : Int := if 0 ≤ a.e then a.m * (2 ^ a.e.toNat : Nat) else a.m / (2 ^ (-a.e).toNat : Nat)

/-- The dyadic of a finite value. -/
def FVal.dy : FVal → Option Dy
  | .fin neg m e => some ⟨if neg then -(m : Int) else m, e⟩
  | _ => none

/-- ⌊log2 (num ÷ den)⌋ for positive numbers. -/
def log2Q (num den : Nat) : Int :=
  let k : Int := (Nat.log2 num : Int) - (Nat.log2 den : Int)
  let ok := if 0 ≤ k then den * 2 ^ k.toNat ≤ num else den ≤ num * 2 ^ (-k).toNat
  if ok then k else k - 1

/-! ### Rounding (R63, R66) -/

/-- A rounding mode: to nearest with ties to even, or stochastic with a 16-bit draw (R63). -/
inductive RMode where
  | rne
  | sr (r : Nat)
  deriving DecidableEq, Repr

/-- num ÷ den rounded to an integer. -/
def roundQ (mode : RMode) (num den : Nat) : Nat :=
  let q := num / den
  let r := num % den
  match mode with
  | .rne => if den < 2 * r ∨ (2 * r = den ∧ q % 2 = 1) then q + 1 else q
  | .sr d => if 65536 ≤ r * 65536 / den + d % 65536 then q + 1 else q

/-- num ÷ den × 2^e rounded to the format's spacing with the exponent range unbounded: (q, u) for q × 2^u. -/
def Fmt.round (f : Fmt) (mode : RMode) (num den : Nat) (e : Int) : Nat × Int :=
  if num = 0 then (0, f.emin - f.mb)
  else
    let u := max (log2Q num den + e) f.emin - f.mb
    let s := u - e
    (if 0 ≤ s then roundQ mode num (den * 2 ^ s.toNat) else roundQ mode (num * 2 ^ (-s).toNat) den, u)

/-- Whether q × 2^u is above the format's largest finite value. -/
def Fmt.over (f : Fmt) (q : Nat) (u : Int) : Bool :=
  if q = 0 then false
  else
    let e := (Nat.log2 q : Int) + u
    let m := if Nat.log2 q ≤ f.mb then q * 2 ^ (f.mb - Nat.log2 q) else q / 2 ^ (Nat.log2 q - f.mb)
    f.emax < e || (e = f.emax && 2 ^ f.mb + f.maxM < m)

/-- The code of q × 2^u, a value of the format. -/
def Fmt.code (f : Fmt) (neg : Bool) (q : Nat) (u : Int) : Nat :=
  let s := put (f.width - 1) 1 (b2n neg)
  if q = 0 then s
  else
    let e := (Nat.log2 q : Int) + u
    if e < f.emin then s + q
    else
      let m := if Nat.log2 q ≤ f.mb then q * 2 ^ (f.mb - Nat.log2 q) else q / 2 ^ (Nat.log2 q - f.mb)
      s + (e + f.bias).toNat * 2 ^ f.mb + (m - 2 ^ f.mb)

/-- The largest finite code, and infinity. -/
def Fmt.maxCode (f : Fmt) (neg : Bool) : Nat :=
  put (f.width - 1) 1 (b2n neg) + (f.emax + f.bias).toNat * 2 ^ f.mb + f.maxM
def Fmt.infCode (f : Fmt) (neg : Bool) : Nat :=
  put (f.width - 1) 1 (b2n neg) + (2 ^ (f.width - 1 - f.mb) - 1) * 2 ^ f.mb

/-- num ÷ den × 2^e as a code, with whether it saturated (R66): to the largest finite value, or to infinity where the
stage selects it. -/
def Fmt.encode (f : Fmt) (mode : RMode) (toInf neg : Bool) (num den : Nat) (e : Int) : Nat × Bool :=
  let r := f.round mode num den e
  if f.over r.1 r.2 then ((if toInf && f.hasInf then f.infCode neg else f.maxCode neg), true)
  else (f.code neg r.1 r.2, false)

/-- A dyadic rounded to FP32 by RNE; beyond the range it is infinity, as IEEE 754 has it. -/
def Dy.toF32 (a : Dy) (negZero : Bool) : Nat :=
  (f32.encode .rne true (if a.m = 0 then negZero else a.m < 0) a.m.natAbs 1 a.e).1

/-- num ÷ den rounded to FP32 by RNE. -/
def ratToF32 (num : Int) (den : Nat) (e : Int) : Nat := (f32.encode .rne true (num < 0) num.natAbs den e).1

/-! ### FP32 arithmetic of the vector unit (R54, R55, R61) -/

def isNan32 (a : Nat) : Bool := f32.decode a = .nan
def neg32 (a : Nat) : Bool := bitN a 31
/-- The exact value of a finite FP32 code, zero otherwise. -/
def dy32 (a : Nat) : Dy := ((f32.decode a).dy).getD Dy.zero
def finite32 (a : Nat) : Bool := ((f32.decode a).dy).isSome

/-- a × b + c, rounded once. -/
def fma32 (a b c : Nat) : Nat :=
  let pn := neg32 a != neg32 b
  match f32.decode a, f32.decode b, f32.decode c with
  | .nan, _, _ => 0x7FC00000
  | _, .nan, _ => 0x7FC00000
  | _, _, .nan => 0x7FC00000
  | .inf _, .fin _ 0 _, _ => 0x7FC00000
  | .fin _ 0 _, .inf _, _ => 0x7FC00000
  | .inf _, _, .inf n => if n = pn then f32.infCode n else 0x7FC00000
  | _, .inf _, .inf n => if n = pn then f32.infCode n else 0x7FC00000
  | .inf _, _, _ => f32.infCode pn
  | _, .inf _, _ => f32.infCode pn
  | _, _, .inf n => f32.infCode n
  | .fin _ _ _, .fin _ _ _, .fin cn _ _ => (((dy32 a).mul (dy32 b)).add (dy32 c)).toF32 (pn && cn)

def one32 : Nat := 0x3F800000
def negate32 (a : Nat) : Nat := if neg32 a then a - 2 ^ 31 else a + 2 ^ 31
def abs32 (a : Nat) : Nat := a % 2 ^ 31
def add32 (a b : Nat) : Nat := fma32 a one32 b
def sub32 (a b : Nat) : Nat := add32 a (negate32 b)
/-- a × b: the product's sign holds for a zero result. -/
def mul32 (a b : Nat) : Nat := fma32 a b (put 31 1 (b2n (neg32 a != neg32 b)))
/-- a < b for codes that are not NaN. -/
def lt32 (a b : Nat) : Bool :=
  match f32.decode a, f32.decode b with
  | .nan, _ => false
  | _, .nan => false
  | .inf n, .inf k => n && !k
  | .inf n, _ => n
  | _, .inf k => !k
  | _, _ => (dy32 a).lt (dy32 b)
def le32 (a b : Nat) : Bool := !(isNan32 a) && !(isNan32 b) && !(lt32 b a)
def max32 (a b : Nat) : Nat := if isNan32 a || isNan32 b then 0x7FC00000 else if lt32 a b then b else a
def min32 (a b : Nat) : Nat := if isNan32 a || isNan32 b then 0x7FC00000 else if lt32 b a then b else a

/-! ### Conversions (R62) -/

/-- A narrow floating code widened to FP32 exactly. -/
def widen (fmt code : Nat) : Nat :=
  match fmtOf fmt with
  | none => 0
  | some f => match f.decode code with
    | .nan => 0x7FC00000
    | .inf n => f32.infCode n
    | .fin n m e => (f32.encode .rne true n m 1 e).1

/-- An integer element with its declared FP32 scale, rounded once (R62). -/
def intTo32 (width code scale : Nat) : Nat :=
  if finite32 scale then ((Dy.ofInt (signed width code)).mul (dy32 scale)).toF32 false else 0x7FC00000

/-! ### Microscaling (R56, R57, R64) -/

/-- The shared scale byte of a block of FP32 codes (R64): 0xFF with a NaN, 0 for all zeros. `emax` is 4 for E3M2 and 2
for E2M1. An infinity is no finite element. -/
def mxScale (emax : Int) (xs : List Nat) : Nat :=
  if xs.any isNan32 then 0xFF
  else
    let amax := xs.foldl (fun a x => a.max (dy32 x).abs) Dy.zero
    if amax.m ≤ 0 then 0
    else (clampI 0 254 ((Nat.log2 amax.m.natAbs : Int) + amax.e - emax + 127)).toNat

/-- One element of an MX block (R64): x ÷ 2^(S − 127), rounded, saturating to the largest finite value. The element code of
a NaN, which the scale alone encodes, is the free value `free`. -/
def mxElement (f : Fmt) (mode : RMode) (scale free x : Nat) : Nat :=
  match f32.decode x with
  | .nan => free % 2 ^ f.width
  | .inf n => f.maxCode n
  | .fin n m e => (f.encode mode false n m 1 (e - ((scale : Int) - 127))).1

/-- The exact value of an MX element: X times the value of its code (R56). -/
def mxExact (fmt scale code : Nat) : FVal :=
  if scale = 0xFF then .nan
  else match fmtOf fmt with
    | none => .fin false 0 0
    | some f => match f.decode code with
      | .fin n m e => .fin n m (e + (scale : Int) - 127)
      | _ => .nan

/-- An MX element as FP32 (R56, R62). FP32 holds the value exactly, but for one beyond its range, which only the largest scales
reach: R62 gives none, and the model widens it to infinity (DESIGN CHOICE, log entry 49). A stone takes the exact value. -/
def mxTo32 (fmt scale code : Nat) : Nat :=
  match mxExact fmt scale code with
  | .fin n m e => (f32.encode .rne true n m 1 e).1
  | _ => 0x7FC00000

/-- Element codes packed into bytes, `w` bits each, the first in the lowest bits (R57, R16). -/
def packCodes (w : Nat) (xs : List Nat) : Bytes :=
  le ((w * xs.length + 7) / 8) (xs.foldr (fun x a => x % 2 ^ w + 2 ^ w * a) 0)

/-- `n` element codes of `w` bits out of bytes. -/
def unpackCodes (w n : Nat) (bs : Bytes) : List Nat :=
  let v := leNat (bs.take ((w * n + 7) / 8))
  (List.range n).map (fun i => v / 2 ^ (w * i) % 2 ^ w)

/-- A list cut into pieces of `n`, at most `fuel` of them. -/
def chunksOf {α : Type} (n : Nat) : Nat → List α → List (List α)
  | 0, _ => []
  | _, [] => []
  | k + 1, l => l.take n :: chunksOf n k (l.drop n)

/-! ### Stones (R58–R60) -/

/-- One group of at most 32 products, summed exactly and rounded once to FP32 (R59). -/
def stoneGroup (ps : List Dy) : Nat := (Dy.sum ps).toF32 false

/-- A dyadic rounded to 24 bits by RNE with the exponent range unbounded. -/
def Dy.round24 (a : Dy) : Dy :=
  let n := a.m.natAbs
  let k := Nat.log2 n - 23
  if k = 0 then a
  else
    let q := roundQ .rne n (2 ^ k)
    ⟨if a.m < 0 then -(q : Int) else q, a.e + k⟩

/-- A group sum added to the FP32 accumulator (R59). In MX modes the adder rounds the sum of the element products, which the
two shared scales then multiply exactly. -/
def stoneAcc (mx : Bool) (acc : Nat) (ps : List Dy) : Nat :=
  if mx then (if finite32 acc then ((dy32 acc).add (Dy.sum ps).round24).toF32 false else acc)
  else add32 acc (stoneGroup ps)

/-- A floating dot product: exact products, groups of 32 along K, each group sum added to the FP32 accumulator (R59). -/
def stoneDot (mx : Bool) (xs ws : List Dy) : Nat :=
  let ps := List.zipWith Dy.mul xs ws
  (chunksOf 32 (ps.length / 32 + 1) ps).foldl (stoneAcc mx) 0

/-- An integer dot product accumulated product by product in INT32, saturating where it overflows (R60), with whether it
did. -/
def stoneInt (xs ws : List Int) : Int × Bool :=
  (List.zipWith (fun a b => a * b) xs ws).foldl (fun (a : Int × Bool) p =>
    let v := a.1 + p
    let w := satS 32 v
    (w, a.2 || w ≠ v)) (0, false)

/-! ### Bounds and tags (R70–R72) -/

/-- A bound in the 24-bit upward format (R72): none where it is not finite. -/
abbrev Bound := Option Dy

/-- A non-negative dyadic rounded up to 24 bits with exponents from 2^−1022 to 2^1023 (R72): a positive value below the
range becomes 2^−1022 (log 25). -/
def boundUp (a : Dy) : Bound :=
  if a.m ≤ 0 then some Dy.zero
  else
    let n := a.m.natAbs
    let k := Nat.log2 n
    let u : Int := (k : Int) - 23
    let r : Dy := if (k : Int) + a.e < -1022 then ⟨1, -1022⟩ else if u ≤ 0 then a else
      let q := (n + 2 ^ u.toNat - 1) / 2 ^ u.toNat
      ⟨(q : Int), a.e + u⟩
    if 1023 < (Nat.log2 r.m.natAbs : Int) + r.e then none else some r

def boundAdd (a b : Bound) : Bound :=
  match a, b with
  | some x, some y => boundUp (x.add y)
  | _, _ => none
def boundMul (a b : Bound) : Bound :=
  match a, b with
  | some x, some y => boundUp (x.mul y)
  | _, _ => none
/-- num ÷ den rounded up in the format of R72. -/
def boundDiv (a b : Bound) : Bound :=
  match a, b with
  | some x, some y =>
    if y.m ≤ 0 then none
    else
      let n := x.m.natAbs * 2 ^ 64
      let d := y.m.natAbs
      boundUp ⟨((n * 2 ^ (Nat.log2 d) + d - 1) / d : Nat), x.e - y.e - 64 - Nat.log2 d⟩
  | _, _ => none
def boundMax (a b : Bound) : Bound :=
  match a, b with
  | some x, some y => some (x.max y)
  | _, _ => none
def boundSum (l : List Bound) : Bound := l.foldl boundAdd (some Dy.zero)
def boundMaxL (l : List Bound) : Bound := l.foldl boundMax (some Dy.zero)

/-- ⌈log2⌉ of a positive dyadic. -/
def ceilLog2 (a : Dy) : Int :=
  let n := a.m.natAbs
  (Nat.log2 n : Int) + a.e + (if n = 2 ^ Nat.log2 n then 0 else 1)

/-- The tag of bound B at scale 2^k (R72). -/
def tagOf (b : Bound) (k : Int) : Nat :=
  match b with
  | none => 255
  | some x =>
    if x.m ≤ 0 then 0
    else
      let t := 128 + ceilLog2 x - k
      if t < 1 then 1 else if 254 < t then 255 else t.toNat

/-- The absolute bound of a tag at scale 2^k (R71): none for 255. -/
def tagBound (e : Nat) (k : Int) : Bound :=
  if e = 0 then some Dy.zero else if 255 ≤ e then none else some ⟨1, (e : Int) - 128 + k⟩

/-- ⌊log2 m⌋ of the largest magnitude of a block's values, −126 when every element is zero (R70). -/
def scaleExp (xs : List Dy) : Int :=
  let m := xs.foldl (fun a x => a.max x.abs) Dy.zero
  if m.m ≤ 0 then -126 else (Nat.log2 m.m.natAbs : Int) + m.e

/-- u = 2^−24, the unit roundoff of FP32. -/
def unitU : Bound := some ⟨1, -24⟩

/-- The order of R68 as a rank: the smaller comes first. -/
def statusRank : Nat → Nat
  | 0x02 => 0
  | 0x12 => 1
  | 0x01 => 2
  | 0x05 => 3
  | 0x04 => 4
  | 0x03 => 5
  | _ => 6

/-- The first of two statuses in the order of R68. -/
def worse (a b : Nat) : Nat := if statusRank a ≤ statusRank b then a else b

/-- The first of several statuses, OK where there is none. -/
def worst (l : List Nat) : Nat := l.foldl worse 0

/-! ### Orders the spec leaves open -/

/-- Indices 0 … n−1 in an order that the spec does not fix: by a free key, drawn from `base`. -/
def insertBy (key : Nat → Nat) (x : Nat) : List Nat → List Nat
  | [] => [x]
  | y :: t => if key x ≤ key y then x :: y :: t else y :: insertBy key x t

def freeOrder (base n : Nat) : List Nat :=
  (List.range n).foldr (insertBy (fun i => Config.freeWord (base + i))) []

end Sys2Proof.Machine
end

