-- ==== Sys2Proof/Machine/TimeBase.lean ====
section
/-!
DEFINITION. Module time, the fantail, network time on the ports and scheduled launch (chapter 13).
-/
namespace Sys2Proof.Machine

/-- A quotient whose rounding the spec leaves open: the floor, or one more where the draw says so. -/
def divOpen (num : Int) (den : Nat) (n : Nat) : Int :=
  num / (den : Int) + (if num % (den : Int) ≠ 0 ∧ Config.roundUp n = true then 1 else 0)

/-- Codes of R354. -/
def Fantail.code : Fantail → Nat
  | .freeRun => 0
  | .acquiring => 1
  | .locked => 2
  | .holdover => 3

def State.port (s : State) (p : Nat) : TimePort := Tbl.getD s.tm.ports p {}
def State.setPort (s : State) (p : Nat) (x : TimePort) : State :=
  { s with tm := { s.tm with ports := Tbl.set s.tm.ports p x } }

/-- Fields of TM_CTRL and TM_SERVO. -/
def State.tmSource (s : State) : Nat := fld (s.reg Reg.tmCtrl) 1 0
def State.tmStepEnable (s : State) : Bool := bitN (s.regN Reg.tmCtrl) 2
def State.slewPpm (s : State) : Nat := fld (s.reg Reg.tmCtrl) 9 3
def State.lockNs (s : State) : Nat := fld (s.reg Reg.tmServo) 23 8

/-- PTP runs on the port (TM_PORT_CFG_p.enable). -/
def State.portOn (s : State) (p : Nat) : Bool := bitN (s.regN (Reg.tmPortCfg p)) 0

/-- A stamp referred to the connector (R350), in 2^−16 ns. -/
def State.stampIn (s : State) (p : Nat) (cap : Int) : Int := cap - 256 * (s.regN (Reg.tmLatIn p) : Int)
def State.stampOut (s : State) (p : Nat) (cap : Int) : Int := cap + 256 * (s.regN (Reg.tmLatOut p) : Int)

/-- delayAsymmetry of a port in 2^−16 ns (R350). -/
def State.asym (s : State) (p : Nat) : Int := 256 * signed 32 (s.regN (Reg.tmAsym p))

/-- A rate limit of `ppm` in units of 2^−40 (R344: 200 ppm is 219,902,326). -/
def ppmUnits (ppm : Nat) : Int := ((ppm * 2 ^ 40 + 500000) / 1000000 : Nat)

/-- The limit of f (R344). -/
def fLimit : Int := 219902326

/-- The slew that applies (R355). -/
def State.slewLimit (s : State) : Int :=
  if s.gov.wheel.state = .standby then ppmUnits 200 else ppmUnits s.slewPpm

/-! ### Entering states -/

/-- The record of an entry into LOCKED or HOLDOVER (R354, R509). -/
def State.fantailRecord (s : State) : State :=
  s.record 10 s.tm.fantail.code 0 0xFF (s.tm.slave.getD 0x1F)
    (le 4 (twos 32 (satS 32 (s.tm.theta / 65536))) ++ le 4 (twos 32 s.tm.fInt))

/-- HOLDOVER is entered from ACQUIRING or LOCKED (R354, R358): the held rate is the mean of the last f_int. -/
def State.enterHoldover (s : State) : State :=
  if s.tm.fantail = .acquiring ∨ s.tm.fantail = .locked then
    let n := s.tm.rates.length
    let held := if n = 0 then s.tm.fInt else divOpen (s.tm.rates.foldl (· + ·) 0) n s.freeN
    let s := s.drew 1
    let s := { s with tm := { s.tm with
      fantail := .holdover, f := clampI (-fLimit) fLimit held, fInt := held, slewing := false, far := false,
      expired := false, holdSince := s.now, qual := 0, lockRun := 0, unlockRun := 0, first := false,
      stepBy := none, lastStamp := none } }
    (s.raise Reg.tmEvents 2).fantailRecord
  else { s with tm := { s.tm with qual := 0 } }

/-- ACQUIRING is entered once a reference has qualified (R354, R359). -/
def State.enterAcquiring (s : State) : State :=
  { s with tm := { s.tm with fantail := .acquiring, everRef := true, first := true, lockRun := 0, unlockRun := 0,
                             expired := false, qual := 0 } }

/-- One servo update with offset θ and interval Δ, both in 2^−16 ns (R355, R356). -/
def State.servo (s : State) (theta : Int) (delta : Nat) : State :=
  let ki := fld (s.reg Reg.tmServo) 7 4
  let kp := fld (s.reg Reg.tmServo) 3 0
  let s := { s with tm := { s.tm with theta := theta } }
  let thr : Int := 65536 * (s.regN Reg.tmStepThreshold : Int)
  let big := thr < iabs theta
  if s.tm.first && big && s.gov.wheel.state = .standby && s.tmStepEnable then
    { s with tm := { s.tm with stepBy := some (-theta), first := false } }
  else
    let fi := s.tm.fInt - divOpen (theta * 2 ^ 40) (delta * 2 ^ ki) s.freeN
    let df := -divOpen (theta * 2 ^ 40) (delta * 2 ^ kp) (s.freeN + 1)
    let lim := s.slewLimit
    let dc := clampI (-lim) lim df
    let lockNs : Int := 65536 * (s.lockNs : Int)
    let near := iabs theta < lockNs
    let off := 4 * lockNs ≤ iabs theta
    let s := s.drew 2
    let s := { s with tm := { s.tm with
      fInt := fi, f := clampI (-fLimit) fLimit (fi + dc), slewing := dc ≠ df || iabs df = lim, far := big, first := false,
      rates := (fi :: s.tm.rates).take 16,
      lockRun := if near then s.tm.lockRun + 1 else 0, unlockRun := if off then s.tm.unlockRun + 1 else 0 } }
    if s.tm.fantail = .acquiring ∧ 16 ≤ s.tm.lockRun then
      (({ s with tm := { s.tm with fantail := .locked, unlockRun := 0 } }).raise Reg.tmEvents 1).fantailRecord
    else if s.tm.fantail = .locked ∧ 4 ≤ s.tm.unlockRun then
      { s with tm := { s.tm with fantail := .acquiring, first := true, lockRun := 0 } }
    else s

/-- A reference event at stamp `t` with offset θ: toward qualification outside ACQUIRING and LOCKED, an update inside
them (R355, R359). `ok` is whether it counts toward qualification. -/
def State.reference (s : State) (t theta : Int) (ok : Bool) : State :=
  let last := s.tm.lastStamp
  let s := { s with tm := { s.tm with lastStamp := some t, theta := theta } }
  if s.tm.fantail = .acquiring ∨ s.tm.fantail = .locked then
    match last with
    | some t0 => if t0 < t ∧ s.tm.stepBy = none then s.servo theta (t - t0).toNat else s
    | none => s
  else
    let q := if ok then s.tm.qual + 1 else 1
    let s := { s with tm := { s.tm with qual := q } }
    if 4 ≤ q then s.enterAcquiring else s

/-! ### The BMCA (R349, R359) -/

/-- The order of the BMCA as one number. -/
def Ann.key (a : Ann) : Nat :=
  ((((((a.p1 * 256 + a.cls) * 256 + a.acc) * 65536 + a.var) * 256 + a.p2) * 2 ^ 64 + a.id) * 65536) + a.steps

/-- The module's own data set, from TM_CLOCK_QUALITY (R349): timeSource INTERNAL_OSCILLATOR 0xA0, or GNSS 0x20 while the
1PPS is the source. -/
def State.ownAnn (s : State) : Ann :=
  let q := s.reg Reg.tmClockQuality
  { p1 := fld q 7 0, cls := fld q 23 16, acc := fld q 31 24, var := Config.clockVariance, p2 := fld q 15 8,
    id := Config.clockIdentity, steps := 0, src := if s.tmSource = 1 then 0x20 else 0xA0 }

/-- TM_PORT_CFG_p.role. -/
def State.portRole (s : State) (p : Nat) : Nat := if 8 ≤ p then 1 else fld (s.reg (Reg.tmPortCfg p)) 2 1

/-- The ports whose Announce the selection may take: gPTP ports with role BMCA or slave, running and asCapable. -/
def State.annPorts (s : State) : List (Nat × Ann) :=
  (List.range 8).filterMap (fun p =>
    let x := s.port p
    if s.portOn p && x.linkUp && x.asCapable && (s.portRole p = 0 || s.portRole p = 2) then x.ann.map (fun a => (p, a)) else none)

/-- The best of a list of port data sets. -/
def bestAnn : List (Nat × Ann) → Option (Nat × Ann)
  | [] => none
  | x :: t => match bestAnn t with
    | none => some x
    | some y => if x.2.key ≤ y.2.key then some x else some y

/-- The selection of R349: a port configured as slave first, then the BMCA's best port, none where the module itself is
best or does not take gPTP time. -/
def State.selectGm (s : State) : Option (Nat × Ann) :=
  if s.tmSource ≠ 0 then none
  else
    let l := s.annPorts
    match l.find? (fun x => s.portRole x.1 = 2) with
    | some x => some x
    | none => (bestAnn l).bind (fun x => if x.2.key < s.ownAnn.key then some x else none)

/-- The selection applied (R354, R359): a change of grandmaster identity raises gm_changed with its record and sends the
fantail to HOLDOVER. -/
def State.applyGm (s : State) : State :=
  let sel := s.selectGm
  let id := match sel with
    | some x => x.2.id
    | none => s.ownAnn.id
  let changed := id ≠ s.tm.gmId
  let s := if changed then s.enterHoldover else s
  let s := { s with tm := { s.tm with slave := sel.map (·.1), gmSelf := sel.isNone, gmId := id,
                                      sync := if changed then none else s.tm.sync } }
  if changed then (s.raise Reg.tmEvents 4).record 10 0x11 0 0xFF (s.tm.slave.getD 0x1F) (le 8 id) else s

/-- TM_PORT_STATE_p.role_now: 0 disabled, 1 master, 2 passive, 3 slave; disabled until the time base starts. -/
def State.roleNow (s : State) (p : Nat) : Nat :=
  if !s.portOn p || !s.tm.running then 0
  else if 8 ≤ p then 1
  else if s.tm.slave = some p then 3
  else match s.portRole p with
    | 1 => 1
    | 2 => if s.tmSource = 0 then 3 else 1
    | 3 => 2
    | _ =>
      if s.tmSource ≠ 0 then 1
      else match (s.port p).ann, s.selectGm with
        | some a, some g => if a.key < { g.2 with steps := g.2.steps + 1 }.key then 2 else 1
        | _, _ => 1

/-- The launch queue of a ring port. -/
def State.queue (s : State) (p : Nat) : List LaunchEntry := Tbl.getD s.launch.queues p []
def State.setQueue (s : State) (p : Nat) (q : List LaunchEntry) : State :=
  { s with launch := { s.launch with queues := Tbl.set s.launch.queues p q } }

/-- A timing port of the ring is in the guard band before a queued launch: it starts no other frame (R362). -/
def State.guarded (s : State) (p : Nat) : Bool :=
  24 ≤ p && (s.queue (p - 24)).any (fun e => s.now ≤ e.time && e.time ≤ s.now + 1300)

/-! ### The commands -/

/-- SYNC_RECEIVE (R353, R355, R356, R359). -/
def execSyncReceive (p origin : Nat) (corr cap : Int) (s : State) : Out :=
  if s.tm.slave = some p ∧ s.portOn p = true ∧ s.tmSource = 0 then
    if (s.port p).aligned then
      let rx := s.stampIn p cap
      let theta := rx - (65536 * (origin : Int) + corr + (s.port p).delay + s.asym p)
      let s := { s with tm := { s.tm with sync := some { origin := origin, correction := corr, rx := rx } } }
      .next (s.reference rx theta true)
    else .next { s with tm := { s.tm with qual := 0 } }
  else .next s

/-- PDELAY_EXCHANGE (R353): D from the four stamps, r in units of 2^−40; a completed exchange makes the port asCapable. -/
def execPdelayExchange (p : Nat) (t1 t2 t3 t4 : Int) (r : Nat) (s : State) : Out :=
  let x := s.port p
  if (p < 8 ∨ p = 24 ∨ p = 25) ∧ s.portOn p = true ∧ x.linkUp = true then
    let fresh : Bool := p < 8 && !x.asCapable
    let x := { x with asCapable := true, pdelayOut := false }
    let t := if x.aligned then
        let a := s.stampOut p t1
        let b := s.stampIn p t4
        let d := divOpen ((b - a) * (r : Int) - (t3 - t2) * 2 ^ 40) (2 ^ 41) s.freeN
        (s.setPort p { x with delay := d }).drew 1
      else s.setPort p x
    .next (if fresh then t.applyGm else t)
  else .next s

/-- ANNOUNCE_RECEIVE (R348, R349, R359). -/
def execAnnounceReceive (p p1 cls acc var p2 id steps src : Nat) (s : State) : Out :=
  let x := s.port p
  if p < 8 ∧ s.portOn p = true ∧ x.linkUp = true then
    let a : Ann := { p1 := p1, cls := cls, acc := acc, var := var, p2 := p2, id := id, steps := steps, src := src }
    .next (s.setPort p { x with ann := some a }).applyGm
  else .next s

/-- REFERENCE_TIMEOUT (R359): Sync or Announce messages stopped on the slave port. -/
def execReferenceTimeout (announce : Bool) (s : State) : Out :=
  match s.tm.slave with
  | none => .next s
  | some p =>
    let s := s.enterHoldover
    .next (if announce then (s.setPort p { s.port p with ann := none }).applyGm else s)

/-- The PTP message a master port sends as Sync (R352). `rate` is the rateRatio in units of 2^−40. -/
def State.syncOut (s : State) (p : Nat) (cap : Int) (rate : Nat) : PtpOut :=
  let out := s.stampOut p cap
  let own : PtpOut := { kind := 0, origin := (out / 65536).toNat, correction := out % 65536, stamp := out }
  match s.tm.slave, s.tm.sync with
  | some q, some y =>
    if p < 8 ∨ 24 ≤ p then
      { kind := 0, origin := y.origin,
        correction := divOpen ((y.correction + (s.port q).delay + s.asym q + (out - y.rx)) * (rate : Int)) (2 ^ 40) s.freeN,
        stamp := out }
    else own
  | _, _ => own

/-- A gPTP master port has nothing to relay: the slave port has taken no Sync yet (R352). -/
def State.noSync (s : State) (p : Nat) : Bool := (p < 8 || 24 ≤ p) && s.tm.slave.isSome && s.tm.sync.isNone

/-- SYNC_TRANSMIT (R352), outside the guard band of a queued launch (R362). -/
def execSyncTransmit (p : Nat) (cap : Int) (rate : Nat) (s : State) : Out :=
  if p < 26 ∧ s.roleNow p = 1 ∧ (s.port p).linkUp = true ∧ s.noSync p = false ∧ s.guarded p = false then
    .next ({ s with tm := { s.tm with sent := Tbl.set s.tm.sent p (s.syncOut p cap rate) } }.drew 1)
  else .next s

/-- PPS_EDGE (R360). -/
def execPpsEdge (s : State) : Out :=
  if s.tm.running then
    let cap : Int := (s.now16 : Int) - 256 * (s.regN Reg.tmPpsDelay : Int)
    let prev := s.tm.ppsLast
    let s := { s with tm := { s.tm with ppsCap := cap, ppsLast := some cap } }
    let s := s.raise Reg.tmEvents 16
    if s.tmSource = 1 then
      let sec : Int := 65536 * 1000000000
      let theta := cap - sec * ((2 * cap + sec) / (2 * sec))
      let near := match prev with
        | some t => decide (iabs (cap - t - sec) ≤ 65536 * 100000)
        | none => false
      .next (s.reference cap theta near)
    else .next s
  else .next s

/-- No edge has arrived for 2.5 s (R360). -/
def State.ppsLate (s : State) : Bool :=
  match s.tm.ppsLast with
  | some c => decide (c + 256 * (s.regN Reg.tmPpsDelay : Int) + 65536 * 2500000000 ≤ (s.now16 : Int))
  | none => true

/-- PPS_TIMEOUT (R360). -/
def execPpsTimeout (s : State) : Out :=
  if s.ppsLate then
    let s := { s with tm := { s.tm with ppsLast := none } }
    .next (if s.tmSource = 1 then s.enterHoldover else s)
  else .next s

/-- HOLDOVER_EXPIRED (R358): after 60 s. -/
def execHoldoverExpired (s : State) : Out :=
  if s.tm.fantail = .holdover ∧ s.tm.holdSince + 60000000000 ≤ s.now then .next { s with tm := { s.tm with expired := true } }
  else .next s

/-- SET: TM_CMD op 1 (R357). -/
def execTimeSet (s : State) : Out :=
  if s.gov.wheel.state = .standby then .next { s with tm := { s.tm with setWait := true, cmdIgnored := false } }
  else .next { s with tm := { s.tm with cmdIgnored := true } }

/-- Module time stepped to a value in units (R356, R357, R366): every source returns to ACQUIRE, fabric-side replicas are
no longer aligned, and stamps from before are not used. -/
def State.stepTo (s : State) (units : Nat) (source : Nat) : State :=
  let u := units % (2 ^ 48 * 1000000000 * nsUnit)
  let by_ : Int := ((u / nsUnit : Nat) : Int) - (s.now : Int)
  let s := { s with tm := { s.tm with
    copies := [u, u, u], stepBy := none, setWait := false, lastStamp := none, ppsLast := none, sync := none,
    holdSince := (((s.tm.holdSince : Int) + by_).toNat),
    phase := (s.tm.armed.map (fun a : Nat × Nat => a.1)).getD s.tm.phase, armed := none,
    ports := s.tm.ports.map (fun (e : Nat × TimePort) => (e.1, if e.1 < 20 then { e.2 with aligned := false } else e.2)) } }
  let s := (s.raise Reg.tmEvents 8).record 10 0x12 0 0xFF source (le 8 (twos 64 by_))
  s.fusionAcquire

/-- TIME_STEP_APPLY (R357): at a cycle boundary. -/
def execTimeStepApply (s : State) : Out :=
  if s.tm.setWait then
    let ns := s.regN Reg.tmSetNs
    if 999999999 < ns then .next { s with tm := { s.tm with setWait := false, cmdIgnored := true } }
    else
      let sec := s.regN Reg.tmSetSecLo + s.regN Reg.tmSetSecHi * 2 ^ 32
      .next (s.stepTo ((sec * 1000000000 + ns) * nsUnit) 1)
  else match s.tm.stepBy with
    | some d =>
      if s.gov.wheel.state = .standby then
        .next (s.stepTo (((s.timeUnits : Int) + d * (5 * 2 ^ 24)).toNat) 0)
      else .next { s with tm := { s.tm with stepBy := none } }
    | none => .next s

/-- REACQUIRE: TM_CMD op 2 (R358). -/
def execReacquire (s : State) : Out :=
  if s.tm.fantail = .holdover then
    .next { s with tm := { s.tm with fantail := .freeRun, f := clampI (-fLimit) fLimit s.tm.fInt, expired := false,
                                     qual := 0, cmdIgnored := false } }
  else .next { s with tm := { s.tm with cmdIgnored := true } }

/-- TM_TICK_PHASE_WRITE (R347). -/
def execTmTickPhaseWrite (v : Nat) (s : State) : Out :=
  if s.gov.wheel.state = .standby ∧ v < 250000 then
    .next ({ s with tm := { s.tm with newPhase := some v, cmdIgnored := false } }.setReg Reg.tmTickPhase (word v))
  else .next { s with tm := { s.tm with cmdIgnored := true } }

/-- The ns, seconds and fraction words of a time in 2^−16 ns (R343). -/
def timeNs (t : Nat) : Nat := t / 65536 % 1000000000
def timeSec (t : Nat) : Nat := t / (65536 * 1000000000)

/-- The capture of a time value by a read of its ns register, and the value read (R346). -/
def State.captureTime (s : State) (pps : Bool) : Nat × State :=
  let t := if pps then (s.tm.ppsCap % (65536 * 1000000000 * 2 ^ 48)).toNat else s.now16
  let b := if pps then Reg.tmPpsCapSecLo else Reg.tmNowSecLo
  let h := Tbl.set (Tbl.set s.hold b (word (timeSec t))) (b + 4) (word (timeSec t / 2 ^ 32 % 65536))
  let h := if pps then h else Tbl.set h Reg.tmNowFrac (word (t % 65536))
  (timeNs t, { s with hold := h })

/-- TM_NOW_CAPTURE (R346): a read of TM_NOW_NS, or of TM_PPS_CAP_NS. -/
def execTmNowCapture (pps : Bool) (s : State) : Out :=
  let r := s.captureTime pps
  .next { r.2 with hp := { r.2.hp with readData := [word r.1] } }

/-- TIME_COPY_MISMATCH (R345): the copies deviate by so many units at an edge. -/
def execTimeCopyMismatch (da db dc : Int) (s : State) : Out :=
  if s.tm.running then
    let a := (((nth s.tm.copies 0 0 : Nat) : Int) + da).toNat
    let b := (((nth s.tm.copies 1 0 : Nat) : Int) + db).toNat
    let c := (((nth s.tm.copies 2 0 : Nat) : Int) + dc).toNat
    let fix (v lane : Nat) : Out :=
      let s := { s with tm := { s.tm with copies := [v, v, v] } }
      .next (((s.bump Reg.tmCopyFix 1).raise Reg.tmEvents 64).record 10 0x10 0 0xFF lane [])
    if a = b ∧ b = c then .next { s with tm := { s.tm with copies := [a, b, c] } }
    else if a = b then fix a 2
    else if a = c then fix a 1
    else if b = c then fix b 0
    else .next ({ s with tm := { s.tm with copies := [a, b, c] } }.stoCause 1)
  else .next s

/-- The crossing of a timing port (R436). -/
def portCrossing (p : Nat) : Nat := 16 + p

/-- REPLICA_REALIGN (R366): not during handshake-mode crossings. -/
def execReplicaRealign (p : Nat) (s : State) : Out :=
  if p < 20 ∧ s.tm.running = true ∧ has s.ck.service (portCrossing p) = true then
    .next (s.setPort p { s.port p with aligned := true })
  else .next s

/-- PTP_MESSAGE_RECEIVE (R348, R350): the message types each kind of port takes; a Pdelay request and a Delay request
are answered with their stamps. -/
def execPtpMessageReceive (p kind domain : Nat) (malformed : Bool) (cap : Int) (s : State) : Out :=
  if p < 26 ∧ s.portOn p = true then
    let dom := if 8 ≤ p ∧ p < 24 then fld (s.reg (Reg.tmPortCfg p)) 18 12 else 0
    let kinds : List Nat :=
      if p < 8 then [0x0, 0x2, 0x3, 0x8, 0xA, 0xB] else if p < 24 then [0x1] else [0x2, 0x3, 0xA]
    if malformed = true ∨ domain ≠ dom ∨ has kinds kind = false then .next (s.bump (Reg.tmPortErr p) 1)
    else
      let t := s.stampIn p cap
      let ans (k : Nat) : Out :=
        let m : PtpOut := { kind := k, origin := (t / 65536).toNat, correction := t % 65536, stamp := t }
        .next { s with tm := { s.tm with sent := Tbl.set s.tm.sent p m } }
      match kind with
      | 0x2 => ans 3
      | 0x1 => ans 4
      | _ => .next s
  else .next s

/-- ANNOUNCE_TRANSMIT (R348, R349): on a master port, outside the guard band of a queued launch (R362). -/
def execAnnounceTransmit (p : Nat) (s : State) : Out :=
  if p < 26 ∧ s.roleNow p = 1 ∧ (s.port p).linkUp = true ∧ s.guarded p = false then
    let a := match s.selectGm with
      | some g => { g.2 with steps := g.2.steps + 1 }
      | none => s.ownAnn
    let m : PtpOut := {
      kind := 1, identity := a.id,
      quality := a.p1 + 256 * a.p2 + 65536 * a.cls + 16777216 * a.acc, timeSource := a.src,
      utc := s.regN Reg.tmUtcOffset }
    .next { s with tm := { s.tm with sent := Tbl.set s.tm.sent p m } }
  else .next s

/-- PDELAY_REQUEST_TRANSMIT (R353), outside the guard band of a queued launch (R362). -/
def execPdelayRequestTransmit (p : Nat) (cap : Int) (s : State) : Out :=
  if (p < 8 ∨ p = 24 ∨ p = 25) ∧ s.portOn p = true ∧ (s.port p).linkUp = true ∧ s.guarded p = false then
    let s := s.setPort p { s.port p with pdelayOut := true }
    .next { s with tm := { s.tm with sent := Tbl.set s.tm.sent p { kind := 2, stamp := s.stampOut p cap } } }
  else .next s

/-- A port loses asCapable (R359). -/
def State.loseCapable (s : State) (p : Nat) : State :=
  let mine := s.tm.slave = some p
  let s := s.setPort p { s.port p with asCapable := false, ann := none }
  if mine then s.enterHoldover.applyGm else s

/-- AS_CAPABLE_LOST (R359). -/
def execAsCapableLost (p : Nat) (s : State) : Out :=
  if p < 26 then .next (s.loseCapable p) else .next s

/-- A timing port's link goes down: the reference vanishes where it is the slave port (R359). -/
def State.timeLinkDown (s : State) (p : Nat) : State :=
  let s := s.loseCapable p
  s.setPort p { s.port p with linkUp := false, aligned := false, pdelayOut := false }

/-- A timing port's link comes up; motion-side ports run on the time base's own clocks. -/
def State.timeLinkUp (s : State) (p : Nat) : State :=
  s.setPort p { s.port p with linkUp := true, aligned := 20 ≤ p }

/-- TM_CTRL as a write sets it: source 3 is written as 0 and slew_ppm 0 as 1. -/
def tmCtrlValue (v : Nat) : Nat :=
  let src := if v % 4 = 3 then 0 else v % 4
  let slew := if fldN v 9 3 = 0 then 1 else fldN v 9 3
  src + put 2 1 (v / 4) + put 3 7 slew

/-- TM_CTRL_SOURCE_WRITE (R354): SELF_ONLY puts the fantail into FREE_RUN at f_int; another change of source takes the
reference away. -/
def execTmCtrlSourceWrite (v : Nat) (s : State) : Out :=
  let old := s.tmSource
  let s := s.setReg Reg.tmCtrl (word (tmCtrlValue v))
  if s.tmSource = 2 then
    .next ({ s with tm := { s.tm with fantail := .freeRun, f := clampI (-fLimit) fLimit s.tm.fInt, slewing := false,
                                      far := false, expired := false, qual := 0, stepBy := none } }).applyGm
  else if s.tmSource = old then .next s
  else .next (s.enterHoldover.applyGm)

/-! ### Scheduled launch (R361–R364) -/

/-- Management entries of a queue: at most three of its four places. -/
def mgmtCount (q : List LaunchEntry) : Nat := (q.filter (fun e => !e.voter)).length

/-- The voter places its frame; the fourth place is always free for it (R361). -/
def State.placeVoted (s : State) (p time : Nat) (frame : List Nat) : State :=
  let q := s.queue p
  if q.length < 4 then s.setQueue p (q ++ [{ time := time, voter := true, ref := 0, frame := frame }]) else s

/-- Waiting management entries take places that have become free. -/
def State.admitWaiting (s : State) (p : Nat) : State :=
  match Tbl.getD s.launch.waiting p [] with
  | [] => s
  | e :: t =>
    if mgmtCount (s.queue p) < 3 then
      let s := s.setQueue p (s.queue p ++ [e])
      { s with launch := { s.launch with waiting := Tbl.set s.launch.waiting p t } }
    else s

/-- LAUNCH_ENTRY_PLACE (R361). -/
def execLaunchEntryPlace (p time ref : Nat) (s : State) : Out :=
  if p < 2 then
    let e : LaunchEntry := { time := time, voter := false, ref := ref, frame := [] }
    .next (({ s with launch := { s.launch with
      waiting := Tbl.set s.launch.waiting p (Tbl.getD s.launch.waiting p [] ++ [e]) } }).admitWaiting p)
  else .next s

/-- The entry with the earliest launch time. -/
def earliest : List LaunchEntry → Option LaunchEntry
  | [] => none
  | e :: t => match earliest t with
    | none => some e
    | some d => if e.time ≤ d.time then some e else some d

/-- One entry taken out of a queue. -/
def dropEntry (e : LaunchEntry) : List LaunchEntry → List LaunchEntry
  | [] => []
  | d :: t => if d = e then t else d :: dropEntry e t

/-- A late entry is counted, and recorded once per second at most (R364). -/
def State.launchLate (s : State) (p : Nat) : State :=
  let s := (s.bump Reg.tmLaunchLate 1).raise Reg.tmEvents 32
  let n := s.launch.lateSince + 1
  let due := match s.launch.lateLast with
    | none => true
    | some t => decide (1000000000 ≤ s.now - t)
  if due then
    ({ s with launch := { s.launch with lateLast := some s.now, lateSince := 0 } }).record 10 0x13 0 0xFF p (le 4 n)
  else { s with launch := { s.launch with lateSince := n } }

/-- A copy of a cyclic frame is on the ring; STO frames of a shutdown are counted once per tick (R427, R447). -/
def State.cyclicSent (s : State) (p : Nat) (e : LaunchEntry) : State :=
  let tick := nth e.frame 1 0
  let first := !(s.mr.launched.any (fun (x : Nat × Nat) => x.1 = tick))
  let sto := decide (nth e.frame 4 0 % 8 = 4) && decide (s.pw.supply = .shutdown) && first
  { s with mr := { s.mr with launched := s.mr.launched ++ [(tick, p)] }
           gov := { s.gov with stoFrames := s.gov.stoFrames + b2n sto } }

/-- TORQUE_LAUNCH (R362, R364): the port takes its earliest entry when its guard band has begun; `err` is the
launch error in 2^−8 ns. -/
def execTorqueLaunch (p : Nat) (err : Int) (s : State) : Out :=
  match earliest (s.queue p) with
  | none => .next s
  | some e =>
    if s.now + 1300 + s.regN (Reg.tmLatOut (24 + p)) / 256 < e.time then .next s
    else
    let s := (s.setQueue p (dropEntry e (s.queue p))).admitWaiting p
    if e.time < s.now then .next (s.launchLate p)
    else
      let n := min err.natAbs 0xFFFF
      let old := s.regN Reg.tmLaunchErrPeak
      let s := if old < 2 ^ 31 ∨ old % 65536 < n then
          s.setReg Reg.tmLaunchErrPeak (word (n + put 16 1 p + 2 ^ 31)) else s
      let sent : Launched := { entry := e, stamp := 65536 * (e.time : Int) + 256 * err }
      let s := { s with launch := { s.launch with last := Tbl.set s.launch.last p sent } }
      .next (if e.voter then s.cyclicSent p e else s)

end Sys2Proof.Machine
end

