-- ==== Sys2Proof/Machine/Weirs.lean ====
section
/-!
DEFINITION. The rows of the weirs and their tokens (R101, R102): which row charges a parcel, and what passes a weir.
-/
namespace Sys2Proof.Machine

def rowKey (w r : Nat) : Nat := 64 * w + r
def State.rowWord (s : State) (w r : Nat) : Nat := Tbl.getD s.leat.rows (rowKey w r) 0

/-- A valid row of a parcel's class and owner. -/
def rowFits (word : Nat) (p : Parcel) : Bool :=
  rowValid word && rowCls word = p.cls && (if rowPriv word then p.priv else !p.priv && rowCtx word = p.ctx)

/-- The row that charges a parcel at a weir. -/
def State.rowFor (s : State) (w : Nat) (p : Parcel) : Option Nat :=
  (List.range 64).find? (fun r => rowFits (s.rowWord w r) p)

/-- A row holds a whole token. -/
def State.hasToken (s : State) (w r : Nat) : Bool := 1024 ≤ Tbl.getD s.leat.tokens (rowKey w r) 0

/-- Tokens are taken and the parcels counted (WR_ADMIT_w). -/
def State.takeTokensOf (s : State) (w r n : Nat) : State :=
  ({ s with leat := { s.leat with
      tokens := Tbl.set s.leat.tokens (rowKey w r) (Tbl.getD s.leat.tokens (rowKey w r) 0 - 1024 * n) } }).bump (Reg.wrAdmit w) n

/-- A token is taken and the parcel counted. -/
def State.takeToken (s : State) (w r : Nat) : State := s.takeTokensOf w r 1

/-- Up to n parcels of a class and context pass a weir, as far as its row has tokens: how many, and the state after them. -/
def State.passWeir (s : State) (w cls ctx n : Nat) : Nat × State :=
  match s.rowFor w { dest := 0, cls := cls, ctx := ctx } with
  | none => (0, s)
  | some r =>
    let k := if has s.leat.shut w then 0 else min n (Tbl.getD s.leat.tokens (rowKey w r) 0 / 1024)
    (k, if k = 0 then s else s.takeTokensOf w r k)

end Sys2Proof.Machine
end

