-- ==== Sys2Proof/Machine/Phirov.lean ====
section
/-!
DEFINITION. Phirov: ports, pairings, credits, remote accesses and collectives (R402–R421).
-/
namespace Sys2Proof.Machine

def State.peer (s : State) (m : Nat) : Peer := Tbl.getD s.px.peers m {}
def State.setPeer (s : State) (m : Nat) (x : Peer) : State :=
  { s with px := { s.px with peers := Tbl.set s.px.peers m x } }

/-- PX_MODULE_ID (R408). -/
def State.moduleId (s : State) : Nat := fld (s.reg Reg.pxModuleId) 9 0

/-- PX_PORT_CFG_p.enable. -/
def State.pxOn (s : State) (p : Nat) : Bool := bitN (s.regN (Reg.pxPortCfg p)) 0

/-- The grant g_c of a port (PX_GRANT_A_p, PX_GRANT_B_p). -/
def State.grant (s : State) (p c : Nat) : Nat :=
  let r := if c < 2 then s.reg (Reg.pxGrantA p) else s.reg (Reg.pxGrantB p)
  if c % 2 = 0 then fld r 12 0 else fld r 28 16

/-- The pool of class c on port p (R38). -/
def pxPool (p c : Nat) : Nat := 416 + 4 * p + c

/-- Slots of a frame of a slot-taking kind (R406). -/
def frameSlots (payload : Nat) : Nat := (32 + payload + 1151) / 1152

def cget (t : Tbl Nat) (c : Nat) : Nat := Tbl.getD t c 0
def cadd (t : Tbl Nat) (c n : Nat) : Tbl Nat := Tbl.set t c (cget t c + n)
def csub (t : Tbl Nat) (c n : Nat) : Tbl Nat := Tbl.set t c (cget t c - n)

/-- Peers of a port that are UP. -/
def State.peersUp (s : State) (p : Nat) : List Nat :=
  s.px.peers.filterMap (fun e => if e.2.port = p && e.2.state = .up then some e.1 else none)

/-- A frame leaves a port now. -/
def State.pxSent (s : State) (p : Nat) (f : PxFrame) : State :=
  ({ s with px := { s.px with sent := Tbl.set s.px.sent p f } }).bump (Reg.pxTxFrames p) 1

/-- Source and destination fields of a frame to m (R405). -/
def State.pxHead (s : State) (m : Nat) (f : PxFrame) : PxFrame :=
  let x := s.peer m
  { f with src := s.moduleId + 1024 * x.port, dst := m + 1024 * x.peerPort, session := x.session }

/-- The CREDIT frame that grants counts per class (R406). -/
def creditFrame (ms : List Nat) : PxFrame :=
  { kind := 6, length := 16, payload := (ms.map (fun n => le 4 n)).flatten }

/-! ### Pairings (R410) -/

/-- The pairing with m enters JOINING where its route is valid, its port is enabled with its link up, and m is another
module (R410). -/
def State.tryJoin (s : State) (m : Nat) : State :=
  let x := s.peer m
  if x.valid ∧ x.state = .down ∧ m ≠ s.moduleId ∧ s.pxOn x.port = true ∧ has s.px.linkUp x.port = true then
    s.setPeer m { x with state := .joining, session := (x.session + 1) % 65536, heard := 0 }
  else s

/-- Every valid pairing of a port enters JOINING. -/
def State.joinPort (s : State) (p : Nat) : State :=
  s.px.peers.foldl (fun s e => if e.2.port = p then s.tryJoin e.1 else s) s

/-! ### Loss of a peer (R415, R421) -/

/-- Tier requests of a token end once; the remotes of the same token go with them. -/
def State.endRemote (s : State) (mill stage id status : Nat) : State :=
  let s := { s with px := { s.px with
    remote := s.px.remote.filter (fun e => !(e.2.mill = mill && e.2.stage = stage && e.2.id = id)) } }
  match s.tierReq mill stage id with
  | some r => s.tierEnd r status 0
  | none => s

/-- A COLLECT abort to module m: length 0 and status LINK_DOWN (R421). -/
def collAbortFrame (g cls : Nat) : PxFrame := { kind := 5, cls := cls, status := 0x12, address := g, slots := 1 }

/-- A group's collective on this module ends: status and largest tag on its token; the group's buffer tags are 255 where
it failed (R419, R421). PX_EVENTS.coll_fail is raised for a failure. -/
def State.collEnd (s : State) (g status tag : Nat) : State :=
  match Tbl.find s.px.colls g with
  | none => s
  | some k =>
    let s := { s with px := { s.px with colls := Tbl.erase s.px.colls g } }
    let s := if status = 0 then s else s.raise Reg.pxEvents 4
    match s.tierReq k.mill k.stage k.id with
    | some r => s.tierEnd r status tag
    | none => s

/-- The buffer of a group: element bytes, then one tag byte per block (R74, R419). -/
def Group.elemBytes (g : Group) : Nat := if g.format = 1 then 4 else 2
def Group.slots (g : Group) : Nat := if g.op = 2 ∨ g.op = 4 then g.members.length else 1
def Group.bytes (g : Group) : Nat := g.slots * g.elements * g.elemBytes
def Group.tagAddr (g : Group) : Nat := g.buffer + g.bytes

/-- Every result block set to tag 255, LINK_DOWN sent to every other member that can be reached, and the collective
complete (R421). -/
def State.collFail (s : State) (g status : Nat) : State :=
  match Tbl.find s.px.colls g with
  | none => s
  | some _ =>
    let b := s.body 2 0
    let gr := leatGroup b g
    let s := s.putMem gr.tagAddr (List.replicate (gr.slots * gr.elements / 32) 255)
    let s := gr.members.foldl (fun s m =>
      if m ≠ s.moduleId ∧ (s.peer m).state = .up then
        { s with px := { s.px with tx := s.px.tx ++ [(m, collAbortFrame g gr.cls)] } }
      else s) s
    s.collEnd g status 255

/-- PEER_LOST (R415): causes 1 timeout, 2 link down, reset or disabled, 3 sequence gap, 4 session mismatch. -/
def State.loseePool (s : State) (m p c : Nat) : State :=
  let x := s.peer m
  let n := cget x.granted c + cget x.response c
  let s := s.reclaim (pxPool p c) .inFlight n 2 p m
  let s := s.releasePool (pxPool p c)
  let s := s.resize (pxPool p c) ((s.pool (pxPool p c)).size - s.grant p c)
  let y := s.peer m
  s.setPeer m { y with granted := Tbl.set y.granted c 0, response := Tbl.set y.response c 0 }

def State.losePeer (s : State) (m cause : Nat) : State :=
  let x := s.peer m
  if x.state = .down then s
  else if x.state = .joining then s.setPeer m { x with state := .down }
  else
    let p := x.port
    let s := s.setPeer m { x with state := .down }
    let s := [0, 1, 2, 3].foldl (fun s c => s.loseePool m p c) s
    let y := s.peer m
    let s := s.setPeer m { y with credit := [], freed := [], rxSeq := [], txSeq := [] }
    let s := (s.bump (Reg.pxPeerLoss p) 1).raise Reg.pxEvents 2
    let s := s.record 11 1 0x12 0xFF p (le 2 m ++ le 1 cause)
    let s := { s with px := { s.px with tx := s.px.tx.filter (fun e => e.1 != m), full := remN s.px.full p } }
    let mine := s.px.remote.filter (fun e => e.2.peer = m)
    let s := mine.foldl (fun s e => s.endRemote e.2.mill e.2.stage e.2.id 0x12) s
    let s := s.px.colls.foldl (fun s e =>
      if has (leatGroup (s.body 2 0) e.1).members m then s.collFail e.1 0x12 else s) s
    s.tryJoin m

/-- Every peer of a port is lost. -/
def State.losePort (s : State) (p cause : Nat) : State :=
  s.px.peers.foldl (fun s e => if e.2.port = p then s.losePeer e.1 cause else s) s

/-! ### Slots of received frames (R411) -/

/-- A received frame's slots leave the path: from in_flight to held. Slots beyond those granted do not move. -/
def State.slotsIn (s : State) (p m : Nat) (f : PxFrame) : State :=
  let x := s.peer m
  let s := s.move (pxPool p f.cls) .inFlight .held f.slots
  if f.kind = 4 then s.setPeer m { x with response := csub x.response f.cls f.slots }
  else s.setPeer m { x with granted := csub x.granted f.cls f.slots }

/-- A frame's content has passed on: held to returned, and granted again later where they were the peer's (R411, R412). -/
def State.slotsOut (s : State) (p m : Nat) (f : PxFrame) : State :=
  let s := s.move (pxPool p f.cls) .held .returned f.slots
  if f.kind = 4 then s
  else
    let x := s.peer m
    if x.state = .up then s.setPeer m { x with freed := cadd x.freed f.cls f.slots } else s

/-- Slots that a frame's credit field returns (R405): [12:0] count, [14:13] class. -/
def Peer.piggyback (x : Peer) (credit : Nat) : Peer :=
  { x with credit := cadd x.credit (fldN credit 14 13) (fldN credit 12 0) }

/-- The acceptance of a frame other than HELLO on a port (R404, R406, R408, R410, R413): the port enabled with its link
up, the frame for this module, its length in range, the pairing UP in its session, the sequence number next. `true` where
the frame goes on. -/
def State.pxAccept (s : State) (p m : Nat) (f : PxFrame) : Bool × State :=
  let x := s.peer m
  let bad := fldN f.dst 9 0 ≠ s.moduleId ∨ x.port ≠ p ∨
    (f.kind = 2 ∧ (f.length = 0 ∨ 8192 < f.length ∨ f.payload.length ≠ f.length)) ∨
    (f.kind = 3 ∧ (f.length = 0 ∨ 65536 < f.length)) ∨ ((f.kind = 4 ∨ f.kind = 5) ∧ 8192 < f.length)
  if s.pxOn p = false ∨ has s.px.linkUp p = false then (false, s)
  else if bad then (false, s.bump (Reg.pxRxErr p) 1)
  else
    let s := s.bump (Reg.pxRxFrames p) 1
    if x.state ≠ .up ∨ f.session ≠ x.expected then (false, s.bump (Reg.pxStale p) 1)
    else
      let seqd := f.kind ≠ 6
      if seqd = true ∧ f.seq ≠ cget x.rxSeq f.cls then (false, s.losePeer m 3)
      else
        let x := if seqd then { x with rxSeq := Tbl.set x.rxSeq f.cls ((f.seq + 1) % 2 ^ 32) } else x
        (true, s.setPeer m (x.piggyback f.credit))

/-! ### Remote requests served here (R414) -/

/-- The status of a remote access to [a, a + n) by context c (R414): unmapped, unpopulated or reserved, then not held. -/
def State.remoteStatus (s : State) (c a n : Nat) : Nat :=
  let ok := tierRange a n .pond || (tierRange a n .hbm && (hbmPage a).isSome && (hbmPage (a + n - 1)).isSome)
  if !ok then 0x02 else if s.heldBy c a n then 0 else 0x0C

/-- A frame queued for a peer. -/
def State.enqueue (s : State) (m : Nat) (f : PxFrame) : State :=
  { s with px := { s.px with tx := s.px.tx ++ [(m, f)] } }

/-- A RESPONSE that carries a status alone. -/
def statusFrame (f : PxFrame) (status : Nat) : PxFrame :=
  { kind := 4, cls := f.cls, ctx := f.ctx, req := f.req, status := status, slots := 1 }

/-- A WRITE handled: its bytes are written, or its status tells why not (R414). -/
def State.serveWrite (s : State) (m : Nat) (f : PxFrame) : State :=
  let st := s.remoteStatus f.ctx f.address f.length
  let s := if st = 0 then s.putMem f.address f.payload else s
  s.enqueue m (statusFrame f st)

/-- A READ handled: its data in RESPONSE frames of at most 8,192 bytes, or its status (R414); a poisoned line gives
TIER_FAIL (R220). -/
def State.serveRead (s : State) (m : Nat) (f : PxFrame) : State :=
  let st := s.remoteStatus f.ctx f.address f.length
  let st := if st = 0 && s.poisonedIn f.address f.length then 0x02 else st
  if st ≠ 0 then s.enqueue m (statusFrame f st)
  else
    (List.range ((f.length + 8191) / 8192)).foldl (fun s i =>
      let n := min 8192 (f.length - 8192 * i)
      let bs := s.local (f.address + 8192 * i) n
      s.enqueue m { kind := 4, cls := f.cls, ctx := f.ctx, req := f.req, slots := frameSlots n, length := n,
                    address := f.address + 8192 * i, payload := bs }) s

/-! ### Collectives (R418–R420) -/

/-- The first 32-element block of part j of an n-way split of E elements, and the block after its last. -/
def partLo (blocks n j : Nat) : Nat := blocks * j / n

/-- Element codes of a group format as FP32 codes. -/
def Group.codes (g : Group) (bs : Bytes) : List Nat :=
  (unpackCodes (8 * g.elemBytes) (bs.length / g.elemBytes) bs).map (fun c => widen g.format c)

/-- FP32 codes rounded into the group format by RNE (R420). -/
def Group.pack (g : Group) (xs : List Nat) : Bytes :=
  packCodes (8 * g.elemBytes) (xs.map (fun x => match fmtOf g.format with
    | some f => (match f32.decode x with
      | .nan => canonicalNan g.format
      | .inf n => f.infCode n
      | .fin n m e => (f.encode .rne true n m 1 e).1)
    | none => 0))

/-- The elementwise FP32 sum of two runs. -/
def sumCodes (a b : List Nat) : List Nat := List.zipWith add32 a b

/-- The tag of the sum of two blocks rounded into the group format, under the reduction row of R75. -/
def sumTag (f : Nat) (ta tb : Nat) (a b y : List Nat) : Nat :=
  if 255 ≤ ta ∨ 255 ≤ tb ∨ y.any (fun x => !finite32 x) then 255
  else
    let da := a.map dy32
    let db := b.map dy32
    let dy := y.map dy32
    let p := boundAdd (tagBound ta (scaleExp da)) (tagBound tb (scaleExp db))
    let mag := boundMaxL (List.zipWith (fun x z => boundAdd (boundUp x.abs) (boundUp z.abs)) da db)
    let rho := boundMul unitU (boundMul mag (some ⟨1025, -10⟩))
    let k := scaleExp dy
    let out : Bound := if f = 1 then some Dy.zero else some ⟨1, k - 8⟩
    tagOf (boundAdd (boundAdd p rho) out) k

/-- The rank of a module in a group. -/
def Group.rank (g : Group) (m : Nat) : Option Nat := g.members.findIdx? (· = m)

/-- Own elements and tags of blocks lo … hi − 1 of a group's buffer; a block with a poisoned line has tag 255 (R220). -/
def State.ownPart (s : State) (g : Group) (lo hi : Nat) : Bytes × List Nat :=
  let w := 32 * g.elemBytes
  (s.local (g.buffer + lo * w) ((hi - lo) * w),
   (List.range (hi - lo)).map (fun i =>
    if s.poisonedIn (g.buffer + (lo + i) * w) w || s.poisonedIn (g.tagAddr + lo + i) 1 then 255
    else leNat (s.local (g.tagAddr + lo + i) 1)))

/-- COLLECT frames that carry blocks [lo, …) of a group to module m, at most 8,192 element bytes each (R406). -/
def collFrames (g : Nat) (gr : Group) (lo : Nat) (bs : Bytes) (tags : List Nat) : List PxFrame :=
  let per := 8192 / (32 * gr.elemBytes)
  (List.range ((tags.length + per - 1) / per)).map (fun i =>
    let t := (tags.drop (per * i)).take per
    let d := (bs.drop (per * i * 32 * gr.elemBytes)).take (t.length * 32 * gr.elemBytes)
    let pl := d ++ (t.map (fun x => le 1 x ++ le 1 (if x = 255 then 3 else 0))).flatten
    { kind := 5, cls := gr.cls, ctx := gr.ctx, slots := frameSlots pl.length, length := d.length,
      address := g + 65536 * ((lo + per * i) * 32), payload := pl })

/-- Blocks sent to a list of ranks. -/
def State.collSend (s : State) (g : Nat) (gr : Group) (ranks : List Nat) (lo : Nat) (bs : Bytes) (tags : List Nat) : State :=
  ranks.foldl (fun s r => (collFrames g gr lo bs tags).foldl (fun s f => s.enqueue (nth gr.members r 0) f) s) s

/-- Whether a group runs on the ring algorithm (R418); MERGE_GATHER goes straight to rank 0. -/
def Group.ring (g : Group) : Bool :=
  g.op ≠ 4 && (g.algorithm = 2 || (g.algorithm = 0 && 9 < g.members.length))

/-- Blocks of one member's vector. -/
def Group.blocks (g : Group) : Nat := g.elements / 32

/-- The block range of part j: a slot of the gathered buffer, or a part of the summed vector. -/
def Group.part (g : Group) (j : Nat) : Nat × Nat :=
  let n := g.members.length
  if g.op = 2 ∨ g.op = 4 then (j * g.blocks, (j + 1) * g.blocks)
  else (partLo g.blocks n j, partLo g.blocks n (j + 1))

/-- Other ranks. -/
def Group.others (g : Group) (r : Nat) : List Nat := (List.range g.members.length).filter (· ≠ r)

def collDone (t : Tbl Bytes) (gr : Group) (key part : Nat) : Bool :=
  let q := gr.part part
  (Tbl.getD t key []).length = (q.2 - q.1) * 32 * gr.elemBytes

/-- The part j final here: stored for the buffer and, in an ALL_REDUCE, sent on (direct: to every other member; ring: to
the next). -/
def State.collFinal (s : State) (g : Nat) (gr : Group) (r j : Nat) (bs : Bytes) (tags : List Nat) (sendOn : Bool) : State :=
  match Tbl.find s.px.colls g with
  | none => s
  | some k =>
    let k := { k with final := Tbl.set k.final j bs, finalTags := Tbl.set k.finalTags j tags }
    let s := { s with px := { s.px with colls := Tbl.set s.px.colls g k } }
    if !sendOn then s
    else if gr.ring then s.collSend g gr [(r + 1) % gr.members.length] (gr.part j).1 bs tags
    else s.collSend g gr (gr.others r) (gr.part j).1 bs tags

/-- Two runs of blocks summed in the group's arithmetic, with their tags. -/
def Group.sumParts (g : Group) (a b : Bytes × List Nat) : Bytes × List Nat :=
  let xa := g.codes a.1
  let xb := g.codes b.1
  let y := g.pack (sumCodes xa xb)
  let yc := g.codes y
  let n := a.2.length
  (y, (List.range n).map (fun i =>
    sumTag g.format (nth a.2 i 255) (nth b.2 i 255) ((xa.drop (32 * i)).take 32) ((xb.drop (32 * i)).take 32)
      ((yc.drop (32 * i)).take 32)))

/-- The first-round sum of this member's own part under the direct algorithm, over the members in an order the spec
leaves open (R420). -/
def State.directSum (s : State) (g : Nat) (gr : Group) (r : Nat) : State :=
  match Tbl.find s.px.colls g with
  | none => s
  | some k =>
    if (Tbl.find k.final r).isSome ∨ (gr.others r).any (fun q => !collDone k.got gr q r) then s
    else
      let own := s.ownPart gr (gr.part r).1 (gr.part r).2
      let order := freeOrder s.freeN gr.members.length
      let s := s.drew gr.members.length
      let get (q : Nat) : Bytes × List Nat :=
        if q = r then own else (Tbl.getD k.got q [], Tbl.getD k.gotTags q [])
      let y := match order with
        | [] => own
        | q :: t => t.foldl (fun a q => gr.sumParts a (get q)) (get q)
      s.collFinal g gr r r y.1 y.2 (gr.op = 1)

/-- What a member sends when it starts its part (R419). -/
def State.collStart (s : State) (g : Nat) (gr : Group) (r : Nat) : State :=
  let n := gr.members.length
  let own (j : Nat) : Bytes × List Nat :=
    if gr.op = 2 ∨ gr.op = 4 then s.ownPart gr (gr.part r).1 (gr.part r).2
    else s.ownPart gr (gr.part j).1 (gr.part j).2
  match gr.op with
  | 2 =>
    let x := own r
    s.collFinal g gr r r x.1 x.2 true
  | 4 =>
    let x := own r
    let s := s.collFinal g gr r r x.1 x.2 false
    if r = 0 then s else s.collSend g gr [0] (gr.part r).1 x.1 x.2
  | _ =>
    if gr.ring then
      let j := (r + n - 1) % n
      let x := own j
      s.collSend g gr [(r + 1) % n] (gr.part j).1 x.1 x.2
    else
      (gr.others r).foldl (fun s j => let x := s.ownPart gr (gr.part j).1 (gr.part j).2
                                      s.collSend g gr [j] (gr.part j).1 x.1 x.2) s

/-- The part whose blocks include block b. -/
def Group.partOf (g : Group) (b : Nat) : Nat :=
  ((List.range g.members.length).find? (fun j => (g.part j).1 ≤ b && b < (g.part j).2)).getD 0

/-- Element bytes and tags of a COLLECT frame. -/
def collData (f : PxFrame) : Bytes × List Nat :=
  let t := f.payload.drop f.length
  (f.payload.take f.length, (List.range (t.length / 2)).map (fun i =>
    if leAt t (2 * i + 1) 1 ≠ 0 then 255 else leAt t (2 * i) 1))

/-- A COLLECT frame taken by the collective it is for (R419, R421). -/
def State.collTake (s : State) (m : Nat) (f : PxFrame) : State :=
  let g := fldN f.address 5 0
  let gr := leatGroup (s.body 2 0) g
  match Tbl.find s.px.colls g, gr.rank s.moduleId, gr.rank m with
  | some k, some r, some q =>
    if f.length = 0 ∧ f.status = 0x12 then s.collFail g 0x12
    else
      let d := collData f
      let j := gr.partOf (f.address / 65536 / 32)
      let first : Bool := if gr.op = 2 ∨ gr.op = 4 then false
        else if gr.ring then
          -- a part starts its round at the member after its owner and ends, summed, at its owner
          !(Tbl.find k.final j).isSome && !(j = (r + gr.members.length - 1) % gr.members.length) &&
            !collDone k.got gr j j
        else j = r
      if first then
        let key := if gr.ring then j else q
        let k := { k with got := Tbl.set k.got key (Tbl.getD k.got key [] ++ d.1)
                          gotTags := Tbl.set k.gotTags key (Tbl.getD k.gotTags key [] ++ d.2) }
        let s := { s with px := { s.px with colls := Tbl.set s.px.colls g k } }
        if !gr.ring then s.directSum g gr r
        else if collDone k.got gr j j then
          let y := gr.sumParts (Tbl.getD k.got j [], Tbl.getD k.gotTags j []) (s.ownPart gr (gr.part j).1 (gr.part j).2)
          if j = r then s.collFinal g gr r r y.1 y.2 (gr.op = 1)
          else s.collSend g gr [(r + 1) % gr.members.length] (gr.part j).1 y.1 y.2
        else s
      else
        let bs := Tbl.getD k.final j [] ++ d.1
        let ts := Tbl.getD k.finalTags j [] ++ d.2
        let k := { k with final := Tbl.set k.final j bs, finalTags := Tbl.set k.finalTags j ts }
        let s := { s with px := { s.px with colls := Tbl.set s.px.colls g k } }
        let n := gr.members.length
        if gr.ring ∧ collDone k.final gr j j = true ∧ (r + 1) % n ≠ j then
          s.collSend g gr [(r + 1) % n] (gr.part j).1 bs ts
        else s
  | _, _, _ => s

/-- The parts that make a member's result (R419). -/
def Group.needed (g : Group) (r : Nat) : List Nat :=
  match g.op with
  | 3 => [r]
  | 4 => if r = 0 then List.range g.members.length else []
  | _ => List.range g.members.length

/-- A collective's part is complete here: every part of its result is final, or, for a member that only sends, its frames
have left. -/
def State.collReady (s : State) (g : Nat) : Bool :=
  let gr := leatGroup (s.body 2 0) g
  match Tbl.find s.px.colls g, gr.rank s.moduleId with
  | some k, some r =>
    (gr.needed r).all (fun j => collDone k.final gr j j) &&
      s.px.tx.all (fun e => !(e.2.kind = 5 && fldN e.2.address 5 0 = g))
  | _, _ => false

/-- The result written to the buffer with its tag plane; the largest tag among its blocks (R419). -/
def State.collStore (s : State) (gr : Group) (k : Coll) (r : Nat) : State × Nat :=
  (gr.needed r).foldl (fun a j =>
    let lo := if gr.op = 3 then 0 else (gr.part j).1
    let bs := Tbl.getD k.final j []
    let ts := Tbl.getD k.finalTags j []
    let s := (a.1.putMem (gr.buffer + lo * 32 * gr.elemBytes) bs).putMem (gr.tagAddr + lo) (ts.map (fun t => BitVec.ofNat 8 t))
    (s, max a.2 (maxL ts 0))) (s, 0)

/-! ### Handling of received frames -/

/-- A frame can be handled now: the fabric runs (R416), and a COLLECT frame finds its collective started. -/
def State.pxCan (s : State) (f : PxFrame) : Bool :=
  !s.pw.fabricPaused && (f.kind ≠ 5 || (Tbl.find s.px.colls (fldN f.address 5 0)).isSome)

/-- A RESPONSE for an outstanding request: data to its destination, and the end of the request at its last part (R414). -/
def State.takeResponse (s : State) (f : PxFrame) : State :=
  match Tbl.find s.px.remote f.req with
  | none => s
  | some r =>
    if f.status ≠ 0 then s.endRemote r.mill r.stage r.id f.status
    else
      let s := match s.tierReq r.mill r.stage r.id with
        | some q => if r.write then s else s.putMem (q.pond + (r.got)) f.payload
        | none => s
      let r' := { r with got := r.got + f.payload.length }
      if r.write ∨ r.length ≤ r'.got then
        let s := { s with px := { s.px with remote := Tbl.erase s.px.remote f.req } }
        if s.px.remote.any (fun e => e.2.mill = r.mill && e.2.stage = r.stage && e.2.id = r.id) then s
        else s.endRemote r.mill r.stage r.id 0
      else { s with px := { s.px with remote := Tbl.set s.px.remote f.req r' } }

/-- Response slots that a finished request took and did not use go back to returned. -/
def State.unusedSlots (s : State) (m p c : Nat) : State :=
  if s.px.remote.any (fun e => e.2.peer = m && e.2.cls = c) then s
  else
    let x := s.peer m
    let n := cget x.response c
    (s.move (pxPool p c) .inFlight .returned n).setPeer m { x with response := Tbl.set x.response c 0 }

/-- A frame whose slots are held is handled and its slots pass on. -/
def State.pxHandle (s : State) (p m : Nat) (f : PxFrame) : State :=
  let s := match f.kind with
    | 2 => s.serveWrite m f
    | 3 => s.serveRead m f
    | 4 => (s.takeResponse f).unusedSlots m p f.cls
    | 5 => s.collTake m f
    | _ => s
  s.slotsOut p m f

/-- Parcels as which a frame enters the leat at its port's weir (R31; log entry 42): its data, and at least one. -/
def pxParcels (f : PxFrame) : Nat := max 1 ((f.payload.length + 1023) / 1024)

/-- An earlier frame of the peer in the class waits: frames of one class from one peer are handled in order (R413). -/
def RxHeld.behind (h : RxHeld) (before : List RxHeld) : Bool :=
  before.any (fun x => x.peer = h.peer && x.frame.cls = h.frame.cls)

/-- One waiting frame goes on: its parcels pass weir 31 + p as far as its row has tokens (R102), none of a new frame while the ingress
is paused (R137); it is handled once all have passed. -/
def State.pxOne (s : State) (h : RxHeld) : State :=
  let ahead := s.px.rx.takeWhile (fun x => x ≠ h)
  let w := 31 + h.port
  if s.pxCan h.frame = false ∨ h.behind ahead = true ∨ (h.passed = 0 ∧ has s.leat.closing w = true) then s
  else
    let left := pxParcels h.frame - h.passed
    let k := s.passWeir w h.frame.cls h.frame.ctx left
    let rest := { k.2 with px := { k.2.px with rx := k.2.px.rx.erase h } }
    if k.1 = left then rest.pxHandle h.port h.peer h.frame
    else { k.2 with px := { k.2.px with rx := ahead ++ { h with passed := h.passed + k.1 } :: (k.2.px.rx.drop (ahead.length + 1)) } }

/-- Frames that wait in the receive buffer of a port go on where they can. -/
def State.pxDrain (s : State) (p : Nat) : State :=
  (s.px.rx.filter (fun h => h.port = p)).foldl (fun s h => s.pxOne h) s

/-- Those of every port. -/
def State.pxDrainAll (s : State) : State := (List.range 8).foldl (fun s p => s.pxDrain p) s

/-- A slot-taking frame received on a port: it goes on at once where it can, else it waits in its slots. -/
def State.pxReceive (s : State) (p m : Nat) (f : PxFrame) : State :=
  let r := s.pxAccept p m f
  if r.1 then
    let s := r.2.slotsIn p m f
    let h : RxHeld := { port := p, peer := m, frame := f }
    ({ s with px := { s.px with rx := s.px.rx ++ [h] } }).pxDrain p
  else r.2

/-! ### The commands -/

/-- PX_MODULE_ID_WRITE (R408): ignored while any Phirov port is enabled. -/
def execPxModuleIdWrite (v : Nat) (s : State) : Out :=
  if (List.range 8).any (fun p => s.pxOn p) then .next s
  else .next (s.setReg Reg.pxModuleId (word (v % 1024)))

/-- PX_PORT_CFG_p as a write sets it: a timeout below 2 is written as 2. -/
def pxCfgValue (v : Nat) : Nat :=
  put 0 3 v + put 4 12 (v / 16) + put 16 8 (max 2 (fldN v 23 16))

/-- PHIROV_PORT_ENABLE (R407): each pool sized to the response reserve. -/
def execPhirovPortEnable (p v : Nat) (s : State) : Out :=
  if 8 ≤ p ∨ v % 2 = 0 then .next s
  else
    let was := s.pxOn p
    let s := s.setReg (Reg.pxPortCfg p) (word (pxCfgValue v))
    if was then .next s
    else
      let s := [0, 1, 2, 3].foldl (fun s c => s.sizePool (pxPool p c) (s.grant p c)) s
      .next (s.joinPort p)

/-- PHIROV_PORT_DISABLE (R415). -/
def execPhirovPortDisable (p v : Nat) (s : State) : Out :=
  if 8 ≤ p ∨ v % 2 = 1 then .next s
  else
    .next ((s.setReg (Reg.pxPortCfg p) (word (pxCfgValue v))).losePort p 2)

/-- PX_PEER_WRITE (R410): bits [6:0] take effect only while the pairing is DOWN. -/
def execPxPeerWrite (m v : Nat) (s : State) : Out :=
  let x := s.peer m
  if 1024 ≤ m ∨ x.state ≠ .down then .next s
  else .next ((s.setPeer m { x with port := fldN v 2 0, peerPort := fldN v 5 3, valid := bitN v 6 }).tryJoin m)

/-- The link of timing port t comes up (R410): its PLL passes, and its crossing enters service mode once stage
MOTION_LOAD, or FABRIC for a fabric-side port, has ended (R454). -/
def State.linkUp (s : State) (t : Nat) : State :=
  let s := s.timeLinkUp t
  let on := if 20 ≤ t then 6 ≤ s.pw.stage else 7 ≤ s.pw.stage
  let s := { s with ck := { s.ck with
    serdesBad := remN s.ck.serdesBad t
    service := if on then addN s.ck.service (portCrossing t) else s.ck.service } }
  if t < 8 then ({ s with px := { s.px with linkUp := addN s.px.linkUp t } }).joinPort t
  else if t < 24 then { s with sn := { s.sn with linkUp := addN s.sn.linkUp (t - 8) } }
  else if t = 24 then { s with mr := { s.mr with link0 := true } }
  else { s with mr := { s.mr with link1 := true } }

/-- LINK_UP (R410, R454). -/
def execLinkUp (t : Nat) (s : State) : Out := if t < 26 then .next (s.linkUp t) else .next s

/-- HELLO_TIMER (R410). -/
def execHelloTimer (m : Nat) (s : State) : Out :=
  let x := s.peer m
  if (x.state = .joining ∨ x.state = .up) ∧ s.pxOn x.port = true ∧ has s.px.linkUp x.port = true then
    .next (s.pxSent x.port (s.pxHead m { kind := 7, length := 16,
                                         payload := le 2 x.session ++ le 2 x.heard ++ zeros 12 }))
  else .next s

/-- A pairing becomes UP (R407, R410, R411). -/
def State.pairUp (s : State) (m own : Nat) : State :=
  let x := s.peer m
  let p := x.port
  let sum := s.grant p 0 + s.grant p 1 + s.grant p 2 + s.grant p 3
  if 4096 < sum * ((s.peersUp p).length + 2) then { s with px := { s.px with full := addN s.px.full p } }
  else
    let s := s.setPeer m { x with state := .up, expected := own, heard := own, credit := [], granted := [], response := [],
                                  freed := [], rxSeq := [], txSeq := [] }
    let s := [0, 1, 2, 3].foldl (fun s c =>
      let g := s.grant p c
      let s := s.resize (pxPool p c) ((s.pool (pxPool p c)).size + g)
      let k := min g (s.pool (pxPool p c)).returned
      let s := s.move (pxPool p c) .returned .inFlight k
      let y := s.peer m
      s.setPeer m { y with granted := Tbl.set y.granted c k }) s
    let s := { s with px := { s.px with full := remN s.px.full p } }
    let s := s.raise Reg.pxEvents 1
    s.pxSent p (s.pxHead m (creditFrame ([0, 1, 2, 3].map (fun c => cget (s.peer m).granted c))))

/-- HELLO_RECEIVE (R410, R415). -/
def execHelloReceive (p m dst own echo : Nat) (s : State) : Out :=
  let x := s.peer m
  if s.pxOn p = false ∨ has s.px.linkUp p = false then .next s
  else if fldN dst 9 0 ≠ s.moduleId ∨ x.port ≠ p then .next (s.bump (Reg.pxRxErr p) 1)
  else
    let s := s.bump (Reg.pxRxFrames p) 1
    match x.state with
    | .down => .next s
    | .joining =>
      let s := s.setPeer m { x with heard := own }
      if echo = x.session then .next (s.pairUp m own) else .next s
    | .up => if own = x.expected then .next s else .next (s.losePeer m 4)

/-- CREDIT_RECEIVE (R411): granted slots per class. -/
def execCreditReceive (p m : Nat) (f : PxFrame) (s : State) : Out :=
  let r := s.pxAccept p m { f with kind := 6 }
  if r.1 then
    let x := r.2.peer m
    .next (r.2.setPeer m { x with credit := [0, 1, 2, 3].foldl (fun t c => cadd t c (leAt f.payload (4 * c) 4)) x.credit })
  else .next r.2

/-- Response slots that a request takes before it leaves (R414). -/
def responseSlots (f : PxFrame) : Nat :=
  if f.kind = 2 then 1 else if f.kind = 3 then (f.length + 8191) / 8192 * 8 else 0

/-- One frame taken out of the waiting ones. -/
def dropTx (m : Nat) (f : PxFrame) : List (Nat × PxFrame) → List (Nat × PxFrame)
  | [] => []
  | e :: t => if e.1 = m ∧ e.2 = f then t else e :: dropTx m f t

/-- Whether a frame may leave for m (R403, R412, R414, R416): peer credits for its slots, except for a RESPONSE, which
travels on the slots its requester granted; its response slots returned; the class not paused. -/
def State.canSend (s : State) (m : Nat) (f : PxFrame) : Bool :=
  let x := s.peer m
  x.state = .up && !s.pw.fabricPaused && s.pxOn x.port && has s.px.linkUp x.port &&
  !has s.px.pfc (4 * x.port + f.cls) && (f.kind = 4 || f.slots ≤ cget x.credit f.cls) &&
  responseSlots f ≤ (s.pool (pxPool x.port f.cls)).returned

/-- PHIROV_FRAME_SEND (R412): the oldest frame that waits for m in class c. -/
def execPhirovFrameSend (m c : Nat) (s : State) : Out :=
  match s.px.tx.find? (fun e => e.1 = m && e.2.cls = c) with
  | none => .next s
  | some e =>
    let f := e.2
    if s.canSend m f then
      let x := s.peer m
      let n := responseSlots f
      let s := s.move (pxPool x.port c) .returned .inFlight n
      let seq := cget x.txSeq c
      let x := { x with credit := if f.kind = 4 then x.credit else csub x.credit c f.slots
                        txSeq := Tbl.set x.txSeq c ((seq + 1) % 2 ^ 32)
                        response := cadd x.response c n }
      let s := s.setPeer m x
      let s := { s with px := { s.px with tx := dropTx m f s.px.tx } }
      let s := match Tbl.find s.px.remote f.req with
        | some r => if f.kind = 2 ∨ f.kind = 3 then
            { s with px := { s.px with remote := Tbl.set s.px.remote f.req { r with sent := true } } } else s
        | none => s
      .next (s.pxSent x.port (s.pxHead m { f with seq := seq }))
    else .next s

/-- CREDIT_RETURN_SEND (R411, R412): freed slots granted again. -/
def execCreditReturnSend (m : Nat) (s : State) : Out :=
  let x := s.peer m
  if x.state = .up ∧ x.freed.any (fun e => e.2 ≠ 0) then
    let ks := [0, 1, 2, 3].map (fun c => min (cget x.freed c) (s.pool (pxPool x.port c)).returned)
    let s := [0, 1, 2, 3].foldl (fun s c => s.move (pxPool x.port c) .returned .inFlight (nth ks c 0)) s
    let x := { x with granted := [0, 1, 2, 3].foldl (fun t c => cadd t c (nth ks c 0)) x.granted
                      freed := [0, 1, 2, 3].foldl (fun t c => csub t c (nth ks c 0)) x.freed }
    let s := s.setPeer m x
    .next (s.pxSent x.port (s.pxHead m (creditFrame ks)))
  else .next s

/-- WRITE_FRAME_RECEIVE (R413, R414). -/
def execWriteFrameReceive (p m : Nat) (f : PxFrame) (s : State) : Out :=
  .next (s.pxReceive p m { f with kind := 2, slots := frameSlots f.payload.length })

/-- READ_FRAME_RECEIVE (R413, R414). -/
def execReadFrameReceive (p m : Nat) (f : PxFrame) (s : State) : Out :=
  .next (s.pxReceive p m { f with kind := 3, slots := 1 })

/-- RESPONSE_RECEIVE (R413, R414). -/
def execResponseReceive (p m : Nat) (f : PxFrame) (s : State) : Out :=
  .next (s.pxReceive p m { f with kind := 4, slots := frameSlots f.payload.length })

/-- COLLECT_RECEIVE (R419, R421). -/
def execCollectReceive (p m : Nat) (f : PxFrame) (s : State) : Out :=
  .next (s.pxReceive p m { f with kind := 5, slots := frameSlots f.payload.length })

/-- PFC_RECEIVE (R403): honoured where pfc is set; `mask` holds the paused priorities, PCP 6, 5, 3, 1 for M, V, L, S. -/
def execPfcReceive (p mask : Nat) (s : State) : Out :=
  if p < 8 ∧ s.pxOn p = true ∧ bitN (s.regN (Reg.pxPortCfg p)) 2 = true then
    let pcp : List (Nat × Nat) := [(0, 6), (1, 5), (2, 3), (3, 1)]
    let keep := s.px.pfc.filter (fun k => k / 4 ≠ p)
    let new := pcp.filterMap (fun e => if bitN mask e.2 then some (4 * p + e.1) else none)
    .next { s with px := { s.px with pfc := keep ++ new } }
  else .next s

/-- PEER_LOST (R415), with its cause. -/
def execPeerLost (m cause : Nat) (s : State) : Out := .next (s.losePeer m cause)

/-- PEER_TIMEOUT (R415). -/
def execPeerTimeout (m : Nat) (s : State) : Out :=
  if (s.peer m).state = .up then .next (s.losePeer m 1) else .next s

/-- The link of timing port t goes down (R415, R359, R432). -/
def State.linkDown (s : State) (t : Nat) : State :=
  let s := s.timeLinkDown t
  if t < 8 then ({ s with px := { s.px with linkUp := remN s.px.linkUp t } }).losePort t 2
  else if t < 24 then { s with sn := { s.sn with linkUp := remN s.sn.linkUp (t - 8) } }
  else if t = 24 then { s with mr := { s.mr with link0 := false } }
  else { s with mr := { s.mr with link1 := false } }

/-- LINK_DOWN_EVENT (R415). -/
def execLinkDownEvent (t : Nat) (s : State) : Out := if t < 26 then .next (s.linkDown t) else .next s

/-- COLLECTIVE_REQUEST (R419): on a tier request token of the mill; frames that have come for the group are taken. Its status reaches
what is computed from the buffer as that of a read of it does (R69). -/
def execCollectiveRequest (mill stage id g : Nat) (s : State) : Out :=
  let b := s.body 2 0
  let gr := leatGroup b g
  match gr.rank s.moduleId with
  | none => .next s
  | some r =>
    let pool := s.pool (tokenPool mill)
    if leatGroups b ≤ g ∨ (Tbl.find s.px.colls g).isSome ∨ (s.tierReq mill stage id).isSome ∨
        pool.held + pool.returned = 0 ∨ s.pw.fabricPaused = true then .next s
    else
      let s := s.move (tokenPool mill) (if pool.held = 0 then .returned else .held) .inFlight 1
      let q : TierReq := { mill := mill, stage := stage, id := id, cls := gr.cls, write := false, ctx := gr.ctx,
                           hbm := gr.buffer, pond := gr.buffer, len := gr.bytes, remote := some 1024, start := s.now }
      let s := { s with tiers := { s.tiers with reqs := s.tiers.reqs ++ [q] }
                        px := { s.px with colls := Tbl.set s.px.colls g { mill := mill, stage := stage, id := id } } }
      if (gr.others r).any (fun j => (s.peer (nth gr.members j 0)).state ≠ .up) then .next (s.collFail g 0x12)
      else .next (s.collStart g gr r).pxDrainAll

/-- COLLECTIVE_DONE (R419): the result and its tag plane are in the buffer and the token returns with the largest tag. -/
def execCollectiveDone (g : Nat) (s : State) : Out :=
  let gr := leatGroup (s.body 2 0) g
  match Tbl.find s.px.colls g, gr.rank s.moduleId with
  | some k, some r =>
    if s.collReady g then
      let a := s.collStore gr k r
      .next (a.1.collEnd g k.status a.2)
    else .next s
  | _, _ => .next s

/-- FRAME_DISCARD (R404, R406, R408): counted in the error counter of timing port t. -/
def execFrameDiscard (t : Nat) (s : State) : Out :=
  if t < 8 then .next (s.bump (Reg.pxRxErr t) 1)
  else if t < 24 then .next (s.bump (Reg.snLaneErr (t - 8)) 1)
  else if t < 26 then .next (s.bump (Reg.mrRxErr (t - 24)) 1)
  else .next s

/-- A tier request to a page of module m leaves as WRITE frames of 8,192 bytes, or as one READ (R414); data with a poisoned line does
not leave (R220). -/
def State.pxRequest (s : State) (q : TierReq) (m : Nat) : State :=
  if (s.peer m).state ≠ .up then s.endRemote q.mill q.stage q.id 0x12
  else if q.write ∧ s.poisonedIn q.pond q.len = true then s.endRemote q.mill q.stage q.id 0x02
  else if q.write then
    (List.range ((q.len + 8191) / 8192)).foldl (fun s i =>
      let n := min 8192 (q.len - 8192 * i)
      let req := s.px.nextReq
      let bs := s.local (q.pond + 8192 * i) n
      let r : Remote := { peer := m, cls := q.cls, write := true, mill := q.mill, stage := q.stage, id := q.id, slots := 1,
                          length := n }
      let s := { s with px := { s.px with nextReq := (req + 1) % 65536, remote := Tbl.set s.px.remote req r } }
      s.enqueue m { kind := 2, cls := q.cls, ctx := q.ctx, req := req, address := q.hbm + 8192 * i, length := n,
                    slots := frameSlots n, payload := bs }) s
  else
    let req := s.px.nextReq
    let r : Remote := { peer := m, cls := q.cls, write := false, mill := q.mill, stage := q.stage, id := q.id,
                        slots := (q.len + 8191) / 8192 * 8, length := q.len }
    let s := { s with px := { s.px with nextReq := (req + 1) % 65536, remote := Tbl.set s.px.remote req r } }
    s.enqueue m { kind := 3, cls := q.cls, ctx := q.ctx, req := req, address := q.hbm, length := q.len, slots := 1 }

end Sys2Proof.Machine
end

