-- ==== Sys2Proof/Machine/Sensors.lean ====
section
/-!
DEFINITION. Sensor ingress (R422–R426): fragments, admission, refusal and tearing.
-/
namespace Sys2Proof.Machine

def State.stream (s : State) (n : Nat) : SnStream := Tbl.getD s.sn.streams n {}
def State.setStream (s : State) (n : Nat) (x : SnStream) : State :=
  { s with sn := { s.sn with streams := Tbl.set s.sn.streams n x } }

/-- SN_ERR_s raised by torn frames and gaps, each half stopping at 0xFFFF. -/
def State.snErr (s : State) (n torn gap : Nat) : State :=
  let w := s.reg (Reg.snErr n)
  s.setReg (Reg.snErr n) (word (min (fld w 15 0 + torn) 0xFFFF + 65536 * min (fld w 31 16 + gap) 0xFFFF))

/-- The frame in assembly is torn: counted once, its slot released (R424). -/
def State.tear (s : State) (n : Nat) : State :=
  let x := s.stream n
  match x.asm with
  | none => s
  | some a => (s.setStream n { x with asm := none, last := some a.number }).snErr n 1 0

/-- The gap that a frame number opens after the one admitted before (R424). -/
def gapOf (prev : Option Nat) (number : Nat) : Nat :=
  match prev with
  | none => 0
  | some p =>
    let d := (number + 2 ^ 32 - p % 2 ^ 32) % 2 ^ 32
    if d = 1 then 0 else if 2 ≤ d ∧ d < 2 ^ 31 then d - 1 else 1

/-- Payload bytes of one parcel of a frame in a format: at most 32 blocks and 1,024 bytes. -/
def frameChunk (fmt : Nat) : Nat := min 1024 (128 * fmtWidth fmt)

/-- The payloads of a frame's parcels. A frame of an MX format holds its element plane and then its scale plane (R57); each parcel
takes the element bytes of its blocks and then their scale bytes (R510). -/
def framePayloads (fmt : Nat) (data : Bytes) : List Bytes :=
  let c := frameChunk fmt
  if fmt = 6 ∨ fmt = 7 then
    let w := 4 * fmtWidth fmt
    let n := (data.length + w) / (w + 1)
    let es := chunksOf (32 * w) (n / 32 + 1) (data.take (w * n))
    let ss := chunksOf 32 (n / 32 + 1) (data.drop (w * n))
    List.zipWith (fun e x => e ++ x) es (ss ++ List.replicate es.length [])
  else chunksOf c (data.length / c + 1) data

/-- Data from outside as the parcels of one item in the format of `p`, with tag 0 and status OK (R73, R93, R510). -/
def dataParcels (p : Parcel) (data : Bytes) : List Parcel :=
  let gs := framePayloads p.format data
  let w := 32 * fmtWidth p.format + (if p.format = 6 ∨ p.format = 7 then 8 else 0)
  (gs.zip (List.range gs.length)).map (fun e =>
    let n := (8 * e.1.length + w - 1) / w
    { p with last := e.2 + 1 = gs.length, blocks := max n 1, off := e.2 * (frameChunk p.format * 8 / (32 * fmtWidth p.format))
             tags := List.replicate (max n 1) 0, status := List.replicate (max n 1) 0, payload := padTo 1024 e.1 })

/-- A frame as parcels (R73, R425). -/
def frameParcels (b : Binding) (f : SnFrame) : List Parcel :=
  dataParcels { dest := b.dest, cls := b.cls, ctx := b.ctx, format := f.format, seq := f.number, weir := 19 + b.lane
                origin := b.stream + 1 } f.data

/-- SENSOR_FRAME_ADMIT (R35, R425): the frame takes its slot for delivery and is reported to the fusion units. -/
def State.snAdmit (s : State) (n : Nat) (b : Binding) (a : Assembly) (port : Int) : State :=
  let x := s.stream n
  let f : SnFrame := { number := a.number, src := a.src, port := port, format := a.format, data := a.data }
  let s := s.snErr n 0 (gapOf x.prev a.number)
  let s := s.setStream n { x with asm := none, slots := x.slots ++ [f], prev := some a.number, shown := a.number,
                                  last := some a.number }
  let fu : FuFrame := { stream := n, src := a.src, port := port, number := a.number,
                        payload := if b.kind = 2 then a.data else [], tsOk := (s.port (8 + b.lane)).aligned }
  let s := { s with fus := { s.fus with inbox := s.fus.inbox ++ [fu] } }
  if b.kind = 0 then
    let w := 19 + b.lane
    { s with leat := { s.leat with waiting := Tbl.set s.leat.waiting w (Tbl.getD s.leat.waiting w [] ++ frameParcels b f) } }
  else s

/-- After a fragment has joined the assembly: admission, or the tears of a frame that ends wrongly (R424). -/
def State.snJoin (s : State) (n : Nat) (b : Binding) (a : Assembly) (last : Bool) (port : Int) : State :=
  let s := s.setStream n { s.stream n with asm := some a }
  if last then (if a.offset = a.bytes then s.snAdmit n b a port else s.tear n)
  else if a.bytes ≤ a.offset then s.tear n
  else s

/-- A lane has no ingress credit: the fabric is paused or the port retrains (R426, R463). -/
def State.laneStopped (s : State) (l : Nat) : Bool :=
  (l < 12 && s.pw.fabricPaused) || (s.ev.retraining.any (fun e => e.2 = 8 + l)) || has s.sn.paused l

/-- FRAGMENT_RECEIVE (R424). -/
def execFragmentReceive (l stream format number index offset src bytes : Nat) (first last : Bool) (cap : Int)
    (payload : Bytes) (s : State) : Out :=
  match s.binding stream with
  | none => .next (s.bump Reg.snUnbound 1)
  | some b =>
    if b.lane ≠ l then .next (s.bump Reg.snUnbound 1)
    else
      let port := s.stampIn (8 + l) cap / 65536
      let len := payload.length
      if first then
        let s := s.tear stream
        if index = 0 ∧ offset = 0 ∧ bytes ≤ b.frameMax then
          if (s.stream stream).slots.length < 8 ∧ s.laneStopped l = false then
            .next (s.snJoin stream b { number := number, next := 1, offset := len, bytes := bytes, format := format,
                                       src := src, data := payload } last port)
          else
            .next ((s.setStream stream { s.stream stream with last := some number }).bump (Reg.snRefused stream) 1)
        else .next ((s.setStream stream { s.stream stream with last := some number }).snErr stream 1 0)
      else
        match (s.stream stream).asm with
        | some a =>
          if number = a.number ∧ index = a.next ∧ offset = a.offset then
            .next (s.snJoin stream b { a with next := index + 1, offset := offset + len, data := a.data ++ payload }
              last port)
          else .next (s.tear stream)
        | none =>
          let x := s.stream stream
          if x.last ≠ some number ∧ x.counted ≠ some number then
            .next ((s.setStream stream { x with counted := some number }).snErr stream 1 0)
          else .next s

/-- Every frame in assembly on lanes that satisfy `p` is torn. -/
def State.tearLanes (s : State) (p : Nat → Bool) : State :=
  s.bindings.foldl (fun s b => if p b.lane then s.tear b.stream else s) s

/-- A sensor lane's domain is reset: its streams lose their assembly and their frame history (R424, R440). -/
def State.resetLaneStreams (s : State) (l : Nat) : State :=
  s.bindings.foldl (fun s b =>
    if b.lane = l then (s.tear b.stream).setStream b.stream { (s.tear b.stream).stream b.stream with prev := none }
    else s) s

/-- MR_CFG_WRITE (R428): applied as a whole, or ignored with cfg_ignored. -/
def execMrCfgWrite (v : Nat) (s : State) : Out :=
  let d := fldN v 6 0
  let a := fldN v 15 8
  let h := fldN v 18 16
  if s.gov.wheel.state = .standby ∧ 1 ≤ d ∧ d ≤ 64 ∧ 20 ≤ a ∧ a ≤ 250 ∧ 1 ≤ h ∧ h ≤ 4 then
    .next (s.setReg Reg.mrCfg (word (d + put 8 8 a + put 16 3 h)))
  else .next (s.raise Reg.mrEvents 32)

end Sys2Proof.Machine
end

