-- ==== Sys2Proof/Machine/Recorder.lean ====
section
/-!
DEFINITION. The event recorder's own steps: entering, flushing, coalescing, reading and capturing records, operating
time, and the retraining of ports (R463, R465–R471).
-/
namespace Sys2Proof.Machine

/-! ### Finding a record and its read status (R470) -/

/-- A record by number, where it is held. -/
def Recorder.find (r : Recorder) (n : Nat) : Option Rec :=
  match r.buffer.find? (fun x => x.seq = n) with
  | some x => some x
  | none => Tbl.find r.ring n

/-- The lowest number not overwritten (EV_OLDEST). -/
def Recorder.oldest (r : Recorder) : Nat := max 1 (r.head - 1048575)

/-- The bit of a channel in a clear's mask (R472, R509). -/
def maskBit (ch : Nat) : Nat := if 60 ≤ ch then ch - 60 + 19 else ch

/-- A record is cleared (R472); records of earlier clears never are. -/
def Recorder.isCleared (r : Recorder) (x : Rec) : Bool :=
  !(x.channel = 0 && x.event = 1) && r.cleared.any (fun c => x.seq ≤ c.bound && bitN c.mask (maskBit x.channel))

/-- The read status of a number in the privileged view: the first that applies (R470). -/
def Recorder.status (r : Recorder) (n : Nat) : Nat :=
  if r.head < n then 2
  else if r.pendingLive.any (fun x => x.seq = n) then 3
  else if n < r.oldest then 1
  else match r.find n with
    | none => 5
    | some x => if r.isCleared x then 4 else if x.bad then 5 else 0

/-- The read status in the view of a context (R470). -/
def Recorder.ctxStatus (r : Recorder) (ctx n : Nat) : Nat :=
  if r.head < n then 2
  else if n < r.oldest then 1
  else if r.pendingLive.any (fun x => x.seq = n) then 6
  else match r.find n with
    | none => 6
    | some x => if liveChannel x.channel || x.context ≠ ctx || x.bad then 6 else if r.isCleared x then 4 else 0

/-- The 64 bytes a window shows for a number and its status. -/
def Recorder.window (r : Recorder) (n status : Nat) : Bytes :=
  if status = 0 ∨ status = 5 then (match r.find n with
    | some x => x.bytes
    | none => zeros 64)
  else zeros 64

def State.latch (s : State) (k : Nat) : Latch := Tbl.getD s.ev.latches k {}
def State.setLatch (s : State) (k : Nat) (x : Latch) : State :=
  { s with ev := { s.ev with latches := Tbl.set s.ev.latches k x } }

/-! ### The commands -/

/-- LIVE_RECORD_ENTER (R467): the oldest pending live record. -/
def execLiveRecordEnter (s : State) : Out :=
  match s.ev.pendingLive with
  | [] => .next s
  | r :: t => .next (({ s with ev := { s.ev with pendingLive := t } }.enterRec r).raise Reg.evEvents 1)

/-- The store path runs: the fabric is powered, not paused, and neither it nor the store is in reset (R467). Domain codes
are those of R438. -/
def State.storeRuns (s : State) : Bool :=
  s.pw.fabricOn && !s.pw.fabricPaused && !has s.ck.held 4 && s.storeUp

/-- The oldest record of the buffer goes to its slot of the ring, over the record 1,048,576 before it (R467). -/
def State.flushOne (s : State) : State :=
  match s.ev.buffer with
  | [] => s
  | r :: t => { s with ev := { s.ev with
      buffer := t, ring := Tbl.set (Tbl.erase s.ev.ring (r.seq - 1048576)) r.seq r,
      flushed := max s.ev.flushed r.seq } }

/-- RECORD_FLUSH (R467). -/
def execRecordFlush (s : State) : Out := if s.storeRuns then .next s.flushOne else .next s

/-- COALESCED_RECORD (R467): one record for those a channel counted. -/
def execCoalescedRecord (ch : Nat) (s : State) : Out :=
  let n := Tbl.getD s.ev.coalesce ch 0
  if n = 0 ∨ s.ev.full = true then .next s
  else
    let r := s.newRec s.ev.next ch 0 0 0xFF 0 4 (le 4 n)
    let s := { s with ev := { s.ev with next := s.ev.next + 1, coalesce := Tbl.erase s.ev.coalesce ch } }
    .next ((s.enterRec r).raise Reg.evEvents 2)

/-- OP_SECONDS_SAVE (R469). -/
def execOpSecondsSave (s : State) : Out := .next { s with ev := { s.ev with opSaved := s.ev.opSeconds } }

/-- EV_RD_SEQ_HI_WRITE (R470): a write while busy is ignored. -/
def execEvRdSeqHiWrite (v : Nat) (s : State) : Out :=
  if (s.latch 64).busy then .next s
  else
    let s := s.setReg Reg.evRdSeqHi (word v)
    let n := s.regN Reg.evRdSeqLo + s.regN Reg.evRdSeqHi * 2 ^ 32
    let st := s.ev.status n
    .next (s.setLatch 64 { busy := true, status := st, data := s.ev.window n st })

/-- EV_CTX_SEL_HI_WRITE (R470). -/
def execEvCtxSelHiWrite (ctx v : Nat) (s : State) : Out :=
  if 64 ≤ ctx ∨ (s.latch ctx).busy = true then .next s
  else
    let s := s.setReg (Reg.evCtxSelHi ctx) (word v)
    let n := s.regN (Reg.evCtxSelLo ctx) + s.regN (Reg.evCtxSelHi ctx) * 2 ^ 32
    let st := s.ev.ctxStatus ctx n
    .next (s.setLatch ctx { busy := true, status := st, data := s.ev.window n st })

/-- RECORD_LATCH_DONE (R470): of a context, or of the privileged window, 64. -/
def execRecordLatchDone (k : Nat) (s : State) : Out :=
  if (s.latch k).busy then .next (s.setLatch k { s.latch k with busy := false }) else .next s

/-! ### The mailbox data area (R401, R471) -/

/-- Window address and length of the data area. -/
def dataArea : Nat := 0x08020000
def dataBytes : Nat := 0x0BFFFFFF - 0x08020000 + 1

/-- A range of the data area. -/
def inData (off n : Nat) : Bool := off + n ≤ dataBytes

def State.dataRead (s : State) (off n : Nat) : Bytes := s.mem.sram.readBytes (dataArea + off) n
def State.dataWrite (s : State) (off : Nat) (bs : Bytes) : State :=
  { s with mem := { s.mem with sram := s.mem.sram.writeBytes (dataArea + off) bs } }

/-- A mailbox request for a target, not yet begun. -/
def State.mbRequest (s : State) (idx target : Nat) : Option Request :=
  match s.request 64 idx with
  | some r => if r.target = target then some r else none
  | none => none

/-- Slot k of a capture (R471): the record, or its placeholder. -/
def Recorder.slot (r : Recorder) (n : Nat) : Bytes :=
  let st := r.status n
  if st = 0 then r.window n 0
  else patch (patch (zeros 64) 0 (le 8 n)) 0x18 (le 1 0xFF ++ le 1 st)

/-- Captured slots written one after another. -/
def State.captureFrom (s : State) (first off : Nat) : Nat → State
  | 0 => s
  | k + 1 => ((s.captureFrom first off k).dataWrite (off + 64 * k) (s.ev.slot (first + k)))

/-- EV_CAPTURE (R471). -/
def execEvCapture (idx : Nat) (s : State) : Out :=
  match s.mbRequest idx 0x10 with
  | none => .next s
  | some r =>
    let first := leAt r.body 0 8
    let count := leAt r.body 8 4
    let off := leAt r.body 12 4
    if count = 0 ∨ 524288 < count ∨ off % 64 ≠ 0 ∨ inData off (64 * count) = false then .next (s.finish r 0x15 0 0)
    else
      let bad := ((List.range count).filter (fun k => s.ev.status (first + k) ≠ 0)).length
      .next ((s.captureFrom first off count).finish r 0 (count - bad + bad * 2 ^ 32) 0)

/-! ### Port retraining (R463) -/

/-- The group of a timing port: 0 Phirov, 1 lanes 0–11, 2 lanes 12–15, 3 ring. -/
def retrainGroup (t : Nat) : Nat := if t < 8 then 0 else if t < 20 then 1 else if t < 24 then 2 else 3

/-- The recorder channel of a port's group (R465). -/
def retrainChannel (t : Nat) : Nat := if t < 8 then 11 else if t < 24 then 12 else 13

/-- Failed retrainings of a port within the last 10 minutes. -/
def State.retrainFails (s : State) (t : Nat) : List Nat :=
  (Tbl.getD s.ev.retrainFails t []).filter (fun x => s.now - x < 600000000000)

/-- A retraining starts: its record, and the port's link is gone. -/
def State.retrainStart (s : State) (t : Nat) : State :=
  let s := { s with ev := { s.ev with retraining := Tbl.set s.ev.retraining (retrainGroup t) t
                                      retrainWait := remN s.ev.retrainWait t } }
  let s := s.record (retrainChannel t) 0x30 0 0xFF t (le 1 (s.retrainFails t).length)
  let s := if 8 ≤ t ∧ t < 24 then s.tearLanes (fun l => l = t - 8) else s
  s.linkDown t

/-- The other ring port's link is up and that port is not retraining. -/
def State.ringMayRetrain (s : State) (t : Nat) : Bool :=
  (if t = 24 then s.mr.link1 else s.mr.link0) && (Tbl.find s.ev.retraining 3).isNone

/-- PORT_RETRAIN (R463). -/
def execPortRetrain (t : Nat) (s : State) : Out :=
  if 26 ≤ t ∨ has s.ev.portDown t = true ∨ Tbl.find s.ev.retraining (retrainGroup t) = some t then .next s
  else if 24 ≤ t then
    if s.ringMayRetrain t then .next (s.retrainStart t) else .next (s.raise Reg.evEvents 16)
  else if (Tbl.find s.ev.retraining (retrainGroup t)).isSome then
    .next { s with ev := { s.ev with retrainWait := addN s.ev.retrainWait t } }
  else .next (s.retrainStart t)

/-- The group's next waiting port starts. -/
def State.retrainNext (s : State) (g : Nat) : State :=
  match s.ev.retrainWait.find? (fun t => retrainGroup t = g) with
  | some t => if g = 3 ∧ s.ringMayRetrain t = false then s else s.retrainStart t
  | none => s

/-- PORT_RETRAIN_END (R463): up, failed and retrying, or left down after the third failure. -/
def execPortRetrainEnd (t : Nat) (up : Bool) (s : State) : Out :=
  let g := retrainGroup t
  if Tbl.find s.ev.retraining g ≠ some t then .next s
  else if up then
    let s := { s with ev := { s.ev with retraining := Tbl.erase s.ev.retraining g } }
    let s := (s.record (retrainChannel t) 0x31 0 0xFF t (le 1 (s.retrainFails t).length)).raise Reg.evEvents 8
    .next ((s.linkUp t).retrainNext g)
  else
    let fails := s.now :: s.retrainFails t
    let s := { s with ev := { s.ev with retrainFails := Tbl.set s.ev.retrainFails t fails } }
    if 3 ≤ fails.length then
      let s := { s with ev := { s.ev with retraining := Tbl.erase s.ev.retraining g, portDown := addN s.ev.portDown t } }
      let s := (s.record (retrainChannel t) 0x32 0 0xFF t (le 1 fails.length)).raise Reg.evEvents 32
      .next (s.retrainNext g)
    else .next s

end Sys2Proof.Machine
end

