-- ==== Sys2Proof/Machine/Security.lean ====
section
/-!
DEFINITION. OTP groups, lifecycle, tokens, firmware update and attestation (chapter 18), and the recorder's clears and
the return (R471–R473).
-/
namespace Sys2Proof.Machine

/-! ### OTP groups (R476–R480) -/

def State.otp (s : State) (g : Nat) : OtpGroup := Tbl.getD s.sec.groups g {}
def State.setOtp (s : State) (g : Nat) (x : OtpGroup) : State :=
  { s with sec := { s.sec with groups := Tbl.set s.sec.groups g x } }

/-- Generations whose programming has started. -/
def OtpGroup.consumed (x : OtpGroup) : Nat := (x.gens.filter (fun e => e.2.consumed)).length

/-- Bytes per generation (R476). -/
def otpBytes (g : Nat) : Nat := nth [64, 32, 4096, 512, 2080, 32, 32, 64] g 0

/-- The lifecycle code (R482). -/
def State.lifecycle (s : State) : Nat :=
  let x := s.otp 1
  if x.current = 0 then 0 else leAt x.shadow 0 1

/-- An OTP write may start (R478). -/
def State.otpAllowed (s : State) : Bool := s.pw.supply = .normal && !s.pw.holdupLow

/-- The first bytes of the SM3 digest of a message. -/
def digestOf (m : Bytes) : Bytes := padTo 32 (Config.sm3 m)

/-! ### Challenges and tokens (R471, R484) -/

/-- The challenge record (R471), with 128 bits of noise. -/
def State.challengeBytes (s : State) (purpose nonce : Nat) : Bytes :=
  le 1 purpose ++ le 1 s.lifecycle ++ le 1 (s.otp 1).current ++ le 1 0 ++ le 2 s.moduleId ++ le 2 0 ++ le 16 nonce ++
  le 8 s.ev.head ++ le 4 s.ev.opSeconds ++ le 4 s.ev.powerCycles ++ ((padTo 64 (s.otp 0).shadow).drop 4).take 24

/-- A challenge of a purpose issued into the data area (R471, R485). -/
def State.issue (s : State) (r : Request) (purpose off : Nat) : State :=
  let d := s.free
  let b := d.2.challengeBytes purpose d.1
  let c : Challenge := { purpose := purpose, bytes := b, opSeconds := s.ev.opSeconds, powerCycles := s.ev.powerCycles,
                         head := s.ev.head }
  let s := { d.2 with ev := { d.2.ev with challenges := d.2.ev.challenges.filter (fun (x : Challenge) => x.purpose ≠ purpose) ++ [c] } }
  (s.dataWrite off b).finish r 0 s.ev.head 0

/-- A challenge is not void (R471). -/
def State.challengeLive (s : State) (c : Challenge) : Bool :=
  s.ev.powerCycles = c.powerCycles && s.ev.opSeconds - c.opSeconds < 86400

/-- The challenge that a token carries, byte for byte. -/
def State.challengeFor (s : State) (purpose : Nat) (b : Bytes) : Option Challenge :=
  s.ev.challenges.find? (fun c => c.purpose = purpose && c.bytes = b && s.challengeLive c)

/-- Body length of a token kind (R484). -/
def tokenBody (kind : Nat) : Nat := nth [0, 16, 8, 40] kind 0

/-- A signature block of a signer verifies (R484). -/
def State.sigBlock (s : State) (m blk : Bytes) (signer : Nat) : Bool :=
  let id := (blk.drop 16).take 16
  let pk := (blk.drop 32).take 64
  let sig := (blk.drop 96).take 64
  leAt blk 0 1 = signer && allZero ((blk.drop 1).take 15) &&
  (if signer = 1 then (s.otp 6).current ≠ 0 && digestOf pk = padTo 32 (s.otp 6).shadow && Config.sm2Verify pk id m sig
   else allZero pk && Config.sm2Verify Config.vendorKey id m sig)

/-- The bytes of a token's body that its kind leaves 0 are 0 (R484). -/
def tokenZeros (kind : Nat) (t : Bytes) : Bool :=
  match kind with
  | 2 => leAt t 0x4C 4 = 0
  | 3 => leAt t 0x4A 2 = 0
  | _ => true

/-- A token of a kind verifies (R484): layout, live challenge, and the signatures its kind requires. -/
def State.tokenOk (s : State) (kind : Nat) (t : Bytes) : Bool :=
  let n := tokenBody kind
  let sigs := leAt t 5 1
  let m := t.take (0x48 + n)
  let blk (i : Nat) : Bytes := (t.drop (0x48 + n + 160 * i)).take 160
  let by_ (signer : Nat) : Bool := (List.range sigs).any (fun i => s.sigBlock m (blk i) signer)
  leAt t 0 4 = 0x4E4B4F54 && leAt t 4 1 = kind && (sigs = 1 || sigs = 2) && leAt t 6 2 = n && tokenZeros kind t &&
  t.length = 0x48 + n + 160 * sigs && (s.challengeFor kind ((t.drop 8).take 64)).isSome &&
  (List.range sigs).all (fun i => s.sigBlock m (blk i) 1 || s.sigBlock m (blk i) 2) &&
  by_ 1 && (kind ≠ 2 || by_ 2)

/-- A token refused (R484). -/
def State.tokenReject (s : State) (r : Request) : State :=
  ((s.bump Reg.scTokenReject 1).raise Reg.scEvents 8).finish r 0x0D 0 0

/-- CHALLENGE (R471, R482). -/
def execChallenge (idx : Nat) (s : State) : Out :=
  match s.mbRequest idx 0x11 with
  | none => .next s
  | some r =>
    let p := leAt r.body 0 1
    let off := leAt r.body 4 4
    if (p ≠ 1 ∧ p ≠ 2) ∨ inData off 64 = false then .next (s.finish r 0x15 0 0)
    else if s.lifecycle = 0 then .next (s.finish r 0x16 0 0)
    else .next (s.issue r p off)

/-- OTP_CHALLENGE (R485). -/
def execOtpChallenge (idx : Nat) (s : State) : Out :=
  match s.mbRequest idx 0x1B with
  | none => .next s
  | some r =>
    let off := leAt r.body 0 4
    if inData off 64 = false then .next (s.finish r 0x15 0 0)
    else if s.lifecycle = 0 then .next (s.finish r 0x16 0 0)
    else .next (s.issue r 3 off)

/-- A token's channel mask as the record and the clear hold it (R472, R509). -/
def clearMask (m : Nat) : Nat := m % 2 ^ 19 + m / 2 ^ 60 % 16 * 2 ^ 19

/-- EV_CLEAR (R472): FIELD only; the token, and a bound within the head its challenge names. -/
def execEvClear (idx : Nat) (s : State) : Out :=
  match s.mbRequest idx 0x12 with
  | none => .next s
  | some r =>
    let off := leAt r.body 0 4
    let n := leAt r.body 4 4
    if inData off n = false then .next (s.finish r 0x15 0 0)
    else if s.lifecycle ≠ 1 then .next (s.finish r 0x16 0 0)
    else
      let t := s.dataRead off n
      let b := leAt t 0x48 8
      let mask := clearMask (leAt t 0x50 8)
      if s.tokenOk 1 t = false ∨ leAt t (8 + 0x18) 8 < b then .next (s.tokenReject r)
      else
        let c : Cleared := { bound := b, mask := mask }
        let s := { s with ev := { s.ev with cleared := s.ev.cleared ++ [c] } }
        let s := s.record 0 1 0 0xFF 0 (le 8 b ++ le 4 mask ++ (digestOf t).take 16)
        .next ((s.raise Reg.evEvents 4).finish r 0 b 0)

/-- An OTP write asked for: it waits its turn (R477, R478). -/
def State.otpAsk (s : State) (g : Nat) (data : Bytes) (req : Option Nat) : State :=
  let j : OtpJob := { group := g, data := data, req := req }
  { s with sec := { s.sec with otpQueue := s.sec.otpQueue ++ [j] } }

/-- Every record of the buffer written to the ring. -/
def State.flushAll (s : State) : State := s.ev.buffer.foldl (fun s _ => s.flushOne) s

/-- RETURN_ENTER (R473): the record goes to the ring before the OTP write is asked for. -/
def execReturnEnter (idx : Nat) (s : State) : Out :=
  match s.mbRequest idx 0x13 with
  | none => .next s
  | some r =>
    let off := leAt r.body 0 4
    let n := leAt r.body 4 4
    if r.begun then .next s
    else if inData off n = false then .next (s.finish r 0x15 0 0)
    else if s.lifecycle ≠ 1 ∨ 4 ≤ (s.otp 1).consumed ∨ s.gov.wheel.state ≠ .standby ∨ s.loader.loaded.isSome = true ∨
        s.otpAllowed = false then .next (s.finish r 0x16 0 0)
    else
      let t := s.dataRead off n
      if s.tokenOk 2 t = false then .next (s.tokenReject r)
      else
        let d := (digestOf t).take 16
        let s := (s.record 18 1 0 0xFF 0 (le 1 ((s.otp 1).consumed + 1) ++ d)).flushAll
        .next ((s.otpAsk 1 (padTo 32 (le 1 2 ++ zeros 3 ++ d)) (some idx)).begin r)

/-- OTP_WRITE (R480, R485). -/
def execOtpWrite (idx : Nat) (s : State) : Out :=
  match s.mbRequest idx 0x1C with
  | none => .next s
  | some r =>
    let off := leAt r.body 0 4
    let n := leAt r.body 4 4
    let doff := leAt r.body 8 4
    if r.begun then .next s
    else if inData off n = false then .next (s.finish r 0x15 0 0)
    else if s.lifecycle ≠ 1 ∨ s.otpAllowed = false then .next (s.finish r 0x16 0 0)
    else
      let t := s.dataRead off n
      let g := leAt t 0x48 1
      let gen := leAt t 0x49 1
      let len := leAt t 0x4C 4
      if s.tokenOk 3 t = false then .next (s.tokenReject r)
      else if (g ≠ 4 ∧ g ≠ 6) ∨ 4 ≤ (s.otp g).consumed ∨
          (g = 4 ∧ (s.loader.loaded.isSome = true ∨ s.gov.wheel.state ≠ .standby)) then .next (s.finish r 0x16 0 0)
      else if inData doff len = false ∨ len ≠ otpBytes g then .next (s.finish r 0x15 0 0)
      else
        let d := s.dataRead doff len
        if gen ≠ (s.otp g).consumed + 1 ∨ digestOf d ≠ (t.drop 0x50).take 32 then .next (s.tokenReject r)
        else .next ((s.otpAsk g d (some idx)).begin r)

/-- OTP_WRITE_START (R477, R478): the next generation is consumed as its programming starts. -/
def execOtpWriteStart (s : State) : Out :=
  match s.sec.otpQueue with
  | [] => .next s
  | j :: _ =>
    if s.sec.otpRunning = true ∨ s.otpAllowed = false then .next s
    else
      let x := s.otp j.group
      if 4 ≤ x.consumed then
        let s := { s with sec := { s.sec with otpQueue := s.sec.otpQueue.drop 1 } }
        match j.req with
        | some i => .next (s.finishAt 64 i 0x16 0)
        | none => .next { s with tiers := { s.tiers with cmdBusy := false, cmdResult := 2 } }
      else
        let s := s.setOtp j.group { x with gens := Tbl.set x.gens (x.consumed + 1) { consumed := true } }
        .next { s with sec := { s.sec with otpRunning := true } }

/-- OTP_WRITE_DONE (R477, R480): data, CRC and marker are programmed; SAFETY_FLOOR takes effect at the next start. -/
def execOtpWriteDone (s : State) : Out :=
  match s.sec.otpQueue with
  | [] => .next s
  | j :: t =>
    if s.sec.otpRunning = false then .next s
    else
      let x := s.otp j.group
      let gen := x.consumed
      let x := { x with gens := Tbl.set x.gens gen { consumed := true, marker := true, data := j.data }, current := gen
                        shadow := if j.group = 4 then x.shadow else j.data
                        pending := if j.group = 4 then true else x.pending }
      let s := (s.setOtp j.group x).raise Reg.scEvents 1
      let s := { s with sec := { s.sec with otpQueue := t, otpRunning := false } }
      let s := if j.group = 6 then { s with ev := { s.ev with challenges := [] } } else s
      let s := s.record 17 1 0 0xFF j.group (le 1 gen ++ (digestOf j.data).take 16)
      match j.req with
      | some i => .next (s.finishAt 64 i 0 gen)
      | none =>
        let n := ((List.range 512).filter (fun i => leAt j.data (8 * i) 1 % 4 ≠ 0)).length
        let s := s.record 6 2 0 0xFF 0 (le 1 gen ++ le 2 n)
        let done := s.tiers.repairs.filter (fun r => (chunksOf 8 512 j.data).contains r.bytes)
        .next { s with tiers := { s.tiers with cmdBusy := false, cmdResult := 1, committed := done } }

/-- OTP_READ (R494). -/
def execOtpRead (idx : Nat) (s : State) : Out :=
  match s.mbRequest idx 0x1D with
  | none => .next s
  | some r =>
    let g := leAt r.body 0 1
    let gen := leAt r.body 1 1
    let off := leAt r.body 4 4
    if 8 ≤ g ∨ 4 < gen ∨ inData off (otpBytes g) = false then .next (s.finish r 0x15 0 0)
    else
      let x := s.otp g
      let k := if gen = 0 then x.current else gen
      match Tbl.find x.gens k with
      | some y =>
        if y.marker && y.crcOk then .next ((s.dataWrite off (padTo (otpBytes g) y.data)).finish r 0 (otpBytes g) 0)
        else .next (s.finish r 0 0 0)
      | none => .next (s.finish r 0 0 0)

/-- CERT_READ (R494). -/
def execCertRead (idx : Nat) (s : State) : Out :=
  match s.mbRequest idx 0x19 with
  | none => .next s
  | some r =>
    let off := leAt r.body 0 4
    let c := Config.certificate
    if inData off c.length = false then .next (s.finish r 0x15 0 0)
    else .next ((s.dataWrite off c).finish r 0 c.length 0)

/-! ### Attestation (R492) -/

def State.fwClass (s : State) (k : Nat) : FwClass := Tbl.getD s.sec.classes k {}
/-- The running build of a unit: the committed one until it has loaded another. -/
def State.runningBuild (s : State) (cls unit : Nat) : Nat :=
  (Tbl.find s.sec.running (cls * 32 + unit)).getD (s.fwClass cls).build

/-- Units of a class (R486). -/
def fwUnits (cls : Nat) : Nat := nth [0, 16, 4, 3, 1, 1] cls 0

/-- The report from byte 0 to the end of the section entries (R492). -/
def State.report (s : State) (nonce : Bytes) : Bytes :=
  let secs := match s.loader.loaded with
    | some p => p.sections
    | none => []
  let plan := s.loader.loaded.getD {}
  let head := le 4 0x54535441 ++ le 2 0x0100 ++ le 2 256 ++ le 4 (0x2C0 + 48 * secs.length + 96) ++ le 2 s.moduleId ++
    le 1 s.lifecycle ++ le 1 (b2n s.pw.recovery + put 1 1 (b2n (s.sec.update.phase ≠ .idle)) + put 2 1 (b2n s.sec.debugOpen))
    ++ padTo 16 nonce ++ le 8 s.now ++ le 8 s.ev.head ++ le 4 s.ev.opSeconds ++ le 4 s.ev.powerCycles ++
    ((List.range 8).map (fun g => le 1 (s.otp g).current)).flatten ++
    ((padTo 64 (s.otp 0).shadow).drop 4).take 32 ++ padTo 32 (s.otp 6).shadow ++
    le 8 plan.planId ++ le 4 plan.gen ++ le 2 secs.length ++ le 2 0
  let classes := ([1, 2, 3, 4, 5].map (fun k =>
    let c := s.fwClass k
    padTo 64 (le 1 k ++ le 1 0 ++ le 2 c.build ++ le 4 c.epoch ++ padTo 32 c.digest ++
      le 2 (if s.sec.update.staged && s.sec.update.cls = k then s.sec.update.build else 0)))).flatten
  let unit (c u : Nat) : Bytes := le 1 c ++ le 1 u ++ le 2 (s.runningBuild c u)
  let units := ((List.range 16).map (unit 1)).flatten ++ ((List.range 3).map (unit 3)).flatten ++
    ((List.range 4).map (unit 2)).flatten ++ unit 4 0 ++ unit 5 0
  let sects := (secs.map (fun x =>
    padTo 48 (le 1 x.typ ++ le 1 x.target ++ le 2 0 ++ le 4 x.gen ++ padTo 32 x.digest ++
      le 1 (b2n ((s.mill x.target).fallbackFor.isSome && (x.typ = 1 || x.typ = 10)))))).flatten
  padTo 0x100 head ++ classes ++ padTo 128 units ++ sects

/-- ATTEST (R492): it waits while a loader command or a firmware phase changes what it covers. -/
def execAttest (idx : Nat) (s : State) : Out :=
  match s.mbRequest idx 0x18 with
  | none => .next s
  | some r =>
    if s.loader.state ≠ .idle ∨ s.sec.update.phase ≠ .idle then .next s
    else
      let off := leAt r.body 16 4
      let b := s.report (r.body.take 16)
      if inData off (b.length + 96) = false then .next (s.finish r 0x15 0 0)
      else
        let full := b ++ padTo 16 Config.deviceId ++ zeros 16 ++ padTo 64 (Config.deviceSign b)
        .next ((s.dataWrite off full).finish r 0 full.length 0)

/-! ### Firmware update (R486–R491) -/

/-- Largest image of a class in MiB (R486). -/
def fwLimit (cls : Nat) : Nat := nth [0, 64, 32, 48, 16, 16] cls 0 * 1048576

/-- The record of a phase (R509): 1 stage, 2 apply, 3 commit, 4 abort. -/
def State.fwRecord (s : State) (phase status : Nat) : State :=
  let u := s.sec.update
  s.record 16 phase status 0xFF u.cls (le 2 u.build ++ le 4 u.epoch ++ le 1 u.done.length)

def State.setFw (s : State) (u : FwUpdate) : State := { s with sec := { s.sec with update := u } }

/-- The status of an image by its header (R487): SIG_INVALID, or STATE_DENIED for an epoch too low. -/
def State.imageStatus (s : State) (cls : Nat) (img : Bytes) : Nat :=
  let pay := img.drop 256
  if leAt img 0 4 ≠ 0x4D495746 ∨ leAt img 4 1 ≠ cls ∨ leAt img 0x0C 4 ≠ pay.length ∨
      digestOf pay ≠ (img.drop 0x10).take 32 ∨
      Config.sm2Verify Config.vendorKey Config.vendorId (img.take 0x30) ((img.drop 0x30).take 64) = false then 0x0D
  else if leAt img 8 4 < (s.fwClass cls).epoch then 0x16
  else 0

/-- A FW_UPDATE request with an op (R494). -/
def State.fwRequest (s : State) (idx op : Nat) : Option Request :=
  match s.mbRequest idx 0x1A with
  | some r => if leAt r.body 0 1 = op ∧ r.begun = false then some r else none
  | none => none

/-- FW_STAGE (R487–R489). -/
def execFwStage (idx : Nat) (s : State) : Out :=
  match s.fwRequest idx 1 with
  | none => .next s
  | some r =>
    let cls := leAt r.body 1 1
    let off := leAt r.body 4 4
    let len := leAt r.body 8 4
    if cls = 0 ∨ 5 < cls ∨ off % 65536 ≠ 0 ∨ len < 256 ∨ fwLimit cls < len ∨ 0x4000000 < off + len then
      .next (s.finish r 0x15 0 0)
    else if s.sec.update.phase ≠ .idle then .next (s.finish r 0x16 0 0)
    else
      let img := s.mem.sram.readBytes (0x40000000 + off) len
      let build := leAt img 6 2
      let st := s.imageStatus cls img
      let minFw := (s.loader.loaded.map (·.minFw)).getD 0
      let vote := bitN (leAt img 5 1) 0
      let st := if st ≠ 0 then st
        else if (cls = 1 ∧ build < minFw) ∨ (cls = 3 ∧ vote = false ∧ s.gov.wheel.state ≠ .standby) then 0x16 else 0
      let u : FwUpdate := { cls := cls, build := build, epoch := leAt img 8 4, voteCompat := vote, length := len,
                            image := if st = 0 then img else [], staged := st = 0, digest := (img.drop 0x10).take 32 }
      let s := (s.setFw u).fwRecord 1 st
      let s := if st = 0 then s else s.setFw {}
      .next (s.finish r st build 0)

/-- A unit may take its turn: a mill that is EVACUATED, EMPTY or in FAULT is skipped (R490). -/
def State.fwSkips (s : State) (cls unit : Nat) : Bool :=
  cls = 1 && ((s.mill unit).state = .evacuated || (s.mill unit).state = .empty || (s.mill unit).state = .fault)

/-- The first unit from `u` on whose turn is not skipped, looking at `fuel` units. -/
def State.fwNext (s : State) (cls : Nat) : Nat → Nat → Nat
  | 0, u => u
  | k + 1, u => if u < fwUnits cls ∧ s.fwSkips cls u = true then s.fwNext cls k (u + 1) else u

/-- The unit whose turn it is: the next to take the staged image, or the next to be returned. -/
def FwUpdate.now (u : FwUpdate) : Nat := if u.rollback then u.done.head?.getD 0 else u.unit

/-- Mill m is the unit whose core is being reloaded (R486). -/
def State.fwMill (s : State) (m : Nat) : Bool :=
  let u := s.sec.update
  u.phase = .apply && u.cls = 1 && u.now = m

/-- A management core reloads: loader commands wait (R486). -/
def State.mgmtReload (s : State) : Bool := s.sec.update.phase = .apply && s.sec.update.cls = 2

/-- The turn of a lane starts: it is isolated with cause reset; all three at once for an image that is not vote-compatible (R486,
R489). -/
def State.fwLaneTurn (s : State) : State :=
  let u := s.sec.update
  if u.cls = 3 ∧ u.now < 3 then
    (if u.voteCompat then s.isolate u.now 5 0 0 0 0
     else [0, 1, 2].foldl (fun s l => s.isolate l 5 0 0 0 0) s)
  else s

/-- COMMIT (R488): the image to the store, the epoch raised. -/
def State.fwCommit (s : State) : State :=
  let u := s.sec.update
  let c : FwClass := { build := u.build, epoch := max u.epoch (s.fwClass u.cls).epoch, digest := u.digest, valid := true }
  let s := { s with sec := { s.sec with classes := Tbl.set s.sec.classes u.cls c } }
  let s := (s.fwRecord 3 0).raise Reg.scEvents 2
  let s := match u.req with
    | some i => s.finishAt 64 i 0 (u.build + 65536 * u.done.length)
    | none => s
  s.setFw {}

/-- The update ends without a commit (R488, R490): record and event; a waiting apply completes with STATE_DENIED. -/
def State.fwAborted (s : State) : State :=
  let u := s.sec.update
  let s := (s.fwRecord 4 0).raise Reg.scEvents 4
  let s := match u.req with
    | some i => s.finishAt 64 i 0x16 u.build
    | none => s
  s.setFw {}

/-- An abort: units that run the staged image are to be returned one by one; none left ends it (R488). -/
def State.fwAbort (s : State) : State :=
  let u := s.sec.update
  if u.done = [] then s.fwAborted else (s.setFw { u with phase := .apply, rollback := true }).fwLaneTurn

/-- The staged image is lost and every unit runs the committed image (R490). -/
def State.fwLost (s : State) : State :=
  let u := s.sec.update
  if u.staged || u.phase ≠ .idle then
    let s := { s with sec := { s.sec with running := Tbl.drop s.sec.running (fun k => k / 32 = u.cls) } }
    s.fwAborted
  else s

/-- Bring-up enters a stage: its line goes out on the service UART (R453, R500). -/
def State.enterStage (s : State) (k : Nat) : State :=
  { s with pw := { s.pw with stage := k, overruns := 0, uart := s.pw.uart ++ [k] } }

end Sys2Proof.Machine
end

