-- ==== Sys2Proof/Machine/HostCore.lean ====
section
/-!
DEFINITION. The host port's rings, credits and reset, as several families use them (R380–R401).
-/
namespace Sys2Proof.Machine

/-- The mailbox, among the rings. -/
def mb : Nat := 64

def State.ring (s : State) (c : Nat) : Ring := Tbl.getD s.hp.rings c {}
def State.setRing (s : State) (c : Nat) (r : Ring) : State :=
  { s with hp := { s.hp with rings := Tbl.set s.hp.rings c r } }

/-- The pool of a context's host credits (R38). -/
def hostPool (c : Nat) : Nat := 352 + c

/-- Credits held by the host: those the ledger holds and no unit does (R392). -/
def State.issued (s : State) (c : Nat) : Nat := (s.pool (hostPool c)).held - ((s.ring c).outstanding + (s.ring c).orphans)

/-- Ring depths (HP_CTX_CFG); the mailbox rings have 1,024 entries (R401). -/
def State.sqDepth (s : State) (c : Nat) : Nat := if c = mb then 1024 else 2 ^ fld (s.reg (Reg.hpCtxCfg c)) 3 0
def State.cqDepth (s : State) (c : Nat) : Nat := if c = mb then 1024 else 2 ^ fld (s.reg (Reg.hpCtxCfg c)) 7 4

/-- Window address of a submission slot and of a completion slot (R377, R401). -/
def State.sqSlot (s : State) (c i : Nat) : Nat :=
  (if c = mb then 0x08000000 else 0x01010000 + c * 0x100000) + i % s.sqDepth c * 64
def State.cqSlot (s : State) (c i : Nat) : Nat :=
  (if c = mb then 0x08010000 else 0x01080000 + c * 0x100000) + i % s.cqDepth c * 32

/-- A context's grant of the host pond holds bytes [off, off + n) (R395). -/
def State.inGrant (s : State) (c off n : Nat) : Bool :=
  let w := s.reg (Reg.hpCtxPond c)
  let base := fld w 9 0 * 65536
  base ≤ off && off + n ≤ base + fld w 20 10 * 65536

/-- Host-pond bytes at an offset (R376). -/
def State.pondRead (s : State) (off n : Nat) : Bytes := s.mem.sram.readBytes (0x40000000 + off) n
def State.pondWrite (s : State) (off : Nat) (bs : Bytes) : State :=
  { s with mem := { s.mem with sram := s.mem.sram.writeBytes (0x40000000 + off) bs } }

/-- A context's pool once nothing is outstanding: its reclaimed credits are released and it is sized to 0 (R382, R394). -/
def State.settlePool (s : State) (c : Nat) : State :=
  let r := s.ring c
  if r.state = .disabled ∧ r.outstanding = 0 ∧ r.orphans = 0 then
    (s.releasePool (hostPool c)).resize (hostPool c) 0
  else s

/-- The mark that an index of a request accepted before a host-port reset carries: such a request completes without a
completion entry (R382). -/
def orphanMark : Nat := 65536

/-- A pair (context, index) of a request accepted before the reset, marked. -/
def markPair (e : Nat × Nat) : Nat × Nat := (e.1, e.2 + orphanMark)

/-- A batch of a request accepted before the reset, marked. -/
def Batch.mark (b : Batch) : Batch := { b with idx := b.idx.map (· + orphanMark) }

/-- Every reference of a unit to an accepted request, marked: the requests run on (R382). -/
def State.orphanRequests (s : State) : State :=
  { s with
    hp := { s.hp with requests := s.hp.requests.map (fun r => { r with idx := r.idx + orphanMark })
                      done := s.hp.done.map (fun d => { d with req := { d.req with idx := d.req.idx + orphanMark } }) }
    tiers := { s.tiers with
      waiting := s.tiers.waiting.map markPair
      chans := s.tiers.chans.map (fun (e : Nat × Chan) =>
        (e.1, if e.2.firmware then e.2 else { e.2 with idx := e.2.idx + orphanMark })) }
    bolters := s.bolters.map (fun (e : Nat × Bolter) => (e.1, { e.2 with
      queue := e.2.queue.map Batch.mark
      cur := e.2.cur.map Batch.mark
      result := e.2.result.map (fun (r : Result) => { r with batch := r.batch.mark }) }))
    streams := s.streams.map (fun (e : Nat × Stream) => (e.1, { e.2 with
      queue := e.2.queue.map (fun (k : Chunk) => { k with req := k.req.map markPair })
      started := e.2.started.map (fun (k : ChunkRun) => { k with chunk := { k.chunk with req := k.chunk.req.map markPair } })
      wait := e.2.wait.map (fun (w : StreamWait) => { w with idx := w.idx + orphanMark }) }))
    ops := { s.ops with prefill := s.ops.prefill.map (fun (e : Nat × List PrefillItem) =>
      (e.1, e.2.map (fun (i : PrefillItem) => { i with idx := i.idx + orphanMark }))) } }

/-- The reset of one context's ring (R382): its credits with the host are reclaimed, with one record of the context. -/
def State.resetRing (s : State) (c : Nat) : State :=
  let r := s.ring c
  let n := s.issued c + (s.pool (hostPool c)).inFlight
  if r.state = .disabled ∧ r.outstanding = 0 ∧ n = 0 then s
  else
    let h := s.issued c
    let f := (s.pool (hostPool c)).inFlight
    let s := s.reclaim (hostPool c) .held h 1 8 0
    let s := s.reclaim (hostPool c) .inFlight f 1 8 0
    let s := if n = 0 then s else s.raise Reg.hpEvents 8
    let s := s.record 14 2 0 c c (le 4 n ++ le 4 r.outstanding)
    s.setRing c { orphans := r.orphans + r.outstanding }

/-- The whole host-port domain is reset (R382, R383): registers of its block and its memories lose their contents. -/
def State.resetHost (s : State) (pin : Bool) : State :=
  let s := s.clearRegs 0x10000 0x20000
  let s := (List.range 64).foldl (fun s c => s.resetRing c) s
  let s := s.orphanRequests
  let s := s.setRing mb {}
  { s with
    mem := { s.mem with sram := s.mem.sram.lose }
    ck := { s.ck with service := remN s.ck.service 7 }
    hp := { s.hp with
      state := if pin ∨ s.hp.state = .off then .off else .init
      holdAlert := if pin then s.hp.holdAlert else if s.hp.state = .off then s.hp.holdAlert else true
      holdoff := false, cmdResult := 0, bad := [], readData := []
      modeRegs := if pin then [] else s.hp.modeRegs
      fsps := if pin then [] else s.hp.fsps
      fifo := if pin then [] else s.hp.fifo
      lowPower := if pin then false else s.hp.lowPower } }

/-- The requests of the host are gone with the units that ran them: their completions are dropped (R383, R439). -/
def State.dropRequests (s : State) : State :=
  let n := s.hp.requests.length + s.hp.done.length
  let s := s.bump Reg.hpDropped n
  { s with hp := { s.hp with requests := [], done := []
                             rings := s.hp.rings.map (fun (e : Nat × Ring) => (e.1, { e.2 with outstanding := 0, orphans := 0 })) } }

end Sys2Proof.Machine
end

