-- ==== Sys2Proof/Machine/Resets.lean ====
section
/-!
DEFINITION. The reset of each reset domain and of the fabric group, the release from reset, and power off
(R434, R438–R442, R447, R453).
-/
namespace Sys2Proof.Machine

/-! ### Credits of a producer (R94) -/

/-- The holder of a producer's credits: a producer is named by its weir, and the edge producers that a LEAT section binds hold
its grants together, under weir 19 (R116). -/
def holderOf (w : Nat) : Nat := if w = 16 ∨ (19 ≤ w ∧ w ≤ 39) then 19 else w
/-- The table key of a producer's credits of a pool. -/
def creditKey (p w : Nat) : Nat := p * 64 + holderOf w
def State.credits (s : State) (p w : Nat) : Nat := Tbl.getD s.leat.credits (creditKey p w) 0

/-- Items of a pool, held and in flight, that stand in mill m: parcels and credits (R40, R440). -/
def State.millItems (s : State) (m p : Nat) : Nat × Nat :=
  let x := s.mill m
  let own := p / 8 = m ∧ p < 128
  let q := p % 8
  let parcels := if own then (Tbl.getD x.hopper q []).length + (Tbl.getD x.reading q []).length else 0
  let loops := (x.loop.filter (fun c => 8 * m + c.dest / 32 = p)).length
  let tails := sumN (x.tail.map (fun t => if t.credited then (t.dests.filter (fun d =>
    (if d.1 % 32 < 16 then 8 * (d.1 % 32) + d.1 / 32 else if 30 ≤ d.1 % 32 then 448 + 8 * (d.1 % 32 - 30) + d.1 / 32 else 512) = p)).length
    else 0))
  let held := parcels + s.credits p m
  let flight := loops + tails + Tbl.getD s.leat.returning (creditKey p m) 0
  if p = tokenPool m then ((s.pool p).held, (s.pool p).inFlight)
  else if p = 160 + ((x.sec.map Section.ctx).getD 64) then
    (match x.sec with
     | some y => y.working + y.preloadPages - x.freed
     | none => 0, 0)
  else (held, flight)

/-- One record of both counts of a pool that a reset reclaims (R40). -/
def State.reclaimTwo (s : State) (p h f code : Nat) : State :=
  let x := s.pool p
  let h := min h x.held
  let f := min f x.inFlight
  if h + f = 0 then s
  else
    let s := (s.move p .held .reclaimed h).move p .inFlight .reclaimed f
    let s := { s with ledger := { s.ledger with recons := s.ledger.recons + 1, reclaimTotal := s.ledger.reclaimTotal + h + f } }
    s.record 2 1 0 0xFF p (le 4 (h + f) ++ le 1 1 ++ le 1 code)

/-- Pools that can have items in a mill: hopper pools, the mill's tokens, its context's millpond pages, governor queues. -/
def millPools : List Nat := List.range 144 ++ (List.range 64).map (· + 160) ++ (List.range 16).map (· + 448)

/-- A mill's reset domain is reset (R40, R141 step 1, R440): its items are reclaimed, its requests end, its registers
take their reset values. The section is gone; `keep` is the state the mill is left in. -/
def State.resetMill (s : State) (m : Nat) (keep : MillState) : State :=
  let n := millPools.map (fun p => (p, s.millItems m p))
  let s := n.foldl (fun s e => s.reclaimTwo e.1 e.2.1 e.2.2 (16 + m)) s
  let s := s.clearRegs (0x100000 + m * 0x10000) (0x110000 + m * 0x10000)
  let x := s.mill m
  let s := { s with
    leat := { s.leat with credits := Tbl.drop s.leat.credits (fun k => k % 64 = m)
                          returning := Tbl.drop s.leat.returning (fun k => k % 64 = m) }
    tiers := { s.tiers with reqs := s.tiers.reqs.filter (fun r => r.mill ≠ m)
                            results := s.tiers.results.filter (fun r => r.mill ≠ m) } }
  s.setMill m { state := keep, tested := x.tested && keep ≠ .fault,
                ledgerStop := keep = .fault && x.ledgerStop, watchdog := keep = .fault && x.watchdog,
                uncorrectable := keep = .fault && x.uncorrectable, faultPool := x.faultPool,
                coreRunning := x.coreRunning }

/-! ### Single domains (R440) -/

/-- The crossings of a domain (R437, R438). -/
def domainCrossings (d : Nat) : List Nat :=
  if d = 7 then [9]
  else if d = 8 then [7]
  else if 32 ≤ d ∧ d < 40 then [d - 16]
  else if 48 ≤ d ∧ d < 64 then [d - 24]
  else []

/-- A domain is held in reset and its crossings are in handshake mode. -/
def State.holdDomain (s : State) (d : Nat) : State :=
  { s with ck := { s.ck with held := addN s.ck.held d
                             service := s.ck.service.filter (fun c => !has (domainCrossings d) c) } }

/-- The sensor lane's domain: the link is gone, assemblies are torn and admitted frames of the lane are lost with it. -/
def State.resetLane (s : State) (l : Nat) : State :=
  let s := (s.resetLaneStreams l).linkDown (8 + l)
  let s := { s with leat := { s.leat with waiting := Tbl.erase s.leat.waiting (19 + l) } }
  s.bindings.foldl (fun s b =>
    if b.lane = l then s.setStream b.stream { s.stream b.stream with slots := [] } else s) s

/-- A Phirov port's domain: its peers are lost (R415), and its faulted pools are fault-reconciled (R460). -/
def State.resetPort (s : State) (p : Nat) : State :=
  let s := s.linkDown p
  [0, 1, 2, 3].foldl (fun s c => s.faultReconcile (pxPool p c) (if s.pxOn p then s.grant p c else 0)) s

/-- The steps 1–3 of the reset of one domain (R440). Fabric, leat and HBM are reset only with the group, motion only at
power-up; a domain in reset is not reset again. -/
def State.resetDomain (s : State) (d : Nat) : State :=
  if has s.ck.held d then s
  else if 1 ≤ d ∧ d ≤ 3 then s.isolate (d - 1) 5 0 0 0 0
  else if d = 7 then s.holdDomain 7
  else if d = 8 then (s.resetHost false).holdDomain 8
  else if 16 ≤ d ∧ d < 32 then
    let t := s.resetMill (d - 16) .empty
    (t.setMill (d - 16) { t.mill (d - 16) with coreRunning := false }).holdDomain d
  else if 32 ≤ d ∧ d < 40 then (s.resetPort (d - 32)).holdDomain d
  else if 48 ≤ d ∧ d < 64 then (s.resetLane (d - 48)).holdDomain d
  else s

/-! ### The fabric group (R439) -/

/-- The domains of the group. -/
def fabricGroup : List Nat := (List.range 5).map (· + 4) ++ (List.range 24).map (· + 16) ++ (List.range 12).map (· + 48)

/-- What the fabric's units hold is gone; stream generations and what is non-volatile stay (R203, R216). -/
def State.fabricClear (s : State) : State :=
  let s := (s.clearRegs 0x100000 0x500000).clearRegs 0x700000 0x780000
  { s with
    mills := []
    leat := {}
    loader := { loads := s.loader.loads, lastUs := s.loader.lastUs, lastKind := s.loader.lastKind, result := s.loader.result
                cause := s.loader.cause, status := s.loader.status, failSection := s.loader.failSection, ignored := s.loader.ignored }
    ops := {}
    streams := s.streams.map (fun (e : Nat × Stream) => (e.1, { gen := e.2.gen }))
    bolters := []
    px := {}
    tiers := { map := s.tiers.map.map (fun (e : Nat × MapEntry) => (e.1, { e.2 with busy := false })), poisonAll := true
               repairs := s.tiers.repairs, committed := s.tiers.committed, lastStation := s.tiers.lastStation
               retired := s.tiers.retired }
    mem := { s.mem with pond := s.mem.pond.lose, hbm := s.mem.hbm.lose } }

/-- A fabric pool is reconciled, released and sized to 0 (R439). -/
def State.groupPool (s : State) (p : Nat) : State :=
  let s := s.reclaimAll p 1 4 0
  let s := s.releasePool p
  let s := s.move p .parked .returned (s.pool p).parked
  s.resize p 0

/-- Items of a governor queue's pool that fabric producers held (R439). -/
def State.groupGovPool (s : State) (q : Nat) : State :=
  let p := 448 + q
  let n := ((Tbl.getD s.gov.queues q {}).slots).length
  let s := s.reclaimTwo p ((s.pool p).held - n) (s.pool p).inFlight 4
  let s := s.releasePool p
  let s := s.move p .parked .returned (s.pool p).parked
  s.resize p 0

/-- The fabric group is reset at one edge (R439). -/
def State.resetFabric (s : State) : State :=
  if has s.ck.held 4 then s
  else
    let s := (List.range 8).foldl (fun s p => s.losePort p 2) s
    let s := (List.range 12).foldl (fun s l => s.resetLane l) s
    let s := (List.range 8).foldl (fun s p => s.timeLinkDown p) s
    let s := (s.resetHost false).dropRequests
    let s := (List.range 448).foldl (fun s p => if poolReserved p then s else s.groupPool p) s
    let s := (List.range 16).foldl (fun s q => s.groupGovPool q) s
    let s := s.fwLost.fabricClear
    let s := { s with
      pw := { s.pw with fabricResets := min (s.pw.fabricResets + 1) 0xFFFF }
      ck := { s.ck with held := fabricGroup.foldl addN s.ck.held
                        service := s.ck.service.filter (fun c => c < 4 || c = 6 || (36 ≤ c && c < 42)) } }
    s

/-- The fabric group comes up as at stage FABRIC (R439, R453): clocks locked, HBM trained and its listed repairs applied,
the page map loaded, miller cores started; HOST_ALERT_N is released (R383). -/
def State.fabricUp (s : State) : State :=
  let core (m : Nat) : Mill := { s.mill m with coreRunning := (s.fwClass 1).valid }
  let s := { s with
    mills := (List.range 16).map (fun m => (m, core m))
    tiers := { s.tiers with mapReady := true, hbmReady := true, storeReady := true, poisonAll := s.tiers.poisonAll }
    ck := { s.ck with
      fabricLock := true, hbmLock := [0, 1, 2, 3, 4, 5]
      held := s.ck.held.filter (fun d => !has fabricGroup d)
      service := [4, 5, 8, 9].foldl addN s.ck.service } }
  if s.hp.state = .init then { s with hp := { s.hp with holdAlert := false } } else s

/-- Reclaimed items of a mill's reset move to returned where their issuer is in service (R40): hopper credits and tokens of
mills that run, and credits of governor queues. Millpond pages wait for the mill's next section (R225). -/
def State.releaseMills (s : State) : State :=
  let s := (List.range 144).foldl (fun s p =>
    let i := if p < 128 then p / 8 else p - 128
    if (s.pool p).reclaimed = 0 ∨ has s.ck.held (16 + i) = true ∨ (s.mill i).state = .fault ∨ (s.mill i).state = .closed then s
    else s.releasePool p) s
  (List.range 16).foldl (fun s q => s.releasePool (448 + q)) s

/-- The end of a reset request (PW_RESET_STATUS). -/
def State.resetDone (s : State) (d : Nat) : State :=
  if s.pw.resetBusy ∧ s.pw.resetDomain = d then { s with pw := { s.pw with resetBusy := false, resetResult := 1 } } else s

/-- Step 5 of R440 for one domain, or for the group. -/
def State.releaseDomain (s : State) (d : Nat) : State :=
  if d = 4 ∨ d = 127 then
    if has s.ck.held 4 = false ∨ s.pw.fabricOn = false ∨ s.pw.thermal = .fabricHeld then s
    else s.fabricUp.resetDone 127
  else if has s.ck.held d = false ∨ (has s.ck.held 4 = true ∧ has fabricGroup d = true) then s
  else
    let s := { s with ck := { s.ck with held := remN s.ck.held d
                                        service := (if d = 8 then [] else domainCrossings d).foldl addN s.ck.service } }
    let s := if 16 ≤ d ∧ d < 32 then
        (s.setMill (d - 16) { s.mill (d - 16) with coreRunning := (s.fwClass 1).valid }).releaseMills
      else if 32 ≤ d ∧ d < 40 then { s with ck := { s.ck with serdesBad := remN s.ck.serdesBad (d - 32) } }
      else if 48 ≤ d then { s with ck := { s.ck with serdesBad := remN s.ck.serdesBad (d - 40) } }
      else if d = 8 then
        let s := (List.range 64).foldl (fun s c => if (s.pool (hostPool c)).size = 0 then s else s.settlePool c) s
        { s with hp := { s.hp with holdAlert := if s.hp.state = .init then false else s.hp.holdAlert } }
      else s
    s.resetDone d

/-! ### Power off (R434, R447) -/

/-- The governor sends frames: a GOVERNOR section is in force and the lanes' image verified (R455). -/
def State.sendsFrames (s : State) : Bool := s.gov.sec.isSome && (s.fwClass 3).valid && s.lanesIn ≠ []

/-- The STO frames of a shutdown are done (R447): at least 8 and acknowledged twice, or 24. -/
def State.stoDone (s : State) : Bool :=
  !s.sendsFrames || decide (24 ≤ s.gov.stoFrames) || (decide (8 ≤ s.gov.stoFrames) && decide (2 ≤ s.gov.stoActive))

/-- An entry of the supply log; the oldest of 64 gives way (R448). -/
def State.logSupply (s : State) (e : LogEntry) : State :=
  let l := s.pw.log ++ [e]
  { s with pw := { s.pw with log := if 64 < l.length then l.drop 1 else l } }

/-- Everything off: what stays is non-volatile. A record that was pending has entered the buffer. -/
def State.powerOff (s : State) : State :=
  let r := State.reset
  { r with
    mem := { s.mem with sram := s.mem.sram.lose, pond := s.mem.pond.lose, hbm := s.mem.hbm.lose, ram := s.mem.ram.lose }
    ev := { s.ev with
      buffer := s.ev.buffer ++ s.ev.pendingLive, pendingLive := []
      head := s.ev.pendingLive.foldl (fun a (x : Rec) => max a x.seq) s.ev.head
      opEdges := 0, latches := [], challenges := [], retraining := [], retrainWait := [], retrainFails := [], portDown := []
      strayLast := none, straySince := 0, strayFirst := 0 }
    sec := { s.sec with otpQueue := [], otpRunning := false, running := [], update := {}, debugOpen := false }
    pw := { r.pw with
      cold := false, wasShutdown := s.pw.wasShutdown, wasClockFailure := s.pw.wasClockFailure, motionHot := s.pw.motionHot
      log := s.pw.log, uart := s.pw.uart, inputV := s.pw.inputV, motionT := s.pw.motionT, fabricT := s.pw.fabricT
      faceT := s.pw.faceT }
    tiers := { map := s.tiers.map.map (fun (e : Nat × MapEntry) => (e.1, { e.2 with busy := false }))
               repairs := s.tiers.repairs, committed := s.tiers.committed, lastStation := s.tiers.lastStation
               retired := s.tiers.retired }
    freeN := s.freeN
    pending := s.pending }

/-- A clock failure (R434): the rails go off without STO frames; at most 60 s of operating time are lost (R469). -/
def State.clockFailure (s : State) (noRef : Bool) : State :=
  if s.pw.motionOn then
    let e : LogEntry := { event := 5, minV := s.pw.inputV, below := 0, used := 0, left := s.pw.holdup }
    let s := s.logSupply e
    let s := { s with ev := { s.ev with opSeconds := s.ev.opSaved } }
    let s := s.powerOff
    { s with pw := { s.pw with wasShutdown := false, wasClockFailure := true, clockFailed := true, refAbsent := noRef } }
  else s

end Sys2Proof.Machine
end

