-- ==== Sys2Proof/Machine/LoaderCore.lean ====
section
/-!
DEFINITION. What other families need of the loader: the end of a loader command with its record, the discard of a staged
millplan, and the two faults that act on a running command — a ledger fault (R41, R460) and a fault of the target mill (R140).
-/
namespace Sys2Proof.Machine

/-! ### The end of a command (MP_STATUS, R123, R509) -/

/-- MP_CMD op of the command that runs, or that a state stands for. -/
def LoaderState.op : LoaderState → Nat
  | .idle => 0
  | .copying => 1
  | .verifying => 1
  | .loading => 2
  | .preloading => 3
  | .swapping => 4
  | .unloading => 6
  | .evacuating => 7
  | .restoring => 8

/-- A command is accepted: the flag of an ignored one is cleared (MP_STATUS.ignored). -/
def State.ldAccept (s : State) : State := { s with loader := { s.loader with ignored := false } }
/-- A command meets a running one (R138). -/
def State.ldIgnore (s : State) : State := { s with loader := { s.loader with ignored := true } }

/-- The end of a command, with result done. -/
def State.ldDone (s : State) : State :=
  { s with loader := { s.loader with state := .idle, result := 1, cause := 0, status := 0, failSection := 0, step := 0 } }.raise Reg.mpEvents 1

/-- The end of a command that was rejected (2) or aborted (3), with its record. `sec` is the section that failed, none where a
cause names none: the field is then a free value. -/
def State.ldFail (s : State) (result cause status : Nat) (sec : Option Nat) (op : Nat) (source : Option Nat) (p : Plan) (mask : Nat) : State :=
  let k := s.free
  let n := sec.getD (k.1 % 256)
  let s := if sec.isSome then s else k.2
  let s := { s with loader := { s.loader with state := .idle, result := result, cause := cause, status := status, failSection := n
                                              step := 0 } }
  (s.raise Reg.mpEvents (if result = 2 then 2 else 4)).record 1 cause status 0xFF (source.getD n)
    (le 8 p.planId ++ le 4 p.gen ++ le 1 op ++ zeros 3 ++ le 2 mask)

/-- The millplan a command concerns: the staged one, or the loaded one. -/
def State.ldPlan (s : State) : Plan := (s.loader.staged.getD (s.loader.loaded.getD {}))

/-- The section of a staged replacement. -/
def State.stagedSection (s : State) : Option Section :=
  s.loader.staged.bind (fun p => if p.replacement then p.sections.head? else none)

/-- Pages charged for preload lists are released (held → returned). -/
def State.uncharge (s : State) : State :=
  let s := s.loader.charged.foldl (fun s (e : Nat × Nat) => s.move (160 + e.1) .held .returned e.2) s
  { s with loader := { s.loader with charged := [], preloadDone := 0, preloadTotal := 0, passed := 0 } }

/-- Preloaded pages of the staged section are released and the staged millplan is gone. -/
def State.discardStaged (s : State) : State :=
  let s := s.uncharge
  { s with loader := { s.loader with staged := none, reload := false, ready := false } }

/-- A loader command that works on the staged section of mill m is running. -/
def State.replaces (s : State) (m : Nat) : Bool :=
  (s.loader.state = .preloading || s.loader.state = .swapping) &&
  (match s.stagedSection with
   | some x => (x.typ = 1 || x.typ = 0xA) && x.target = m
   | none => false)

/-- The target mill entered FAULT during a replacement (R140). -/
def State.targetFault (s : State) (m : Nat) : State :=
  if (s.mill m).state = .fault ∧ s.replaces m = true then
    let op := s.loader.state.op
    let p := s.ldPlan
    s.discardStaged.ldFail 3 0x15 0 (some 0) op (some m) p 0
  else s

/-! ### A ledger fault (R41, R460) -/

/-- The requests that the stopped pipelines of a pool hold end with LEDGER_FAULT: begun ITEM and CHUNK requests of their
contexts (R460). -/
def State.ledgerRequests (s : State) (nodes : List Node) : State :=
  let ctxs := nodes.filterMap (fun n => (s.mill (n / 8)).sec.map Section.ctx)
  (s.hp.requests.filter (fun r => r.begun && (r.target = 3 || r.target = 5) && ctxs.contains r.ctx)).foldl
    (fun s r => s.finish r 0x11 0 0) s

/-- LEDGER_FAULT against a pool: flags and record, the mill of a mill's pool in FAULT, the pipelines that own it stopped. -/
def State.ledgerFault (s : State) (p : Nat) : State :=
  let s := s.flagFault p
  let nodes := s.poolOwners p
  let s := if p < 144 then
      let m := if p < 128 then p / 8 else p - 128
      (s.millFault m 1 p).targetFault m
    else if p < 146 then
      let x := Tbl.getD s.bolters (p - 144) {}
      { s with bolters := Tbl.set s.bolters (p - 144) { x with stopped := true } }
    else s
  let all := s.pipelines nodes
  (s.stopPipelines nodes).ledgerRequests all

end Sys2Proof.Machine
end

