-- ==== Sys2Proof/Machine/Special.lean ====
section
/-!
DEFINITION. Real functions to far more bits than FP32 holds, and what the special-function unit makes of them within the limits
of R76: exponential, reciprocal, roots, logistic, sine, cosine and piecewise tables, each with its result and bound; the rotary
angle (R168).
-/
namespace Sys2Proof.Machine

/-! ### Roots -/

/-- ⌊√n⌋ by `fuel` halvings of the interval [lo, hi). -/
def isqrtIn : Nat → Nat → Nat → Nat → Nat
  | 0, _, lo, _ => lo
  | k + 1, n, lo, hi => if hi ≤ lo + 1 then lo else
      let m := (lo + hi) / 2
      if m * m ≤ n then isqrtIn k n m hi else isqrtIn k n lo m

/-- ⌊√n⌋. -/
def isqrt (n : Nat) : Nat := isqrtIn (Nat.log2 n + 2) n 0 (2 ^ (Nat.log2 n / 2 + 1))

/-- √a to more than 150 bits, rounded down; zero for a negative number. -/
def Dy.sqrt (a : Dy) : Dy :=
  if a.m ≤ 0 then Dy.zero
  else
    let p : Int := a.e % 2
    ⟨(isqrt (a.m.natAbs * 2 ^ (p.toNat + 320)) : Nat), (a.e - p) / 2 - 160⟩

/-- √a rounded up to the same precision. -/
def Dy.sqrtUp (a : Dy) : Dy := let r := a.sqrt; ⟨r.m + 1, if a.m ≤ 0 then -400 else r.e⟩

/-- a ÷ b to more than 200 bits, rounded down in magnitude; zero where b is zero. -/
def Dy.div (a b : Dy) : Dy :=
  if b.m = 0 then Dy.zero
  else
    let k := 256 + Nat.log2 b.m.natAbs
    let q : Nat := a.m.natAbs * 2 ^ k / b.m.natAbs
    ⟨if (a.m < 0) = (b.m < 0) then (q : Int) else -(q : Int), a.e - b.e - k⟩

/-! ### Exponential, logarithm, sine and cosine in fixed point with 320 fraction bits -/

/-- 1, ln 2 and π ÷ 2 in 2^−320. -/
def fxOne : Int := ((2 ^ 320 : Nat) : Int)
def fxLn2 : Int := 1480553391661173448385607439722553250922680800745876974795605978609098082859138712941075737848984
def fxHalfPi : Int := 3355200590106084457577920487110001620402097044713574475363553212175856609335902690049750194457019

/-- ⌊a × 2^320⌋. -/
def Dy.fx (a : Dy) : Int := (Dy.mk a.m (a.e + 320)).floor

/-- Σ over k < n of r^k ÷ k!, for 0 ≤ r < 1 in 2^−320. -/
def expSeries (n : Nat) (r : Int) : Int :=
  ((List.range n).foldl (fun (a : Int × Int) k =>
    let t := a.2 * r / (fxOne * ((k + 1 : Nat) : Int))
    (a.1 + t, t)) (fxOne, fxOne)).1

/-- e^a; its argument is kept within ±2^13, beyond which no format of the module reaches. -/
def expDy (a : Dy) : Dy :=
  let x := clampI (-(8192 * fxOne)) (8192 * fxOne) (if (a.abs).lt ⟨1, 14⟩ then a.fx else if a.m < 0 then -(16384 * fxOne) else 16384 * fxOne)
  let k := x / fxLn2
  ⟨expSeries 80 (x - k * fxLn2), k - 320⟩

/-- An upper bound of e^a. -/
def expUp (a : Dy) : Bound := let y := expDy a; boundUp ⟨y.m + 1048576, y.e⟩

/-- ln of a positive dyadic in 2^−320. -/
def lnFx (a : Dy) : Int :=
  let n := a.m.natAbs
  let l := Nat.log2 n
  let z : Int := (((n - 2 ^ l) * 2 ^ 320 / (n + 2 ^ l) : Nat) : Int)
  let zz := z * z / fxOne
  let s := (List.range 110).foldl (fun (p : Int × Int) j => (p.1 + p.2 / ((2 * j + 1 : Nat) : Int), p.2 * zz / fxOne)) (0, z)
  2 * s.1 + ((l : Int) + a.e) * fxLn2

/-- Σ over j < n of (−1)^j r^(2j + i) ÷ (2j + i)!, in 2^−320: the sine for i = 1, the cosine for i = 0. -/
def trigSeries (i n : Nat) (r : Int) : Int :=
  let rr := r * r / fxOne
  ((List.range n).foldl (fun (p : Int × Int) j =>
    (p.1 + p.2, -(p.2 * rr / (fxOne * (((2 * j + i + 1) * (2 * j + i + 2) : Nat) : Int))))) (0, if i = 1 then r else fxOne)).1

/-- The sine (q = 0) or cosine (q = 1) of an angle in 2^−320. -/
def trigDy (q : Nat) (x : Int) : Dy :=
  let k := (2 * x + fxHalfPi) / (2 * fxHalfPi)
  let r := x - k * fxHalfPi
  let n := ((k + q) % 4).toNat
  let v := if n % 2 = 0 then trigSeries 1 40 r else trigSeries 0 40 r
  ⟨if n < 2 then v else -v, -320⟩

/-! ### Results within a number of units in the last place -/

/-- The exponent of FP32's spacing at a value (R63). -/
def ulpExp32 (y : Dy) : Int := if y.m = 0 then -149 else max ((Nat.log2 y.m.natAbs : Int) + y.e) (-126) - 23

/-- h half-ulps of FP32 at a value, as a bound. -/
def ulps32 (h : Nat) (y : Dy) : Bound := boundUp ⟨(h : Int), ulpExp32 y - 1⟩

/-- An FP32 result within h half-ulps of y: which of them is the free value `free` (R76). -/
def nearCode (h : Nat) (y : Dy) (free : Nat) : Nat :=
  let neg := decide (y.m < 0)
  let c := y.toF32 false % 2 ^ 31
  if 0x7F800000 ≤ c then f32.infCode neg
  else
    let ok (z : Nat) : Bool := decide (z < 0x7F800000) && (((dy32 z).sub y.abs).abs).le ⟨(h : Int), ulpExp32 y - 1⟩
    let l := (List.range 5).filterMap (fun k => if 2 ≤ c + k ∧ ok (c + k - 2) = true then some (c + k - 2) else none)
    nth l (free % max l.length 1) c + put 31 1 (b2n neg)

/-- An FP32 result whose distance from y is a free part of w, and the rounding to FP32. -/
def looseCode (y : Dy) (w : Bound) (free : Nat) : Nat :=
  match w with
  | none => free % 2 ^ 32
  | some d => (y.add ⟨d.m * (((free % 65537 : Nat) : Int) - 32768), d.e - 15⟩).toF32 (y.m < 0)

/-! ### The special-function unit (R76) -/

/-- The result that IEEE 754 gives a function where it has no real value or an infinite argument (log entry 48). -/
def specialEdge (f : SpecialFn) (x : Nat) : Option Nat :=
  let neg := neg32 x
  let zero := decide (x % 2 ^ 31 = 0)
  let inf := decide (x % 2 ^ 31 = 0x7F800000)
  let nan := 0x7FC00000
  if isNan32 x then some nan
  else match f with
    | .exp => if inf then some (if neg then 0 else x) else none
    | .recip => if zero then some (f32.infCode neg) else if inf then some (put 31 1 (b2n neg)) else none
    | .sqrt => if zero then some x else if neg then some nan else if inf then some x else none
    | .rsqrt => if zero then some (f32.infCode neg) else if neg then some nan else if inf then some 0 else none
    | .logistic => if inf then some (if neg then 0 else one32) else none
    | .sin => if inf then some nan else if zero then some x else none
    | .cos => if inf then some nan else none
    | .table _ _ => if inf then some nan else none

/-- 1 ÷ (1 + e^−d). -/
def logisticDy (d : Dy) : Dy :=
  let one := Dy.ofInt 1
  if d.m < 0 then (let t := expDy d; t.div (one.add t)) else one.div (one.add (expDy d.neg))

/-- The segment of a table that holds an argument. -/
def tableSeg (segs : List (Nat × Nat × Nat)) (d : Dy) : Option (Nat × Nat × Nat) :=
  (segs.filter (fun s => (dy32 s.1).le d)).getLast?

/-- The largest slope of a table's segments over [lo, hi]. -/
def tableSlope (segs : List (Nat × Nat × Nat)) (last : Nat) (lo hi : Dy) : Bound :=
  let ends := (segs.drop 1).map (fun s => dy32 s.1) ++ [dy32 last]
  boundMaxL ((segs.zip ends).filterMap (fun e =>
    if (dy32 e.1.1).le hi && lo.le e.2 then some (boundUp (dy32 e.1.2.2).abs) else none))

/-- y = f(x) of R76 for an FP32 argument x with bound ε: the result and the bound of P and δ_f, without ρ_out. Which result
within δ_f it is, and any result where R76 holds no limit or a table no segment, is the free value `free`. -/
def special (f : SpecialFn) (x : Nat) (eps : Bound) (free : Nat) : Nat × Bound :=
  match specialEdge f x with
  | some y => (y, if isNan32 y then none else eps.bind (fun e =>
      if e.m = 0 then some Dy.zero
      else if finite32 x = false then none
      else match f with
        | .sqrt => boundUp e.sqrtUp
        | .sin => some e
        | _ => none))
  | none =>
    let d := dy32 x
    let near (h : Nat) (y : Dy) : Nat := nearCode h y free
    let lift (l : Dy → Dy → Bound) : Bound := eps.bind (fun e => l d e)
    match f with
    | .exp =>
      let y := expDy d
      (near 4 y, boundAdd (lift (fun d e => boundMul (expUp (d.add e)) (some e))) (ulps32 4 y))
    | .recip =>
      let y := (Dy.ofInt 1).div d
      (near 2 y, boundAdd (lift (fun d e =>
        let g := d.abs.sub e
        if g.m ≤ 0 then none else boundDiv (some e) (some (g.mul g)))) (ulps32 2 y))
    | .sqrt =>
      let y := d.sqrt
      (near 1 y, boundAdd (lift (fun d e =>
        let g := d.sub e
        if e.m = 0 then some Dy.zero
        else if 0 < g.m then boundDiv (some e) (some ((Dy.ofInt 2).mul g.sqrt))
        else boundUp (d.add e).sqrtUp)) (ulps32 1 y))
    | .rsqrt =>
      let y := (Dy.ofInt 1).div d.sqrt
      (near 2 y, boundAdd (lift (fun d e =>
        let g := d.sub e
        if g.m ≤ 0 then none else boundDiv (some e) (some (((Dy.ofInt 2).mul g).mul g.sqrt)))) (ulps32 2 y))
    | .logistic =>
      let y := logisticDy d
      (near 4 y, boundAdd (lift (fun _ e => boundMul (some ⟨1, -2⟩) (some e))) (ulps32 4 y))
    | .sin | .cos =>
      if (⟨1, 12⟩ : Dy).lt d.abs then (free % 2 ^ 32, none)
      else
        let y := trigDy (if f = .cos then 1 else 0) d.fx
        (near 4 y, boundAdd (lift (fun _ e => some e)) (ulps32 4 y))
    | .table segs last =>
      match tableSeg segs d with
      | none => (free % 2 ^ 32, none)
      | some s =>
        if (dy32 last).lt d then (free % 2 ^ 32, none)
        else
          let y := (dy32 s.2.1).add ((dy32 s.2.2).mul (d.sub (dy32 s.1)))
          (near 1 y, boundAdd (lift (fun d e => boundMul (tableSlope segs last (d.sub e) (d.add e)) (some e))) (ulps32 1 y))

/-! ### The rotary angle (R168) -/

/-- θ = p × base^(−2i ÷ d_h), reduced to [−π, π] and held in 64 bits with 61 of fraction. -/
def rotaryAngle (base p i dim : Nat) : Int :=
  let x := -(lnFx (dy32 base)) * ((2 * i : Nat) : Int) / ((max dim 1 : Nat) : Int)
  let t := expDy ⟨x, -320⟩
  let th := (Dy.mk (t.m * (p : Int)) t.e).fx
  let turn := 4 * fxHalfPi
  let r := (th + 2 * fxHalfPi) % turn - 2 * fxHalfPi
  r / ((2 ^ 259 : Nat) : Int)

/-- The cosine and the sine of a rotary angle, each with 2 ulp of its own and ε_x = 2^−24 (R76, R168). -/
def rotaryTrig (th : Int) (free : Nat) : (Nat × Bound) × (Nat × Bound) :=
  let x := th * ((2 ^ 259 : Nat) : Int)
  let one (q fr : Nat) : Nat × Bound :=
    let y := trigDy q x
    (nearCode 4 y fr, boundAdd (some ⟨1, -24⟩) (ulps32 4 y))
  (one 1 free, one 0 (free / 8))

end Sys2Proof.Machine
end

