-- ==== Sys2Proof/Machine/StageOps.lean ====
section
/-!
DEFINITION. What a stage computes and what its tailrace makes of it (R58–R79, R88, R161): operands with their bounds and
statuses, the operation classes of R75, output rounding, tags, status and packing.
-/
namespace Sys2Proof.Machine

/-- An operand element: its FP32 code, its exact value, its absolute bound ε (R75), for an integer format its integer, and the
status of its block. -/
structure Elem where
  v : Nat
  x : FVal
  e : Bound
  n : Int := 0
  st : Nat := 0
  deriving DecidableEq, Repr

/-- An FP32 code as an element. -/
def elem32 (v : Nat) (e : Bound) (st : Nat := 0) : Elem := { v := v, x := f32.decode v, e := e, st := st }

/-- An element of zero with tag 0. -/
def zeroElem : Elem := elem32 0 (some Dy.zero)

/-- An operand: its elements, their format (R53) and the declared scale of an integer one. -/
structure Operand where
  elems : List Elem
  fmt : Nat := 1
  scale : Nat := 0
  deriving DecidableEq, Repr

/-! ### Reading operands (R57, R62, R71, R73, R74) -/

/-- FP32 code of an element of a format, with its block's E8M0 scale or its declared scale. -/
def elemTo32 (fmt scale mx code : Nat) : Nat :=
  match fmt with
  | 1 => code
  | 6 => mxTo32 6 mx code
  | 7 => mxTo32 7 mx code
  | 8 => intTo32 8 code scale
  | 9 => intTo32 4 code scale
  | 10 => (Dy.mk (signed 16 code) (-15)).toF32 false
  | _ => widen fmt code

/-- Width of an integer format, 0 for any other. -/
def intWidth (fmt : Nat) : Nat := if fmt = 8 then 8 else if fmt = 9 then 4 else 0

/-- A dyadic as an exact value. -/
def Dy.val (d : Dy) : FVal := .fin (d.m < 0) d.m.natAbs d.e

/-- The exact value of an element: an integer times its declared scale is not rounded. -/
def elemExact (fmt scale mx code : Nat) : FVal :=
  match fmt with
  | 6 | 7 => mxExact fmt mx code
  | 8 | 9 => if finite32 scale then ((Dy.ofInt (signed (intWidth fmt) code)).mul (dy32 scale)).val else .nan
  | 10 => (Dy.mk (signed 16 code) (-15)).val
  | _ => match fmtOf fmt with
    | some f => f.decode code
    | none => .fin false 0 0

/-- The dyadic of an exact value, zero where it is not finite. -/
def FVal.get (v : FVal) : Dy := v.dy.getD Dy.zero

/-- The exponent k of a block's scale s = 2^k (R70). -/
def blockExp (fmt mx : Nat) (vs : List FVal) : Int :=
  if fmt = 6 ∨ fmt = 7 then (mx : Int) - 127 else scaleExp (vs.map FVal.get)

/-- One block of an operand. -/
def blockOperand (fmt scale mx tag status : Nat) (codes : List Nat) : List Elem :=
  let xs := codes.map (elemExact fmt scale mx)
  let b := if status ≠ 0 then none else tagBound tag (blockExp fmt mx xs)
  List.zipWith (fun x c => { v := elemTo32 fmt scale mx c, x := x, e := b, n := signed (intWidth fmt) c, st := status }) xs codes

/-- Blocks of an operand with their scales, tags and statuses. -/
def blocksOperand (fmt scale : Nat) (codes mxs tags status : List Nat) : List Elem :=
  let cs := chunksOf 32 (codes.length / 32 + 1) codes
  (cs.zip (List.range cs.length)).flatMap (fun e =>
    blockOperand fmt scale (nth mxs e.2 0) (nth tags e.2 0) (nth status e.2 0) e.1)

/-- A parcel's elements (R93). -/
def Parcel.elems (p : Parcel) (scale : Nat) : List Elem :=
  let n := 32 * p.blocks
  let eb := (fmtWidth p.format * n + 7) / 8
  let codes := unpackCodes (fmtWidth p.format) n p.payload
  let mxs := ((p.payload.drop eb).take p.blocks).map BitVec.toNat
  blocksOperand p.format scale codes mxs p.tags p.status

/-- The status of what stands in [a, a + n): that of a tier read that filled it, TIER_FAIL of poisoned HBM lines (R157, R178,
R220). -/
def State.memStatus (s : State) (a n : Nat) : Nat :=
  worst ((s.tiers.badReads.filter (fun r => decide (r.1 < a + n) && decide (a < r.1 + r.2.1))).map (fun r => r.2.2) ++
    (if s.poisonedIn a n then [2] else []))

/-- A tensor in memory (R57, R74); one that no tailrace wrote carries tag 0 (R73), a tag of 255 read back is NOT_CERTIFIED. -/
def State.memElems (s : State) (addr fmt scale count : Nat) (scales tags : Option Nat) : List Elem :=
  let w := fmtWidth fmt
  let codes := unpackCodes w count (s.local addr ((w * count + 7) / 8))
  let blocks := (count + 31) / 32
  let mxs := match scales with
    | some a => (s.local a blocks).map BitVec.toNat
    | none => []
  let ts := match tags with
    | some a => (s.local a blocks).map BitVec.toNat
    | none => []
  let st := (List.range blocks).map (fun i => worse (s.memStatus (addr + 4 * w * i) (4 * w)) (if nth ts i 0 = 255 then 3 else 0))
  blocksOperand fmt scale codes mxs ts st

/-- Blocks of `count` elements and bytes of their element, scale and tag planes (R57, R74). -/
def planeBlocks (count : Nat) : Nat := (count + 31) / 32
def planeBytes (fmt count : Nat) : Nat := planeBlocks count * (4 * fmtWidth fmt)
def scaleBytes (fmt count : Nat) : Nat := if fmt = 6 ∨ fmt = 7 then planeBlocks count else 0

/-- The chunk that layer 0 of a stream runs, with the steps it has run (R197). -/
def Stream.reading (x : Stream) : Option ChunkRun := x.started.find? (fun r => r.layer = 0 && r.running)

/-- The data of a chunk in its queue slot, from the step it has reached: header of 32 bytes, element plane, scale plane, tag plane
(R195). -/
def State.chunkElems (s : State) (stream scale : Nat) : List Elem × Nat :=
  match s.streamSection stream, (Tbl.getD s.streams stream {}).reading with
  | some c, some r =>
    let f := c.2.format
    let n := r.chunk.steps * c.2.channels
    let a := c.2.queueSlot stream r.chunk.slot + 32
    let b := a + planeBytes f n
    ((s.memElems a f scale n (some b) (some (b + scaleBytes f n))).drop (r.steps * c.2.channels), f)
  | _, _ => ([], 1)

/-- An operand of an item of mill m. -/
def State.operand (s : State) (m : Nat) (stream : Option Nat) : Source → Operand
  | .queue q n scale =>
    let ps := (Tbl.getD (s.mill m).hopper q []).take n
    { elems := ps.flatMap (fun p => p.elems scale), fmt := ((ps.head?).map (·.format)).getD 1, scale := scale }
  | .mem addr fmt scale count scales tags => { elems := s.memElems addr fmt scale count scales tags, fmt := fmt, scale := scale }
  | .const codes => { elems := codes.map (fun c => elem32 c (some Dy.zero)) }
  | .chunk scale =>
    match stream with
    | some n => let c := s.chunkElems n scale
                { elems := c.1, fmt := c.2, scale := scale }
    | none => { elems := [] }

/-- The stone modes of R58. -/
def stoneMode (x w : Nat) : Bool :=
  match x, w with
  | 2, 2 | 3, 3 | 6, 6 | 7, 7 | 8, 8 | 9, 9 => true
  | 4, 4 | 4, 5 | 5, 4 | 5, 5 => true
  | _, _ => false

/-! ### Operation classes (R75) -/

/-- A result before output rounding: its exact value, the bound of P and ρ without ρ_out, and whether the element keeps
its format (ρ_out = 0). -/
structure Res where
  v : FVal
  b : Bound
  same : Bool := false
  /-- A masked score: exactly −∞ (R167). -/
  mask : Bool := false
  /-- The worst status of the inputs that contributed (R69), whether one was NaN (R67), whether a stone saturated (R60). -/
  st : Nat := 0
  nan : Bool := false
  sat : Bool := false
  deriving DecidableEq, Repr

/-- A result with what it inherits from the elements that contributed to it (R67, R69). -/
def Res.from (r : Res) (es : List Elem) : Res :=
  { r with st := worst (r.st :: es.map (·.st)), nan := r.nan || es.any (fun e => e.x = .nan) }

/-- |x| of an FP32 code as a bound, none where it is not finite. -/
def mag32 (x : Nat) : Bound := if finite32 x then boundUp (dy32 x).abs else none
/-- |x| of an element's exact value. -/
def Elem.mag (e : Elem) : Bound := e.x.dy.bind (fun d => boundUp d.abs)

/-- ⌈n ÷ 32⌉ × u × Σ × (1 + 2^−10). -/
def sumRho (n : Nat) (total : Bound) : Bound :=
  boundMul (boundMul (some ⟨((n + 31) / 32 : Nat), 0⟩) unitU) (boundMul total (some ⟨1025, -10⟩))

/-- u∣y∣ of one vector operation. -/
def vecRho (y : Nat) : Bound := boundMul unitU (mag32 y)

/-- P of the matrix row of R75: the K-blocks of 32 in order. -/
def matrixBound (xs ws : List Elem) : Bound :=
  let k := min xs.length ws.length
  let blocks := (chunksOf 32 (k / 32 + 1) xs).zip (chunksOf 32 (k / 32 + 1) ws)
  boundSum (blocks.map (fun e =>
    let ex := boundMaxL (e.1.map (·.e))
    let ew := boundMaxL (e.2.map (·.e))
    let sX := boundSum (e.1.map Elem.mag)
    let sW := boundSum (e.2.map Elem.mag)
    boundAdd (boundAdd (boundMul sW ex) (boundMul sX ew)) (boundMul (some ⟨32, 0⟩) (boundMul ew ex))))

/-- Σ_j ∣w_ij x_j∣. -/
def matrixMag (xs ws : List Elem) : Bound := boundSum (List.zipWith (fun x w => boundMul x.mag w.mag) xs ws)

/-- The dot product of a stone with its bound (R59, R60, R75): the operand formats select the mode. -/
def dotRes (fx sx sw : Nat) (xs ws : List Elem) : Res :=
  let p := matrixBound xs ws
  let r : Res :=
    if intWidth fx ≠ 0 then
      let r := stoneInt (xs.map (·.n)) (ws.map (·.n))
      { v := (((Dy.ofInt r.1).mul (dy32 sx)).mul (dy32 sw)).val, b := p, sat := r.2 }
    else
      let fin := (xs ++ ws).all (fun x => x.x.dy.isSome)
      let y := if fin then stoneDot (fx = 6 || fx = 7) (xs.map (fun x => x.x.get)) (ws.map (fun x => x.x.get))
        else (List.zipWith (fun x w => (x.v, w.v)) xs ws).foldl (fun a e => fma32 e.1 e.2 a) 0
      { v := f32.decode y, b := boundAdd p (sumRho (min xs.length ws.length) (matrixMag xs ws)) }
  r.from (xs ++ ws)

/-- A dot product on the vector unit, fused multiply-adds in order, with the bound of the matrix row (R61, R146, R149). -/
def vecDot (xs ws : List Elem) : Res :=
  let y := (List.zipWith (fun x w => (x.v, w.v)) xs ws).foldl (fun a e => fma32 e.1 e.2 a) 0
  ({ v := f32.decode y, b := boundAdd (matrixBound xs ws) (sumRho (min xs.length ws.length) (matrixMag xs ws)) } : Res).from (xs ++ ws)

/-- An elementwise operation of one operand with its bound: L × ε + u∣y∣ (R75). -/
def applyUnary (f : UnaryOp) (x : Elem) : Nat × Bound :=
  match f with
  | .copy => (x.v, x.e)
  | .abs => (abs32 x.v, x.e)
  | .neg => (negate32 x.v, x.e)
  | .relu =>
    let y := max32 x.v 0
    let flat := match x.e with
      | some e => finite32 x.v && ((dy32 x.v).add e).lt Dy.zero
      | none => false
    (y, if flat then some Dy.zero else x.e)
  | .clamp lo hi =>
    let y := min32 (max32 x.v lo) hi
    let flat := match x.e with
      | some e => finite32 x.v && (((dy32 x.v).add e).lt (dy32 lo) || (dy32 hi).lt ((dy32 x.v).sub e))
      | none => false
    (y, if flat then some Dy.zero else x.e)
  | .scale c => (mul32 x.v c, boundMul (mag32 c) x.e)

def unaryRes (f : UnaryOp) (x : Elem) : Res :=
  let r := applyUnary f x
  ({ v := f32.decode r.1, b := if f = .copy then r.2 else boundAdd r.2 (vecRho r.1) } : Res).from [x]

/-- The bound of a product of two elements: ∣a∣ε_b + ∣b∣ε_a + ε_aε_b. -/
def prodBound (a b : Elem) : Bound :=
  boundAdd (boundAdd (boundMul (mag32 a.v) b.e) (boundMul (mag32 b.v) a.e)) (boundMul a.e b.e)

/-- A comparison or a selection rests on an exact selector (log entry 51). -/
def sure (ok : Bool) (b : Bound) : Bound := if ok then b else none

/-- An elementwise operation of two or three operands with its bound (R61, R75). Minimum and maximum have the bound of the
reduction row. A comparison is certain where the operands differ by more than their bounds (log entry 51). -/
def binaryRes (f : BinaryOp) (a b c : Elem) : Res :=
  let r : Nat × Bound :=
    match f with
    | .add => (add32 a.v b.v, boundAdd a.e b.e)
    | .sub => (sub32 a.v b.v, boundAdd a.e b.e)
    | .mul => (mul32 a.v b.v, prodBound a b)
    | .fma => (fma32 a.v b.v c.v, boundAdd (prodBound a b) c.e)
    | .min => (min32 a.v b.v, boundMax a.e b.e)
    | .max => (max32 a.v b.v, boundMax a.e b.e)
    | .less =>
      let apart := match boundAdd a.e b.e with
        | some e => decide (e.m = 0) || e.lt ((dy32 a.v).sub (dy32 b.v)).abs
        | none => false
      (Config.compareWord (lt32 a.v b.v) % 2 ^ 32, sure apart (some Dy.zero))
    | .select =>
      let y := if a.v = Config.compareWord true % 2 ^ 32 then b else c
      (y.v, sure (a.e = some Dy.zero) y.e)
  let exact := f = .min ∨ f = .max ∨ f = .less ∨ f = .select
  let used := match f with
    | .fma | .select => [a, b, c]
    | _ => [a, b]
  ({ v := f32.decode r.1, b := if exact then r.2 else boundAdd r.2 (vecRho r.1) } : Res).from used

/-- Elements summed in an order the spec leaves open: groups of 32, each rounded once (log entry 32). -/
def openSum (base : Nat) (xs : List Nat) : Nat :=
  let ord := (freeOrder base xs.length).map (fun i => nth xs i 0)
  if ord.all finite32 then stoneDot false (ord.map dy32) (ord.map (fun _ => Dy.ofInt 1)) else ord.foldl add32 0

/-- A reduction over a run of elements with its bound (R75); `d` is the divisor of a mean. -/
def reduceRes (f : ReduceOp) (base d : Nat) (xs : List Elem) : Res :=
  let n := xs.length
  let mags := boundSum (xs.map (fun x => mag32 x.v))
  let r : Res := match f with
    | .sum =>
      let y := openSum base (xs.map (·.v))
      { v := f32.decode y, b := boundAdd (boundSum (xs.map (·.e))) (sumRho n mags) }
    | .mean =>
      let t := openSum base (xs.map (·.v))
      let dv : Bound := some ⟨(d : Int), 0⟩
      let y := if finite32 t ∧ d ≠ 0 then
          (let q := dy32 t
           (f32.encode .rne true (q.m < 0) q.m.natAbs d q.e).1)
        else t
      let rho := boundDiv (sumRho n mags) dv
      let rho := if d = 2 ^ Nat.log2 d then rho else boundAdd rho (vecRho y)
      { v := f32.decode y, b := boundAdd (boundDiv (boundSum (xs.map (·.e))) dv) rho }
    | .max => { v := f32.decode ((xs.drop 1).foldl (fun a x => max32 a x.v) ((xs.head?.map (·.v)).getD 0))
                b := boundMaxL (xs.map (·.e)) }
    | .min => { v := f32.decode ((xs.drop 1).foldl (fun a x => min32 a x.v) ((xs.head?.map (·.v)).getD 0))
                b := boundMaxL (xs.map (·.e)) }
  r.from xs

/-- Partial results added in their order (R75: a split-K merge is a reduction of the partial results). -/
def mergeRes (xs : List Elem) : Res :=
  ({ v := f32.decode ((xs.drop 1).foldl (fun a x => add32 a x.v) ((xs.head?.map (·.v)).getD 0))
     b := boundAdd (boundSum (xs.map (·.e))) (sumRho xs.length (boundSum (xs.map (fun x => mag32 x.v)))) } : Res).from xs

/-- A special function of an element (R76). -/
def specialRes (f : SpecialFn) (free : Nat) (x : Elem) : Res :=
  let r := special f x.v x.e free
  ({ v := f32.decode r.1, b := r.2 } : Res).from [x]

/-! ### Softmax and normalisation (R75) -/

/-- A bound as an FP32 word, rounded up; infinity where it is not finite (R182, R199). -/
def boundCode : Bound → Nat
  | none => f32.infCode false
  | some d => let c := d.toF32 false
              if (dy32 c).lt d then c + 1 else c

/-- The bound that an FP32 word holds. -/
def codeBound (c : Nat) : Bound := if finite32 c then boundUp (dy32 c) else none

/-- A masked score: exactly −∞. -/
def Elem.masked (x : Elem) : Bool := x.v = 0xFF800000

/-- e^(2ε) − 1, rounded up. -/
def expTwice (e : Dy) : Bound :=
  if e.m = 0 then some Dy.zero else (expUp ((Dy.ofInt 2).mul e)).bind (fun y => boundUp (y.sub (Dy.ofInt 1)))

/-- What a softmax row holds: the elements that are not masked, their largest, Σ exp(x_j − max) and the largest ε. -/
structure SoftRow where
  live : List Elem
  top : Nat
  sum : Dy
  eps : Bound
  fin : Bool
  deriving DecidableEq, Repr

def softRow (xs : List Elem) : SoftRow :=
  let live := xs.filter (fun x => !x.masked)
  let top := (live.drop 1).foldl (fun a x => max32 a x.v) ((live.head?.map (·.v)).getD 0xFF800000)
  let fin := live.all (fun x => finite32 x.v)
  { live := live, top := top, fin := fin, eps := boundMaxL (live.map (·.e))
    sum := if fin then Dy.sum (live.map (fun x => expDy ((dy32 x.v).sub (dy32 top)))) else Dy.zero }

/-- (⌈n ÷ 32⌉ + k) × u. -/
def rowU (n k : Nat) : Bound := boundMul (some ⟨((n + 31) / 32 + k : Nat), 0⟩) unitU

/-- The row of a softmax (R75). Each result lies within its own-rounding term of the exact one (log entry 13); a row with
nothing in it has no stated result. `base` is its first free draw. -/
def softmaxRes (base : Nat) (xs : List Elem) : List Res :=
  let r := softRow xs
  let n := r.live.length
  (xs.zip (List.range xs.length)).map (fun e =>
    let free := Config.freeWord (base + e.2)
    let res : Res :=
      if n = 0 then { v := f32.decode (free % 2 ^ 32), b := none }
      else if r.fin = false then { v := .nan, b := none }
      else if e.1.masked then { v := .fin false 0 0, b := some Dy.zero }
      else
        let y := (expDy ((dy32 e.1.v).sub (dy32 r.top))).div r.sum
        let c := looseCode y (boundMul (rowU n 5) (boundUp y)) free
        { v := f32.decode c, b := boundAdd (r.eps.bind (fun g => boundMul (boundUp y) (expTwice g))) (boundMul (rowU n 6) (boundUp y)) }
    res.from xs)

/-- Σ x² ÷ n + η. -/
def meanSquare (eta : Nat) (ds : List Dy) : Dy :=
  ((Dy.sum (ds.map (fun d => d.mul d))).div (Dy.ofInt (ds.length : Int))).add (dy32 eta)

/-- A normalised row (R75): y_i = γ_i c_i ÷ r + β_i with c the elements less their centre, k the rounding term's constant, and
`two` 2 for a layer normalisation. Where r is zero the spec states no result. -/
def normRow (base n k two : Nat) (r : Dy) (eps : Bound) (cs : List Dy) (xs gs bs : List Elem) : List Res :=
  let ok := eps.bind (fun e => if ((Dy.ofInt 64).mul e).le r then some e else none)
  (cs.zip (List.range cs.length)).map (fun e =>
    let x := nth xs e.2 zeroElem
    let g := nth gs e.2 zeroElem
    let b := nth bs e.2 zeroElem
    let free := Config.freeWord (base + e.2)
    let res : Res :=
      if r.m ≤ 0 then { v := f32.decode (free % 2 ^ 32), b := none }
      else
        let t := e.1.div r
        let y := ((dy32 g.v).mul t).add (dy32 b.v)
        let c := looseCode y (boundMul (rowU n (k - 1)) (boundUp y.abs)) free
        let q := boundUp t.abs
        let p := boundMul (boundMul (some ⟨9, -3⟩) (mag32 g.v)) (boundMul (boundDiv (boundMul (some ⟨(two : Int), 0⟩) ok) (some r)) (boundAdd (some (Dy.ofInt 1)) q))
        let p := boundAdd (boundAdd p (boundMul q g.e)) b.e
        { v := f32.decode c, b := boundAdd p (boundMul (rowU n k) (boundUp y.abs)) }
    (res.from xs).from ([x, g, b]))

/-- RMS normalisation of a row. -/
def rmsRes (base eta : Nat) (xs gs : List Elem) : List Res :=
  let fin := (xs ++ gs).all (fun x => finite32 x.v) && finite32 eta
  let ds := xs.map (fun x => dy32 x.v)
  if fin then normRow base xs.length 4 1 (meanSquare eta ds).sqrt (boundMaxL (xs.map (·.e))) ds xs gs []
  else xs.map (fun x => ({ v := .nan, b := none } : Res).from (x :: xs))

/-- Layer normalisation of a row. -/
def layerRes (base eta : Nat) (xs gs bs : List Elem) : List Res :=
  let fin := (xs ++ gs ++ bs).all (fun x => finite32 x.v) && finite32 eta
  let ds := xs.map (fun x => dy32 x.v)
  let mu := (Dy.sum ds).div (Dy.ofInt (ds.length : Int))
  let cs := ds.map (fun d => d.sub mu)
  if fin then normRow base xs.length 5 2 (meanSquare eta cs).sqrt (boundMaxL (xs.map (·.e))) cs xs gs bs
  else xs.map (fun x => ({ v := .nan, b := none } : Res).from (x :: xs))

/-! ### Rotary embedding (R168) -/

/-- Element pair (a, b) turned by an angle on the vector unit: a cos θ − b sin θ and a sin θ + b cos θ. Which product is
rounded first is a free choice (log entry 32). -/
def rotatePair (free : Nat) (c s a b : Elem) : List Res :=
  let two (p q r t : Elem) (sgn : Bool) : Res :=
    let first := mul32 r.v t.v
    let y := fma32 p.v q.v (if sgn then negate32 first else first)
    ({ v := f32.decode y, b := boundAdd (boundAdd (prodBound p q) (prodBound r t)) (boundAdd (vecRho first) (vecRho y)) } : Res).from [p, q, r, t]
  let neg (e : Elem) : Elem := { e with v := negate32 e.v }
  [if free % 2 = 0 then two a c b s true else two (neg b) s a c false,
   if free / 2 % 2 = 0 then two a s b c false else two b c a s false]

/-- A head of queries or keys at a position (R168): pair i is elements 2i and 2i + 1 (log entry 52). -/
def rotaryRes (base dim theta p : Nat) (xs : List Elem) : List Res :=
  (List.range (dim / 2)).flatMap (fun i =>
    let free := Config.freeWord (base + i)
    let t := rotaryTrig (rotaryAngle theta p i dim) free
    rotatePair (free / 64) (elem32 t.1.1 t.1.2) (elem32 t.2.1 t.2.2) (nth xs (2 * i) zeroElem) (nth xs (2 * i + 1) zeroElem))

/-! ### An operation on an item -/

/-- Runs of `n` elements, with the index of their first. -/
def runsOf (n : Nat) (xs : List Elem) : List (List Elem × Nat) :=
  let rs := chunksOf n (xs.length / max n 1 + 1) xs
  rs.zip ((List.range rs.length).map (fun i => i * n))

/-- A declared operation has operands that its units take (R58, R59, R152): a stone mode, and K a multiple of 32 in MX modes. -/
def State.operOk (s : State) (m : Nat) (st : Option Nat) (op : Oper) : Bool :=
  match op with
  | .matmul x w _ _ k =>
    let x := s.operand m st x
    let w := s.operand m st w
    stoneMode x.fmt w.fmt && (x.fmt ≠ 6 && x.fmt ≠ 7 || k % 32 = 0)
  | .reduce _ n _ => decide (0 < n) && decide (n ≤ 67108864)
  | .special (.table segs _) _ => decide (segs.length ≤ 256)
  | _ => true

/-- The results of a declared operation on an item of mill m, by their elements; those of image, attention, scan and fused
operations are computed with their parameters. -/
def State.operate (s : State) (m : Nat) (st : Option Nat) (op : Oper) : List Res :=
  let get (x : Source) : Operand := s.operand m st x
  match op with
  | .matmul x w rows n k =>
    let x := get x
    let w := get w
    (List.range n).flatMap (fun j => (List.range rows).map (fun i =>
      dotRes x.fmt x.scale w.scale ((x.elems.drop (j * k)).take k) ((w.elems.drop (i * k)).take k)))
  | .unary f x => (get x).elems.map (unaryRes f)
  | .binary f a b c =>
    let a := get a
    let b := get b
    let c := get c
    (List.range a.elems.length).map (fun i =>
      binaryRes f (nth a.elems i zeroElem) (nth b.elems i zeroElem) (nth c.elems i zeroElem))
  | .reduce f n x => (runsOf n (get x).elems).map (fun e => reduceRes f (s.freeN + e.2) e.1.length e.1)
  | .special f x =>
    let x := get x
    (x.elems.zip (List.range x.elems.length)).map (fun e => specialRes f (Config.freeWord (s.freeN + e.2)) e.1)
  | .softmax n x => (runsOf n (get x).elems).flatMap (fun e => softmaxRes (s.freeN + e.2) e.1)
  | .rms n eta x g =>
    let g := get g
    (runsOf n (get x).elems).flatMap (fun e => rmsRes (s.freeN + e.2) eta e.1 g.elems)
  | .layer n eta x g b =>
    let g := get g
    let b := get b
    (runsOf n (get x).elems).flatMap (fun e => layerRes (s.freeN + e.2) eta e.1 g.elems b.elems)
  | .move x perm conv =>
    let x := get x
    perm.map (fun i =>
      let e := nth x.elems i zeroElem
      ({ v := e.x, b := e.e, same := !conv } : Res).from [e])
  | .merge xs =>
    let xs := xs.map get
    let n := maxL (xs.map (fun x => x.elems.length)) 0
    (List.range n).map (fun i => mergeRes (xs.filterMap (fun x => x.elems[i]?)))
  | _ => []

/-! ### The tailrace (R63–R72, R79, R161) -/

/-- A block as delivered. -/
structure OutBlock where
  codes : List Nat
  mx : Nat := 0
  tag : Nat
  status : Nat
  nan : Bool := false
  deriving DecidableEq, Repr

/-- A value as an integer element of a declared scale (R62, R66). The code of a NaN, and of any value where the declared scale
is zero or not finite, is the free value `free`. -/
def toIntV (width : Nat) (mode : RMode) (x : FVal) (scale free : Nat) : Nat × Bool :=
  let sc := dy32 scale
  let top : Int := ((2 ^ (width - 1) : Nat) : Int)
  if finite32 scale = false ∨ sc.m = 0 then (free % 2 ^ width, false)
  else
    let flip := decide (sc.m < 0)
    match x with
    | .nan => (free % 2 ^ width, false)
    | .inf n => (twos width (if n != flip then -top else top - 1), true)
    | .fin n m e =>
      let k := e - sc.e
      let q := if 0 ≤ k then roundQ mode (m * 2 ^ k.toNat) sc.m.natAbs else roundQ mode m (sc.m.natAbs * 2 ^ (-k).toNat)
      let v : Int := if n != flip then -(q : Int) else q
      let w := satS width v
      (twos width w, w ≠ v)

/-- A value as FP32, rounded once. -/
def FVal.to32 : FVal → Nat
  | .nan => 0x7FC00000
  | .inf n => f32.infCode n
  | .fin n m e => (f32.encode .rne true n m 1 e).1

/-- A value rounded to an output format that is not microscaled: the code, and whether it saturated. `free` is drawn for it. -/
def outCode (fmt scale : Nat) (toInf : Bool) (mode : RMode) (free : Nat) (x : FVal) : Nat × Bool :=
  if intWidth fmt ≠ 0 then toIntV (intWidth fmt) mode x scale free
  else match fmtOf fmt with
    | none => (0, false)
    | some f => match x with
      | .nan => (canonicalNan fmt, false)
      | .inf n => ((if toInf && f.hasInf then f.infCode n else f.maxCode n), true)
      | .fin n m e => f.encode mode toInf n m 1 e

/-- The spacing of an output format at a delivered value, as an exponent; for an integer format that of its scale is
the scale itself. -/
def ulpOf (fmt scale mx : Nat) (y : FVal) : Bound :=
  if intWidth fmt ≠ 0 then boundUp (dy32 scale).abs
  else match fmtOf fmt with
    | none => some Dy.zero
    | some f =>
      let k : Int := if fmt = 6 ∨ fmt = 7 then (mx : Int) - 127 else 0
      let d := y.get
      let e := if d.m = 0 then f.emin else max ((Nat.log2 d.m.natAbs : Int) + d.e - k) f.emin
      some ⟨1, e - f.mb + k⟩

/-- The draw of an element (R63): SR takes a fresh 16-bit value. -/
def drawMode (sr : Bool) (base i : Nat) : RMode := if sr then .sr (Config.freeWord (base + i) % 65536) else .rne

/-- One block through the tailrace: rounding, scale, tag and status (R63–R72, R79). `limit` is the certify_limit, `base` the
first draw of the block. -/
def tailBlock (fmt scale : Nat) (toInf sr : Bool) (limit base : Nat) (rs : List Res) : OutBlock :=
  let mxf := fmt = 6 || fmt = 7
  let xs := rs.map (fun r => r.v.to32)
  let mx := if fmt = 6 then mxScale 4 xs else if fmt = 7 then mxScale 2 xs else 0
  let out := (rs.zip (List.range rs.length)).map (fun e =>
    let mode := drawMode sr base e.2
    if e.1.mask then (f32.infCode true, false)
    else if mxf then ((match fmtOf fmt with
                  | some f => mxElement f mode mx (Config.freeWord (base + e.2)) e.1.v.to32
                  | none => 0), false)
    else outCode fmt scale toInf mode (Config.freeWord (base + e.2)) e.1.v)
  let codes := out.map (·.1)
  let ys := codes.map (elemExact fmt scale mx)
  let nan := rs.any (fun r => r.v = .nan)
  let k := blockExp fmt mx ys
  let b := boundMaxL ((rs.zip ys).map (fun e =>
    let u := ulpOf fmt scale mx e.2
    let rho := if e.1.same || e.1.mask then some Dy.zero else if sr then u else boundMul u (some ⟨1, -1⟩)
    let cut : Bound := if mxf then
        (match e.1.v.dy with
         | some d => boundUp (d.sub e.2.get).abs
         | none => none)
      else some Dy.zero
    boundAdd e.1.b (boundMax rho cut)))
  let own := (if rs.any (·.sat) || out.any (·.2) then [4] else []) ++ (if nan || rs.any (·.nan) then [3] else [])
  let st := worst (rs.map (·.st) ++ own)
  let tag := if st ≠ 0 then 255 else tagOf b k
  let st := if tag ≤ limit then st else worse st 3
  { codes := codes ++ List.replicate (32 - codes.length) 0, mx := mx, tag := if st ≠ 0 then 255 else tag
    status := st, nan := nan }

/-- The elements of a delivered block, as the next operation reads them. -/
def OutBlock.elems (b : OutBlock) (fmt scale : Nat) : List Elem := blockOperand fmt scale b.mx b.tag b.status b.codes

/-- Results cut into blocks of 32 through a tailrace. -/
def tailBlocks (fmt scale : Nat) (toInf sr : Bool) (limit base : Nat) (rs : List Res) : List OutBlock :=
  let gs := chunksOf 32 (rs.length / 32 + 1) rs
  (gs.zip (List.range gs.length)).map (fun e => tailBlock fmt scale toInf sr limit (base + 32 * e.2) e.1)

/-- What a group of results hands on to one result made of them all (R67, R69). -/
def Res.group (r : Res) (g : List Res) : Res :=
  { r with st := worst (r.st :: g.map (·.st)), nan := r.nan || g.any (·.nan) || g.any (fun x => x.v = .nan), sat := r.sat || g.any (·.sat) }

/-- The index of the largest of some channel values, ties to the lowest, and whether the margin of R77 is met. -/
def argmaxOf (xs : List Res) : Nat × Bool :=
  let vs := xs.map (fun r => r.v.to32)
  let best := (List.range vs.length).foldl (fun b i => if lt32 (nth vs b 0) (nth vs i 0) then i else b) 0
  let eps := boundMaxL (xs.map (·.b))
  let sure := match eps with
    | none => false
    | some e => (List.range vs.length).all (fun i =>
        i = best || (((dy32 (nth vs i 0)).add ((Dy.ofInt 2).mul e)).lt (dy32 (nth vs best 0))))
  (best, sure && vs.all finite32)

/-- The index plane of an argmax over `c` channels (R77, R161): each index with the bound that says whether its block is
certified. -/
def argmaxRes (c : Nat) (rs : List Res) : List Res :=
  (chunksOf c (rs.length / max c 1 + 1) rs).map (fun g =>
    let a := argmaxOf g
    ({ v := .fin false a.1 0, b := if a.2 then some Dy.zero else none, same := true } : Res).group g)

/-- The value plane of an argmax (R161): each pixel's maximum, of the max class. -/
def maxRes (c : Nat) (rs : List Res) : List Res :=
  (chunksOf c (rs.length / max c 1 + 1) rs).map (fun g =>
    ({ v := (nth g (argmaxOf g).1 { v := .nan, b := none }).v, b := boundMaxL (g.map (·.b)) } : Res).group g)

/-- The format of an argmax's index plane holds every index (R161): INT8 with declared scale 1.0 up to 128 channels, FP16 up to
2,048, FP32 up to 16,384. -/
def argmaxFits (fmt scale c : Nat) : Bool :=
  (fmt = 8 && scale = one32 && decide (c ≤ 128)) || (fmt = 3 && decide (c ≤ 2048)) || (fmt = 1 && decide (c ≤ 16384))

/-- Blocks a parcel holds of a format (R510). -/
def blocksPer (fmt : Nat) : Nat := match fmtWidth fmt with
  | 32 => 8
  | 16 => 16
  | _ => 32

/-- The payload of blocks: elements first, then one E8M0 byte per block of an MX format (R510). -/
def payloadOf (fmt : Nat) (bs : List OutBlock) : Bytes :=
  packCodes (fmtWidth fmt) (bs.flatMap (·.codes)) ++
  (if fmt = 6 ∨ fmt = 7 then bs.map (fun b => BitVec.ofNat 8 b.mx) else [])

/-- Blocks packed into parcels (R93), the first with the offset `off` in blocks; the last parcel of the last step ends the item. -/
def packParcels (fmt : Nat) (base : Parcel) (off : Nat) (last : Bool) (bs : List OutBlock) : List Parcel :=
  let gs := chunksOf (blocksPer fmt) (bs.length / blocksPer fmt + 1) bs
  (gs.zip (List.range gs.length)).map (fun e =>
    { base with blocks := e.1.length, format := fmt, tags := e.1.map (·.tag), status := e.1.map (·.status)
                off := off + blocksPer fmt * e.2
                payload := padTo 1024 (payloadOf fmt e.1), last := last && e.2 + 1 = gs.length })

/-- The arithmetic counters of a mill after a block (ML_SAT_COUNT, ML_NOTCERT_COUNT, ML_NAN_COUNT, ML_TAG_PEAK). -/
def State.countBlock (s : State) (m i : Nat) (b : OutBlock) : State :=
  let s := if b.status = 4 then s.bump (Reg.mlSatCount m) 1 else s
  let s := if b.status = 3 then s.bump (Reg.mlNotcertCount m) 1 else s
  let s := if b.nan then s.bump (Reg.mlNanCount m) 1 else s
  if b.tag < 255 then
    let w := s.reg (Reg.mlTagPeak m)
    if fld w 31 31 = 1 ∧ b.tag ≤ fld w 7 0 then s
    else s.setReg (Reg.mlTagPeak m) (word (2 ^ 31 + put 8 8 i + b.tag))
  else s

/-- Blocks written with their tag plane (R74); poison is cleared on the lines written whole (R220). -/
def State.storeBlocks (s : State) (fmt : Nat) (at' : Nat × Nat × Nat) (bs : List OutBlock) : State :=
  let s := s.putMem at'.1 (packCodes (fmtWidth fmt) (bs.flatMap (·.codes)))
  let s := if fmt = 6 ∨ fmt = 7 then s.putMem at'.2.1 (bs.map (fun b => BitVec.ofNat 8 b.mx)) else s
  s.putMem at'.2.2 (bs.map (fun b => BitVec.ofNat 8 b.tag))

end Sys2Proof.Machine
end

