-- ==== Sys2Proof/Machine/Fabric.lean ====
section
/-!
DEFINITION. The leat, the weirs and the hoppers: how a parcel and its credit move (R84–R105, R458), and the miller
cores' heartbeat (R90).
-/
namespace Sys2Proof.Machine

/-! ### Destinations and credits (R93, R94, R510) -/

/-- The pool whose credit a parcel to a destination takes: a hopper pool or a governor-interface pool. -/
def destPool (d : Nat) : Option Nat :=
  let e := d % 32
  let q := d / 32 % 8
  if e < 16 then some (8 * e + q) else if 30 ≤ e then some (448 + 8 * (e - 30) + q) else none

def State.setCredits (s : State) (p w n : Nat) : State :=
  { s with leat := { s.leat with credits := Tbl.set s.leat.credits (creditKey p w) n } }

/-- The class of the queue that a destination names: a hopper queue is bound to one class, governor-interface queues are class M
(R26, R86). -/
def State.destClass (s : State) (d : Nat) : Option Nat :=
  let e := d % 32
  if e < 16 then some (hopperCfg (s.millBody e) (d / 32 % 8)).cls else if 30 ≤ e then some 0 else none

/-- A parcel of class c may take a credit of a destination: no class takes another's (R32). -/
def State.classFits (s : State) (c d : Nat) : Bool :=
  match s.destClass d with
  | some k => k = c
  | none => true

/-- A producer holds a credit for a destination, or the destination takes none. -/
def State.hasCredit (s : State) (w d : Nat) : Bool :=
  match destPool d with
  | some p => decide (1 ≤ s.credits p w)
  | none => true

/-- A producer admits a parcel on its credit (R94 step 2). -/
def State.takeCredit (s : State) (w d : Nat) : State :=
  match destPool d with
  | some p => (s.setCredits p w (s.credits p w - 1)).move p .held .inFlight 1
  | none => s

/-- Every copy of a fan-out takes its credit, or none does (R89). -/
def State.takeCredits (s : State) (w : Nat) : List Nat → Option State
  | [] => some s
  | d :: ds => if s.hasCredit w d then (s.takeCredit w d).takeCredits w ds else none

/-- The sluice of the mill a destination names is closed (R132). -/
def State.destClosed (s : State) (d : Nat) : Bool :=
  let e := d % 32
  if e < 16 then (s.mill e).state = .closed
  else if 30 ≤ e then (Tbl.getD s.gov.queues (8 * (e - 30) + d / 32 % 8) {}).closed
  else false

/-- A mill's stages and tailrace work: in RUN, and in CLOSED while it drains (R132, R139). -/
def State.millWorks (s : State) (m : Nat) : Bool :=
  (s.mill m).state = .run || ((s.mill m).state = .closed && !s.pw.fabricPaused)

/-- Stage i of mill m may take a step: its mill works and its pipeline is not stopped; an item that it has begun it finishes in
either case, in PAUSED and at the stop of its pipeline (R41, R109, R144). -/
def State.stageWorks (s : State) (m i : Nat) : Bool :=
  let x := s.mill m
  if has x.items i then s.millWorks m || x.state = .paused || x.state = .closed
  else s.millWorks m && !(has x.stopped i)

/-! ### Credits of a closed sluice (R132) -/

/-- The sluice of a pool's consumer is closed. -/
def State.poolShut (s : State) (p : Nat) : Bool :=
  if p < 128 then (s.mill (p / 8)).state = .closed else decide (448 ≤ p) && (Tbl.getD s.gov.queues (p - 448) {}).closed

/-- The producer at weir w is in the midst of an item that it emits to pool p. -/
def State.emitting (s : State) (w p : Nat) : Bool :=
  if w < 16 then (s.millRoutes w).any (fun r => has (s.mill w).emitting r.stage && destPool r.dest = some p)
  else match (Tbl.getD s.leat.waiting w []).find? (fun c => destPool c.dest = some p) with
    | some c => decide (c.off ≠ 0)
    | none => false

/-- Held credits of a key are sent back and parked. -/
def State.recallKey (s : State) (p w : Nat) : State :=
  let key := creditKey p w
  let h := s.credits p w
  if h = 0 then s
  else
    ({ s with leat := { s.leat with
        credits := Tbl.erase s.leat.credits key
        parked := Tbl.set s.leat.parked key (Tbl.getD s.leat.parked key 0 + h) } }).move p .held .parked h

/-- Producers that emit no item to a pool whose sluice is closed send their credits back; the mill itself keeps those of its
loopback queues while it drains. -/
def State.recallPool (s : State) (p : Nat) : State :=
  if s.poolShut p then
    (List.range 42).foldl (fun s w =>
      if holderOf w ≠ w ∨ (p < 128 ∧ w = p / 8) ∨ (List.range 42).any (fun v => holderOf v = w && s.emitting v p) = true then s
      else s.recallKey p w) s
  else s

/-- No parcel is left to process or emit in a mill. -/
def Mill.spent (x : Mill) : Bool :=
  x.items = [] && x.tail = [] && x.loop = [] && (List.range 8).all (fun q => Tbl.getD x.hopper q [] = [])

/-! ### The sack hoist at weir 16 (R229) -/

def State.chan (s : State) (n : Nat) : Chan := Tbl.getD s.tiers.chans n {}
def State.setChan (s : State) (n : Nat) (x : Chan) : State :=
  { s with tiers := { s.tiers with chans := Tbl.set s.tiers.chans n x } }

/-- Up to n parcels of a channel's page pass weir 16; while its row is exhausted the channel waits. No new page passes while the
edge ingress is paused (R137). -/
def State.hoistPass (s : State) (ch n : Nat) : State :=
  let x := s.chan ch
  let left := x.unit / 1024 - x.passed
  if x.busy = false ∨ x.held ∨ x.firmware ∨ x.total ≤ x.next ∨ left = 0 then s
  else
    let k := if x.passed = 0 ∧ has s.leat.closing 16 then (0, s) else s.passWeir 16 x.cls x.ctx (min n left)
    k.2.setChan ch { x with passed := x.passed + k.1, waiting := decide (k.1 < left)
                            start := if x.passed = 0 then s.now else x.start }

/-! ### The mesh (R96–R99) -/

/-- The router of an entry point and the input it feeds: 0 local, 1 north, 2 south, 3 east, 4 west (R96, R100). -/
def entryOf (w : Nat) : Nat × Nat :=
  if w < 16 then (w, 0)
  else if w = 16 then (0, 1)
  else if w = 17 then (1, 1)
  else if w = 18 then (2, 1)
  else if w < 31 then (12, 2)
  else if w < 35 then (13, 2)
  else if w < 39 then (14, 2)
  else if w < 41 then (3, 1)
  else (15, 2)

/-- The router of a destination endpoint and the output that leads to it (R96, R510). -/
def attachOf (e : Nat) : Nat × Nat :=
  if e < 16 then (e, 0)
  else if e < 20 then (4 * (e - 16), 4)
  else if e < 24 then (4 * (e - 20) + 3, 3)
  else if e < 28 then (e - 24, 1)
  else if e = 28 then (13, 2)
  else if e = 29 then (14, 2)
  else (15, 2)

/-- The output of router k for a destination byte: column first, then row (R97). -/
def nextOut (k d : Nat) : Nat :=
  let t := attachOf (d % 32)
  if k % 4 < t.1 % 4 then 3 else if t.1 % 4 < k % 4 then 4
  else if k / 4 < t.1 / 4 then 2 else if t.1 / 4 < k / 4 then 1
  else t.2

/-- The neighbour of router k through an output, and the input it feeds there; none at an edge or for the local
output. -/
def neighbour (k out : Nat) : Option (Nat × Nat) :=
  match out with
  | 1 => if 4 ≤ k then some (k - 4, 2) else none
  | 2 => if k < 12 then some (k + 4, 1) else none
  | 3 => if k % 4 < 3 then some (k + 1, 4) else none
  | 4 => if 1 ≤ k % 4 then some (k - 1, 3) else none
  | _ => none

/-- Depth of a router input buffer by class (R98). -/
def bufDepth (c : Nat) : Nat := if c = 0 then 4 else if c = 3 then 2 else 8

def bufKey (k input c : Nat) : Nat := 64 * k + 4 * input + c
def State.buf (s : State) (k input c : Nat) : List Parcel := Tbl.getD s.leat.bufs (bufKey k input c) []
def State.setBuf (s : State) (k input c : Nat) (l : List Parcel) : State :=
  { s with leat := { s.leat with bufs := Tbl.set s.leat.bufs (bufKey k input c) l } }

/-- Room in a router input buffer. -/
def State.bufRoom (s : State) (k input c : Nat) : Bool := (s.buf k input c).length < bufDepth c

/-- A parcel enters the leat at its weir's router. -/
def State.enterLeat (s : State) (w : Nat) (p : Parcel) : State :=
  let e := entryOf w
  s.setBuf e.1 e.2 p.cls (s.buf e.1 e.2 p.cls ++ [p])

/-- The room at a weir's router for a class. -/
def State.entryRoom (s : State) (w c : Nat) : Bool := s.bufRoom (entryOf w).1 (entryOf w).2 c

/-- A parcel that came over a link stands at its destination. -/
def State.arrive (s : State) (p : Parcel) : State :=
  { s with leat := { s.leat with arrived := Tbl.set s.leat.arrived p.dest (Tbl.getD s.leat.arrived p.dest [] ++ [p]) } }

/-- Whether the parcel at the head of an input of router k goes out at `out` and can advance (R98). -/
def State.canHop (s : State) (k out input c : Nat) : Bool :=
  match s.buf k input c with
  | [] => false
  | p :: _ =>
    nextOut k p.dest = out &&
    (if (attachOf (p.dest % 32)).1 = k then true
     else match neighbour k out with
       | some n => s.bufRoom n.1 n.2 c
       | none => false)

/-- Cycles in which both L and S waited since S took one, at an output (R99). -/
def State.sCount (s : State) (k out : Nat) : Nat := Tbl.getD s.leat.sCount (8 * k + out) (Config.routerStart (8 * k + out) % 8)

/-- The class that an output of router k serves: M, then V, then S once in eight cycles that both wait, else L (R99). -/
def State.hopClass (s : State) (k out : Nat) : Option Nat :=
  let any (c : Nat) : Bool := [0, 1, 2, 3, 4].any (fun i => s.canHop k out i c)
  if any 0 then some 0
  else if any 1 then some 1
  else if any 2 && any 3 then
    (if 7 ≤ s.sCount k out then some 3 else some 2)
  else if any 2 then some 2
  else if any 3 then some 3
  else none

/-- The count after class c has taken a cycle of an output; `both`: L and S waited. -/
def State.countHop (s : State) (k out c : Nat) (both : Bool) : State :=
  let n := if c = 3 then 0 else if c = 2 && both then min 7 (s.sCount k out + 1) else s.sCount k out
  { s with leat := { s.leat with sCount := Tbl.set s.leat.sCount (8 * k + out) n } }

/-- ROUTER_HOP (R97–R99): one parcel over one output; `input` picks among inputs of equal standing. -/
def execRouterHop (k out input wait : Nat) (s : State) : Out :=
  let s := s.bump (Reg.ltRouterStall (k % 16)) wait
  match s.hopClass k out with
  | none => .next s
  | some c =>
    let i := if s.canHop k out input c then input
      else (([0, 1, 2, 3, 4].find? (fun i => s.canHop k out i c)).getD 0)
    match s.buf k i c with
    | [] => .next s
    | p :: rest =>
      let both := [0, 1, 2, 3, 4].any (fun j => s.canHop k out j 2) && [0, 1, 2, 3, 4].any (fun j => s.canHop k out j 3)
      let t := (s.setBuf k i c rest).countHop k out c both
      if (attachOf (p.dest % 32)).1 = k then .next (t.arrive p)
      else match neighbour k out with
        | some n => .next (t.setBuf n.1 n.2 c (t.buf n.1 n.2 c ++ [p]))
        | none => .next s

/-! ### Tailrace and weirs (R89, R102) -/

/-- The tailrace's first parcel of stage i that waits for its credits. -/
def Mill.toCredit (x : Mill) (i : Nat) : Option TailSlot := x.tail.find? (fun t => t.stage = i && !t.credited)

/-- A list with the first element that satisfies `f` replaced. -/
def replaceFirst {α : Type} (f : α → Bool) (y : α) : List α → List α
  | [] => []
  | x :: t => if f x then y :: t else x :: replaceFirst f y t

/-- A list without the first element that satisfies `f`. -/
def dropFirst {α : Type} (f : α → Bool) : List α → List α
  | [] => []
  | x :: t => if f x then t else x :: dropFirst f t

/-- Copies of a parcel to its own mill go to loopback, past the weir (R92). -/
def State.loopCopies (s : State) (m : Nat) (t : TailSlot) : State :=
  let own := t.dests.filter (fun d => d.1 % 32 = m)
  let x := s.mill m
  let rest : TailSlot := { t with credited := true, dests := t.dests.filter (fun d => d.1 % 32 ≠ m) }
  let isT (y : TailSlot) : Bool := y.stage = t.stage && !y.credited
  s.setMill m { x with
    tail := if rest.dests = [] then dropFirst isT x.tail else replaceFirst isT rest x.tail
    loop := x.loop ++ own.map (fun d => { t.parcel with dest := d.1, cls := d.2.1 }) }

/-- TAILRACE_EMIT (R89): only when every destination holds a credit; a new item starts only toward open sluices
(R132). -/
def execTailraceEmit (m i wait : Nat) (s : State) : Out :=
  let s := s.bump (Reg.mlTailStall (m % 16)) wait
  if s.millWorks m = false then .next s
  else match (s.mill m).toCredit i with
    | none => .next s
    | some t =>
      if t.first ∧ t.dests.any (fun d => s.destClosed d.1 && d.1 % 32 ≠ m) then .next s
      else if t.dests.any (fun d => !s.classFits d.2.1 d.1) then .next s
      else match s.takeCredits m (t.dests.map (·.1)) with
        | some u =>
          let v := u.loopCopies m t
          let y := v.mill m
          let v := v.setMill m { y with emitting := if t.parcel.last then remN y.emitting i else addN y.emitting i }
          .next (if t.parcel.last then (t.dests.filterMap (fun d => destPool d.1)).foldl (fun s p => s.recallPool p) v else v)
        | none => .next s

/-- A copy of a mill's tailrace that waits for weir m, to a destination. -/
def Mill.toAdmit (x : Mill) (dest : Nat) : Option TailSlot :=
  x.tail.find? (fun t => t.credited && t.dests.any (fun d => d.1 = dest))

/-- WEIR_ADMIT of a tailrace: one copy of a parcel whose credits are taken. -/
def State.admitMill (s : State) (m dest : Nat) : State :=
  match (s.mill m).toAdmit dest with
  | none => s
  | some t =>
    let d := (t.dests.find? (fun d => d.1 = dest)).getD (dest, 0, 0)
    let p : Parcel := { t.parcel with dest := dest, cls := d.2.1, weir := m }
    if rowFits (s.rowWord m d.2.2) p ∧ s.hasToken m d.2.2 ∧ s.entryRoom m p.cls then
      let s := (s.takeToken m d.2.2).enterLeat m p
      let x := s.mill m
      let rest : TailSlot := { t with dests := dropFirst (fun e => e.1 = dest) t.dests }
      let isT (y : TailSlot) : Bool := y = t
      s.setMill m { x with tail := if rest.dests = [] then dropFirst isT x.tail else replaceFirst isT rest x.tail }
    else s

def State.waiting (s : State) (w : Nat) : List Parcel := Tbl.getD s.leat.waiting w []
def State.setWaiting (s : State) (w : Nat) (l : List Parcel) : State :=
  { s with leat := { s.leat with waiting := Tbl.set s.leat.waiting w l } }

/-- The row that charges a parcel at an edge weir: the one that its stream binding or entry point names (R417, R423), else the one of
its class and owner. -/
def State.edgeRow (s : State) (w : Nat) (p : Parcel) : Option Nat :=
  let named : Option Nat :=
    if 19 ≤ w ∧ w < 31 then (s.binding (p.origin - 1)).map (·.row)
    else if w = 39 then
      ((List.range (leatEntries (s.body 2 0))).map (leatEntry (s.body 2 0))).findSome? (fun e =>
        if e.dest = p.dest ∧ e.cls = p.cls ∧ e.ctx = p.ctx then some e.row else none)
    else s.rowFor w p
  named.bind (fun r => if rowFits (s.rowWord w r) p then some r else none)

/-- WEIR_ADMIT of an edge weir: the first parcel that waits for a destination, on a credit and a token (R94, R102); the first of an
item only toward an open sluice, and while its ingress admits items or its stream's binding is about to change (R132, R137). -/
def State.admitEdge (s : State) (w dest : Nat) : State :=
  match (s.waiting w).find? (fun p => p.dest = dest) with
  | none => s
  | some p =>
    match s.edgeRow w p with
    | none => s
    | some r =>
      if has s.leat.shut w = false ∧
          (p.off = 0 → (has s.leat.closing w = false ∨ has s.leat.leaving p.origin = true) ∧ s.destClosed dest = false) ∧
          s.pw.fabricPaused = false ∧ s.hasToken w r ∧ s.hasCredit w dest ∧ s.classFits p.cls dest ∧ s.entryRoom w p.cls
      then
        let s := s.setWaiting w (dropFirst (fun q => q.dest = dest) (s.waiting w))
        let s := ((s.takeCredit w dest).takeToken w r).enterLeat w { p with weir := w }
        match p.last, destPool dest with
        | true, some k => s.recallPool k
        | _, _ => s
      else s

/-- WEIR_ADMIT (R102): of a tailrace, a channel of the sack hoist, the frames at a Phirov port, or another edge entry. -/
def execWeirAdmit (w dest wait : Nat) (s : State) : Out :=
  if 42 ≤ w then .next s
  else
    let s := s.bump (Reg.wrWait w) wait
    if w < 16 then
      let s := s.bump (Reg.mlTailStall w) wait
      if s.millWorks w ∧ has s.leat.shut w = false then .next (s.admitMill w dest) else .next s
    else if w = 16 then .next (s.hoistPass dest 1)
    else if 31 ≤ w ∧ w < 39 then .next (s.pxDrain (w - 31))
    else .next (s.admitEdge w dest)

/-! ### Hoppers (R86, R87, R94) -/

/-- LT_M_LAT_PEAK after a class-M traversal. -/
def State.latPeak (s : State) (cls w cycles : Nat) : State :=
  if cls = 0 then
    let r := s.reg Reg.ltMLatPeak
    let c := min cycles 0xFFF
    if fld r 31 31 = 1 ∧ c ≤ fld r 11 0 then s else s.setReg Reg.ltMLatPeak (word (2 ^ 31 + put 12 6 w + c))
  else s

/-- A parcel that has reached mill m's hopper: written into a slot (R94 step 3), or, at a mill that has failed or holds
nothing, reconciled into reclaimed (R141 step 1). -/
def State.hopperWrite (s : State) (p : Parcel) (w : Nat) : State :=
  let m := p.dest % 32
  let q := p.dest / 32 % 8
  let x := s.mill m
  if x.state = .fault ∨ x.state = .empty ∨ x.state = .evacuated then s.reclaim (8 * m + q) .inFlight 1 1 (16 + m) 0
  else
    let s := s.setMill m { x with hopper := Tbl.set x.hopper q (Tbl.getD x.hopper q [] ++ [{ p with weir := w }]) }
    s.move (8 * m + q) .inFlight .held 1

/-- A result parcel of an ITEM entry at the host pond (R398): bytes beyond the result area are not written. -/
def State.itemResult (s : State) (p : Parcel) : State :=
  match s.hp.requests.find? (fun r => r.ctx = p.ctx && r.idx = p.seq && r.target = 5 && r.begun) with
  | none => s
  | some r =>
    let room := leAt r.body 24 4 - r.got
    let len := (fmtWidth p.format * 32 * p.blocks + 7) / 8 + (if p.format = 6 ∨ p.format = 7 then p.blocks else 0)
    let bs := p.payload.take len
    let s := s.pondWrite (leAt r.body 16 8 + r.got) (bs.take room)
    let r' : Request := { r with got := r.got + bs.length, tagMax := maxL p.tags r.tagMax, worst := worse r.worst (worst p.status) }
    if p.last then
      let out := leAt r.body 24 4
      let st := if out < r'.got then 0x0B else r'.worst
      s.finish r st (min r'.got out + put 32 8 r'.tagMax) 0
    else { s with hp := { s.hp with requests := s.hp.requests.map (fun q => if q.ctx = r.ctx && q.idx = r.idx then r' else q) } }

/-- HOPPER_WRITE (R92, R94): from the leat, or from loopback of mill m. Parcels to the governor interface are taken by
GOVIF_RECORD_ARRIVE. -/
def execHopperWrite (dest : Nat) (loop : Bool) (m cycles : Nat) (s : State) : Out :=
  if loop then
    match (s.mill m).loop.find? (fun p => p.dest = dest) with
    | none => .next s
    | some p =>
      if dest % 32 = m then
        let s := s.setMill m { s.mill m with loop := dropFirst (fun q => q.dest = dest) (s.mill m).loop }
        .next (s.hopperWrite p m)
      else .next s
  else
    match Tbl.getD s.leat.arrived dest [] with
    | [] => .next s
    | p :: rest =>
      let t := { s with leat := { s.leat with arrived := Tbl.set s.leat.arrived dest rest } }
      if dest % 32 < 16 then .next ((t.latPeak p.cls p.weir cycles).hopperWrite p p.weir)
      else if dest = 27 then .next (t.itemResult p)
      else .next s

/-- The credit of a freed slot: back to its producer on the sideband, or parked while the sluice is closed (R94, R132). -/
def State.slotBack (s : State) (m q : Nat) (p : Parcel) : State :=
  let pool := 8 * m + q
  let s := s.move pool .held .returned 1
  let key := creditKey pool p.weir
  if (s.mill m).state = .closed then
    { s with leat := { s.leat with parked := Tbl.set s.leat.parked key (Tbl.getD s.leat.parked key 0 + 1) } }.move pool .returned .parked 1
  else
    { s with leat := { s.leat with returning := Tbl.set s.leat.returning key (Tbl.getD s.leat.returning key 0 + 1) } }.move
      pool .returned .inFlight 1

/-- SLOT_FREE (R94 steps 4 and 5, R132). -/
def execSlotFree (m q : Nat) (s : State) : Out :=
  let x := s.mill m
  match Tbl.getD x.reading q [] with
  | [] => .next s
  | p :: rest => .next ((s.setMill m { x with reading := Tbl.set x.reading q rest }).slotBack m q p)

/-- The parcels of a queue that satisfy `f`, waiting or read, leave their slots. -/
def State.dropParcels (s : State) (m q : Nat) (f : Parcel → Bool) : State :=
  let x := s.mill m
  let ps := (Tbl.getD x.hopper q [] ++ Tbl.getD x.reading q []).filter f
  let s := s.setMill m { x with hopper := Tbl.set x.hopper q ((Tbl.getD x.hopper q []).filter (fun p => !f p))
                                reading := Tbl.set x.reading q ((Tbl.getD x.reading q []).filter (fun p => !f p)) }
  ps.foldl (fun s p => s.slotBack m q p) s

/-- CREDIT_ARRIVE (R94 step 6): parked where the sluice of its queue is closed and its producer is not in the midst of an item, and
at a closed mill that has nothing left to emit (R132; log entry 20). -/
def execCreditArrive (p w : Nat) (s : State) : Out :=
  let key := creditKey p w
  let n := Tbl.getD s.leat.returning key 0
  if n = 0 then .next s
  else
    let s := { s with leat := { s.leat with returning := Tbl.set s.leat.returning key (n - 1) } }
    let own : Bool := decide (p < 128) && decide (w = p / 8)
    if (w < 16 ∧ (s.mill w).state = .closed ∧ (s.mill w).spent = true) ∨
        (own = false ∧ s.poolShut p = true ∧ (List.range 42).any (fun v => holderOf v = holderOf w && s.emitting v p) = false) then
      .next ({ s with leat := { s.leat with parked := Tbl.set s.leat.parked key (Tbl.getD s.leat.parked key 0 + 1) } }.move
        p .inFlight .parked 1)
    else .next ((s.setCredits p w (s.credits p w + 1)).move p .inFlight .held 1)

/-- PARCEL_HEADER_ERROR (R457, R458). -/
def execParcelHeaderError (s : State) : Out :=
  if s.pw.fabricOn then .next ((s.bump Reg.evUeCount 1).resetFabric) else .next s

/-! ### Miller cores and the random source (R65, R90) -/

/-- CORE_HEARTBEAT (R90). -/
def execCoreHeartbeat (m : Nat) (s : State) : Out :=
  let x := s.mill m
  if x.coreRunning then .next (s.setMill m { x with heartbeat := (x.heartbeat + 1) % 2 ^ 32 }) else .next s

/-- WATCHDOG_EXPIRY (R90). -/
def execWatchdogExpiry (m : Nat) (s : State) : Out :=
  if m < 16 ∧ s.pw.fabricOn then .next ((s.millFault m 2 0).targetFault m) else .next s

/-- MILL_UNCORRECTABLE (R457). -/
def execMillUncorrectable (m : Nat) (s : State) : Out :=
  if m < 16 ∧ s.pw.fabricOn then .next (((s.bump Reg.evUeCount 1).millFault m 4 0).targetFault m) else .next s

/-- A reseed of a mill's generator with its health test (R65): each transition is recorded. -/
def State.reseed (s : State) (m : Nat) (pass : Bool) : State :=
  let x := s.mill m
  let n := (s.regN (Reg.mlSrReseedCount m) + 1) % 2 ^ 32
  let s := s.setReg (Reg.mlSrReseedCount m) (word n)
  let s := if pass then s else s.bump (Reg.mlSrHealthFail m) 1
  let s := s.setMill m { x with srDraws := 0, srDegraded := !pass }
  if x.srDegraded = pass then s.record 3 (if pass then 2 else 1) 0 0xFF m (le 4 n) else s

/-- SR_RESEED (R65): after 2^24 draws. -/
def execSrReseed (m : Nat) (pass : Bool) (s : State) : Out :=
  if m < 16 ∧ 2 ^ 24 ≤ (s.mill m).srDraws then .next (s.reseed m pass) else .next s

end Sys2Proof.Machine
end

