-- ==== Sys2Proof/Machine/Tiers.lean ====
section
/-!
DEFINITION. The sack hoist, page allocation, stage tier requests and HBM repair (R216–R241).
-/
namespace Sys2Proof.Machine

/-! ### Global addresses (R47–R50) -/

/-- Bytes of a hoist page by its unit (R230). -/
def unitBytes (u : Nat) : Nat := if u = 1 then 0x200000 else 65536

/-- The local part of a global address, and its module. -/
def localOf (a : Nat) : Nat := a % 2 ^ 48
def moduleOf (a : Nat) : Nat := a / 2 ^ 48 % 1024

/-- The tier that [a, a + n) lies in, seen from this module: none where it is unmapped, unpopulated, reserved, or a remote
host pond or store (R49, R50, R219). -/
def State.tierAt (s : State) (a n : Nat) : Option Tier :=
  let l := localOf a
  let mine := moduleOf a = s.moduleId
  if tierRange l n .pond then some .pond
  else if tierRange l n .hbm && (hbmPage l).isSome && (hbmPage (l + n - 1)).isSome then some .hbm
  else if mine && tierRange l n .host then some .host
  else if mine && tierRange l n .store then some .store
  else none

/-! ### Bodies of tier commands (R230) -/

/-- A tier command. -/
structure TierCmd where
  op : Nat
  fence : Bool
  cls : Nat
  unit : Nat
  pages : Nat
  src : Nat
  dst : Nat
  deriving DecidableEq, Repr

def tierCmd (b : Bytes) : TierCmd :=
  { op := leAt b 0 1, fence := bitN (leAt b 1 1) 0, cls := leAt b 2 1, unit := leAt b 3 1, pages := leAt b 4 4
    src := leAt b 8 8, dst := leAt b 16 8 }

def chooseAny : Nat := 0xFFFFFFFFFFFFFFFF

/-- The paths a descriptor may name (R217): the tiers of its two ends and whether they lie on this module. -/
def pathOk (a b : Tier) (mineA mineB : Bool) : Bool :=
  match a, b with
  | .store, .hbm => mineA && mineB
  | .hbm, .store => mineA && mineB
  | .store, _ => false
  | _, .store => false
  | .host, .host => false
  | .host, _ => mineB
  | _, .host => mineA
  | _, _ => mineA || mineB

/-- A HOIST breaks its layout or ranges (R217, R230). -/
def State.hoistBad (s : State) (b : Bytes) : Bool :=
  let c := tierCmd b
  let n := unitBytes c.unit
  let ta := s.tierAt c.src n
  let tb := s.tierAt c.dst n
  let mineA := moduleOf c.src = s.moduleId
  let mineB := moduleOf c.dst = s.moduleId
  !(c.cls = 1 || c.cls = 2 || c.cls = 3) || 1 < c.unit || c.pages = 0 || 65535 < c.pages || 1 < leAt b 1 1 ||
  leAt b 24 8 ≠ 0 || c.src % n ≠ 0 || c.dst % n ≠ 0 || 2 ^ 58 ≤ c.src || 2 ^ 58 ≤ c.dst ||
  (match ta, tb with
   | some x, some y => !(pathOk x y mineA mineB) || ((x = .store || y = .store) != (c.unit = 1))
   | some x, none => x = .store && c.unit ≠ 1
   | none, some y => y = .store && c.unit ≠ 1
   | none, none => false)

/-- An ALLOC or FREE breaks its layout or ranges (R230). -/
def allocBad (b : Bytes) : Bool :=
  let c := tierCmd b
  let lim := 0x880000000000
  !(c.cls = 1 || c.cls = 2) || c.unit ≠ 0 || c.pages = 0 || 65535 < c.pages || c.dst ≠ 0 || leAt b 24 8 ≠ 0 ||
  (if c.op = 2 then
     leAt b 1 1 ≠ 0 ||
     (if c.cls = 1 then c.src ≠ chooseAny
      else c.src ≠ chooseAny && (c.src < 0x800000000000 || c.src % 0x200000 ≠ 0 || lim < c.src + c.pages * 0x200000))
   else 1 < leAt b 1 1 || c.src % (if c.cls = 1 then 65536 else 0x200000) ≠ 0)

/-! ### Order among the commands of a context (R233) -/

/-- Ranges [lo, hi) that a command reads, and that it writes. -/
def TierCmd.reads (c : TierCmd) : List (Nat × Nat) := if c.op = 1 then [(c.src, c.src + c.pages * unitBytes c.unit)] else []
def TierCmd.writes (c : TierCmd) : List (Nat × Nat) :=
  if c.op = 1 then [(c.dst, c.dst + c.pages * unitBytes c.unit)]
  else if c.op = 2 ∧ c.src = chooseAny then []
  else [(c.src, c.src + c.pages * (if c.cls = 1 then 65536 else 0x200000))]

def overlap (a b : List (Nat × Nat)) : Bool := a.any (fun x => b.any (fun y => decide (x.1 < y.2) && decide (y.1 < x.2)))

/-- An earlier command must have completed before a new one starts. -/
def TierCmd.before (old new : TierCmd) : Bool :=
  overlap old.writes (new.reads ++ new.writes) || overlap old.reads new.writes

/-- The accepted tier requests of a context that precede one in its ring. -/
def State.earlier (s : State) (r : Request) : List Request :=
  (s.hp.requests.takeWhile (fun q => !(q.ctx = r.ctx && q.idx = r.idx))).filter (fun q => q.ctx = r.ctx && q.target = 1)

/-- A tier command may start. -/
def State.mayStart (s : State) (r : Request) : Bool :=
  let c := tierCmd r.body
  let old := s.earlier r
  if c.fence then old = [] else old.all (fun q => !((tierCmd q.body).before c))

/-- The accepted request with a target and, for TIER, an op. -/
def State.tierAsk (s : State) (ctx idx op : Nat) : Option Request :=
  (s.request ctx idx).bind (fun r => if r.target = 1 && leAt r.body 0 1 = op then some r else none)

/-! ### Free runs (R232) -/

/-- Intervals (first, pages) inserted in rising order. -/
def insertRun (x : Nat × Nat) : List (Nat × Nat) → List (Nat × Nat)
  | [] => [x]
  | y :: t => if x.1 ≤ y.1 then x :: y :: t else y :: insertRun x t

/-- The gaps between rising intervals, from `lo` to `hi`, as (first, pages). -/
def gaps (lo hi : Nat) : List (Nat × Nat) → List (Nat × Nat)
  | [] => if lo < hi then [(lo, hi - lo)] else []
  | x :: t => if lo < x.1 then (lo, x.1 - lo) :: gaps (max lo (x.1 + x.2)) hi t else gaps (max lo (x.1 + x.2)) hi t

/-- Allocatable HBM pages in no region, not held and not retired. -/
def State.hbmGaps (s : State) : List (Nat × Nat) :=
  let taken := s.tiers.runs.map (fun r => (r.first, r.pages)) ++ s.tiers.retired.map (fun p => (p, 1))
  gaps 0 hbmPages (taken.foldr insertRun [])

def storePages : Nat := 4194304

/-- Store pages in state FREE. -/
def State.storeGaps (s : State) : List (Nat × Nat) :=
  gaps 0 storePages ((s.tiers.map.filter (fun (e : Nat × MapEntry) => e.2.state ≠ StoreState.free)).map (fun e => (e.1, 1)))

def largestGap (l : List (Nat × Nat)) : Nat := maxL (l.map (·.2)) 0

/-- A run of `n` pages in the gaps: the one from `first` where it fits, else the lowest that fits. -/
def pickRun (l : List (Nat × Nat)) (first n : Nat) : Option Nat :=
  if l.any (fun g => g.1 ≤ first && first + n ≤ g.1 + g.2) then some first
  else (l.find? (fun g => n ≤ g.2)).map (·.1)

def hbmPool (c : Nat) : Nat := 224 + c
def storePool (c : Nat) : Nat := 288 + c
def pondPool (c : Nat) : Nat := 160 + c

/-- HBM pages charged to a context and held (R224). -/
def State.holdRun (s : State) (c first n : Nat) (k : PageKind) : State :=
  let r : HbmRun := { first := first, pages := n, ctx := c, kind := k }
  ({ s with tiers := { s.tiers with runs := s.tiers.runs ++ [r] } }).move (hbmPool c) .returned .held n

/-- A run without the pages [lo, hi). -/
def HbmRun.cut (r : HbmRun) (lo hi : Nat) : List HbmRun :=
  if r.first + r.pages ≤ lo ∨ hi ≤ r.first then [r]
  else
    (if r.first < lo then [{ r with pages := lo - r.first }] else []) ++
    (if hi < r.first + r.pages then [{ r with first := hi, pages := r.first + r.pages - hi }] else [])

/-- HBM pages released by a context (R224). -/
def State.dropRun (s : State) (c first n : Nat) : State :=
  ({ s with tiers := { s.tiers with runs := s.tiers.runs.flatMap (fun (r : HbmRun) => r.cut first (first + n)) } }).move
    (hbmPool c) .held .returned n

/-- A store page's map entry (R222). -/
def State.mapEntry (s : State) (p : Nat) : MapEntry := Tbl.getD s.tiers.map p {}
def State.setMap (s : State) (p : Nat) (e : MapEntry) : State :=
  { s with tiers := { s.tiers with map := if e.state = .free then Tbl.erase s.tiers.map p else Tbl.set s.tiers.map p e } }
def storePage (a : Nat) : Nat := (localOf a - 0x800000000000) / 0x200000

/-! ### ALLOC and FREE (R231, R232) -/

/-- An access to the map entry of a store page: the cache of 4,096 entries takes it, and a miss is counted (R222). Which entry gives
way is a free choice. -/
def State.mapTouch (s : State) (p : Nat) : State :=
  if has s.tiers.mapCache p then s
  else
    let l := s.tiers.mapCache
    let keep := if l.length < 4096 then l else l.eraseIdx (Config.freeWord s.freeN % 4096)
    (({ s with tiers := { s.tiers with mapCache := keep ++ [p] } }).drew 1).bump Reg.mtMapCacheMiss 1

/-- Accesses to the map entries of a run of store pages. -/
def State.mapTouchRun (s : State) (p n : Nat) : State := (List.range n).foldl (fun s i => s.mapTouch (p + i)) s

/-- ALLOC (R232): at once, when nothing earlier of its context stands in the way. -/
def execAlloc (ctx idx first : Nat) (s : State) : Out :=
  match s.tierAsk ctx idx 2 with
  | none => .next s
  | some r =>
    let c := tierCmd r.body
    if r.begun ∨ s.mayStart r = false then .next s
    else if allocBad r.body then .next (s.finish r 0x15 0 0)
    else if c.cls = 1 then
      match pickRun s.hbmGaps first c.pages with
      | some p =>
        if (s.pool (hbmPool ctx)).returned < c.pages then .next (s.finish r 0x0B (largestGap s.hbmGaps) 0)
        else .next ((s.holdRun ctx p c.pages .alloc).finish r 0 (hbmBase + p * 65536) 0)
      | none => .next (s.finish r 0x0B (largestGap s.hbmGaps) 0)
    else
      let take (p : Nat) : State :=
        let s := (List.range c.pages).foldl (fun s i => s.setMap (p + i) { state := .zero, ctx := ctx }) (s.mapTouchRun p c.pages)
        (s.move (storePool ctx) .returned .held c.pages).finish r 0 (0x800000000000 + p * 0x200000) 0
      if (s.pool (storePool ctx)).returned < c.pages then .next (s.finish r 0x0B (largestGap s.storeGaps) 0)
      else if c.src ≠ chooseAny then
        let p := storePage c.src
        if s.storeGaps.any (fun g => g.1 ≤ p && p + c.pages ≤ g.1 + g.2) then .next (take p)
        else .next (s.finish r 0x0C 0 0)
      else match pickRun s.storeGaps first c.pages with
        | some p => .next (take p)
        | none => .next (s.finish r 0x0B (largestGap s.storeGaps) 0)

/-- Every page of [a, a + n) is held by context c and in no static region. -/
def State.freeable (s : State) (c a n : Nat) : Bool :=
  match tierOf a with
  | some .hbm => (List.range n).all (fun i => match (hbmPage (a + i * 65536)).bind s.hbmRun with
      | some r => r.ctx = c && r.kind ≠ .region
      | none => false)
  | some .store => (List.range n).all (fun i =>
      let e := s.mapEntry (storePage (a + i * 0x200000))
      e.state ≠ .free && e.ctx = c)
  | _ => false

/-- FREE (R232, R233). -/
def execFree (ctx idx : Nat) (s : State) : Out :=
  match s.tierAsk ctx idx 3 with
  | none => .next s
  | some r =>
    let c := tierCmd r.body
    let right := if c.cls = 1 then Tier.hbm else Tier.store
    if r.begun ∨ s.mayStart r = false then .next s
    else if allocBad r.body then .next (s.finish r 0x15 0 0)
    else if tierOf c.src ≠ some right ∨ s.freeable ctx c.src c.pages = false then .next (s.finish r 0x0C 0 0)
    else if c.cls = 1 then
      .next ((s.dropRun ctx ((c.src - hbmBase) / 65536) c.pages).finish r 0 c.pages 0)
    else
      let p := storePage c.src
      let s := (List.range c.pages).foldl (fun s i => s.setMap (p + i) {}) (s.mapTouchRun p c.pages)
      .next ((s.move (storePool ctx) .held .returned c.pages).finish r 0 c.pages 0)

/-! ### HOIST (R228–R234) -/

/-- HOIST (R230): a descriptor is malformed, or waits for a channel. -/
def execHoist (ctx idx : Nat) (s : State) : Out :=
  match s.tierAsk ctx idx 1 with
  | none => .next s
  | some r =>
    if r.begun then .next s
    else if s.hoistBad r.body then .next (s.finish r 0x15 0xFFFFFFFF00000000 0)
    else .next ({ s with tiers := { s.tiers with waiting := s.tiers.waiting ++ [(ctx, idx)] } }.begin r)

/-- Context c holds [a, a + n) in its tier; another module's pages are checked there (R232). -/
def State.hoistHeld (s : State) (c a n : Nat) (t : Tier) : Bool :=
  if moduleOf a ≠ s.moduleId then true
  else if t = .host then s.inGrant c (localOf a - 0x40000000) n
  else s.heldBy c (localOf a) n

/-- The first page of a descriptor one of whose ends is unmapped or reserved (R49). -/
def State.hoistUnmapped (s : State) (c : TierCmd) : Option Nat :=
  let u := unitBytes c.unit
  (List.range c.pages).find? (fun i => (s.tierAt (c.src + i * u) u).isNone || (s.tierAt (c.dst + i * u) u).isNone)

/-- Channels in use by a context. -/
def State.chansOf (s : State) (ctx : Nat) : Nat :=
  (s.tiers.chans.filter (fun (e : Nat × Chan) => e.2.busy && !e.2.firmware && e.2.ctx = ctx)).length

/-- The first waiting descriptor of a context that may start. -/
def State.firstWaiting (s : State) (ctx : Nat) : Option Request :=
  (s.tiers.waiting.filterMap (fun e => if e.1 = ctx then s.request e.1 e.2 else none)).find? (fun r => s.mayStart r)

/-- The context whose turn it is to take a channel (R228): the next after the last one that has a descriptor to start and
is below its channel limit. -/
def State.hoistTurn (s : State) : Option Nat :=
  ((List.range 64).map (fun i => (s.tiers.lastCtx + 1 + i) % 64)).find? (fun c =>
    (s.firstWaiting c).isSome && decide (s.chansOf c < (s.quota c).channels))

/-- The next page of a channel begins, not while the fabric is paused (R239): a store page it writes is busy (R222), a page to or from another module goes over
Phirov as requests of the sack hoist. -/
def State.pageBegins (s : State) (ch : Nat) : State :=
  let x := s.chan ch
  let src := x.src + x.next * x.unit
  let dst := x.dst + x.next * x.unit
  if x.total ≤ x.next then s
  else if s.pw.fabricPaused then s.setChan ch { x with held := true }
  else if moduleOf dst ≠ s.moduleId ∨ moduleOf src ≠ s.moduleId then
    let w := moduleOf dst ≠ s.moduleId
    let far := if w then dst else src
    let near := localOf (if w then src else dst)
    let q : TierReq := { mill := 16, stage := ch, id := x.next, cls := x.cls, write := w, ctx := x.ctx, hbm := localOf far,
                         pond := near, len := 65536, remote := some (moduleOf far), start := s.now }
    ({ s with tiers := { s.tiers with reqs := s.tiers.reqs ++ [q] } }).pxRequest q (moduleOf far)
  else if tierOf (localOf dst) = some .store then
    s.setMap (storePage dst) { s.mapEntry (storePage dst) with busy := true }
  else s

/-- TIER_CMD_START (R228, R232, R233): the descriptor whose turn it is takes a free channel. -/
def execTierCmdStart (ctx idx ch : Nat) (s : State) : Out :=
  match s.firstWaiting ctx with
  | none => .next s
  | some r =>
    let c := tierCmd r.body
    let u := unitBytes c.unit
    if r.idx ≠ idx ∨ s.hoistTurn ≠ some ctx ∨ ch < 4 ∨ 32 ≤ ch ∨ (s.chan ch).busy ∨ s.pw.fabricPaused then .next s
    else
      let s := { s with tiers := { s.tiers with waiting := s.tiers.waiting.filter (· ≠ (ctx, idx)), lastCtx := ctx } }
      match s.hoistUnmapped c with
      | some i => .next ((s.countStatus ctx 2).finish r 0x02 (put 32 32 i) 0)
      | none =>
        let n := c.pages * u
        let held := match s.tierAt c.src u, s.tierAt c.dst u with
          | some a, some b => s.hoistHeld ctx c.src n a && s.hoistHeld ctx c.dst n b
          | _, _ => false
        if held = false then .next (s.finish r 0x0C 0xFFFFFFFF00000000 0)
        else
          let x : Chan := { busy := true, ctx := ctx, cls := c.cls, idx := idx, src := c.src, dst := c.dst, unit := u
                            total := c.pages }
          .next ((s.setChan ch x).pageBegins ch)

/-- Bytes whose value the spec leaves undefined. -/
def State.undefined (s : State) (n : Nat) : Bytes := (List.range n).map (fun i => Config.undefByte (2 ^ 64 + s.freeN) i)

/-- The page of a channel is not in order on this module: the status it ends with, and the state after what the failure
does (R220, R222, R238). -/
def State.pageFault (s : State) (x : Chan) (fault line : Nat) (src dst : Nat) : Nat × State :=
  let n := x.unit
  let st := s.mapEntry (storePage src)
  let fromStore := tierOf (localOf src) = some .store
  let toStore := tierOf (localOf dst) = some .store
  let lost (p ev : Nat) : State :=
    ((s.setMap p { s.mapEntry p with state := .lost }).record 5 ev 0x02 0xFF 0 (le 4 p))
  if fault = 5 ∧ (fromStore ∨ toStore) then (0x02, lost (storePage (if fromStore then src else dst)) 1)
  else if fault = 3 ∧ fromStore ∧ st.state = .data then (0x02, lost (storePage src) 2)
  else if fromStore ∧ (st.state = .lost ∨ st.state = .free) then (0x02, s)
  else if fault = 2 ∧ tierOf (localOf src) = some .hbm then
    (0x02, { s with tiers := s.tiers.setPoison (localOf src / 64 + line % (n / 64)) true })
  else if s.poisonedIn (localOf src) n then (0x02, s)
  else if s.hp.bad.any (fun b => localOf src < b + 32 && b < localOf src + n) then (0x02, s)
  else if fault = 4 ∧ toStore then (0x02, s)
  else if fault = 1 then (0x01, s)
  else (0, s)

/-- The bytes of a source page: zeros of a ZERO store page (R239). -/
def State.pageBytes (s : State) (src n : Nat) : Bytes :=
  if tierOf (localOf src) = some .store ∧ (s.mapEntry (storePage src)).state ≠ .data then zeros n else s.local (localOf src) n

/-- A page is stored: a store page becomes DATA in a fresh slot (R223), others clear poison (R220). -/
def State.pageStore (s : State) (dst slot : Nat) (bs : Bytes) : State :=
  if tierOf (localOf dst) = some .store then
    let p := storePage dst
    (s.setLocal (localOf dst) bs).setMap p { s.mapEntry p with state := .data, busy := false, slot := slot }
  else s.putMem (localOf dst) bs

/-- The late limit of an HBM request of a class, and of a store page of a direction, in ns (R226, R236). -/
def State.hbmLate (s : State) (ctx cls : Nat) : Nat :=
  let us := nth (s.quota ctx).hbmLate cls 0
  1000 * (if us = 0 then nth [200, 500, 5000, 20000] cls 20000 else us)
def State.storeLate (s : State) (ctx : Nat) (write : Bool) : Nat :=
  let ms := nth (s.quota ctx).storeLate (b2n write) 0
  1000000 * (if ms = 0 then (if write then 50 else 20) else ms)

/-- The page a channel moves has reached its late limit: the store's where its path touches the store, else HBM's of its class
(R236). -/
def State.pageLate (s : State) (x : Chan) (src dst : Nat) : Bool :=
  let lim := if tierOf (localOf src) = some .store then s.storeLate x.ctx false
    else if tierOf (localOf dst) = some .store then s.storeLate x.ctx true
    else s.hbmLate x.ctx x.cls
  decide (x.start + lim ≤ s.now)

/-- One page of a channel is over with a status; the descriptor completes after its last (R231, R234). -/
def State.pageOver (s : State) (ch status : Nat) : State :=
  let x := s.chan ch
  let s := s.countStatus x.ctx status
  let x := { x with next := x.next + 1, passed := 0, moved := if status = 0 then x.moved + 1 else x.moved
                    worst := worse x.worst status
                    firstBad := match x.firstBad with
                      | some i => some i
                      | none => if status = 0 then none else some x.next }
  if x.next < x.total then (s.setChan ch x).pageBegins ch
  else
    let s := s.setChan ch {}
    if x.firmware then s else s.finishAt x.ctx x.idx x.worst (x.moved + put 32 32 (x.firstBad.getD 0xFFFFFFFF))

/-- A page of the store waits while its controller is not there (R438, R486). -/
def State.storeWaits (s : State) (src dst : Nat) : Bool :=
  (tierOf (localOf src) = some .store || tierOf (localOf dst) = some .store) && !s.storeUp

/-- HOIST_PAGE_DONE (R102, R223, R230, R234, R236): a page of a channel completes once all of its parcels have passed weir 16; it
fails at the earliest when one has, and is late at its limit. -/
def execHoistPageDone (ch fault line slot : Nat) (s : State) : Out :=
  let s := s.hoistPass ch 2048
  let x := s.chan ch
  if x.busy = false ∨ x.held ∨ x.firmware ∨ x.total ≤ x.next ∨ x.passed = 0 ∨ (fault = 0 ∧ x.passed < x.unit / 1024) then .next s
  else
    let src := x.src + x.next * x.unit
    let dst := x.dst + x.next * x.unit
    if (fault = 1 ∧ s.pageLate x src dst = false) ∨ (fault ≠ 1 ∧ s.storeWaits src dst = true) then .next s
    else if moduleOf dst ≠ s.moduleId ∨ moduleOf src ≠ s.moduleId then
      let clear (s : State) : State := { s with tiers := { s.tiers with
        results := s.tiers.results.filter (fun t => !(t.mill = 16 && t.stage = ch && t.id = x.next)) } }
      let ends (s : State) (status : Nat) : State :=
        let s := clear s
        let s := if status ≠ 0 ∧ moduleOf dst = s.moduleId then (s.putMem (localOf dst) (s.undefined x.unit)).drew 1 else s
        s.pageOver ch status
      match s.tiers.results.find? (fun t => t.mill = 16 && t.stage = ch && t.id = x.next) with
      | some t => .next (ends s t.status)
      | none => if fault = 1 then .next (ends (s.endRemote 16 ch x.next 1) 1) else .next s
    else
      let s := if tierOf (localOf src) = some .store then s.mapTouch (storePage src) else s
      let s := if tierOf (localOf dst) = some .store then s.mapTouch (storePage dst) else s
      let f := s.pageFault x fault line src dst
      if f.1 = 0 then .next ((s.pageStore dst slot (s.pageBytes src x.unit)).pageOver ch 0)
      else
        let t := f.2
        let t := if tierOf (localOf dst) = some .store then
            t.setMap (storePage dst) { t.mapEntry (storePage dst) with busy := false }
          else ((t.putMem (localOf dst) (t.undefined x.unit)).drew 1)
        .next (t.pageOver ch f.1)

/-! ### Stage tier requests (R235–R239) -/

/-- The memory station and its channel that serve a local HBM address, and the stacks of a station (R218). -/
def hbmStation (a : Nat) : Nat := (a - hbmBase) / 256 % 8
def hbmChannel (a : Nat) : Nat := (a - hbmBase) / 2048 % 12
def stationStacks (k : Nat) : List Nat := if k < 4 then [0, 1, 2] else [3, 4, 5]

/-- The stations that a request for [a, a + n) goes to. -/
def stationsOf (a n : Nat) : List Nat :=
  (List.range ((n + 255) / 256)).foldl (fun l i => addN l (hbmStation (a + 256 * i))) []

/-- Depth of a station's request queue by class (R106). -/
def stationDepth (c : Nat) : Nat := if c = 0 ∨ c = 3 then 32 else 64

/-- Some station that a request goes to has no place in the queue of its class: the request waits at its stage (R106). -/
def State.stationFull (s : State) (cls a n : Nat) : Bool :=
  (stationsOf a n).any (fun k => decide (stationDepth cls ≤
    (s.tiers.reqs.filter (fun r => r.cls = cls && r.remote.isNone && has (stationsOf r.hbm r.len) k)).length))

/-- A stage of context c may name every page of [a, a + n): a region, a KV cache or a chunk queue of its own (R235). -/
def State.stageHeld (s : State) (c a n : Nat) : Bool :=
  (List.range ((a + n - 1) / 65536 - a / 65536 + 1)).all (fun i =>
    match (hbmPage (max a ((a / 65536 + i) * 65536))).bind s.hbmRun with
    | some r => r.ctx = c && r.kind ≠ .alloc
    | none => false)

/-- The status a tier request ends with before it starts, 0 for none (R48–R50, R217, R219, R235, R238): here its far end is HBM,
on another module HBM or millpond. -/
def State.tierRefusal (s : State) (r : TierReq) : Nat :=
  let far := s.tierAt r.hbm r.len
  if tierRange r.pond r.len .pond = false ∨ (far ≠ some .hbm ∧ (far ≠ some .pond ∨ r.remote.isNone)) then 0x02
  else if r.remote.isSome then 0
  else if s.stageHeld r.ctx (localOf r.hbm) r.len then 0 else 0x0C

/-- TIER_REQUEST (R106, R235): on a token of the mill; none starts while the fabric is paused (R239). -/
def execTierRequest (mill stage id cls : Nat) (write : Bool) (hbm pond len : Nat) (s : State) : Out :=
  let p := tokenPool mill
  let x := s.pool p
  let busy := (s.tierReq mill stage id).isSome || s.tiers.results.any (fun t => t.mill = mill && t.stage = stage && t.id = id)
  let mine := moduleOf hbm = s.moduleId
  if 16 ≤ mill ∨ s.millWorks mill = false ∨ s.stageWorks mill stage = false ∨ s.pw.fabricPaused ∨ busy ∨ x.held + x.returned = 0 ∨
      (len ≠ 65536 ∧ len ≠ 4096) ∨ (mine ∧ s.stationFull cls (localOf hbm) len) then .next s
  else
    let s := if 0 < x.held then s.move p .held .inFlight 1 else s.move p .returned .inFlight 1
    let r : TierReq := { mill := mill, stage := stage, id := id, cls := cls, write := write
                         ctx := ((s.mill mill).sec.map Section.ctx).getD 0, hbm := localOf hbm, pond := pond, len := len
                         remote := if mine then none else some (moduleOf hbm), start := s.now }
    let s := { s with tiers := { s.tiers with reqs := s.tiers.reqs ++ [r] } }
    let st := s.tierRefusal { r with hbm := hbm }
    if st ≠ 0 then .next (s.tierEnd r st 0)
    else match r.remote with
      | some m => .next (s.pxRequest r m)
      | none => .next s

/-- TIER_REQUEST_DONE (R220, R235, R238): a request on this module moves its bytes; an uncorrectable read poisons its line. -/
def execTierRequestDone (mill stage id : Nat) (ue : Option Nat) (s : State) : Out :=
  match s.tierReq mill stage id with
  | none => .next s
  | some r =>
    if r.remote.isSome then .next s
    else if r.write then .next ((s.putMem r.hbm (s.local r.pond r.len)).tierEnd r 0 0)
    else match ue with
      | some l => .next (({ s with tiers := s.tiers.setPoison (r.hbm / 64 + l % (r.len / 64)) true }).tierEnd r 0x02 0)
      | none =>
        if s.poisonedIn r.hbm r.len then .next (s.tierEnd r 0x02 0)
        else .next ((s.putMem r.pond (s.local r.hbm r.len)).tierEnd r 0 0)

/-- A request has reached the late limit of its class; a page of the sack hoist that goes over Phirov is ended by its channel (R236,
R421). -/
def State.reqLate (s : State) (r : TierReq) : Bool :=
  !(r.mill = 16 && decide (r.stage < 32)) && decide (r.start + s.hbmLate r.ctx r.cls ≤ s.now)

/-- TIER_LATE_EXPIRY (R236, R237): a request that has reached its limit ends; a late write is still completed; a collective ends like
a request (R421). -/
def execTierLateExpiry (mill stage id : Nat) (s : State) : Out :=
  match s.tierReq mill stage id with
  | none => .next s
  | some r =>
    if s.reqLate r = false ∨ s.pw.fabricPaused = true then .next s
    else match s.px.colls.find? (fun (e : Nat × Coll) => e.2.mill = mill && e.2.stage = stage && e.2.id = id) with
    | some e => .next (s.collFail e.1 1)
    | none =>
      if r.remote.isSome then .next (s.endRemote mill stage id 1)
      else if r.write then .next ((s.putMem r.hbm (s.local r.pond r.len)).tierEnd r 1 0)
      else .next (s.tierEnd r 1 0)

/-! ### MT_CMD (R227, R241) -/

/-- PURGE (R227): only while no millplan is loaded. -/
def execPurge (ctx : Nat) (s : State) : Out :=
  if s.tiers.cmdBusy then .next s
  else if s.loader.loaded.isSome then .next { s with tiers := { s.tiers with cmdResult := 2 } }
  else
    let mine (e : Nat × MapEntry) : Bool := e.2.ctx = ctx && e.2.state ≠ StoreState.free
    let keep := s.tiers.map.filter (fun (e : Nat × MapEntry) => !(mine e))
    let s := (s.tiers.map.filter mine).foldl (fun s (e : Nat × MapEntry) => s.mapTouch e.1) s
    .next { s with tiers := { s.tiers with map := keep, cmdResult := 1 } }

/-- The complete list of repairs: those of the current REPAIR generation and those listed since (R241, R481). -/
def State.allRepairs (s : State) : Bytes :=
  let old := (chunksOf 8 512 (s.otp 2).shadow).filter (fun e => leAt e 0 1 % 4 ≠ 0)
  let new := (s.tiers.repairs.map Repair.bytes).filter (fun e => !old.contains e)
  padTo 4096 ((old ++ new).flatMap id)

/-- COMMIT (R241): rejected where the REPAIR group is frozen. -/
def execCommit (s : State) : Out :=
  if s.tiers.cmdBusy then .next s
  else if 4 ≤ (s.otp 2).consumed then .next { s with tiers := { s.tiers with cmdResult := 2 } }
  else .next (({ s with tiers := { s.tiers with cmdBusy := true, cmdResult := 0 } }).otpAsk 2 s.allRepairs none)

/-! ### HBM row repair (R240, R241) -/

/-- The lowest spare row of a bank that no repair uses, of 8. -/
def State.spareRow (s : State) (station channel bank : Nat) : Option Nat :=
  let listed := s.tiers.repairs.filter (fun r => r.kind = 1 && r.station = station && r.channel = channel && r.bank = bank)
  let otp := (chunksOf 8 512 (s.otp 2).shadow).filter (fun e =>
    let v := leNat e
    v % 4 = 1 && fldN v 4 2 = station && fldN v 8 5 = channel && fldN v 13 9 = bank)
  (List.range 8).find? (fun k => !(listed.any (fun r => r.spare = k)) && !(otp.any (fun e => fldN (leNat e) 34 32 = k)))

/-- A page is retired (R241). -/
def State.retire (s : State) (station a : Nat) : State :=
  match hbmPage a with
  | none => s
  | some p =>
    if has s.tiers.retired p then s
    else ({ s with tiers := { s.tiers with retired := addN s.tiers.retired p } }).record 6 3 0 0xFF station (le 8 (p * 65536 + hbmBase))

/-- HBM_ROW_REPAIR (R218, R240): the bank is held while the row moves; without a spare row every page with a line in it is retired
(R241). The lines are such as the station and channel serve. -/
def execHbmRowRepair (station channel bank row : Nat) (lines : List Nat) (s : State) : Out :=
  if s.tiers.hbmReady = false ∨ s.tiers.rowRepair.isSome ∨ 8 ≤ station ∨ 12 ≤ channel ∨ 32 ≤ bank ∨
      lines.any (fun a => decide (hbmStation a ≠ station) || decide (hbmChannel a ≠ channel)) then .next s
  else match s.spareRow station channel bank with
    | some k => .next { s with tiers := { s.tiers with
        rowRepair := some { station := station, channel := channel, bank := bank, row := row, spare := k }
        lastStation := station } }
    | none => .next (lines.foldl (fun s a => s.retire station a) s)

/-- HBM_REPAIR_DONE (R240): the row with its poison bits stands in the spare row; record and list entry. -/
def execHbmRepairDone (s : State) : Out :=
  match s.tiers.rowRepair with
  | none => .next s
  | some r =>
    let e : Repair := { kind := 1, station := r.station, channel := r.channel, bank := r.bank, row := r.row, spare := r.spare }
    let s := { s with tiers := { s.tiers with rowRepair := none, repairs := s.tiers.repairs ++ [e] } }
    .next (s.record 6 1 0 0xFF r.station e.bytes)

end Sys2Proof.Machine
end

