-- ==== Sys2Proof/Machine/Vision.lean ====
section
/-!
DEFINITION. Image operators (R146–R163): stage parameters, tensors in HBM, convolution, pooling and movement, stripes and
write watermarks; the step of a stage (R88) and the delivery of sensor frames.
-/
namespace Sys2Proof.Machine

/-- The parameters of R163. -/
structure ImgP where
  typ : Nat
  inW : Nat
  inH : Nat
  inC : Nat
  outC : Nat := 0
  mode : Nat := 0
  kw : Nat := 1
  kh : Nat := 1
  sw : Nat := 1
  sh : Nat := 1
  dw : Nat := 1
  dh : Nat := 1
  padL : Nat := 0
  padR : Nat := 0
  padT : Nat := 0
  padB : Nat := 0
  padMode : Nat := 0
  fIn : Nat := 1
  fOut : Nat := 1
  argmax : Bool := false
  argmaxValue : Bool := false
  inFmt : Nat
  outFmt : Nat := 1
  stripeRows : Nat := 0
  bufs : Nat := 0
  /-- Reserved byte 35. -/
  resv : Nat := 0
  inAddr : Nat := 0
  outAddr : Nat := 0
  inStride : Nat := 0
  outStride : Nat := 0
  weights : Nat := 0
  deriving DecidableEq, Repr

/-- A factor code of R163. -/
def factorOf (c : Nat) : Nat := match c with
  | 1 => 2
  | 2 => 4
  | 3 => 8
  | _ => 1

/-- The parameters of stage i of a MILL body (R163). -/
def imgOf (b : Bytes) (i : Nat) : ImgP :=
  let p := stageParams b i
  let at' (o n : Nat) : Nat := leAt p (o - 12) n
  let o := at' 29 1
  { typ := cfgType (stageCfg b i)
    inW := at' 12 2, inH := at' 14 2, inC := at' 16 2, outC := at' 18 2, mode := at' 20 2
    kw := at' 22 1 % 16 + 1, kh := at' 22 1 / 16 + 1, sw := at' 23 1 % 16 + 1, sh := at' 23 1 / 16 + 1
    dw := at' 24 1 % 16 + 1, dh := at' 24 1 / 16 + 1
    padL := at' 25 1, padR := at' 26 1, padT := at' 27 1, padB := at' 28 1
    padMode := o % 4, fIn := factorOf (fldN o 3 2), fOut := factorOf (fldN o 5 4)
    argmax := bitN o 6, argmaxValue := bitN o 7, inFmt := at' 30 1, outFmt := at' 31 1
    stripeRows := at' 32 2, bufs := at' 34 1, resv := at' 35 1, inAddr := at' 36 8, outAddr := at' 44 8
    inStride := at' 52 4, outStride := at' 56 4, weights := at' 60 4 }

/-- A stage runs striped (R153, R163). -/
def stageStriped (b : Bytes) (i : Nat) : Bool :=
  let w := stageCfg b i
  cfgValid w && cfgParams w = 0 && (cfgType w = 2 || cfgType w = 8 || cfgType w = 0xB) && (imgOf b i).stripeRows ≠ 0

/-! ### Geometry (R147, R151–R153) -/

def ImgP.conv (p : ImgP) : Bool := p.typ = 2
def ImgP.pool (p : ImgP) : Bool := p.typ = 0xB
def ImgP.depthwise (p : ImgP) : Bool := p.conv && p.mode = p.inC * p.fIn * p.fIn && p.mode = p.outC

/-- Height, width and channels of the input as the operator sees it: after s2d_in. -/
def ImgP.h (p : ImgP) : Nat := if p.conv then p.inH / p.fIn else p.inH
def ImgP.w (p : ImgP) : Nat := if p.conv then p.inW / p.fIn else p.inW
def ImgP.c (p : ImgP) : Nat := if p.conv then p.inC * p.fIn * p.fIn else p.inC

/-- k_e on the two axes (R147). -/
def ImgP.keH (p : ImgP) : Nat := p.dh * (p.kh - 1) + 1
def ImgP.keW (p : ImgP) : Nat := p.dw * (p.kw - 1) + 1

/-- Rows and columns of the result before d2s_out. -/
def ImgP.rows (p : ImgP) : Nat :=
  if p.typ = 8 then
    (match p.mode with
     | 1 => p.inW
     | 2 => p.inH / p.fIn
     | 3 => p.inH * p.fIn
     | _ => p.inH)
  else (p.h + p.padT + p.padB - p.keH) / p.sh + 1
def ImgP.cols (p : ImgP) : Nat :=
  if p.typ = 8 then
    (match p.mode with
     | 1 => p.inH
     | 2 => p.inW / p.fIn
     | 3 => p.inW * p.fIn
     | _ => p.inW)
  else (p.w + p.padL + p.padR - p.keW) / p.sw + 1
/-- Channels of the result before d2s_out. -/
def ImgP.chans (p : ImgP) : Nat :=
  if p.conv then p.outC
  else if p.typ = 8 then
    (match p.mode with
     | 2 => p.inC * p.fIn * p.fIn
     | 3 => p.inC / (p.fIn * p.fIn)
     | _ => p.inC)
  else p.inC

/-- The factor of the output transform d2s_out (R151). An index plane has one channel, which depth-to-space leaves as it is. -/
def ImgP.outF (p : ImgP) : Nat := if p.conv && !p.argmax then p.fOut else 1

/-- Channels of the stored output, and its elements. -/
def ImgP.outChans (p : ImgP) : Nat := if p.argmax then 1 else p.chans / (p.outF * p.outF)
def ImgP.outCount (p : ImgP) : Nat := p.rows * p.outF * (p.cols * p.outF) * p.outChans

/-- Stripes of a frame. -/
def ImgP.stripes (p : ImgP) : Nat := (p.rows + p.stripeRows - 1) / max p.stripeRows 1

/-- The last row of the stored input tensor that stripe j reads, clipped to the tensor (R153). -/
def ImgP.lastRow (p : ImgP) (j : Nat) : Nat :=
  let top := min ((j + 1) * p.stripeRows) p.rows - 1
  let last : Int :=
    if p.typ = 8 then
      (match p.mode with
       | 1 => (p.inH : Int) - 1
       | 2 => ((top * p.fIn + p.fIn - 1 : Nat) : Int)
       | 3 => ((top / p.fIn : Nat) : Int)
       | _ => (top : Int))
    else
      let r : Int := ((top * p.sh : Nat) : Int) - p.padT + p.keH - 1
      if p.conv then (min r ((p.h : Int) - 1)) * p.fIn + p.fIn - 1 else r
  (clampI 0 ((p.inH : Int) - 1) last).toNat

/-- Input rows that stripe j shares with the stripe before (R153). -/
def ImgP.haloRows (p : ImgP) (j : Nat) : Nat :=
  if j = 0 ∨ p.typ = 8 then 0 else (p.keH - p.sh) * (if p.conv then p.fIn else 1)

/-- Bytes of one stored input row. -/
def ImgP.rowBytes (p : ImgP) : Nat := (p.inW * p.inC * fmtWidth p.inFmt + 7) / 8

/-! ### What the parameters may be (R147, R152, R163) -/

/-- lo ≤ n ≤ hi. -/
def within (lo hi n : Nat) : Bool := lo ≤ n && n ≤ hi
/-- Any of R53 except Q15. -/
def anyFmt (f : Nat) : Bool := within 1 9 f
/-- A format of a stone mode (R58). -/
def stoneFmt (f : Nat) : Bool := within 2 9 f

/-- A convolution within the limits of R147; the operand ranges are those after s2d_in. -/
def ImgP.convFits (p : ImgP) : Bool :=
  within 1 8192 p.inW && within 1 8192 p.inH && within 1 16384 p.inC && within 1 16384 p.c && within 1 16384 p.outC &&
  within 1 p.c p.mode && p.c % max p.mode 1 = 0 && p.outC % max p.mode 1 = 0 && p.inW % p.fIn = 0 && p.inH % p.fIn = 0 &&
  within 1 11 p.kw && within 1 11 p.kh && within 1 8 p.sw && within 1 8 p.sh && within 1 8 p.dw && within 1 8 p.dh &&
  decide (p.padL ≤ p.dw * (p.kw - 1)) && decide (p.padR ≤ p.dw * (p.kw - 1)) &&
  decide (p.padT ≤ p.dh * (p.kh - 1)) && decide (p.padB ≤ p.dh * (p.kh - 1)) && decide (p.padMode < 2) &&
  decide (p.keH ≤ p.h + p.padT + p.padB) && decide (p.keW ≤ p.w + p.padL + p.padR) &&
  p.outC % (p.fOut * p.fOut) = 0 &&
  (if p.depthwise then anyFmt p.inFmt else stoneFmt p.inFmt) && within 1 10 p.outFmt

/-- Pooling within the limits of R152. -/
def ImgP.poolFits (p : ImgP) : Bool :=
  within 1 8192 p.inW && within 1 8192 p.inH && within 1 16384 p.inC && p.outC = 0 && decide (p.mode < 4) &&
  within 1 16 p.kw && within 1 16 p.kh && within 1 16 p.sw && within 1 16 p.sh && p.dw = 1 && p.dh = 1 &&
  decide (p.padL < p.kw) && decide (p.padR < p.kw) && decide (p.padT < p.kh) &&
  decide (p.padB < p.kh) && decide (p.keH ≤ p.h + p.padT + p.padB) && decide (p.keW ≤ p.w + p.padL + p.padR) &&
  anyFmt p.inFmt && within 1 10 p.outFmt

/-! ### Tensors (R57, R74, R146) -/

/-- A tensor in memory: base, format, declared scale, H, W, C. -/
structure Tensor where
  base : Nat
  fmt : Nat
  scale : Nat
  h : Nat
  w : Nat
  c : Nat
  deriving DecidableEq, Repr

def Tensor.count (t : Tensor) : Nat := t.h * t.w * t.c
/-- The scale plane follows the last, zero-padded block of the element plane, and the tag plane both (R57, R74). -/
def Tensor.scaleBase (t : Tensor) : Nat := t.base + planeBytes t.fmt t.count
def Tensor.tagBase (t : Tensor) : Nat := t.scaleBase + scaleBytes t.fmt t.count
def Tensor.bytes (t : Tensor) : Nat := planeBytes t.fmt t.count + scaleBytes t.fmt t.count + planeBlocks t.count

/-- Where block b of a tensor has its elements, its scale and its tag. -/
def Tensor.blockAt (t : Tensor) (b : Nat) : Nat × Nat × Nat := (t.base + b * (4 * fmtWidth t.fmt), t.scaleBase + b, t.tagBase + b)

/-- The worst status of some ranges that meet [a, a + n). -/
def rangesStatus (bad : List (Nat × Nat × Nat)) (a n : Nat) : Nat :=
  worst ((bad.filter (fun r => decide (r.1 < a + n) && decide (a < r.1 + r.2.1))).map (fun r => r.2.2))

/-- Element number `off` of a tensor of which row y was read: its bound, and the status of its block (R69, R74); a block whose rows
were never certified has none (R159); `bad`: HBM ranges that a band read returned with a status other than OK (R157). -/
def State.tensorAt (s : State) (t : Tensor) (bad : List (Nat × Nat × Nat)) (off y : Nat) : Elem :=
  let a := t.blockAt (off / 32)
  let w := fmtWidth t.fmt
  let codes := unpackCodes w 32 (s.local a.1 (4 * w))
  let mx := leNat (s.local a.2.1 1)
  let tag := leNat (s.local a.2.2 1)
  let lost := match (Tbl.find s.ops.bufs t.base).bind (·.uncertFrom) with
    | some r => decide (r ≤ y)
    | none => false
  let tag := if lost then 255 else tag
  let st := worst [s.memStatus a.1 (4 * w), rangesStatus bad a.1 (4 * w), if tag = 255 then 3 else 0]
  nth (blockOperand t.fmt t.scale mx tag st codes) (off % 32) zeroElem

/-- Input frame buffer of a frame (R155). -/
def ImgP.inBuf (p : ImgP) (frame : Nat) : Nat := p.inAddr + frame % max p.bufs 1 * p.inStride
def ImgP.outBuf (p : ImgP) (frame : Nat) : Nat := p.outAddr + frame % max p.bufs 1 * p.outStride

/-- The stored input tensor of a frame. -/
def ImgP.inTensor (p : ImgP) (frame scale : Nat) : Tensor :=
  { base := p.inBuf frame, fmt := p.inFmt, scale := scale, h := p.inH, w := p.inW, c := p.inC }

/-- The stored output tensor of a frame, after d2s_out or argmax; the value plane of R161 follows it (log entry 25). -/
def ImgP.outTensor (p : ImgP) (frame scale : Nat) : Tensor :=
  { base := p.outBuf frame, fmt := p.outFmt, scale := scale, h := p.rows * p.outF, w := p.cols * p.outF, c := p.outChans }
def Tensor.next (t : Tensor) : Tensor := { t with base := t.base + t.bytes }

/-! ### The operators -/

/-- Input elements by y, x and c. -/
abbrev Getter := Nat → Nat → Nat → Elem

/-- The input element the operator sees at (y, x, c): after s2d_in (R151); under replicate padding the nearest edge element (R150);
none where a position is padded with zero. -/
def ImgP.elem (p : ImgP) (g : Getter) (y x : Int) (c : Nat) : Option Elem :=
  let inside := decide (0 ≤ y) && decide (y < p.h) && decide (0 ≤ x) && decide (x < p.w)
  if inside || (p.conv && p.padMode = 1) then
    let y := (clampI 0 ((p.h : Int) - 1) y).toNat
    let x := (clampI 0 ((p.w : Int) - 1) x).toNat
    if p.conv then
      let f := p.fIn
      let sub := c / p.inC
      some (g (y * f + sub / f) (x * f + sub % f) (c % p.inC))
    else some (g y x c)
  else none

/-- The operand vector of a convolution output (R148, R150): taps in row-major order, channels innermost, each tap padded
to a multiple of 32; a depthwise one has one channel per tap. -/
def ImgP.convVec (p : ImgP) (g : Getter) (oy ox oc : Nat) : List Elem :=
  let cg := p.c / max p.mode 1
  let grp := oc / max (p.outC / max p.mode 1) 1
  (List.range p.kh).flatMap (fun ky => (List.range p.kw).flatMap (fun kx =>
    let y : Int := ((oy * p.sh + ky * p.dh : Nat) : Int) - p.padT
    let x : Int := ((ox * p.sw + kx * p.dw : Nat) : Int) - p.padL
    let es := (List.range cg).map (fun c => (p.elem g y x (grp * cg + c)).getD zeroElem)
    if p.depthwise then es else es ++ List.replicate ((32 - cg % 32) % 32) zeroElem))

/-- The window of a pooling output (R152): valid positions, and padded ones as zeros under divisor 1. -/
def ImgP.poolWindow (p : ImgP) (g : Getter) (oy ox c : Nat) : List Elem :=
  (List.range p.kh).flatMap (fun ky => (List.range p.kw).filterMap (fun kx =>
    match p.elem g (((oy * p.sh + ky : Nat) : Int) - p.padT) (((ox * p.sw + kx : Nat) : Int) - p.padL) c with
    | some e => some e
    | none => if p.mode = 3 then some zeroElem else none))

/-- The element a MOVE stage puts at (y, x, c) (R151). -/
def ImgP.moveElem (p : ImgP) (g : Getter) (y x c : Nat) : Elem :=
  let f := p.fIn
  match p.mode with
  | 1 => g x y c
  | 2 => let sub := c / p.inC
         g (y * f + sub / f) (x * f + sub % f) (c % p.inC)
  | 3 => g (y / f) (x / f) ((y % f * f + x % f) * (p.inC / (f * f)) + c)
  | _ => g y x c

/-- One result of an image operator before d2s_out. `sx` and `so` are the declared scales of input and output, `w` the weights, row
oc at K′ × oc; `base` is its first free draw. A depthwise convolution runs on the vector unit (R149). -/
def ImgP.res (p : ImgP) (sx so : Nat) (w : Operand) (g : Getter) (base oy ox oc : Nat) : Res :=
  if p.conv then
    let xs := p.convVec g oy ox oc
    let ws := (w.elems.drop (oc * xs.length)).take xs.length
    if p.depthwise then vecDot xs ws else dotRes p.inFmt sx w.scale xs ws
  else if p.pool then
    let xs := p.poolWindow g oy ox oc
    reduceRes (if bitN p.mode 0 then .mean else .max) base xs.length xs
  else
    let e := p.moveElem g oy ox oc
    ({ v := e.x, b := e.e, same := p.inFmt = p.outFmt && (intWidth p.inFmt = 0 || sx = so) } : Res).from [e]

/-- The row, column and channel of result i before d2s_out, in the order in which the output is stored (R151). -/
def ImgP.place (p : ImgP) (i : Nat) : Nat × Nat × Nat :=
  let f := p.outF
  let cs := p.chans / (f * f)
  let y := i / cs / (p.cols * f)
  let x := i / cs % (p.cols * f)
  (y / f, x / f, (y % f * f + x % f) * cs + i % cs)

/-- Results first … first + n − 1 of a stage's output; under argmax those of all channels of so many pixels. -/
def ImgP.results (p : ImgP) (sx so : Nat) (w : Operand) (g : Getter) (base first n : Nat) : List Res :=
  let k := if p.argmax then p.chans else 1
  (List.range (n * k)).map (fun j =>
    let a := p.place (first * k + j)
    p.res sx so w g (base + j * (p.kh * p.kw)) a.1 a.2.1 a.2.2)

/-- The planes that a tailrace makes of results (R161): as they are, or the indices and, where asked for, the maxima of runs of `c`
channels. -/
def planesOf (c : Nat) (argmax value : Bool) (rs : List Res) : List (List Res) :=
  if argmax then argmaxRes c rs :: (if value then [maxRes c rs] else []) else [rs]

/-! ### Tile-fused layers (R160) -/

/-- A rectangle of a layer's tensor: first row and column, height and width. -/
structure Tile where
  y : Int
  x : Int
  h : Nat
  w : Nat
  deriving DecidableEq, Repr

/-- A fused layer as the image operators read it, its operands in format `fmt`. -/
def fusedImg (l : FusedLayer) (fmt : Nat) : ImgP :=
  { typ := if l.kind = 0 then 2 else if l.kind = 1 then 0xB else 3
    inW := l.inW, inH := l.inH, inC := l.inC, outC := l.outC, mode := l.mode, kw := l.kw, kh := l.kh, sw := l.sw, sh := l.sh
    dw := l.dw, dh := l.dh, padL := l.padL, padR := l.padR, padT := l.padT, padB := l.padB
    padMode := b2n l.replicate, inFmt := fmt, outFmt := l.format }

/-- The input tile of some layers whose last gives a tile: R_(l−1) = (R_l − 1) × s_l + k_e,l on each axis. -/
def fusedIn : List FusedLayer → Tile → Tile
  | [], t => t
  | l :: ls, t =>
    let o := fusedIn ls t
    let p := fusedImg l l.format
    { y := o.y * (p.sh : Int) - p.padT, x := o.x * (p.sw : Int) - p.padL
      h := (o.h - 1) * p.sh + p.keH, w := (o.w - 1) * p.sw + p.keW }

/-- A layer is one that R160 fuses: a convolution under R147, pooling under R152 or an elementwise operation, on INT8 or FP16
operands; the next layer reads its output. -/
def fusedFits (l : FusedLayer) (fmt wfmt : Nat) : Bool :=
  let p := fusedImg l fmt
  (fmt = 3 || fmt = 8) && (l.format = 3 || l.format = 8) &&
  (match l.kind with
   | 0 => p.convFits && (p.depthwise || stoneMode fmt wfmt)
   | 1 => p.poolFits
   | 2 => within 1 8192 l.inW && within 1 8192 l.inH && within 1 16384 l.inC && l.kw = 1 && l.kh = 1 && l.sw = 1 && l.sh = 1
   | _ => false)

/-- Every layer reads the tensor that the one before makes. -/
def fusedChain : List FusedLayer → Bool
  | a :: b :: ls =>
    let p := fusedImg a a.format
    (p.rows = b.inH && p.cols = b.inW && p.chans = b.inC) && fusedChain (b :: ls)
  | _ => true

/-- The results of the last of some fused layers over a tile, layer by layer with their tags, and the draws they took (R160). A
position outside a layer's tensor is no result of it. -/
def State.fusedRun (s : State) (m : Nat) : List FusedLayer → Tile → Nat → Operand → List Res × Nat
  | [], _, base, _ => ([], base)
  | l :: ls, t, base, x =>
    let i := fusedIn (l :: ls) t
    let o := fusedIn ls t
    let p := fusedImg l x.fmt
    let w := s.operand m none l.w
    let g : Getter := fun y z c => nth x.elems ((((y : Int) - i.y).toNat * i.w + ((z : Int) - i.x).toNat) * p.inC + c) zeroElem
    let rs := (List.range (o.h * o.w * p.chans)).map (fun j =>
      let y := o.y + ((j / p.chans / max o.w 1 : Nat) : Int)
      let z := o.x + ((j / p.chans % max o.w 1 : Nat) : Int)
      if 0 ≤ y ∧ y < p.rows ∧ 0 ≤ z ∧ z < p.cols then
        (if l.kind = 2 then unaryRes l.f (g y.toNat z.toNat (j % p.chans))
         else p.res x.scale l.scale w g (base + j * (p.kh * p.kw)) y.toNat z.toNat (j % p.chans))
      else { v := .fin false 0 0, b := some Dy.zero })
    let next := base + rs.length * (p.kh * p.kw)
    match ls with
    | [] => (rs, next)
    | _ :: _ =>
      let bs := tailBlocks l.format l.scale false false 254 next rs
      s.fusedRun m ls t (next + 32 * bs.length)
        { elems := bs.flatMap (fun b => b.elems l.format l.scale), fmt := l.format, scale := l.scale }

/-- A tile-fused step (R160): up to 8 layers, output tiles of T × T with T from 8 to 128, and an input tile of edge R_0. -/
def State.fusedOk (s : State) (m t : Nat) (layers : List FusedLayer) (x : Source) : Bool :=
  let a := s.operand m none x
  let i := fusedIn layers { y := 0, x := 0, h := t, w := t }
  within 1 8 layers.length && within 8 128 t && fusedChain layers &&
  (layers.zip (a.fmt :: layers.map (·.format))).all (fun e => fusedFits e.1 e.2 (s.operand m none e.1.w).fmt) &&
  decide (i.h * i.w * ((layers.head?.map (·.inC)).getD 0) ≤ a.elems.length)

/-! ### Frame buffers and stripes (R153–R157) -/

def State.stripe (s : State) (n : Node) : StripePos := Tbl.getD s.ops.stripes n {}
def State.setStripe (s : State) (n : Node) (x : StripePos) : State :=
  { s with ops := { s.ops with stripes := Tbl.set s.ops.stripes n x } }
def State.frameBuf (s : State) (a : Nat) : FrameBuf := Tbl.getD s.ops.bufs a {}
def State.setFrameBuf (s : State) (a : Nat) (x : FrameBuf) : State :=
  { s with ops := { s.ops with bufs := Tbl.set s.ops.bufs a x } }

/-- The striped stages that the loaded sections bind. -/
def State.stripedStages (s : State) : List Node :=
  (List.range 16).flatMap (fun m => ((List.range 8).filter (fun i => stageStriped (s.millBody m) i)).map (fun i => 8 * m + i))

def State.img (s : State) (n : Node) : ImgP := imgOf (s.millBody (n / 8)) (n % 8)

/-- The consumers of the tensor whose buffer 0 stands at an address. -/
def State.consumers (s : State) (a : Nat) : List Node := s.stripedStages.filter (fun n => (s.img n).inAddr = a)

/-- Whether the stages of the tensor at `a` with `b` buffers let frame n start: every consumer has completed frame
n − b (R155); a bolter is a consumer of its grid (R246). -/
def State.bufFree (s : State) (a b n : Nat) : Bool :=
  (s.consumers a).all (fun k => decide (n + 1 ≤ (s.stripe k).frame + b)) &&
  s.bolters.all (fun (e : Nat × Bolter) =>
    !(e.2.sec.isSome && e.2.sec.map (fun x => leAt x.body 0 8) = some a) || decide (n + 1 ≤ e.2.frame + b))

/-- A stage writes a tensor that some striped stage reads, or a tensor at all: it produces frames (R155). -/
def State.produces (s : State) (n : Node) : Bool := (s.img n).outAddr ≠ 0

/-- FRAME_BUFFER_START (R155, R156): the producer's next frame takes its buffer and the watermark returns to 0. -/
def execFrameBufferStart (ingress : Bool) (m i wait : Nat) (s : State) : Out :=
  if ingress then
    match s.binding i with
    | none => .next s
    | some b =>
      let n := 8 * b.mill + b.stage
      let p := s.img n
      let k := Tbl.getD s.ops.inFrames i 0
      if b.kind = 1 ∧ has s.ops.inOpen i = false ∧ s.bufFree p.inAddr p.bufs k then
        let s := s.setFrameBuf (p.inBuf k) { frame := k, rows := 0 }
        .next { s with ops := { s.ops with inOpen := addN s.ops.inOpen i } }
      else .next s
  else
    let n := 8 * m + i
    let s := s.bump (Reg.mlBufWait (m % 16)) wait
    let p := s.img n
    let x := s.stripe n
    if stageStriped (s.millBody m) i ∧ x.frameOpen = false ∧ x.stripe = 0 ∧ s.bufFree p.outAddr p.bufs x.frame then
      let s := s.setFrameBuf (p.outBuf x.frame) { frame := x.frame, rows := 0 }
      .next (s.setStripe n { x with frameOpen := true })
    else .next s

/-- The watermark of a stage's input buffer has passed the last row its next stripe reads (R155). -/
def State.stripeReady (s : State) (n : Node) : Bool :=
  let p := s.img n
  let x := s.stripe n
  let f := s.frameBuf (p.inBuf x.frame)
  (Tbl.find s.ops.bufs (p.inBuf x.frame)).isSome && f.frame = x.frame && decide (p.lastRow x.stripe < f.rows)

/-- STRIPE_START (R155): a stripe is an item, so none starts at a closed mill or on a stopped pipeline. -/
def execStripeStart (m i wait : Nat) (s : State) : Out :=
  let n := 8 * m + i
  let s := s.bump (Reg.mlRowWait (m % 16)) wait
  let x := s.stripe n
  if stageStriped (s.millBody m) i ∧ x.active = false ∧ s.stripeReady n ∧ (x.frameOpen ∨ s.produces n = false) ∧
      (s.mill m).state = .run ∧ has (s.mill m).stopped i = false then
    let p := s.img n
    let s := s.bump (Reg.mlHaloLines m) ((p.haloRows x.stripe * p.rowBytes + 127) / 128)
    .next (s.setStripe n { x with active := true })
  else .next s

/-! ### The step of a stage (R88) -/

/-- The operations that a stage type declares (R91); `attn`: the stage is an attention stage (R164). -/
def operFits (typ : Nat) (attn : Bool) : Oper → Bool
  | .matmul _ _ _ _ _ => typ = 1 && !attn
  | .score _ _ | .value _ _ => typ = 1 && attn
  | .image _ _ _ _ => (typ = 2 || typ = 8 || typ = 0xB) && !attn
  | .unary _ _ | .binary _ _ _ _ => typ = 3
  | .special _ _ => typ = 4 && !attn
  | .rotary _ _ => typ = 4 && attn
  | .reduce _ _ _ => typ = 5
  | .softmax _ _ => typ = 6
  | .rms _ _ _ _ | .layer _ _ _ _ _ => typ = 7
  | .move _ _ _ => typ = 8 && attn
  | .merge _ => typ = 9
  | .scan _ _ => typ = 0xA
  | .fused _ _ _ _ _ => typ = 0xC

/-- The weights of a CONV stage stand at its weight_offset (R163). -/
def State.imgWeights (s : State) (m : Nat) (p : ImgP) : Source → Operand
  | .mem _ fmt scale count scales tags => s.operand m none (.mem (m * 0x4000000 + p.weights) fmt scale count scales tags)
  | x => s.operand m none x

/-- Weights of a format that a stone mode pairs with the input's (R58). -/
def ImgP.weightsOk (p : ImgP) (w : Operand) : Bool := !p.conv || p.depthwise || stoneMode p.inFmt w.fmt

/-- The planes of a step that is no attention or scan step, before the tailrace, and the first draw after them; none where the
step does not fit the stage's parameters. -/
def State.stagePlanes (s : State) (m i : Nat) (job : StageJob) : Option (List (List Res) × Nat) :=
  match job.op with
  | .image x w first n =>
    let p := s.img (8 * m + i)
    let x := s.operand m none x
    let w := s.imgWeights m p w
    let g : Getter := fun y z c => nth x.elems ((y * p.inW + z) * p.inC + c) zeroElem
    if x.fmt = p.inFmt ∧ p.weightsOk w ∧ first % 32 = 0 ∧ first + n ≤ p.outCount ∧ p.inH * p.inW * p.inC ≤ x.elems.length ∧
        (p.argmax → argmaxFits p.outFmt job.scale p.chans) then
      let rs := p.results x.scale job.scale w g s.freeN first n
      some (planesOf p.chans p.argmax p.argmaxValue rs, s.freeN + rs.length * (p.kh * p.kw))
    else none
  | .fused t oy ox layers x =>
    if s.fusedOk m t layers x then
      let r := s.fusedRun m layers { y := ((oy * t : Nat) : Int), x := ((ox * t : Nat) : Int), h := t, w := t } s.freeN (s.operand m none x)
      some ([r.1], r.2)
    else none
  | .matmul _ _ rows n _ =>
    if s.operOk m none job.op ∧ (job.argmax ≠ 0 → job.argmax = rows ∧ argmaxFits job.format job.scale rows) then
      some (planesOf rows (job.argmax ≠ 0) job.argmaxValue (s.operate m none job.op), s.freeN + rows * n)
    else none
  | op =>
    if s.operOk m none op then
      let rs := s.operate m none op
      let n := match op with
        | .reduce _ n _ => n
        | _ => 1
      some ([rs], s.freeN + rs.length * n)
    else none

/-- The output blocks of planes of results, the counters after them and the draws taken (R63–R79); a stage that rounds
stochastically draws for each element, while SR is degraded too (log entry 25). -/
def State.tail (s : State) (m i : Nat) (job : StageJob) (rs : List Res) : List OutBlock × State :=
  let w := stageCfg (s.millBody m) i
  let sr := cfgSr w && !(s.mill m).srDegraded
  let bs := tailBlocks job.format job.scale (cfgInf w) sr (cfgLimit w) s.freeN rs
  let s := bs.foldl (fun s b => s.countBlock m i b) s
  let n := if cfgSr w then rs.length else 0
  (bs, (s.drew (32 * bs.length)).setMill m { s.mill m with srDraws := (s.mill m).srDraws + n })

/-- The parcels a step takes: the front of each queue it names, none where one is empty or feeds another stage. -/
def State.takeParcels (s : State) (m i : Nat) : List Nat → Option State
  | [] => some s
  | q :: qs =>
    match Tbl.getD (s.mill m).hopper q [] with
    | [] => none
    | p :: rest =>
      if (hopperCfg (s.millBody m) q).stage = i then
        let x := s.mill m
        (s.setMill m { x with hopper := Tbl.set x.hopper q rest
                              reading := Tbl.set x.reading q (Tbl.getD x.reading q [] ++ [p]) }).takeParcels m i qs
      else none

/-- The completions of tier requests that a step takes. -/
def State.tokens (s : State) (m i : Nat) (ids : List Nat) : List TierResult :=
  s.tiers.results.filter (fun r => r.mill = m && r.stage = i && has ids r.id)

/-- Every token that a step takes has come back. -/
def State.tokensBack (s : State) (m i : Nat) (ids : List Nat) : Bool := ids.all (fun id => (s.tokens m i [id]) ≠ [])

def State.dropTokens (s : State) (m i : Nat) (ids : List Nat) : State :=
  { s with tiers := { s.tiers with results := s.tiers.results.filter (fun r => !(r.mill = m && r.stage = i && has ids r.id)) } }

/-- The item number a step's output carries: that of the item it takes. -/
def State.itemSeq (s : State) (m : Nat) (job : StageJob) : Nat :=
  match job.takes with
  | q :: _ => (((Tbl.getD (s.mill m).hopper q []).head?).map (·.seq)).getD job.seq
  | [] => job.seq

/-- The output of a step: written with its tag plane, or packed into the output stage, at most 2 parcels of a stage
(R89). -/
def State.stageOut (s : State) (m i : Nat) (job : StageJob) (seq : Nat) (bs : List OutBlock) : Option State :=
  match job.store with
  | some a => some (s.storeBlocks job.format a bs)
  | none =>
    let w := stageCfg (s.millBody m) i
    let base : Parcel := { dest := 0, cls := cfgClass w, ctx := ((s.mill m).sec.map Section.ctx).getD 0, stage := i, mill := m
                           seq := seq, weir := m }
    let ps := packParcels job.format base job.offset job.last bs
    let dests := ((s.millRoutes m).filter (fun r => r.stage = i)).map (fun r => (r.dest, r.cls, r.row))
    let slots : List TailSlot := (ps.zip (List.range ps.length)).map (fun e =>
      { stage := i, parcel := e.1, dests := dests, first := job.first && e.2 = 0 })
    let x := s.mill m
    if dests = [] then some s
    else if (x.tail.filter (fun t => t.stage = i)).length + slots.length ≤ 2 then
      some (s.setMill m { x with tail := x.tail ++ slots })
    else none

/-- The counters of a step's cycles. -/
def State.countCycles (s : State) (m : Nat) (job : StageJob) : State :=
  ((s.bump (Reg.mlStone0Busy m) job.busy0).bump (Reg.mlStone1Busy m) job.busy1).bump (Reg.mlBankConflict m) job.conflicts

/-- The blocks of several planes. -/
def State.tails (s : State) (m i : Nat) (job : StageJob) : List (List Res) → List OutBlock × State
  | [] => ([], s)
  | rs :: rest =>
    let o := s.tail m i job rs
    let t := o.2.tails m i job rest
    (o.1 ++ t.1, t.2)

/-- One step of a stage (R88): the parcels and tokens it takes, its blocks from the tailrace `blocks`, its output. `next` is the first
draw after the results. None where a parcel, a token or a place in the output stage is wanting. -/
def State.stageEmit (s : State) (m i : Nat) (job : StageJob) (next : Nat) (blocks : State → List OutBlock × State) : Option State :=
  if s.tokensBack m i job.tokens then
    (s.takeParcels m i job.takes).bind (fun t =>
      let o := blocks ((t.dropTokens m i job.tokens).drew (next - s.freeN))
      (o.2.countCycles m job).stageOut m i job (s.itemSeq m job) o.1)
  else none

/-- HBM ranges that the tokens of a step read with a status other than OK (R157, R178). -/
def State.badRanges (s : State) (m i : Nat) (job : StageJob) : List (Nat × Nat × Nat) :=
  ((s.tokens m i job.tokens).filter (fun r => r.status ≠ 0)).map (fun r => (r.hbm, r.len, r.status))


/-- One step of a stage whose operation its type and parameters declare. -/
def State.stageStep (s : State) (m i : Nat) (job : StageJob) : Option State :=
  let job := match job.op with
    | .image _ _ _ _ => { job with format := (s.img (8 * m + i)).outFmt }
    | _ => job
  (s.stagePlanes m i job).bind (fun r => s.stageEmit m i job r.2 (fun t => t.tails m i job r.1))

/-- One plane of a stripe: its elements [a, b) go to tensor t. The block that a stripe shares with the one before is written again with
the elements that stand in it (log entry 25). -/
def State.stripePlane (s : State) (m i : Nat) (job : StageJob) (t : Tensor) (a : Nat) (rs : List Res) : State :=
  let lead := (List.range (a % 32)).map (fun j =>
    let e := s.tensorAt t [] (a / 32 * 32 + j) 0
    ({ v := e.x, b := e.e, same := true } : Res).from [e])
  let o := s.tail m i job (lead ++ rs)
  o.2.storeBlocks t.fmt (t.blockAt (a / 32)) o.1

/-- The planes of a stripe, each to its tensor. -/
def State.stripePlanes (s : State) (m i : Nat) (job : StageJob) (t : Tensor) (a : Nat) : List (List Res) → State
  | [] => s
  | rs :: rest => (s.stripePlane m i job t a rs).stripePlanes m i job t.next a rest

/-- The stripe in progress of a striped stage is computed and written, its watermark advances over the rows whose blocks are
complete, and the position moves on (R153, R155, R157). -/
def State.stripeStep (s : State) (m i : Nat) (job : StageJob) : Option State :=
  let n := 8 * m + i
  let p := s.img n
  let x := s.stripe n
  match job.op with
  | .image (.mem _ _ sx _ _ _) w _ _ =>
    let w := s.imgWeights m p w
    let job := { job with format := p.outFmt }
    if x.active = false ∨ s.tokensBack m i job.tokens = false ∨ p.weightsOk w = false ∨
        (p.argmax ∧ argmaxFits p.outFmt job.scale p.chans = false) then none
    else
      let r1 := min (x.stripe * p.stripeRows + p.stripeRows) p.rows
      let t := p.outTensor x.frame job.scale
      let row := t.w * t.c * p.outF
      let a := x.stripe * p.stripeRows * row
      let b := r1 * row
      let bad := s.badRanges m i job
      let src := p.inTensor x.frame sx
      let g : Getter := fun y z c => s.tensorAt src bad ((y * src.w + z) * src.c + c) y
      let rs := p.results sx job.scale w g s.freeN a (b - a)
      let k := (s.dropTokens m i job.tokens).drew (rs.length * (p.kh * p.kw))
      let k := k.stripePlanes m i job t a (planesOf p.chans p.argmax p.argmaxValue rs)
      let k := k.setFrameBuf t.base { k.frameBuf t.base with rows := if r1 = p.rows then t.h else b / 32 * 32 / max (t.w * t.c) 1 }
      let k := k.countCycles m job
      some (if r1 = p.rows then k.setStripe n { frame := x.frame + 1 }
        else k.setStripe n { x with stripe := x.stripe + 1, active := false })
  | _ => none

/-! ### Delivery of sensor frames (R425) -/

/-- The slot of a stream's oldest frame frees. -/
def State.freeSnSlot (s : State) (n : Nat) : State :=
  s.setStream n { s.stream n with slots := (s.stream n).slots.drop 1 }

/-- INGRESS_DELIVERY_DONE (R425, R156): parcels have all been admitted; a frame buffer takes the frame whole; the fusion
units have their copy from the admission. -/
def execIngressDeliveryDone (stream : Nat) (s : State) : Out :=
  match s.binding stream, (s.stream stream).slots with
  | some b, f :: _ =>
    match b.kind with
    | 0 =>
      let w := 19 + b.lane
      if (s.waiting w).any (fun p => p.origin = stream + 1 && p.seq = f.number) then .next s
      else .next (s.freeSnSlot stream)
    | 1 =>
      if has s.ops.inOpen stream then
        let p := s.img (8 * b.mill + b.stage)
        let k := Tbl.getD s.ops.inFrames stream 0
        let t := p.inTensor k 0
        let s := (s.putMem t.base f.data).putMem t.tagBase (zeros (planeBlocks t.count))
        let s := s.setFrameBuf (p.inBuf k) { frame := k, rows := p.inH }
        let s := { s with ops := { s.ops with inFrames := Tbl.set s.ops.inFrames stream (k + 1), inOpen := remN s.ops.inOpen stream } }
        .next (s.freeSnSlot stream)
      else .next s
    | _ => .next (s.freeSnSlot stream)
  | _, _ => .next s

end Sys2Proof.Machine
end

