-- ==== Sys2Proof/Machine/Attention.lean ====
section
/-!
DEFINITION. Attention and the key-value cache (R164–R190): sequences and their pages, the order of writes and reads,
length buckets, and the merge of partials.
-/
namespace Sys2Proof.Machine

/-! ### Stage parameters (R190) -/

/-- The attention parameters of a stage. -/
structure AttnP where
  role : Nat
  dimCode : Nat
  qHeads : Nat
  kvHeads : Nat
  headFirst : Nat
  headCount : Nat
  fmt : Nat
  ring : Nat
  window : Nat
  chunkMax : Nat
  scale : Nat
  table : Nat
  masks : Nat
  buckets : Nat
  split : Nat
  splits : Nat
  modIndex : Nat
  modCount : Nat
  modMode : Nat
  bucketSplits : List Nat
  /-- Reserved bytes 51–55 and 62–63. -/
  resv : Nat
  deriving DecidableEq, Repr

def attnOf (b : Bytes) (i : Nat) : AttnP :=
  let p := stageParams b i
  let at' (o n : Nat) : Nat := leAt p (o - 12) n
  { role := at' 12 1, dimCode := at' 13 1, qHeads := at' 14 2, kvHeads := at' 16 2, headFirst := at' 18 2
    headCount := at' 20 2, fmt := at' 22 1, ring := at' 23 1, window := at' 24 4, chunkMax := at' 28 4, scale := at' 32 4
    table := at' 36 8, masks := at' 44 1, buckets := at' 45 1, split := at' 46 1, splits := at' 47 1
    modIndex := at' 48 1, modCount := at' 49 1, modMode := at' 50 1
    bucketSplits := (List.range 6).map (fun k => at' (56 + k) 1), resv := at' 51 5 + at' 62 2 }

/-- The attention parameters of stage i of a MILL body, where it has a role. -/
def bodyAttn (b : Bytes) (i : Nat) : Option AttnP :=
  let w := stageCfg b i
  if cfgValid w && cfgParams w = 1 then some (attnOf b i) else none

def State.attn (s : State) (m i : Nat) : Option AttnP := bodyAttn (s.millBody m) i

/-- Head dimension and bytes of an element. -/
def headDim (code : Nat) : Nat := 32 * 2 ^ code
def kvBytes (fmt : Nat) : Nat := fmtWidth fmt / 8
/-- T_g and P_t (R169). -/
def granPos (dim eb : Nat) : Nat := 4096 / (dim * eb)
def pagePos (dim eb : Nat) : Nat := 15 * granPos dim eb

/-- Buckets (R179). -/
def bucketBound (b : Nat) : Nat := nth [128, 512, 2048, 8192, 32768, 131072] b 131072
def bucketOf (len : Nat) : Nat := ((List.range 5).find? (fun b => len ≤ bucketBound b)).getD 5

/-! ### Sequence descriptors (R172) -/

/-- The place of a descriptor: its local address. -/
def descPlace (p : AttnP) (slot : Nat) : Nat := p.table + 64 * slot

def State.seq (s : State) (k : Nat) : SeqDesc := Tbl.getD s.ops.seqs k {}

/-- Firmware writes a descriptor; it stands in HBM as well (R172). -/
def State.setSeq (s : State) (k : Nat) (d : SeqDesc) : State :=
  ({ s with ops := { s.ops with seqs := if d = ({} : SeqDesc) then Tbl.erase s.ops.seqs k else Tbl.set s.ops.seqs k d } }).putMem k d.bytes

def SeqDesc.dim (d : SeqDesc) : Nat := headDim d.dimCode
def SeqDesc.tg (d : SeqDesc) : Nat := granPos d.dim (kvBytes d.format)
def SeqDesc.pt (d : SeqDesc) : Nat := max (pagePos d.dim (kvBytes d.format)) 1
def SeqDesc.rings (d : SeqDesc) : Nat := 2 * d.kvHeads
/-- Slot of a position (R170). -/
def SeqDesc.slotOf (d : SeqDesc) (p : Nat) : Nat := if d.ring then p % max d.slots 1 else p
/-- Local address of the page-list entry of page i of ring r (R170). -/
def SeqDesc.entry (d : SeqDesc) (r i : Nat) : Nat := d.pageList + (r * d.pagesPerRing + i) * 8
def State.kvPage (s : State) (d : SeqDesc) (r i : Nat) : Nat := s.mem.hbm.readN (d.entry r i) 8

/-- The module holds slot q: in sequence mode module j owns R slots from j × R (R186). -/
def ownsSlot (p : AttnP) (d : SeqDesc) (q : Nat) : Bool :=
  if p.modMode = 2 then
    let n := max p.modCount 1 * d.pt
    let r := (d.maxTokens + n - 1) / n * d.pt
    q / max r 1 = p.modIndex
  else true

/-- HBM pages that a sequence takes, one by one: those of `want` where they are free, else the lowest that are. -/
def State.takeCache (s : State) (ctx : Nat) : List Nat → Nat → List Nat × State
  | _, 0 => ([], s)
  | want, n + 1 =>
    match pickRun s.hbmGaps (want.headD hbmPages) 1 with
    | none => ([], s)
    | some p =>
      let r := (s.holdRun ctx p 1 .cache).takeCache ctx (want.drop 1) n
      (p :: r.1, r.2)

/-- Page-list entries filled with pages; the tag granule of a page is zero beyond the tags of its granules (R170). -/
def State.fillList (s : State) (d : SeqDesc) : List (Nat × Nat) → List Nat → State
  | e :: es, p :: ps =>
    let a := hbmBase + p * 65536
    let used := 15 * (d.tg * d.dim / 32)
    ((s.putMem (d.entry e.1 e.2) (le 8 a)).putMem (a + 61440 + used) (zeros (4096 - used))).fillList d es ps
  | _, _ => s

/-- Every page of every ring. -/
def SeqDesc.allPages (d : SeqDesc) : List (Nat × Nat) :=
  (List.range d.rings).flatMap (fun r => (List.range d.pagesPerRing).map (fun i => (r, i)))

/-- Pages added to a sequence, charged to its context; none where the quota or the HBM has not as many (R176). -/
def State.addPages (s : State) (k : Nat) (d : SeqDesc) (need : List (Nat × Nat)) (want : List Nat) : Option State :=
  if (s.pool (hbmPool d.ctx)).returned < need.length then none
  else
    let t := s.takeCache d.ctx want need.length
    if t.1.length < need.length then none
    else some ((t.2.fillList d need t.1).setSeq k { d with pagesHeld := d.pagesHeld + need.length })

/-- A sequence opens (R173, R176): its page list, and in RING mode every element page, are charged. -/
def State.openSeq (s : State) (k m : Nat) (p : AttnP) (layer seqId maxTokens : Nat) (want : List Nat) : Option State :=
  let pt := max (pagePos (headDim p.dimCode) (kvBytes p.fmt)) 1
  let ring := p.ring = 1
  let ppr := if ring then (p.window + p.chunkMax + pt - 1) / pt else (maxTokens + pt - 1) / pt
  let ctx := ((s.mill m).sec.map Section.ctx).getD 0
  let lp := (2 * p.headCount * ppr * 8 + 65535) / 65536
  let elems := if ring then 2 * p.headCount * ppr else 0
  if (s.pool (hbmPool ctx)).returned < lp + elems then none
  else match pickRun s.hbmGaps (want.headD hbmPages) lp with
    | none => none
    | some first =>
      let d : SeqDesc := { seqId := seqId, layer := layer, ctx := ctx, ring := ring, kvHeads := p.headCount
                           dimCode := p.dimCode, format := p.fmt, maxTokens := maxTokens
                           window := if ring then p.window else 0, slots := if ring then ppr * pt else 0
                           pagesPerRing := ppr, pageList := hbmBase + first * 65536, isOpen := true, listPages := lp }
      let s := s.holdRun ctx first lp .pageList
      let s := s.putMem d.pageList (zeros (lp * 65536))
      let s := s.setSeq k d
      if ring then s.addPages k d d.allPages (want.drop 1) else some s

/-! ### Splits of a decode step (R181, R185, R186) -/

/-- The first position that a query at `qpos` attends to. -/
def SeqDesc.first (d : SeqDesc) (qpos : Nat) : Nat := if d.ring then qpos + 1 - d.window else 0

/-- The page of a ring that holds a position. -/
def SeqDesc.pageOf (d : SeqDesc) (pos : Nat) : Nat := d.slotOf pos / d.pt

/-- The pages of this module that hold attended positions, in the order of their slots from the first. -/
def attendedPages (p : AttnP) (d : SeqDesc) (qpos : Nat) : List Nat :=
  let lo := d.first qpos / d.pt
  (List.range (qpos / d.pt + 1 - lo)).foldl (fun l k =>
    let i := d.pageOf ((lo + k) * d.pt)
    if ownsSlot p d (i * d.pt) then addN l i else l) []

/-- S_b of the bucket of a decode step. -/
def AttnP.splitsOf (p : AttnP) (d : SeqDesc) (qpos : Nat) : Nat := nth p.bucketSplits (bucketOf (qpos + 1 - d.first qpos)) 1

/-- The attended pages of a split: ⌊n_p ÷ S_b⌋ of them, one more for the first n_p mod S_b splits, as a contiguous run; none beyond
the first S_b splits (R181). -/
def splitPages (p : AttnP) (d : SeqDesc) (qpos : Nat) : List Nat :=
  let l := attendedPages p d qpos
  let n := max (p.splitsOf d qpos) 1
  let k := p.split
  if n ≤ k then []
  else (l.drop (k * (l.length / n) + min k (l.length % n))).take (l.length / n + (if k < l.length % n then 1 else 0))

/-- G: query heads of one key-value head (R165). -/
def AttnP.group (p : AttnP) : Nat := max (p.qHeads / max p.kvHeads 1) 1

/-! ### Reads (R166, R174, R177) -/

/-- The stages with a role that read a sequence table, by mill × 8 + stage. -/
def State.readersOf (s : State) (table : Nat) (f : AttnP → Bool) : List Nat :=
  (List.range 16).flatMap (fun m => (List.range 8).filterMap (fun i =>
    match s.attn m i with
    | some p => if (p.role = 1 ∨ p.role = 3) ∧ p.table = table ∧ f p = true then some (8 * m + i) else none
    | none => none))

/-- The pages of a closed sequence go back and its descriptor is cleared, once no stage reads it (R177). -/
def State.closeSeq (s : State) (k : Nat) : State :=
  let d := s.seq k
  if d.closing ∧ s.ops.reads.any (fun r => r.slot = k) = false then
    let held := d.allPages.filterMap (fun e =>
      let a := s.kvPage d e.1 e.2
      if a = 0 then none else hbmPage a)
    let s := held.foldl (fun s p => s.dropRun d.ctx p 1) s
    let s := s.dropRun d.ctx ((d.pageList - hbmBase) / 65536) d.listPages
    let s := { s with ops := { s.ops with readers := Tbl.erase s.ops.readers k } }
    s.setSeq k {}
  else s

/-- The reads of a stage's item of one sequence are finished (R175). -/
def State.endReads (s : State) (m i k : Nat) : State :=
  let s := { s with ops := { s.ops with
    reads := s.ops.reads.filter (fun r => !(r.mill = m && r.stage = i && r.slot = k))
    readers := Tbl.set s.ops.readers k (remN (Tbl.getD s.ops.readers k []) (8 * m + i)) } }
  s.closeSeq k

/-- The stages of a mill end whatever they read or wait for: their items are abandoned (R189). -/
def State.endMillReads (s : State) (m : Nat) : State :=
  let gone := (s.ops.reads.filter (fun r => r.mill = m)).foldl (fun l r => addN l r.slot) []
  let s := { s with ops := { s.ops with
    reads := s.ops.reads.filter (fun r => r.mill ≠ m)
    waits := s.ops.waits.filter (fun r => r.mill ≠ m)
    readers := s.ops.readers.map (fun (e : Nat × List Nat) => (e.1, e.2.filter (fun n => n / 8 ≠ m)))
    sides := s.ops.sides.filter (fun x => x.mill ≠ m) } }
  gone.foldl (fun s k => s.closeSeq k) s

/-- In sequence mode a position is committed when every module has committed it: how far the others have come is not known here, and
committed advances by a free part of what this module has written (R186; log entry 33). -/
def State.advance (s : State) (k : Nat) (p : AttnP) : State :=
  let d := s.seq k
  if d.written ≤ d.committed then s
  else if p.modMode = 2 then
    (s.setSeq k { d with committed := d.committed + Config.freeWord s.freeN % (d.written + 1 - d.committed) }).drew 1
  else s.setSeq k { d with committed := d.written }

/-- The d_h elements of a position of ring r, with their tags; `bad`: HBM ranges whose reads have failed (R170, R178). -/
def State.kvElems (s : State) (d : SeqDesc) (bad : List (Nat × Nat × Nat)) (r pos : Nat) : List Elem :=
  let q := d.slotOf pos
  let page := s.kvPage d r (q / d.pt)
  let g := q % d.pt / d.tg
  let t := q % d.tg
  let eb := kvBytes d.format
  (List.range (d.dim / 32)).flatMap (fun cb =>
    let a := page + g * 4096 + (t * d.dim + 32 * cb) * eb
    let tag := leNat (s.local (page + 61440 + g * (d.tg * d.dim / 32) + t * (d.dim / 32) + cb) 1)
    let st := worst [s.memStatus a (32 * eb), rangesStatus bad a (32 * eb), if tag = 255 then 3 else 0]
    blockOperand d.format 0 0 tag st (unpackCodes (8 * eb) 32 (s.local a (32 * eb))))

/-- A step may read its key positions: its stage has registered the read, and every position that is not padding is committed and,
in a decode step, stands in the pages of its split (R174, R181). -/
def State.mayRead (s : State) (m i : Nat) (p : AttnP) (k : Nat) (job : StageJob) : Bool :=
  let d := s.seq k
  d.isOpen && s.ops.reads.any (fun r => r.mill = m && r.stage = i && r.slot = k) &&
  job.kpos.all (fun e => e.2 ||
    (decide (e.1 < d.committed) && (!job.decode || has (splitPages p d job.qpos) (d.pageOf e.1)))) &&
  (!job.decode || job.kpos ≠ [] || splitPages p d job.qpos = [])

/-- The key-value head of row r of a step, as the module numbers it; none for a head that it does not hold. -/
def AttnP.localHead (p : AttnP) (job : StageJob) (r : Nat) : Option Nat :=
  let h := (job.head + r) / p.group
  if p.headFirst ≤ h ∧ h < p.headFirst + p.headCount then some (h - p.headFirst) else none

/-- KV_READ_RESUME (R174, R177): a read proceeds once committed exceeds its position, else it waits; of a closing or
closed sequence it reads nothing. -/
def execKvReadResume (m i slot pos granules idx wait : Nat) (s : State) : Out :=
  match s.attn m i with
  | none => .next s
  | some p =>
    if (p.role ≠ 1 ∧ p.role ≠ 3) ∨ s.millWorks m = false then .next s
    else
      let k := descPlace p slot
      let w : KvWait := { mill := m, stage := i, slot := k, pos := pos }
      let s := (s.bump (Reg.mlKvWait (m % 16)) wait).advance k p
      let d := s.seq k
      let t := { s with ops := { s.ops with waits := s.ops.waits.filter (fun x => x ≠ w) } }
      if d.isOpen = false ∨ d.closing then .next (t.finishAt (((t.mill m).sec.map Section.ctx).getD 0) idx 0x0B 0)
      else if d.committed ≤ pos then .next { t with ops := { t.ops with waits := t.ops.waits ++ [w] } }
      else .next (({ t with ops := { t.ops with reads := t.ops.reads ++ [w] } }).bump (Reg.mlKvRd m) granules)

/-- SEQUENCE_CLOSE (R177). -/
def execSequenceClose (m i slot : Nat) (s : State) : Out :=
  match s.attn m i with
  | none => .next s
  | some p =>
    let k := descPlace p slot
    let d := s.seq k
    if d.isOpen then .next ((s.setSeq k { d with closing := true }).closeSeq k) else .next s

/-! ### Writes (R174–R178) -/

/-- Pages of the positions of a step that no page-list entry names yet. -/
def State.newPages (s : State) (p : AttnP) (d : SeqDesc) (p0 count : Nat) : List (Nat × Nat) :=
  let is := ((List.range count).map (fun j => d.slotOf (p0 + j))).foldl (fun l q =>
    if ownsSlot p d q then addN l (q / d.pt) else l) []
  (List.range d.rings).flatMap (fun r => (is.filter (fun i => s.kvPage d r i = 0)).map (fun i => (r, i)))

/-- One block of 32 elements of position j of ring r, with its tag (R170). -/
def State.kvBlock (s : State) (p : AttnP) (d : SeqDesc) (r pos cb : Nat) (b : OutBlock) : State :=
  let q := d.slotOf pos
  if ownsSlot p d q = false then s
  else
    let page := s.kvPage d r (q / d.pt)
    let g := q % d.pt / d.tg
    let t := q % d.tg
    let eb := kvBytes d.format
    let s := s.putMem (page + g * 4096 + (t * d.dim + 32 * cb) * eb) (packCodes (8 * eb) b.codes)
    s.putMem (page + 61440 + g * (d.tg * d.dim / 32) + t * (d.dim / 32) + cb) [BitVec.ofNat 8 b.tag]

/-- The blocks of a step, in the order in which they come: ring by ring, position by position, 32 elements each (log entry 33). -/
def State.kvBlocks (s : State) (p : AttnP) (d : SeqDesc) (p0 count : Nat) (bs : List OutBlock) : State :=
  let n := d.dim / 32
  (bs.zip (List.range (d.rings * count * n))).foldl (fun s e =>
    s.kvBlock p d (e.2 / (count * n)) (p0 + e.2 / n % count) (e.2 % n) e.1) s

/-- Granules that a step touches, over all rings. -/
def kvGranules (p : AttnP) (d : SeqDesc) (p0 count : Nat) : Nat :=
  d.rings * (((List.range count).map (fun j => d.slotOf (p0 + j))).foldl (fun l q =>
    if ownsSlot p d q then addN l (q / max d.tg 1) else l) []).length

/-- An item of a sequence completes with a status. -/
def State.seqEnd (s : State) (m idx status : Nat) : State :=
  s.finishAt (((s.mill m).sec.map Section.ctx).getD 0) idx status 0

/-- The stages whose reads of a written step the next step's writes wait for (R175): in a decode step those whose split has pages of
it, in a prefill step, which is not split, those of split 0 (log entry 33). -/
def State.stepReaders (s : State) (p : AttnP) (d : SeqDesc) (decode : Bool) (qpos : Nat) : List Nat :=
  s.readersOf p.table (fun x => if decode then splitPages x d qpos ≠ [] else x.split = 0)

/-- A sequence has reads of its last step to come or in progress (R175). -/
def State.stillRead (s : State) (k : Nat) : Bool :=
  Tbl.getD s.ops.readers k [] ≠ [] || (s.ops.reads ++ s.ops.waits).any (fun r => r.slot = k)

/-- KV_WRITE_STEP (R174–R178): only after every read of the step before; a step that lacks pages, passes max_tokens or
has no program writes nothing. The first step of a free slot opens its sequence (log entry 33). -/
def execKvWriteStep (m i slot seqId layer maxTokens p0 count idx : Nat) (decode fail : Bool) (pages : List Nat) (job : StageJob)
    (s : State) : Out :=
  match s.attn m i with
  | none => .next s
  | some p =>
    let k := descPlace p slot
    let d0 := s.seq k
    if p.role ≠ 4 ∨ 4096 ≤ slot ∨ s.stageWorks m i = false ∨ count = 0 ∨ maxTokens = 0 ∨
        1048576 < maxTokens ∨ s.stillRead k ∨ operFits 8 true job.op = false ∨ s.tokensBack m i job.tokens = false then .next s
    else match s.takeParcels m i job.takes with
      | none => .next s
      | some t =>
        let rs := s.operate m none job.op
        let len := if d0.ring ∧ d0.window ≤ p0 + count then d0.window else p0 + count
        let b := bucketOf len
        let t := (if decode then t.bump (Reg.mlBucketItems m b) 1 else t).dropTokens m i job.tokens
        if d0.closing ∨ (decode ∧ bitN p.buckets b = false) then .next (t.seqEnd m idx 0x0B)
        else match (if d0.isOpen then some t else t.openSeq k m p layer seqId maxTokens pages) with
          | none => .next (t.seqEnd m idx 0x0B)
          | some u =>
            let d := u.seq k
            if d.maxTokens < p0 + count then .next (t.seqEnd m idx 0x0B)
            else if rs.length ≠ d.rings * count * d.dim then .next s
            else match u.addPages k d (u.newPages p d p0 count) pages with
              | none => .next (t.seqEnd m idx 0x0B)
              | some v =>
                let o := v.tail m i { job with format := d.format } rs
                let d := v.seq k
                let w := o.2.kvBlocks p d p0 count o.1
                if fail ∨ (s.tokens m i job.tokens).any (fun r => r.status = 2) then .next (w.seqEnd m idx 0x02)
                else
                  let w := w.bump (Reg.mlKvWr m) (kvGranules p d p0 count)
                  let w := if p0 ≤ d.written then w.setSeq k { d with written := max d.written (p0 + count) } else w
                  let w := w.advance k p
                  .next { w with ops := { w.ops with readers := Tbl.set w.ops.readers k (w.stepReaders p d decode (p0 + count - 1)) } }

/-! ### Length buckets (R179, R180) -/

/-- A prefill batch: the oldest items of a bucket, at most 64 and at most 131,072 padded positions. -/
def batchSize (b : Nat) : Nat := min 64 (131072 / bucketBound b)

/-- The union of bucket_mask over a mill's stages. -/
def bodyBuckets (body : Bytes) : Nat :=
  (List.range 8).foldl (fun a i => a ||| ((bodyAttn body i).map (·.buckets)).getD 0) 0

/-- The prefill items of a bucket at a mill. -/
def State.prefillOf (s : State) (m b : Nat) : List PrefillItem := Tbl.getD s.ops.prefill (8 * m + b) []
def State.setPrefill (s : State) (m b : Nat) (l : List PrefillItem) : State :=
  { s with ops := { s.ops with prefill := Tbl.set s.ops.prefill (8 * m + b) l } }

/-- PREFILL_DISPATCH (R180): the items that have come join their buckets, one without a program completes with
QUOTA_EXCEEDED; a batch that is full, or whose oldest item has waited 200 µs, is dispatched. -/
def execPrefillDispatch (m b : Nat) (join : List (Nat × Nat × Nat)) (s : State) : Out :=
  let mask := bodyBuckets (s.millBody m)
  let s := join.foldl (fun s e =>
    let k := bucketOf e.2.2
    let it : PrefillItem := { ctx := e.1, idx := e.2.1, len := e.2.2, since := s.now }
    if bitN mask k = false ∨ 131072 < e.2.2 ∨ e.2.2 = 0 then s.finishAt e.1 e.2.1 0x0B 0
    else s.setPrefill m k (s.prefillOf m k ++ [it])) s
  let q := s.prefillOf m b
  let n := batchSize b
  let due := match q with
    | it :: _ => n ≤ q.length || it.since + 200000 ≤ s.now
    | [] => false
  if due = false ∨ 16 ≤ m ∨ s.millWorks m = false then .next s
  else .next ((s.setPrefill m b (q.drop n)).bump (Reg.mlBucketItems m b) (q.take n).length)

/-! ### Scores, probabilities and values (R164, R166–R168, R180, R182) -/

/-- The score tailrace: × c in FP32, and −∞ exactly where a mask applies. -/
def scoreRes (p : AttnP) (qpos : Nat) (kpos : List (Nat × Bool)) (rs : List Res) : List Res :=
  (rs.zip (List.range rs.length)).map (fun e =>
    let k := nth kpos e.2 (qpos, false)
    let masked := (bitN p.masks 0 && qpos < k.1) || (bitN p.masks 1 && k.1 + p.window ≤ qpos) || (bitN p.masks 2 && k.2)
    if masked then { v := .inf true, b := some Dy.zero, mask := true }
    else
      let y := mul32 e.1.v.to32 p.scale
      { e.1 with v := f32.decode y, b := boundAdd (boundMul (mag32 p.scale) e.1.b) (vecRho y) })

/-- Rows of a step with their numbers; rows that are padding are computed, but not emitted (R180). -/
def liveRows (job : StageJob) (n : Nat) (xs : List Elem) : List (List Elem × Nat) :=
  let rs := chunksOf n (xs.length / max n 1) xs
  (rs.zip (List.range rs.length)).filter (fun e => !(nth job.rowPad e.2 false))

/-- A QK_SCORE step: the rows of queries against its key positions, FP32 (R164, R166, R167). -/
def State.scoreStep (s : State) (m i : Nat) (p : AttnP) (job : StageJob) (q : Source) (slot : Nat) : Option State :=
  let k := descPlace p slot
  let d := s.seq k
  let x := s.operand m none q
  let rows := liveRows job d.dim x.elems
  let bad := s.badRanges m i job
  if s.mayRead m i p k job = false ∨ stoneMode x.fmt d.format = false ∨ rows.any (fun e => (p.localHead job e.2).isNone) then none
  else
    let rs := rows.flatMap (fun e =>
      let r := 2 * (p.localHead job e.2).getD 0
      scoreRes p job.qpos job.kpos (job.kpos.map (fun kp =>
        dotRes x.fmt 0 0 e.1 (if kp.2 then List.replicate d.dim zeroElem else s.kvElems d bad r kp.1))))
    let job := { job with format := 1 }
    (s.stageEmit m i job s.freeN (fun t => t.tails m i job [rs])).map (fun t =>
      let t := if bitN p.masks 2 then t.bump (Reg.mlPadKeys m) (job.kpos.filter (·.2)).length else t
      if job.last then t.endReads m i k else t)

/-- β of a split's weight: (e^(2ε) − 1) + (⌈n ÷ 32⌉ + 6) × u (R182). -/
def splitBeta (eps : Bound) (n : Nat) : Bound := boundAdd (eps.bind expTwice) (rowU n 6)

/-- What a row of scores leaves for its partial (R182): the largest score, Σ exp(s_j − m) as the unit holds it, β and n. -/
def sideOf (m step head : Nat) (xs : List Elem) (free : Nat) : Side :=
  let r := softRow xs
  let n := r.live.length
  { mill := m, step := step, head := head, m := r.top, n := n, beta := boundCode (splitBeta r.eps n)
    l := if n = 0 then 0 else if r.fin then looseCode r.sum (boundMul (rowU n 5) (boundUp r.sum)) free else 0x7FC00000 }

/-- An ATTN_SOFTMAX step: each row's probabilities in the format of V; a decode step keeps what its partials need. -/
def State.softStep (s : State) (m i : Nat) (p : AttnP) (job : StageJob) (n : Nat) (x : Source) : Option State :=
  let es := (s.operand m none x).elems
  let rows := liveRows job n es
  let rs := rows.flatMap (fun e => softmaxRes (s.freeN + e.2 * n) e.1)
  let base := s.freeN + es.length
  let step := s.itemSeq m job
  let sides := rows.map (fun e => sideOf m step (job.head + e.2) e.1 (Config.freeWord (base + e.2)))
  let old (y : Side) : Bool := y.mill = m && sides.any (fun z => z.step = y.step && z.head = y.head)
  let job := { job with format := p.fmt }
  if n = 0 then none
  else (s.stageEmit m i job (base + rows.length) (fun t => t.tails m i job [rs])).map (fun t =>
    if job.decode then { t with ops := { t.ops with sides := t.ops.sides.filter (fun y => !old y) ++ sides } } else t)

/-- Blocks of a head's partial: d_h elements and the side block (R182). -/
def partialBlocks (dim : Nat) : Nat := dim / 32 + 1

/-- The side block of a partial: m, l, β and n; tag 0, or 255 with the partial's status where that is not OK (R68, R182). -/
def sideBlock (x : Side) (status : Nat) : OutBlock :=
  { codes := [x.m, x.l, x.beta, (Dy.ofInt (x.n : Int)).toF32 false] ++ List.replicate 28 0
    tag := if status = 0 then 0 else 255, status := status }

/-- The partials of a decode step, row by row. -/
def State.partialTails (s : State) (m i : Nat) (job : StageJob) : List (List Res × Side) → List OutBlock × State
  | [] => ([], s)
  | e :: rest =>
    let o := s.tail m i job e.1
    let t := o.2.partialTails m i job rest
    (o.1 ++ [sideBlock e.2 (worst (o.1.map (·.status)))] ++ t.1, t.2)

/-- What the split's softmax left for a row, that of an empty result where the split has no pages (R181, R182). -/
def State.sideFor (s : State) (m step head : Nat) (job : StageJob) : Option Side :=
  if job.kpos = [] then some { mill := m, step := step, head := head, m := f32.infCode true, l := 0, beta := boundCode (splitBeta (some Dy.zero) 0), n := 0 }
  else s.ops.sides.find? (fun y => y.mill = m && y.step = step && y.head = head)

/-- A PV_VALUE step: rows of probabilities times the values at its positions; in a decode step each row's result leaves as a partial
in FP32 (R166, R182). -/
def State.valueStep (s : State) (m i : Nat) (p : AttnP) (job : StageJob) (x : Source) (slot : Nat) : Option State :=
  let k := descPlace p slot
  let d := s.seq k
  let x := s.operand m none x
  let n := job.kpos.length
  let rows := if n = 0 then (List.range p.group).map (fun r => ([], r)) else liveRows job n x.elems
  let bad := s.badRanges m i job
  let step := s.itemSeq m job
  let sides := rows.map (fun e => s.sideFor m step (job.head + e.2) job)
  if s.mayRead m i p k job = false ∨ (n ≠ 0 ∧ stoneMode x.fmt d.format = false) ∨ (n = 0 ∧ job.decode = false) ∨
      rows.any (fun e => (p.localHead job e.2).isNone) ∨ (job.decode ∧ sides.any (·.isNone)) then none
  else
    let rs := rows.map (fun e =>
      let r := 2 * (p.localHead job e.2).getD 0 + 1
      let vs := job.kpos.map (fun kp => if kp.2 then List.replicate d.dim zeroElem else s.kvElems d bad r kp.1)
      (List.range d.dim).map (fun c => dotRes x.fmt 0 0 e.1 (vs.map (fun v => nth v c zeroElem))))
    let done (t : State) : State :=
      let t := { t with ops := { t.ops with sides := t.ops.sides.filter (fun y =>
        !(job.decode && y.mill = m && y.step = step && rows.any (fun e => y.head = job.head + e.2))) } }
      if job.last then t.endReads m i k else t
    if job.decode then
      let job := { job with format := 1, offset := job.head * partialBlocks d.dim }
      (s.stageEmit m i job s.freeN (fun t => t.partialTails m i job (rs.zip (sides.filterMap id)))).map done
    else (s.stageEmit m i job s.freeN (fun t => t.tails m i job rs)).map done

/-- A ROTARY step: heads of d_h elements, one position each, in the format of the cache (R164, R168). -/
def State.rotaryStep (s : State) (m i : Nat) (p : AttnP) (job : StageJob) (x : Source) (pos : List Nat) : Option State :=
  let dim := headDim p.dimCode
  let rows := liveRows job dim (s.operand m none x).elems
  let rs := rows.flatMap (fun e => rotaryRes (s.freeN + e.2 * dim) dim p.scale (nth pos e.2 0) e.1)
  let job := { job with format := p.fmt }
  s.stageEmit m i job (s.freeN + rows.length * dim) (fun t => t.tails m i job [rs])

/-! ### The merge of partials (R182–R189) -/

/-- A block of a partial as it arrives: 32 FP32 codes, tag, status. -/
structure PartBlock where
  codes : List Nat
  tag : Nat
  status : Nat
  deriving DecidableEq, Repr

def Parcel.partBlocks (p : Parcel) : List PartBlock :=
  (List.range p.blocks).map (fun b =>
    { codes := unpackCodes 32 32 (p.payload.drop (128 * b)), tag := nth p.tags b 255, status := nth p.status b 0 })

/-- Partials that a merge collective has written to memory, with their tag plane (R186, R419). -/
def State.memParts (s : State) : Source → List PartBlock
  | .mem addr _ _ count _ tags =>
    (List.range (count / 32)).map (fun b =>
      let tag := match tags with
        | some a => leNat (s.local (a + b) 1)
        | none => 0
      { codes := unpackCodes 32 32 (s.local (addr + 128 * b) 128), tag := tag
        status := worse (s.memStatus (addr + 128 * b) 128) (if tag = 255 then 3 else 0) })
  | _ => []

/-- A partial out of its blocks: d_h elements and the side block (R182). -/
def partialOf (bs : List PartBlock) : Partial :=
  let o := bs.dropLast
  let side := (bs.getLast?.map (·.codes)).getD []
  { o := o.flatMap (·.codes), m := nth side 0 0, l := nth side 1 0, beta := nth side 2 0
    n := ((dy32 (nth side 3 0)).floor).toNat, tags := o.map (·.tag), status := worst (bs.map (·.status)) }

/-- A partial arrives at its merge (R183). -/
def State.addPartial (s : State) (m i step head : Nat) (p : Partial) : State :=
  let is (x : Merge) : Bool := x.mill = m && x.stage = i && x.step = step && x.head = head
  match s.ops.merges.find? is with
  | some x =>
    let y : Merge := { x with partials := x.partials ++ [p] }
    { s with ops := { s.ops with merges := replaceFirst is y s.ops.merges } }
  | none =>
    let y : Merge := { mill := m, stage := i, step := step, head := head, partials := [p] }
    { s with ops := { s.ops with merges := s.ops.merges ++ [y] } }

/-- One step of an ATTN_MERGE stage that is not the emission: it takes whole partials, from parcels, whose item number is the step and
whose offset tells the query head, or from a merge collective's buffer for the step and the first head that the job names (log
entry 33). -/
def State.collectPartial (s : State) (m i : Nat) (p : AttnP) (job : StageJob) (xs : List Source) : Option State :=
  let nb := partialBlocks (headDim p.dimCode)
  let ps := job.takes.filterMap (fun q => (Tbl.getD (s.mill m).hopper q []).head?)
  let bs := ps.flatMap Parcel.partBlocks ++ xs.flatMap s.memParts
  let off := ((ps.head?).map (·.off)).getD (job.head * nb)
  let step := s.itemSeq m job
  if bs = [] ∨ bs.length % nb ≠ 0 ∨ off % nb ≠ 0 ∨ s.tokensBack m i job.tokens = false ∨ (p.modMode = 2 ∧ p.modIndex ≠ 0) then none
  else (s.takeParcels m i job.takes).map (fun t =>
    let gs := chunksOf nb (bs.length / nb) bs
    (gs.zip (List.range gs.length)).foldl (fun t e => t.addPartial m i step (off / nb + e.2) (partialOf e.1))
      (t.dropTokens m i job.tokens))

/-- S of R183, R186. -/
def AttnP.expected (p : AttnP) : Nat := if p.modMode = 2 then p.modCount * p.splits else p.splits

/-- M_i: the largest ∣o_k,i∣. -/
def mergeTop (ps : List Partial) (j : Nat) : Bound := boundMaxL (ps.map (fun p => mag32 (nth p.o j 0)))

/-- The bound of element j of a merge without ρ_out (R184). -/
def mergeBound (ps : List Partial) (j : Nat) : Bound :=
  let top := mergeTop ps j
  let ok := ps.all (fun p => finite32 p.beta && (dy32 p.beta).le ⟨1, -6⟩)
  if ok = false then none
  else
    let each := ps.map (fun p =>
      let b := j / 32
      let blk := (p.o.drop (32 * b)).take 32
      let eps := if p.status ≠ 0 then none else tagBound (nth p.tags b 255) (scaleExp (blk.map dy32))
      let w := boundMul (boundMul (some ⟨33, -5⟩) (mag32 p.beta)) (boundAdd (mag32 (nth p.o j 0)) top)
      boundAdd eps w)
    boundAdd (boundSum each) (boundMul (boundMul (some ⟨(ps.length + 4 : Nat), 0⟩) unitU) top)

/-- m and w_k = l_k × exp(m_k − m), 0 for an empty result (R183). -/
def mergeWeights (ps : List Partial) : List Dy :=
  let live := ps.filter (fun p => p.l % 2 ^ 31 ≠ 0)
  let m := (live.drop 1).foldl (fun a p => max32 a p.m) ((live.head?.map (·.m)).getD 0)
  ps.map (fun p => if p.l % 2 ^ 31 = 0 then Dy.zero else (dy32 p.l).mul (expDy ((dy32 p.m).sub (dy32 m))))

/-- Element j of a merge: y = Σ w_k o_k ÷ Σ w_k, within the merge's own rounding (R183, R184). Where no partial has any weight the
spec states no result. -/
def mergeElem (ps : List Partial) (j free : Nat) : Res :=
  let ws := mergeWeights ps
  let total := Dy.sum ws
  let fin := ps.all (fun p => p.l % 2 ^ 31 = 0 || (finite32 p.m && finite32 p.l && finite32 (nth p.o j 0)))
  let st := worst (ps.map (·.status))
  if fin = false then { v := .nan, b := none, st := st }
  else if total.m ≤ 0 then { v := f32.decode (free % 2 ^ 32), b := none, st := st }
  else
    let y := (Dy.sum (List.zipWith (fun w p => w.mul (dy32 (nth p.o j 0))) ws ps)).div total
    let c := looseCode y (boundMul (boundMul (some ⟨(ps.length + 3 : Nat), 0⟩) unitU) (mergeTop ps j)) free
    { v := f32.decode c, b := mergeBound ps j, st := st }

/-- A Phirov link that carries partials of a context has gone down: a merge collective of it has a member that is not up. -/
def State.mergeLost (s : State) (ctx : Nat) : Bool :=
  (List.range (leatGroups (s.body 2 0))).any (fun g =>
    let gr := leatGroup (s.body 2 0) g
    gr.op = 4 && gr.ctx = ctx && gr.members.any (fun x => x ≠ s.moduleId && (s.peer x).state ≠ .up))

/-- ATTN_MERGE_EMIT (R183, R184, R186, R187): when the last partial has arrived, or with LINK_DOWN when a link that carries
partials of the step has gone down; at module index 0 in sequence mode. -/
def execAttnMergeEmit (m i step head wait : Nat) (down : Bool) (job : StageJob) (s : State) : Out :=
  match s.attn m i with
  | none => .next s
  | some p =>
    let x := (s.ops.merges.find? (fun x => x.mill = m && x.stage = i && x.step = step && x.head = head)).getD
      { mill := m, stage := i, step := step, head := head, partials := [] }
    let lost := down && p.modMode = 2 && s.mergeLost (((s.mill m).sec.map Section.ctx).getD 0)
    if p.role ≠ 5 ∨ s.millWorks m = false ∨ (p.modMode = 2 ∧ p.modIndex ≠ 0) ∨ (lost = false ∧ x.partials.length < p.expected) then .next s
    else
      let s := s.bump (Reg.mlMergeWait m) wait
      let dim := headDim p.dimCode
      let rs := (List.range dim).map (fun j =>
        let r := mergeElem x.partials j (Config.freeWord (s.freeN + j))
        if lost then { r with st := worse r.st 0x12 } else r)
      let o := (s.drew dim).tail m i job rs
      match o.2.stageOut m i job step o.1 with
      | none => .next s
      | some t =>
        let t := { t with ops := { t.ops with merges := t.ops.merges.filter (fun y => y ≠ x) } }
        .next (if lost then t.seqEnd m step 0x12 else t)

/-- The partials of steps whose request is over are discarded at the merges, and their credits return (R189). -/
def State.discardMerges (s : State) (steps : List Nat) : State :=
  let gone := s.ops.merges.filter (fun x => has steps x.step)
  let s := gone.foldl (fun s x => s.bump (Reg.mlMergeDiscard x.mill) x.partials.length) s
  let s := { s with ops := { s.ops with merges := s.ops.merges.filter (fun x => !has steps x.step) } }
  (List.range 128).foldl (fun s n =>
    match s.attn (n / 8) (n % 8) with
    | some p => if p.role ≠ 5 then s else
        (List.range 8).foldl (fun s q =>
          if (hopperCfg (s.millBody (n / 8)) q).stage = n % 8 ∧ (hopperCfg (s.millBody (n / 8)) q).depth ≠ 0 then
            s.dropParcels (n / 8) q (fun x => has steps x.seq)
          else s) s
    | none => s) s

end Sys2Proof.Machine
end

