-- ==== Sys2Proof/Machine/Ledger.lean ====
section
/-!
DEFINITION. The snapshot of the ledger (R42).
-/
namespace Sys2Proof.Machine

/-- LG_SNAP_CTRL (R42): ignored while busy. -/
def execLgSnapCtrl (v : Nat) (s : State) : Out :=
  let x := s.ledger.snap
  if x.busy then .next { s with ledger := { s.ledger with snap := { x with ignored := true } } }
  else .next { s with ledger := { s.ledger with snap := { x with busy := true, valid := false, ignored := false }
                                                snapReq := v % 512 } }

/-- SNAP_CAPTURE_DONE (R42): all six counts of one edge; a reserved index reads as zero. -/
def execSnapCaptureDone (s : State) : Out :=
  if s.ledger.snap.busy then
    let p := s.ledger.snapReq
    .next { s with ledger := { s.ledger with snap :=
      { busy := false, valid := true, ignored := s.ledger.snap.ignored, pool := p
        counts := if poolReserved p then {} else s.pool p } } }
  else .next s

end Sys2Proof.Machine
end

