-- ==== Sys2Proof/Machine/Scan.lean ====
section
/-!
DEFINITION. Recurrent operators (R191–R202): a step of each kind of layer on its FP32 state, with the error bound that each block of
32 state elements carries.
-/
namespace Sys2Proof.Machine

/-- The state of a layer: FP32 codes, and one bound word per 32 elements (R198, R199). -/
structure RecState where
  h : List Nat
  e : List Nat
  deriving DecidableEq, Repr

/-- Zero state with E = 0 (R199, R201). -/
def RecState.zero (n : Nat) : RecState := { h := List.replicate n 0, e := List.replicate ((n + 31) / 32) 0 }

/-- A state slot's bytes, and back (R198). -/
def RecState.bytes (x : RecState) : Bytes := (x.h ++ x.e).flatMap (le 4)
def recState (n : Nat) (b : Bytes) : RecState :=
  let w := unpackCodes 32 (n + (n + 31) / 32) b
  { h := w.take n, e := w.drop n }

/-- Element i of a state with the bound of its block. -/
def RecState.elem (x : RecState) (i : Nat) : Elem := elem32 (nth x.h i 0) (codeBound (nth x.e (i / 32) 0))

/-- A state from its elements, each with its own bound: a block keeps the largest, rounded upward (R199). -/
def recOf (es : List (Nat × Bound)) : RecState :=
  { h := es.map (·.1), e := (chunksOf 32 (es.length / 32 + 1) es).map (fun g => boundCode (boundMaxL (g.map (·.2)))) }

/-- A bound word is not finite (R200). -/
def RecState.bad (x : RecState) : Bool := x.e.any (fun w => !finite32 w)

/-- A result as the operand of the next operation on the same unit. -/
def Res.elem (r : Res) : Elem := { v := r.v.to32, x := r.v, e := r.b, st := r.st }

/-- ⌈log2 n⌉. -/
def clog2 (n : Nat) : Nat := if n ≤ 1 then 0 else Nat.log2 (n - 1) + 1

/-- h = a ⊙ h' + u within the rounding that R199 allows a scan of T steps, which part of it is the free value `free`, and its bound. -/
def scanElem (T free : Nat) (a u h : Elem) : Nat × Bound :=
  let mags := boundAdd (boundMul a.mag h.mag) u.mag
  let k (n : Nat) : Bound := boundMul (boundMul (some ⟨((clog2 T + n : Nat) : Int), 0⟩) unitU) mags
  let fin := a.x.dy.isSome && u.x.dy.isSome && h.x.dy.isSome
  let y := (a.x.get.mul h.x.get).add u.x.get
  (if fin then looseCode y (k 1) free else fma32 a.v h.v u.v,
   boundAdd (boundAdd (boundAdd (boundMul a.mag h.e) (boundMul h.mag a.e)) u.e) (k 2))

/-- The results that leave a step: state elements `first` … with the bounds of their blocks, and what `ins` hand on to each. -/
def RecState.results (x : RecState) (first n : Nat) (ins : Nat → List Elem) : List Res :=
  (List.range n).map (fun i =>
    let e := x.elem (first + i)
    ({ v := e.x, b := e.e } : Res).from (ins i))

/-! ### Elementwise operations on FP32 elements (R61, R76) -/

def eAdd (a b : Elem) : Elem := (binaryRes .add a b zeroElem).elem
def eSub (a b : Elem) : Elem := (binaryRes .sub a b zeroElem).elem
def eMul (a b : Elem) : Elem := (binaryRes .mul a b zeroElem).elem
def eExp (free : Nat) (x : Elem) : Elem := (specialRes .exp free x).elem
def eLogistic (free : Nat) (x : Elem) : Elem := (specialRes .logistic free x).elem
def eScale (c : Nat) (x : Elem) : Elem := (unaryRes (.scale c) x).elem
/-- tanh x = 2 σ(2x) − 1: R76 has no function of its own for it (PRESUMED, log entry 53). -/
def eTanh (free : Nat) (x : Elem) : Elem := eSub (eScale 0x40000000 (eLogistic free (eScale 0x40000000 x))) (elem32 one32 (some Dy.zero))

/-! ### A step of each kind (R191, R199) -/

/-- LINEAR_DIAG: h_t = a_t ⊙ h_(t−1) + u_t; the output is h_t. -/
def diagStep (T c base : Nat) (a u : List Elem) (x : RecState) : RecState × List Res :=
  let y := recOf ((List.range c).map (fun i =>
    scanElem T (Config.freeWord (base + i)) (nth a i zeroElem) (nth u i zeroElem) (x.elem i)))
  (y, y.results 0 c (fun i => [nth a i zeroElem, nth u i zeroElem]))

/-- SSM: h_cn = exp(Δ A_cn) h_cn + Δ B_n x_c and y_c = Σ_n C_n h_cn + D_c x_c; Δ is one value of the step or one of each channel. -/
def ssmStep (T c n base : Nat) (dt a b cc d xs : List Elem) (x : RecState) : RecState × List Res :=
  let del (ch : Nat) : Elem := nth dt (if dt.length = 1 then 0 else ch) zeroElem
  let y := recOf ((List.range (c * n)).map (fun i =>
    let ch := i / max n 1
    let g := eExp (Config.freeWord (base + 2 * i)) (eMul (del ch) (nth a i zeroElem))
    let u := eMul (eMul (del ch) (nth b (i % max n 1) zeroElem)) (nth xs ch zeroElem)
    scanElem T (Config.freeWord (base + 2 * i + 1)) g u (x.elem i)))
  (y, (List.range c).map (fun ch =>
    let hs := (List.range n).map (fun k => y.elem (ch * n + k))
    (vecDot (hs ++ [nth xs ch zeroElem]) (cc.take n ++ [nth d ch zeroElem])).from
      (del ch :: (a.drop (ch * n)).take n ++ b.take n)))

/-- CONV_SHORT: the kernel of channel c, oldest tap first, over the last k inputs; the state is the last k − 1 of them, oldest first. -/
def convStep (c k : Nat) (kern xs : List Elem) (x : RecState) : RecState × List Res :=
  let rows := (List.range ((k - 1) * c)).map x.elem ++ (List.range c).map (fun i => nth xs i zeroElem)
  (recOf ((rows.drop c).map (fun e => (e.v, e.e))),
   (List.range c).map (fun ch =>
    vecDot ((List.range k).map (fun j => nth rows (j * c + ch) zeroElem)) ((kern.drop (ch * k)).take k)))

/-- Rows of a recurrent product U h: `n` of them from row `first`. -/
def recurrent (c first n : Nat) (w : List Elem) (h : List Elem) : List Elem :=
  (List.range n).map (fun i => (vecDot h ((w.drop ((first + i) * c)).take c)).elem)

/-- GRU: gates z, r and the candidate n in that order (PRESUMED, log entry 53): z = σ(x_z + U_z h), r = σ(x_r + U_r h),
n = tanh(x_n + r ⊙ U_n h), h' = n + z ⊙ (h − n). -/
def gruStep (c base : Nat) (xs w : List Elem) (x : RecState) : RecState × List Res :=
  let h := (List.range c).map x.elem
  let g := recurrent c 0 (3 * c) w h
  let at' (k i : Nat) : Elem := nth g (k * c + i) zeroElem
  let inp (k i : Nat) : Elem := nth xs (k * c + i) zeroElem
  let es := (List.range c).map (fun i =>
    let z := eLogistic (Config.freeWord (base + 3 * i)) (eAdd (inp 0 i) (at' 0 i))
    let r := eLogistic (Config.freeWord (base + 3 * i + 1)) (eAdd (inp 1 i) (at' 1 i))
    let n := eTanh (Config.freeWord (base + 3 * i + 2)) (eAdd (inp 2 i) (eMul r (at' 2 i)))
    eAdd n (eMul z (eSub (nth h i zeroElem) n)))
  let y := recOf (es.map (fun e => (e.v, e.e)))
  (y, y.results 0 c (fun i => [nth es i zeroElem]))

/-- LSTM: gates i, f, g, o in that order (PRESUMED, log entry 53): c' = σ(f) ⊙ c + σ(i) ⊙ tanh(g), h' = σ(o) ⊙ tanh(c'); the state is h, then
c. -/
def lstmStep (c base : Nat) (xs w : List Elem) (x : RecState) : RecState × List Res :=
  let h := (List.range c).map x.elem
  let g := recurrent c 0 (4 * c) w h
  let pre (k i : Nat) : Elem := eAdd (nth xs (k * c + i) zeroElem) (nth g (k * c + i) zeroElem)
  let es := (List.range c).map (fun i =>
    let fr (k : Nat) : Nat := Config.freeWord (base + 5 * i + k)
    let cell := eAdd (eMul (eLogistic (fr 1) (pre 1 i)) (x.elem (c + i))) (eMul (eLogistic (fr 0) (pre 0 i)) (eTanh (fr 2) (pre 2 i)))
    (eMul (eLogistic (fr 3) (pre 3 i)) (eTanh (fr 4) cell), cell))
  let y := recOf (es.map (fun e => (e.1.v, e.1.e)) ++ es.map (fun e => (e.2.v, e.2.e)))
  (y, y.results 0 c (fun i => [(nth es i (zeroElem, zeroElem)).1]))

/-! ### Steps of a chunk -/

/-- Draws that a step of a layer may take. -/
def Layer.draws (l : Layer) : Nat := 2 * l.elements + 5 * l.c

/-- Elements that each input of a layer's steps has: (per step, whatever the number of steps). An SSM's Δ may be one value a step. -/
def Layer.inputs (l : Layer) : List (Nat × Nat) :=
  match l.kind with
  | 1 => [(l.c, 0), (l.c, 0)]
  | 2 => [(1, 0), (0, l.elements), (l.n + 1, 0), (l.n + 1, 0), (0, l.c), (l.c, 0)]
  | 3 => [(0, l.c * l.n), (l.c, 0)]
  | 4 => [(3 * l.c, 0), (0, 3 * l.c * l.c)]
  | 5 => [(4 * l.c, 0), (0, 4 * l.c * l.c)]
  | _ => []

/-- The inputs of `n` steps hold as many elements as the layer's kind takes. -/
def Layer.fits (l : Layer) (n : Nat) (ins : List (List Elem)) : Bool :=
  ins.length = l.inputs.length && (ins.zip l.inputs).all (fun e => decide (n * e.2.1 + e.2.2 ≤ e.1.length))

/-- Step t of a layer in a chunk of T steps. -/
def Layer.step (l : Layer) (T base n t : Nat) (ins : List (List Elem)) (x : RecState) : RecState × List Res :=
  let get (i : Nat) : List Elem := (ins[i]?).getD []
  let row (i w : Nat) : List Elem := ((get i).drop (t * w)).take w
  match l.kind with
  | 1 => diagStep T l.c base (row 0 l.c) (row 1 l.c) x
  | 2 =>
    let w := if n * l.c ≤ (get 0).length then l.c else 1
    ssmStep T l.c (l.n + 1) base (row 0 w) (get 1) (row 2 (l.n + 1)) (row 3 (l.n + 1)) (get 4) (row 5 l.c) x
  | 3 => convStep l.c l.n (get 0) (row 1 l.c) x
  | 4 => gruStep l.c base (row 0 (3 * l.c)) (get 1) x
  | 5 => lstmStep l.c base (row 0 (4 * l.c)) (get 1) x
  | _ => (x, [])

/-- Steps `p`, p + 1, … of a chunk, `n` of them: a mark at a step starts it from the zero state (R201, R202). -/
def Layer.run (l : Layer) (T base p n : Nat) (marks : List Nat) (ins : List (List Elem)) (x : RecState) : RecState × List Res :=
  (List.range n).foldl (fun (a : RecState × List Res) t =>
    let h := if has marks (p + t) then RecState.zero l.elements else a.1
    let r := l.step T (base + t * l.draws) n t ins h
    (r.1, a.2 ++ r.2)) (x, [])

end Sys2Proof.Machine
end

