-- ==== Sys2Proof/Machine/Streams.lean ====
section
/-!
DEFINITION. Recurrent streams (chapter 7): commands, chunks, the layer pipeline, state packages.
-/
namespace Sys2Proof.Machine

def State.strm (s : State) (n : Nat) : Stream := Tbl.getD s.streams n {}
def State.setStrm (s : State) (n : Nat) (x : Stream) : State := { s with streams := Tbl.set s.streams n x }

/-! ### State slots (R191, R198) -/

/-- Local address of the state slot of stream n in a layer. -/
def Layer.slot (l : Layer) (c : StreamCfg) (n : Nat) : Nat := l.mill * 0x4000000 + l.offset + (n - c.first) * l.stride

/-- Every layer's state becomes zero with bound 0 and takes a generation (R199, R205). -/
def State.zeroLayer (s : State) (n : Nat) (c : StreamCfg) (i gen : Nat) : State :=
  match c.layers[i]? with
  | none => s
  | some l =>
    let s := s.putMem (l.slot c n) (zeros l.slotBytes)
    s.setStrm n { s.strm n with layers := Tbl.set (s.strm n).layers i gen, bad := remN (s.strm n).bad i }

def State.zeroLayers (s : State) (n : Nat) (c : StreamCfg) (gen : Nat) : State :=
  (List.range c.layers.length).foldl (fun s i => s.zeroLayer n c i gen) s

/-- The generation after a raise; the counter is 32 bits wide. -/
def nextGen (g : Nat) : Nat := (g + 1) % 2 ^ 32

/-! ### Chunks (R195, R196, R201) -/

/-- A chunk from its bytes: header and data. -/
def chunkOf (b : Bytes) (req : Option (Nat × Nat)) : Chunk :=
  { gen := leAt b 4 4, seq := leAt b 8 4, steps := leAt b 2 2
    marks := (List.range (leAt b 12 1)).map (fun i => leAt b (16 + 2 * i) 2), endAfter := bitN (leAt b 13 1) 0
    data := b, req := req }

/-- A chunk's header breaks R195 or R201, its data with its planes has another length than its steps ask for, or it does not fit a
queue slot. -/
def chunkBad (c : StreamCfg) (b : Bytes) : Bool :=
  let k := leAt b 12 1
  let steps := leAt b 2 2
  let n := steps * c.channels
  b.length ≠ 32 + planeBytes c.format n + scaleBytes c.format n + planeBlocks n || c.slotPages * 65536 < b.length || 8 < k || steps = 0 || c.maxSteps < steps || leAt b 8 4 ≠ 0 ||
  1 < leAt b 13 1 || leAt b 14 2 ≠ 0 ||
  (List.range 8).any (fun i => let m := leAt b (16 + 2 * i) 2
                               if i < k then decide (steps < m) else decide (m ≠ 0xFFFF))

/-- The chunks that hold a slot of a stream's queue: those queued, and the one that layer 0 reads (R196). -/
def Stream.slotted (x : Stream) : List Chunk := x.queue ++ ((x.reading.map (fun r => r.chunk)).toList)

/-- The slot that a chunk takes: from its number on, the first that no chunk holds. -/
def Stream.freeSlot (x : Stream) (depth : Nat) : Nat :=
  ((List.range depth).find? (fun i => x.slotted.all (fun k => k.slot ≠ (x.nextSeq + i) % max depth 1))).elim 0 (fun i => (x.nextSeq + i) % max depth 1)

/-- The request of a chunk completes. -/
def State.chunkDone (s : State) (k : Chunk) (status : Nat) : State :=
  match k.req with
  | some e => s.finishAt e.1 e.2 status 0
  | none => s

/-- A chunk returns with STALE_GEN (R206). -/
def State.staleChunk (s : State) (k : Chunk) : State := (s.bump Reg.mpStreamStale 1).chunkDone k 0x05

/-- Queue pages of `n` chunks return (R196, R224). -/
def State.queuePages (s : State) (ctx : Nat) (c : StreamCfg) (n : Nat) : State :=
  s.move (hbmPool ctx) .held .returned (n * c.slotPages)

/-- Every queued chunk of a stream returns STALE_GEN and its pages return. -/
def State.staleQueue (s : State) (n ctx : Nat) (c : StreamCfg) : State :=
  let x := s.strm n
  let s := (s.setStrm n { x with queue := [] }).queuePages ctx c x.queue.length
  x.queue.foldl (fun s k => s.staleChunk k) s

/-! ### Commands (R204, R205) -/

/-- The accepted stream request with an op. -/
def State.streamAsk (s : State) (ctx idx op : Nat) : Option Request :=
  (s.request ctx idx).bind (fun r => if r.target = 2 && leAt r.body 0 1 = op && !r.begun then some r else none)

/-- Result of a stream command: generation and chunk count (R204). -/
def streamResult (gen chunks : Nat) : Nat := gen + put 32 16 chunks

/-- A stream command breaks its layout (R204). -/
def streamBad (b : Bytes) : Bool :=
  let op := leAt b 0 1
  (if op = 6 then 1 < leAt b 1 1 else leAt b 1 1 ≠ 0) || leAt b 24 8 ≠ 0 || 255 < leAt b 2 2 ||
  ((op = 1 || op = 7) && leAt b 4 4 ≠ 0) || 2 ^ 58 ≤ leAt b 8 8 || ((op ≠ 6 && op ≠ 7) && (leAt b 8 8 ≠ 0 || leAt b 16 8 ≠ 0))

/-- The checks every stream command passes first (R205); an END or EXPORT after an END that still waits counts as one in a state
that the table does not list. `k` goes on with the stream's number and its section. -/
def State.streamCmd (s : State) (ctx idx op : Nat) (states : List StreamState) (gen : Bool)
    (k : Request → Nat → StreamCfg → State) : State :=
  match s.streamAsk ctx idx op with
  | none => s
  | some r =>
    let n := leAt r.body 2 2
    let x := s.strm n
    if streamBad r.body then s.finish r 0x15 (streamResult x.gen 0) 0
    else match s.streamSection n with
      | none => s.finish r 0x0C (streamResult x.gen 0) 0
      | some c =>
        if c.1 ≠ ctx then s.finish r 0x0C (streamResult x.gen 0) 0
        else if gen ∧ leAt r.body 4 4 ≠ x.gen then s.finish r 0x05 (streamResult x.gen 0) 0
        else if states.contains x.state = false ∨ ((op = 5 ∨ op = 6) ∧ x.wait.isSome) then s.finish r 0x15 (streamResult x.gen 0) 0
        else k r n c.2

/-- START (R205). -/
def execStreamStart (ctx idx : Nat) (s : State) : Out :=
  .next (s.streamCmd ctx idx 1 [.free] false (fun r n c =>
    let g := nextGen (s.strm n).gen
    let s := s.setStrm n { state := .active, gen := g, ctx := ctx, fresh := g }
    (s.zeroLayers n c g).finish r 0 (streamResult g 0) 0))

/-- PAUSE (R205). -/
def execStreamPause (ctx idx : Nat) (s : State) : Out :=
  .next (s.streamCmd ctx idx 2 [.active] true (fun r n _ =>
    (s.setStrm n { s.strm n with state := .paused }).finish r 0 (streamResult (s.strm n).gen 0) 0))

/-- RESUME (R205). -/
def execStreamResume (ctx idx : Nat) (s : State) : Out :=
  .next (s.streamCmd ctx idx 3 [.paused] true (fun r n _ =>
    (s.setStrm n { s.strm n with state := .active }).finish r 0 (streamResult (s.strm n).gen 0) 0))

/-- A stream's generation is raised by RESET or END: queued chunks return STALE_GEN (R205). -/
def State.raiseGen (s : State) (n ctx : Nat) (c : StreamCfg) : State :=
  let s := s.staleQueue n ctx c
  let x := s.strm n
  s.setStrm n { x with gen := nextGen x.gen, fresh := nextGen x.gen, nextSeq := 0, stepsDone := 0 }

/-- RESET (R205). -/
def execStreamReset (ctx idx : Nat) (s : State) : Out :=
  .next (s.streamCmd ctx idx 4 [.active, .paused] true (fun r n c =>
    let s := s.raiseGen n ctx c
    s.finish r 0 (streamResult (s.strm n).gen 0) 0))

/-- END (R205): the slots are released at the chunk boundary. -/
def execStreamEnd (ctx idx : Nat) (s : State) : Out :=
  .next (s.streamCmd ctx idx 5 [.active, .paused] true (fun r n c =>
    let s := (s.raiseGen n ctx c).begin r
    let w : StreamWait := { ctx := ctx, idx := idx, isExport := false }
    s.setStrm n { s.strm n with wait := some w, ending := true }))

/-- Where a state package may stand (R204): the context's own HBM pages, its grant of the host pond, or another module's
HBM. The status otherwise. -/
def State.packageAt (s : State) (ctx a n : Nat) : Nat :=
  match s.tierAt a (max n 1) with
  | none => 0x02
  | some .host => if s.inGrant ctx (localOf a - 0x40000000) n then 0 else 0x0C
  | some .hbm => if moduleOf a ≠ s.moduleId ∨ s.heldBy ctx (localOf a) (max n 1) = true then 0 else 0x0C
  | some _ => 0x15

/-- EXPORT (R209): the generation is raised at acceptance, unless keep is set; the package is written at the chunk
boundary. -/
def execStreamExport (ctx idx : Nat) (s : State) : Out :=
  .next (s.streamCmd ctx idx 6 [.active, .paused] true (fun r n _ =>
    let x := s.strm n
    let keep := bitN (leAt r.body 1 1) 0
    let a := leAt r.body 8 8
    let len := leAt r.body 16 8
    let st := s.packageAt ctx a len
    if st ≠ 0 then s.finish r st (streamResult x.gen 0) 0
    else
      let w : StreamWait := { ctx := ctx, idx := idx, isExport := true, keep := keep, address := a, length := len, prior := x.state }
      (s.begin r).setStrm n { x with state := .exporting, keep := keep, gen := if keep then x.gen else nextGen x.gen, wait := some w }))

/-! ### State packages (R207, R208) -/

/-- Padded with zeros to a multiple of 64 bytes. -/
def pad64 (b : Bytes) : Bytes := b ++ zeros ((64 - b.length % 64) % 64)

/-- The layer record of a stream. -/
def State.layerRecord (s : State) (n : Nat) (c : StreamCfg) (i : Nat) : Bytes :=
  match c.layers[i]? with
  | none => []
  | some l => pad64 (le 1 l.kind ++ le 1 0 ++ le 2 i ++ le 4 l.elements ++ zeros 8 ++ s.local (l.slot c n) l.slotBytes)

/-- A chunk record: length, chunk, padding. -/
def chunkRecord (k : Chunk) : Bytes := pad64 (le 8 k.data.length ++ k.data)

/-- The state package of a stream (R207, R208); with keep it holds no chunks (R209). Its generation is the stream's counter when it is
written, which a move has raised (log entry 28). -/
def State.package (s : State) (n : Nat) (c : StreamCfg) (keep : Bool) : Bytes :=
  let x := s.strm n
  let layers := (List.range c.layers.length).flatMap (fun i => s.layerRecord n c i)
  let queue := if keep then [] else x.queue
  let rest := layers ++ queue.flatMap chunkRecord
  let head := le 4 0x4B505453 ++ le 2 0x0100 ++ le 2 128 ++ le 8 (128 + rest.length) ++ le 4 c.digest ++ le 4 x.gen ++
    le 2 s.moduleId ++ le 2 n ++ le 2 c.layers.length ++ le 2 queue.length ++ le 8 x.stepsDone ++ le 4 layers.length ++
    le 4 (b2n (x.bad ≠ []) + 2 * b2n keep) ++ zeros 48
  head ++ digestOf (head ++ rest) ++ rest

/-- Local address of the firmware working area, where packages to and from another module stand (R219). -/
def fwWork : Nat := 0x132469A0000

/-- The token by which the sack hoist knows page i of a stream's package. -/
def packageStage (n : Nat) : Nat := 32 + n

/-- The pages of a package asked for over Phirov (R50, R204). -/
def State.packageRemote (s : State) (n ctx : Nat) (write : Bool) (a len : Nat) : State :=
  let k := (len + 65535) / 65536
  (List.range k).foldl (fun s i =>
    let q : TierReq := { mill := 16, stage := packageStage n, id := i, cls := 3, write := write, ctx := ctx
                         hbm := localOf a + 65536 * i, pond := fwWork + 65536 * i, len := min 65536 (len - 65536 * i)
                         remote := some (moduleOf a), start := s.now }
    ({ s with tiers := { s.tiers with reqs := s.tiers.reqs ++ [q] } }).pxRequest q (moduleOf a)) s

/-- The statuses of the pages of a stream's package that are over. -/
def State.packageResults (s : State) (n : Nat) : List Nat :=
  (s.tiers.results.filter (fun t => t.mill = 16 && t.stage = packageStage n)).map (·.status)

def State.packageClear (s : State) (n : Nat) : State :=
  { s with tiers := { s.tiers with results := s.tiers.results.filter (fun t => !(t.mill = 16 && t.stage = packageStage n)) } }

/-- Counters of MP_STREAM_MOVES, each half stopping at 0xFFFF. -/
def State.countMove (s : State) (imports : Bool) : State :=
  let w := s.reg Reg.mpStreamMoves
  let e := min (fld w 15 0 + (if imports then 0 else 1)) 0xFFFF
  let i := min (fld w 31 16 + (if imports then 1 else 0)) 0xFFFF
  s.setReg Reg.mpStreamMoves (word (e + 65536 * i))

/-- A stream is released: FREE with its counter (R205, R209). -/
def State.releaseStream (s : State) (n : Nat) : State := s.setStrm n { gen := (s.strm n).gen }

/-- The end of an EXPORT once its package is written (R209 steps 4 and 5). -/
def State.exported (s : State) (n : Nat) (c : StreamCfg) (w : StreamWait) : State :=
  let x := s.strm n
  let s := s.countMove false
  match s.request w.ctx w.idx with
  | none => s
  | some r =>
    if w.keep then
      (s.setStrm n { x with state := w.prior, keep := false, wait := none }).finish r 0 (streamResult x.gen 0) 0
    else
      let mine := x.queue.filterMap (fun k => k.req)
      let s := s.queuePages w.ctx c x.queue.length
      let s := { s with hp := { s.hp with requests := s.hp.requests.filter (fun q => !mine.contains (q.ctx, q.idx)) } }
      (s.releaseStream n).finish r 0 (streamResult x.gen x.queue.length) mine.length

/-- An EXPORT whose package could not be written: the stream goes to PAUSED and its queue stays (R209 step 3). -/
def State.exportFailed (s : State) (n : Nat) (w : StreamWait) (status : Nat) : State :=
  let x := s.strm n
  (s.setStrm n { x with state := if w.keep then w.prior else .paused, keep := false, wait := none }).finishAt
    w.ctx w.idx status (streamResult x.gen 0)

/-- The EXPORT that waits at the chunk boundary. -/
def State.exportStep (s : State) (n : Nat) (c : StreamCfg) (w : StreamWait) : State :=
  let pkg := s.package n c w.keep
  if w.remotePages ≠ 0 then
    let rs := s.packageResults n
    if rs.length < w.remotePages then s
    else
      let s := s.packageClear n
      if worst rs = 0 then s.exported n c w else s.exportFailed n w (worst rs)
  else if w.length < pkg.length then s.exportFailed n w 0x0B
  else if moduleOf w.address ≠ s.moduleId then
    let s := (s.setLocal fwWork pkg).packageRemote n w.ctx true w.address pkg.length
    s.setStrm n { s.strm n with wait := some { w with remotePages := (pkg.length + 65535) / 65536 } }
  else (s.putMem (localOf w.address) pkg).exported n c w

/-! ### IMPORT (R210) -/

/-- Chunk records out of a package, at most `fuel` of them. -/
def chunkRecords : Nat → Bytes → List Bytes
  | 0, _ => []
  | k + 1, b =>
    let n := leAt b 0 8
    (b.drop 8).take n :: chunkRecords k (b.drop ((8 + n + 63) / 64 * 64))

/-- A package's chunk as it enters the queue: relabelled and numbered anew. -/
def importChunk (gen seq : Nat) (b : Bytes) : Chunk :=
  let b := patch b 4 (le 4 gen ++ le 4 seq)
  chunkOf b none

/-- The layer states of a package written into the slots. -/
def State.importLayers (s : State) (n : Nat) (c : StreamCfg) (gen : Nat) (b : Bytes) : Nat → State
  | 0 => s
  | k + 1 =>
    let i := c.layers.length - (k + 1)
    match c.layers[i]? with
    | none => s
    | some l =>
      let st := (b.drop 16).take l.slotBytes
      let s := s.putMem (l.slot c n) st
      let s := s.setStrm n { s.strm n with layers := Tbl.set (s.strm n).layers i gen
                                           bad := if (recState l.elements st).bad then addN (s.strm n).bad i else (s.strm n).bad }
      s.importLayers n c gen (b.drop ((16 + l.slotBytes + 63) / 64 * 64)) k

/-- The checks and the effect of IMPORT on the bytes of a package (R210). -/
def State.importPackage (s : State) (n ctx : Nat) (c : StreamCfg) (r : Request) (b : Bytes) : State :=
  let x := s.strm n
  let total := leAt b 8 8
  let q := leAt b 0x1E 2
  let sig := leAt b 0 4 = 0x4B505453 && leAt b 4 2 = 0x0100 && decide (128 ≤ total) && decide (total ≤ b.length) &&
    digestOf (b.take 0x60 ++ (b.take total).drop 128) = (b.drop 0x60).take 32
  let back := s.setStrm n { x with state := .free, wait := none }
  if sig = false then back.finish r 0x0D (streamResult x.gen 0) 0
  else if leAt b 0x10 4 ≠ c.digest ∨ leAt b 0x1C 2 ≠ c.layers.length then back.finish r 0x0A (streamResult x.gen 0) 0
  else if (s.pool (hbmPool ctx)).returned < q * c.slotPages ∨ c.depth < q then
    back.finish r 0x0B (streamResult x.gen 0) 0
  else
    let g := nextGen x.gen
    let recs := chunkRecords q (b.drop (128 + leAt b 0x28 4))
    let chunks := (recs.zip (List.range q)).map (fun e => { importChunk g e.2 e.1 with slot := e.2 })
    let s := s.setStrm n { state := .paused, gen := g, ctx := ctx, queue := chunks, nextSeq := q }
    let s := s.importLayers n c g (b.drop 128) c.layers.length
    let s := chunks.foldl (fun s k => s.putMem (c.queueSlot n k.slot) k.data) s
    let s := s.move (hbmPool ctx) .returned .held (q * c.slotPages)
    (s.countMove true).finish r 0 (streamResult g q) 0

/-- IMPORT (R210): from another module the package is fetched first, with the stream IMPORTING. -/
def execStreamImport (ctx idx : Nat) (s : State) : Out :=
  .next (s.streamCmd ctx idx 7 [.free] false (fun r n c =>
    let x := s.strm n
    let a := leAt r.body 8 8
    let len := leAt r.body 16 8
    let st := s.packageAt ctx a len
    if st ≠ 0 then s.finish r st (streamResult x.gen 0) 0
    else if moduleOf a ≠ s.moduleId then
      let w : StreamWait := { ctx := ctx, idx := idx, isExport := false, address := a, length := len
                              remotePages := (len + 65535) / 65536 }
      ((s.begin r).packageRemote n ctx false a len).setStrm n { x with state := .importing, ctx := ctx, wait := some w }
    else if s.poisonedIn (localOf a) len ∨ s.hp.bad.any (fun b => localOf a < b + 32 && b < localOf a + len) then
      s.finish r 0x02 (streamResult x.gen 0) 0
    else s.importPackage n ctx c r (s.local (localOf a) len)))

/-- The IMPORT that waits for its package. -/
def State.importStep (s : State) (n : Nat) (c : StreamCfg) (w : StreamWait) : State :=
  let rs := s.packageResults n
  match s.request w.ctx w.idx with
  | none => s
  | some r =>
    if rs.length < w.remotePages then s
    else
      let s := s.packageClear n
      if worst rs = 0 then s.importPackage n w.ctx c r (s.local fwWork w.length)
      else (s.setStrm n { s.strm n with state := .free, wait := none }).finish r (worst rs) (streamResult (s.strm n).gen 0) 0

/-! ### The chunk boundary (R197, R205, R209) -/

/-- A sluice of a mill that holds a layer is closed (R211). -/
def State.streamHeld (s : State) (c : StreamCfg) : Bool := c.layers.any (fun l => (s.mill l.mill).state = .closed)

/-- CHUNK_BOUNDARY: no started chunk is left that the last layer has not emitted; a waiting EXPORT, END or IMPORT
proceeds. -/
def execChunkBoundary (stream : Nat) (s : State) : Out :=
  let x := s.strm stream
  match s.streamSection stream with
  | none => .next s
  | some c =>
    if x.started ≠ [] ∨ s.streamHeld c.2 then .next s
    else match x.wait with
      | some w =>
        if x.state = .importing then .next (s.importStep stream c.2 w)
        else if w.isExport then .next (s.exportStep stream c.2 w)
        else
          let g := x.gen
          .next (((s.staleQueue stream x.ctx c.2).releaseStream stream).finishAt w.ctx w.idx 0 (streamResult g 0))
      | none =>
        if x.ending then .next ((s.raiseGen stream x.ctx c.2).releaseStream stream) else .next s

/-! ### Chunks in and through the layers (R196, R197, R206) -/

/-- CHUNK (R397): the entry's bytes lie in the grant and its header is in order; it then waits for its queue. -/
def execChunk (ctx idx : Nat) (s : State) : Out :=
  match s.request ctx idx with
  | none => .next s
  | some r =>
    let off := leAt r.body 0 8
    let len := leAt r.body 8 4
    if r.target ≠ 3 ∨ r.begun then .next s
    else if allZero (r.body.drop 12) = false then .next (s.finish r 0x15 0 0)
    else if s.inGrant ctx off len = false then .next (s.finish r 0x0C 0 0)
    else
      let b := s.pondRead off len
      let n := leAt b 0 2
      match s.streamSection n with
      | none => .next (s.finish r 0x0C 0 0)
      | some c =>
        if c.1 ≠ ctx then .next (s.finish r 0x0C 0 0)
        else if chunkBad c.2 b ∨ ((s.strm n).state = .free ∧ leAt b 4 4 = (s.strm n).gen) then .next (s.finish r 0x15 0 0)
        else .next (s.begin r)

/-- The STREAM section of a context is being written: its queues admit nothing (R215). -/
def State.streamWriting (s : State) (ctx : Nat) : Bool :=
  s.loader.state = .swapping &&
  (match s.loader.staged with
   | some p => p.replacement && p.sections.any (fun x => x.typ = 8 && x.target = ctx)
   | none => false)

/-- CHUNK_ENQUEUE (R196, R215): into its stream's queue where there is room, its pages charged; a chunk of another generation
returns STALE_GEN (R206). A malformed chunk of a producing stage is not admitted (R201). -/
def execChunkEnqueue (host : Bool) (ctx idx : Nat) (chunk : Bytes) (s : State) : Out :=
  let req := s.request ctx idx
  let ready := match req with
    | some r => r.target = 3 && r.begun
    | none => false
  if host ∧ ready = false then .next s
  else
    let b := match req with
      | some r => if host then s.pondRead (leAt r.body 0 8) (leAt r.body 8 4) else chunk
      | none => chunk
    let n := leAt b 0 2
    match s.streamSection n with
    | none => .next s
    | some c =>
      let x := s.strm n
      let queued := (s.streams.flatMap (fun (e : Nat × Stream) => e.2.queue ++ e.2.started.map (·.chunk))).any (fun k => k.req = some (ctx, idx))
      if c.1 ≠ ctx ∨ chunkBad c.2 b ∨ (host ∧ queued) then .next s
      else if leAt b 4 4 ≠ x.gen ∧ x.state ≠ .importing then
        .next (s.staleChunk (chunkOf b (if host then some (ctx, idx) else none)))
      else if x.state = .free ∨ x.state = .importing ∨ s.streamWriting ctx ∨ c.2.depth ≤ x.slotted.length ∨
          (s.pool (hbmPool ctx)).returned < c.2.slotPages then .next s
      else
        let b := patch b 8 (le 4 x.nextSeq)
        let k : Chunk := { chunkOf b (if host then some (ctx, idx) else none) with slot := x.freeSlot c.2.depth }
        let s := (s.move (hbmPool ctx) .returned .held c.2.slotPages).putMem (c.2.queueSlot n k.slot) b
        .next (s.setStrm n { x with queue := x.queue ++ [k], nextSeq := x.nextSeq + 1 })

/-- A layer meets a chunk (R206): run it, zero and relabel first, or return it. -/
inductive Meet where
  | run | relabel | stale
  deriving DecidableEq, Repr

def State.meets (s : State) (n layer : Nat) (k : Chunk) : Meet :=
  let x := s.strm n
  let g := Tbl.getD x.layers layer 0
  if k.gen = g then .run else if g < k.gen ∧ k.gen ≤ x.fresh then .relabel else .stale

/-- A layer can take work of a stream. -/
def State.layerFree (s : State) (n : Nat) (c : StreamCfg) (layer : Nat) : Bool :=
  match c.layers[layer]? with
  | none => false
  | some l =>
    s.millWorks l.mill && !(has (s.mill l.mill).stopped l.stage) &&
    !((s.strm n).started.any (fun r => r.layer = layer && r.running))

/-- The item number of a chunk's parcels: its generation, stream and number (R93). -/
def chunkItem (n : Nat) (k : Chunk) : Nat := (k.gen * 256 + n) * 2 ^ 32 + k.seq

/-- The parcels of a chunk in the hopper queues of a layer's stage leave their slots (R206). -/
def State.dropChunk (s : State) (n : Nat) (l : Layer) (k : Chunk) : State :=
  (List.range 8).foldl (fun s q =>
    let h := hopperCfg (s.millBody l.mill) q
    if h.depth ≠ 0 ∧ h.stage = l.stage then s.dropParcels l.mill q (fun p => p.seq = chunkItem n k) else s) s

/-- LAYER_CHUNK_START (R197, R206): layer 0 takes the head of the queue; another layer the earliest started chunk that the
layer before has emitted. -/
def execLayerChunkStart (stream layer : Nat) (s : State) : Out :=
  match s.streamSection stream with
  | none => .next s
  | some c =>
    let x := s.strm stream
    if s.layerFree stream c.2 layer = false then .next s
    else if layer = 0 then
      match x.queue with
      | [] => .next s
      | k :: rest =>
        if x.state ≠ .active ∨ x.ending ∨ x.wait.isSome then .next s
        else match s.meets stream 0 k with
          | .stale => .next (((s.setStrm stream { x with queue := rest }).queuePages x.ctx c.2 1).staleChunk k)
          | m =>
            let s := if m = .relabel then s.zeroLayer stream c.2 0 k.gen else s
            let x := s.strm stream
            let run : ChunkRun := { chunk := k, layer := 0, running := true }
            .next (s.setStrm stream { x with queue := rest, started := x.started ++ [run], ending := k.endAfter })
    else
      match x.started.find? (fun r => r.layer = layer) with
      | none => .next s
      | some r =>
        match s.meets stream layer r.chunk with
        | .stale =>
          let s := s.setStrm stream { x with started := x.started.filter (fun q => q ≠ r) }
          let s := match c.2.layers[layer]? with
            | some l => s.dropChunk stream l r.chunk
            | none => s
          .next (s.bump Reg.mpStreamStale 1)
        | m =>
          let s := if m = .relabel then s.zeroLayer stream c.2 layer r.chunk.gen else s
          let x := s.strm stream
          .next (s.setStrm stream { x with started := replaceFirst (fun q => q = r) { r with running := true } x.started })

/-- Distinct marks of a chunk (R201). -/
def Chunk.marksSet (k : Chunk) : List Nat := k.marks.foldl addN []

/-- A layer has run some steps of its chunk, which leave the state `st` (R197–R201). At the end of the chunk a mark there leaves the
zero state, and layer 0 has read the chunk, whose pages and credit return (R196, R397). -/
def State.layerRan (s : State) (n layer : Nat) (c : StreamCfg) (l : Layer) (r : ChunkRun) (steps : Nat) (st : RecState) : State :=
  let whole := r.chunk.steps ≤ r.steps + steps
  let st := if whole ∧ has r.chunk.marks r.chunk.steps then RecState.zero l.elements else st
  let s := s.putMem (l.slot c n) st.bytes
  let x := s.strm n
  let last := whole && layer + 1 = c.layers.length
  let isR (q : ChunkRun) : Bool := q = r
  let started := if last then x.started.filter (fun q => !isR q)
    else replaceFirst isR (if whole then { r with layer := layer + 1, running := false, steps := 0 } else { r with steps := r.steps + steps }) x.started
  let s := s.setStrm n { x with
    started := started
    bad := if st.bad then addN x.bad layer else remN x.bad layer
    stepsDone := if last ∧ x.fresh ≤ r.chunk.gen then x.stepsDone + r.chunk.steps else x.stepsDone }
  if whole ∧ layer = 0 then
    let s := (s.queuePages x.ctx c 1).bump Reg.mpStreamMarks r.chunk.marksSet.length
    s.chunkDone r.chunk 0
  else s

/-- The layer of a stream that runs on a stage. -/
def StreamCfg.layerOn (c : StreamCfg) (m i : Nat) : Option Nat := c.layers.findIdx? (fun l => l.mill = m && l.stage = i)

/-- A step of a SCAN stage: the next `n` steps of the chunk that its layer of the job's stream runs (R191–R202). -/
def State.scanStep (s : State) (m i : Nat) (job : StageJob) (n : Nat) (ins : List Source) : Option State := do
  let k ← job.stream
  let c ← s.streamSection k
  let layer ← c.2.layerOn m i
  let l ← c.2.layers[layer]?
  let r ← (s.strm k).started.find? (fun r => r.layer = layer && r.running)
  let xs := ins.map (fun x => (s.operand m (some k) x).elems)
  if n = 0 ∨ r.chunk.steps < r.steps + n ∨ l.fits n xs = false ∨ job.last ≠ (r.steps + n = r.chunk.steps) then none
  else
    let y := l.run r.chunk.steps s.freeN r.steps n r.chunk.marks xs (recState l.elements (s.local (l.slot c.2 k) l.slotBytes))
    let t ← s.stageEmit m i { job with seq := chunkItem k r.chunk } (s.freeN + n * l.draws) (fun t => t.tails m i job [y.2])
    some (t.layerRan k layer c.2 l r n y.1)

end Sys2Proof.Machine
end

