-- ==== Sys2Proof/Machine/Fusion.lean ====
section
/-!
DEFINITION. The fusion units (R302–R323): offset tracking, alignment, transforms, ego-motion, gates, corrections and the
fused-state record. The three units compute the same (R271); one computation stands for them, and a vote says where a
lane strays.
-/
namespace Sys2Proof.Machine

/-! ### Integer arithmetic (R278) -/

/-- a ÷ b rounded to nearest with ties toward +∞. -/
def rdiv (a : Int) (b : Nat) : Int := (2 * a + b) / (2 * (b : Int))

/-- n × 2^e rounded as R278 rounds. -/
def shiftR (n : Int) (e : Int) : Int := if 0 ≤ e then n * (2 ^ e.toNat : Nat) else rdiv n (2 ^ (-e).toNat)

/-- 2^30. -/
def q30 : Int := 1073741824

/-- The components of a quaternion scaled to unit length in Q30, each rounded once. -/
def normQuat (q : List Int) : List Int :=
  let ss := (q.map (fun c => c.natAbs * c.natAbs)).foldl (· + ·) 0
  if ss = 0 then [q30, 0, 0, 0]
  else q.map (fun c =>
    let twice := isqrt (c.natAbs * c.natAbs * 2 ^ 62 / ss)
    let tie := twice % 2 = 1 ∧ twice * twice * ss = c.natAbs * c.natAbs * 2 ^ 62
    let m : Int := if c < 0 ∧ tie then ((twice / 2 : Nat) : Int) else (((twice + 1) / 2 : Nat) : Int)
    if c < 0 then -m else m)

def vget (v : List Int) (i : Nat) : Int := nth v i 0

/-- The exact quaternion product. -/
def quatMul (a b : List Int) : List Int :=
  let w := vget a 0; let x := vget a 1; let y := vget a 2; let z := vget a 3
  let p := vget b 0; let q := vget b 1; let r := vget b 2; let s := vget b 3
  [w * p - x * q - y * r - z * s, w * q + x * p + y * s - z * r, w * r - x * s + y * p + z * q, w * s + x * r - y * q + z * p]

def quatConj (a : List Int) : List Int := [vget a 0, -vget a 1, -vget a 2, -vget a 3]

/-- A vector rotated by a Q30 quaternion, each component rounded once. -/
def rotQ (q v : List Int) : List Int :=
  let r := quatMul (quatMul q (0 :: v)) (quatConj q)
  [rdiv (vget r 1) (2 ^ 60), rdiv (vget r 2) (2 ^ 60), rdiv (vget r 3) (2 ^ 60)]

def vsub (a b : List Int) : List Int := List.zipWith (fun x y => x - y) a b
def vadd (a b : List Int) : List Int := List.zipWith (fun x y => x + y) a b

/-- a × b exactly. -/
def crossV (a b : List Int) : List Int :=
  [vget a 1 * vget b 2 - vget a 2 * vget b 1, vget a 2 * vget b 0 - vget a 0 * vget b 2,
   vget a 0 * vget b 1 - vget a 1 * vget b 0]

/-! ### The fusion block (R304, R313, R318) -/

/-- A source entry. -/
structure FuSrc where
  kind : Nat
  origin : Nat
  transform : Nat
  tickLocked : Bool
  periodUs : Nat
  latNom : Nat
  jitter : Nat
  shift : Nat
  extrap : Nat
  timeStream : Nat
  gainPos : Nat
  gainVel : Nat
  gainAtt : Nat
  deriving DecidableEq, Repr

/-- A gate entry. -/
structure FuGate where
  a : Nat
  b : Nat
  arbiter : Nat
  quantity : Nat
  thrAbs : Nat
  thrRel : Int
  failN : Nat
  passN : Nat
  deriving DecidableEq, Repr

/-- A transform entry. -/
structure FuXform where
  rot : List Int
  trans : List Int
  valid : Bool
  world : Bool
  deriving DecidableEq, Repr

/-- A fusion block. -/
structure FuCfg where
  sources : List FuSrc
  gates : List FuGate
  xforms : List FuXform
  gravity : Int
  limitMs : Nat
  primary : Nat
  standby : Nat
  deriving DecidableEq, Repr

/-- `n` int32 from an offset. -/
def i32s (b : Bytes) (o n : Nat) : List Int := (List.range n).map (fun i => signed 32 (leAt b (o + 4 * i) 4))

def fuSrc (b : Bytes) (o : Nat) : FuSrc :=
  { kind := leAt b o 1, origin := leAt b (o + 1) 1, transform := leAt b (o + 2) 1, tickLocked := bitN (leAt b (o + 3) 1) 0
    periodUs := leAt b (o + 4) 4, latNom := leAt b (o + 8) 4, jitter := leAt b (o + 12) 4, shift := leAt b (o + 16) 1
    extrap := leAt b (o + 17) 1, timeStream := leAt b (o + 18) 1, gainPos := leAt b (o + 20) 2
    gainVel := leAt b (o + 22) 2, gainAtt := leAt b (o + 24) 2 }

def fuGate (b : Bytes) (o : Nat) : FuGate :=
  { a := leAt b o 1, b := leAt b (o + 1) 1, arbiter := leAt b (o + 2) 1, quantity := leAt b (o + 3) 1
    thrAbs := leAt b (o + 4) 4, thrRel := signed 16 (leAt b (o + 8) 2), failN := leAt b (o + 10) 1, passN := leAt b (o + 11) 1 }

def fuXform (b : Bytes) (o : Nat) : FuXform :=
  { rot := i32s b o 4, trans := i32s b (o + 16) 3, valid := bitN (leAt b (o + 28) 1) 0, world := bitN (leAt b (o + 28) 1) 1 }

/-- The fusion block of a GOVERNOR body (R299). -/
def fuBlock (body : Bytes) : Bytes := (body.drop (leAt body 0x10 4)).take (leAt body 0x14 4)

def fuCfg (body : Bytes) : FuCfg :=
  let b := fuBlock body
  let ns := leAt b 0 1
  let ng := leAt b 1 1
  let g := leAt b 4 4
  let l := leAt b 8 2
  { sources := (List.range ns).map (fun i => fuSrc b (0x20 + 32 * i))
    gates := (List.range ng).map (fun i => fuGate b (0x20 + 32 * ns + 16 * i))
    xforms := (List.range (leAt b 2 2)).map (fun i => fuXform b (0x20 + 32 * ns + 16 * ng + 32 * i))
    gravity := if g = 0 then 10283018 else signed 32 g, limitMs := if l = 0 then 200 else l
    primary := leAt b 10 1, standby := leAt b 11 1 }

/-- The body of the GOVERNOR section in force. -/
def State.govBody (s : State) : Bytes := (s.gov.sec.map Section.body).getD []

def State.fuCfg (s : State) : FuCfg := Sys2Proof.Machine.fuCfg s.govBody

def FuSrc.queue (x : FuSrc) : Option Nat := if 0x80 ≤ x.origin then some (x.origin - 0x80) else none
/-- The frame period in ns (R304). -/
def FuSrc.period (x : FuSrc) : Nat := if x.tickLocked ∧ x.periodUs = 62 then 62500 else x.periodUs * 1000
/-- The stream whose clock a source follows (R308). -/
def FuSrc.stream (x : FuSrc) : Nat := if x.queue.isSome then x.timeStream else x.origin

def State.track (s : State) (n : Nat) : Track := Tbl.getD s.fus.tracks n {}
def State.setTrack (s : State) (n : Nat) (x : Track) : State :=
  { s with fus := { s.fus with tracks := Tbl.set s.fus.tracks n x } }
def State.samples (s : State) (i : Nat) : List Sample := Tbl.getD s.fus.samples i []

/-! ### Ticks (R347) -/

/-- The tick instant at or before a time, and at or after it, under the phase in force. -/
def tickBefore (phase t : Nat) : Nat := t - (t + 250000 - phase % 250000) % 250000
/-- The first tick instant under a phase at or after a time. -/
def tickFrom (phase t : Nat) : Nat := tickBefore phase (t + 249999)
/-- The first tick under an accepted phase that is still to come (R347). -/
def State.armedTick (s : State) : Option Nat :=
  s.tm.armed.bind (fun a => if s.now < tickFrom a.1 a.2 then some (tickFrom a.1 a.2) else none)
/-- The phase in force. -/
def State.phaseNow (s : State) : Nat :=
  match s.tm.armed, s.armedTick with
  | some a, none => a.1
  | _, _ => s.tm.phase
def State.tickNow (s : State) : Nat :=
  match s.tm.armed, s.armedTick with
  | some a, some _ => a.2 - 250000
  | _, _ => tickBefore s.phaseNow s.now
def State.tickNext (s : State) : Nat := s.armedTick.getD (tickFrom s.phaseNow s.now)
/-- The number 0–3 of a tick in its cycle. -/
def State.tickIndex (s : State) (t : Nat) : Nat := (t + 1000000 - s.phaseNow % 1000000) % 1000000 / 250000

/-! ### Offset tracking (R306, R307) -/

/-- The source whose entry tracks a stream: a stream source, else a queue source with that time_stream. -/
def FuCfg.tracker (c : FuCfg) (stream : Nat) : Option FuSrc :=
  match c.sources.find? (fun x => x.origin = stream) with
  | some x => some x
  | none => c.sources.find? (fun x => x.queue.isSome && x.timeStream = stream)

/-- Payload length of a kind (R302). -/
def kindLen (k : Nat) : Nat := match k with
  | 1 => 24
  | 2 => 24
  | 3 => 28
  | _ => 4

/-- The components of a payload. -/
def kindVals (k : Nat) (p : Bytes) : List Int := if k = 4 then [(leAt p 0 4 : Nat)] else i32s p 0 (kindLen k / 4)

/-- A sample among those of its source, newest first, at most 8 (R310). -/
def insertSample (x : Sample) : List Sample → List Sample
  | [] => [x]
  | y :: t => if y.t ≤ x.t then x :: y :: t else y :: insertSample x t
def addSample (x : Sample) (l : List Sample) : List Sample := (insertSample x l).take 8

/-- A corrected instant among the last 64 of a stream (R303). -/
def Track.note (x : Track) (n : Nat) (t : Int) : Track := { x with frames := ((n, t) :: x.frames).take 64 }

/-- A tracking record (R307, R509). -/
def State.trackRec (s : State) (stream event : Nat) (off o : Int) : State :=
  s.record 9 event 8 0xFF stream (le 8 (twos 64 off) ++ le 8 (twos 64 o))

/-- Entry into DESYNC. -/
def State.desync (s : State) (stream : Nat) (x : Track) (o : Int) : State :=
  let s := s.setTrack stream { x with state := .desync, good := 0, run := [], outliers := 0 }
  (s.bump Reg.fuDesyncEvents 1).trackRec stream 3 x.offset o

/-- The sample of a frame whose corrected instant is t, kept for every source of its stream (R310). -/
def State.sampleFrame (s : State) (c : FuCfg) (f : FuFrame) (t : Int) : State :=
  let l := (c.sources.zip (List.range c.sources.length)).filter (fun (y : FuSrc × Nat) => y.1.origin = f.stream)
  l.foldl (fun s (y : FuSrc × Nat) =>
    let smp : Sample := { t := t, v := kindVals y.1.kind f.payload }
    { s with fus := { s.fus with samples := Tbl.set s.fus.samples y.2 (addSample smp (s.samples y.2)) } }) s

/-- One frame of a tracked stream; a frame of a locked stream that is no outlier gives a sample, and so does the eighth
good one (R306, R307). An outlier's instant is kept too (R303). -/
def State.trackFrame (s : State) (c : FuCfg) (e : FuSrc) (f : FuFrame) : State :=
  let x := s.track f.stream
  let o := f.port - f.src - (e.latNom : Int)
  let p : Int := (e.period : Int)
  match x.state with
  | .locked =>
    if (e.jitter : Int) < iabs (o - x.offset) then
      let s := s.bump Reg.fuOutlier 1
      let x := ({ x with outliers := x.outliers + 1 }).note f.number (f.src + x.offset)
      if 8 ≤ x.outliers then s.desync f.stream x o else s.setTrack f.stream x
    else
      let d := o - x.offset
      let off := x.offset + (if e.shift = 0 then d else (d + (2 ^ (e.shift - 1) : Nat)) / ((2 ^ e.shift : Nat) : Int))
      let t := f.src + off
      let x := ({ x with offset := off, outliers := 0 }).note f.number t
      if p < iabs off then s.desync f.stream x o
      else
        (s.setTrack f.stream x).sampleFrame c f t
  | st =>
    let near : Bool := match x.run with
      | [] => true
      | q :: _ => decide (iabs (o - q) ≤ (e.jitter : Int))
    let kept := x.note f.number (f.src + x.offset)
    if 2 * iabs o ≤ p ∧ near then
      let run := o :: x.run
      if 8 ≤ run.length then
        let off := (run.foldl (· + ·) 0) / 8
        let x := { x with state := .locked, offset := off, good := 0, run := [], outliers := 0 }
        let s := (s.setTrack f.stream (x.note f.number (f.src + off))).sampleFrame c f (f.src + off)
        if st = .desync then s.trackRec f.stream 2 off o else s
      else s.setTrack f.stream { kept with state := if st = .unbound then .acquire else st, run := run, good := run.length }
    else s.setTrack f.stream { kept with state := if st = .unbound then .acquire else st, run := [], good := 0 }

/-- FU_PHASE_s: arrival relative to T in µs. -/
def State.phaseSeen (s : State) (stream : Nat) (us : Int) : State :=
  let a := Reg.fuPhase stream
  let v := twos 16 us
  match Tbl.find s.regs a with
  | none => s.setReg a (word (v + put 16 16 v))
  | some w =>
    let lo := signed 16 (fld w 15 0)
    let hi := signed 16 (fld w 31 16)
    s.setReg a (word (twos 16 (min lo (signed 16 v)) + put 16 16 (twos 16 (max hi (signed 16 v)))))

/-- One frame accepted for a tick: step 1 of R323. -/
def State.fuseFrame (s : State) (c : FuCfg) (tick : Nat) (f : FuFrame) : State :=
  let s := s.phaseSeen f.stream ((f.port - (tick : Int)) / 1000)
  match c.tracker f.stream with
  | none => s.setTrack f.stream ((s.track f.stream).note f.number f.src)
  | some e =>
    if e.queue.isNone ∧ f.payload.length ≠ kindLen e.kind then s.bump Reg.fuMalformed 1
    else if f.tsOk = false then s
    else s.trackFrame c e f

/-- Sources that must have a frame in the window and have none (R309). -/
def State.countLate (s : State) (c : FuCfg) (lo hi : Int) (fs : List FuFrame) : State :=
  c.sources.foldl (fun s e =>
    if e.tickLocked ∧ e.queue.isNone then
      let ok := fs.any (fun f => f.stream = e.origin && decide (lo ≤ f.port) && decide (f.port ≤ hi))
      let s := s.setTrack e.origin { s.track e.origin with late := !ok }
      if ok then s else s.bump Reg.fuLate 1
    else s) s

/-! ### Alignment (R310–R312) -/

/-- The sample pair and the weight that align a quantity to T; whether it extrapolates. -/
def alignPair (p : Nat) (extrap : Nat) (t : Int) (l : List Sample) : Option (Sample × Sample × Int × Bool) :=
  let after := (l.filter (fun x => t ≤ x.t)).reverse
  let before := l.filter (fun x => x.t ≤ t)
  let weight (a b : Sample) : Int := (t - a.t) * 65536 / (b.t - a.t)
  let inter := match before, after with
    | a :: _, b :: _ =>
      if a.t = b.t then
        if l.any (fun x => decide (x.t ≠ a.t) && decide (iabs (x.t - a.t) ≤ 2 * (p : Int))) then some (a, a, (0 : Int), false) else none
      else if b.t - a.t ≤ 2 * (p : Int) then some (a, b, weight a b, false) else none
    | _, _ => none
  match inter with
  | some r => some r
  | none => match l with
    | b :: a :: _ =>
      if a.t < b.t ∧ b.t < t ∧ t - b.t ≤ (extrap : Int) * p ∧ b.t - a.t ≤ 2 * (p : Int) then
        some (a, b, weight a b, true) else none
    | _ => none

/-- The components of the pair at T (R310). -/
def alignVals (r : Sample × Sample × Int × Bool) : List Int :=
  List.zipWith (fun x y => x + ((y - x) * r.2.2.1 + 32768) / 65536) r.1.v r.2.1.v

/-- What a source gives at T, aligned and transformed (R310, R314): its fields as R303 numbers them, in the frames of
R322, with whether it was extrapolated. Specific force is field 14–16. -/
structure Aligned where
  fields : List (Nat × Int)
  extrapolated : Bool
  deriving DecidableEq, Repr

def Aligned.get (x : Aligned) (k : Nat) : Option Int := (x.fields.find? (fun e => e.1 = k)).map (·.2)

/-- A run of fields as a vector, where all are present. -/
def Aligned.vec (x : Aligned) (k n : Nat) : Option (List Int) := (List.range n).mapM (fun i => x.get (k + i))

def fieldsFrom (k : Nat) (v : List Int) : List (Nat × Int) := (List.range v.length).zip v |>.map (fun e => (k + e.1, e.2))

/-- −ω × (ω × r) in 2^−20 m/s² and −ω × r in 2^−20 m/s, ω in 2^−24 rad/s and r in 2^−16 m, each component rounded once. -/
def leverAcc (w r : List Int) : List Int := (crossV w (crossV w r)).map (fun x => rdiv (-x) (2 ^ 44))
def leverVel (w r : List Int) : List Int := (crossV w r).map (fun x => rdiv (-x) (2 ^ 20))

/-- A source's transform (R314), the body's attitude being q. -/
def transformed (kind : Nat) (x : FuXform) (q v : List Int) : List (Nat × Int) :=
  match kind with
  | 1 =>
    let w := rotQ x.rot (v.take 3)
    fieldsFrom 10 w ++ fieldsFrom 14 (vadd (rotQ x.rot (v.drop 3)) (leverAcc w x.trans))
  | 2 =>
    let w := rotQ x.rot (v.drop 3)
    fieldsFrom 7 (rotQ q (vadd (rotQ x.rot (v.take 3)) (leverVel w x.trans))) ++ fieldsFrom 10 w
  | 3 =>
    if x.world then
      let qb := normQuat (quatMul (v.drop 3) (quatConj x.rot))
      fieldsFrom 0 (vsub (v.take 3) (rotQ qb x.trans)) ++ fieldsFrom 3 qb
    else []
  | _ => [(13, vget v 0)]

/-- The origin of a source lies in the fabric power domain (R321). -/
def State.fuFabric (s : State) (e : FuSrc) : Bool :=
  match e.queue with
  | some _ => true
  | none => match s.binding e.origin with
    | some b => b.lane < 12
    | none => false

/-- The port of a source's lane, one of 12–15, retrains (R463). -/
def State.fuRetrains (s : State) (e : FuSrc) : Bool :=
  match e.queue, s.binding e.origin with
  | none, some b => decide (12 ≤ b.lane) && s.ev.retraining.any (fun (x : Nat × Nat) => x.2 = 8 + b.lane)
  | _, _ => false

/-- Whether a source's samples may be used (R286, R307, R308, R321, R463). -/
def State.fuUsable (s : State) (e : FuSrc) : Bool :=
  (s.track e.stream).state = .locked && !(s.gov.wheel.supply && s.fuFabric e) && !s.fuRetrains e &&
  (match e.queue with
   | some q => !(Tbl.getD s.gov.queues q {}).dropped
   | none => true)

/-- Fields that a queue source's records carry, by the element table of its section (R303). -/
def State.queueFields (s : State) (q src : Nat) : List Nat :=
  let b := ((Tbl.getD s.gov.queues q {}).sec.map Section.body).getD []
  (List.range (leAt b 4 2)).filterMap (fun i =>
    let o := 0x10 + 4 * i
    if leAt b (o + 1) 1 = src ∧ leAt b (o + 2) 1 < 14 then some (leAt b (o + 2) 1) else none)

/-- Source i at T, or absent (R310, R311). -/
def State.fuAlign (s : State) (c : FuCfg) (i : Nat) (t : Int) : Option Aligned :=
  match c.sources[i]? with
  | none => none
  | some e =>
    if s.fuUsable e = false then none
    else
      let l := s.samples i
      let x : FuXform := nth c.xforms e.transform { rot := [q30, 0, 0, 0], trans := [0, 0, 0], valid := false, world := false }
      if e.kind = 4 ∧ e.queue.isNone then
        match l.find? (fun y => y.t ≤ t) with
        | some y => if t - y.t ≤ (e.extrap : Int) * e.period then some { fields := [(13, vget y.v 0)], extrapolated := false } else none
        | none => none
      else match alignPair e.period e.extrap t l with
        | none => none
        | some r =>
          let v := alignVals r
          match e.queue with
          | some q =>
            let ks := s.queueFields q i
            let att := normQuat [vget v 3, vget v 4, vget v 5, vget v 6]
            let newest := ((l.find? (fun y => y.t ≤ t)).map (·.v)).getD []
            some { extrapolated := r.2.2.2, fields := ks.map (fun k =>
              (k, if 3 ≤ k ∧ k ≤ 6 ∧ [3, 4, 5, 6].all (fun j => has ks j) then vget att (k - 3)
                  else if k = 13 then vget newest 13 else vget v k)) }
          | none =>
            let v := if e.kind = 3 then v.take 3 ++ normQuat (v.drop 3) else v
            some { fields := transformed e.kind x s.fus.att v, extrapolated := r.2.2.2 }

/-! ### Ego-motion (R315, R316) -/

/-- The ego source at T: its code and index (R315). -/
def State.egoAt (s : State) (c : FuCfg) (t : Int) : Nat × Option Nat :=
  if (s.fuAlign c c.primary t).isSome then (0, some c.primary)
  else if c.standby ≠ 0xFF ∧ (s.fuAlign c c.standby t).isSome then (1, some c.standby)
  else (3, none)

/-- The state propagated by dt ns under ω_b and f_b (R316). -/
def Fusion.step (x : Fusion) (gravity : Int) (dt : Int) (w f : List Int) : Fusion :=
  let q := normQuat (quatMul x.att (q30 * 1000000000 :: w.map (fun c => c * dt * 32)))
  let a := vadd (rotQ q f) [0, 0, -gravity]
  let v := vadd x.vel (a.map (fun c => rdiv (c * dt) 1000000000))
  let p := vadd x.pos (v.map (fun c => rdiv (c * dt) 16000000000))
  { x with att := q, vel := v, pos := p, rate := w, acc := a }

/-- Step 2 of R323: through each sample of the ego source up to T, then to T with the last one. -/
def State.propagate (s : State) (c : FuCfg) (ego : Option Nat) (t : Int) : State :=
  match ego with
  | none => { s with fus := { s.fus with instant := some t } }
  | some i =>
    match c.sources[i]? with
    | none => s
    | some e =>
      let x : FuXform := nth c.xforms e.transform { rot := [q30, 0, 0, 0], trans := [0, 0, 0], valid := false, world := false }
      let body (v : List Int) : List Int × List Int :=
        let w := rotQ x.rot (v.take 3)
        (w, vadd (rotQ x.rot (v.drop 3)) (leverAcc w x.trans))
      let all := ((s.samples i).filter (fun y => y.t ≤ t)).reverse
      match s.fus.instant with
      | none =>
        let wf := match all.reverse with
          | y :: _ => body y.v
          | [] => ([0, 0, 0], [0, 0, 0])
        { s with fus := { s.fus with instant := some t, rate := wf.1 } }
      | some t0 =>
        let news := all.filter (fun y => t0 < y.t)
        let r := news.foldl (fun (a : Fusion × Int) y =>
          let wf := body y.v
          (a.1.step c.gravity (y.t - a.2) wf.1 wf.2, y.t)) (s.fus, t0)
        let f := match all.reverse with
          | y :: _ =>
            let wf := body y.v
            if r.2 < t then r.1.step c.gravity (t - r.2) wf.1 wf.2 else r.1
          | [] => r.1
        { s with fus := { f with instant := some t } }

/-! ### Gates (R318, R319) -/

/-- The fields of a gate's quantity. -/
def quantityOf (q : Nat) : Nat × Nat := match q with
  | 0 => (0, 3)
  | 1 => (7, 3)
  | 2 => (3, 4)
  | _ => (10, 3)

def maxAbs (v : List Int) : Int := v.foldl (fun a x => max a (iabs x)) 0

/-- Two values of a gate's quantity agree (R318). Attitudes are compared in 2^−24 rad. -/
def gateAgree (g : FuGate) (a b : List Int) : Bool :=
  if g.quantity = 2 then
    let d := quatMul (quatConj a) b
    let v := maxAbs [vget d 1, vget d 2, vget d 3]
    let m := max (maxAbs (a.drop 1)) (maxAbs (b.drop 1))
    decide (2 * v * 32768 ≤ ((g.thrAbs : Int) * 32768 * 2 ^ 36 + g.thrRel * m * 2 ^ 30))
  else
    let d := maxAbs (vsub a b)
    let m := max (maxAbs a) (maxAbs b)
    decide (d * 32768 ≤ (g.thrAbs : Int) * 32768 + g.thrRel * m)

/-- The propagated ego state's value of a quantity. -/
def Fusion.value (x : Fusion) (q : Nat) : List Int := match q with
  | 0 => x.pos
  | 1 => x.vel
  | 2 => x.att
  | _ => x.rate

def State.gate (s : State) (i : Nat) : Gate := Tbl.getD s.fus.gates i {}
def State.setGate (s : State) (i : Nat) (x : Gate) : State := { s with fus := { s.fus with gates := Tbl.set s.fus.gates i x } }

/-- Gate i evaluated at a tick with the aligned sources; `before` is the state that step 4 began with, in which an arbiter that a
gate excludes is absent (R319). -/
def State.runGate (s : State) (g : FuGate) (i : Nat) (al : List (Option Aligned)) (before : Fusion) (ego : Bool) (t : Int) : State :=
  let f := quantityOf g.quantity
  let val (k : Nat) : Option (List Int) := ((al[k]?).join).bind (fun x => x.vec f.1 f.2)
  match val g.a, val g.b with
  | some za, some zb =>
    let x := s.gate i
    if gateAgree g za zb then
      if x.failed then
        if g.passN ≤ x.passes + 1 then s.setGate i {} else s.setGate i { x with fails := 0, passes := x.passes + 1 }
      else s.setGate i { x with fails := 0 }
    else if x.failed then s.setGate i { x with passes := 0 }
    else if x.fails + 1 < g.failN then s.setGate i { x with fails := x.fails + 1 }
    else
      let arb := if g.arbiter = 0xFE then (if ego then some (before.value g.quantity) else none)
        else if g.arbiter = 0xFF ∨ (before.gates.any (fun (e : Nat × Gate) => has e.2.excluded g.arbiter)) = true then none
        else val g.arbiter
      let ok (z : List Int) : Bool := match arb with
        | some y => gateAgree g y z
        | none => false
      let s := s.bump Reg.fuConflictEvents 1
      let d := le 1 g.a ++ le 1 g.b ++ le 1 g.arbiter ++ le 1 0 ++ le 4 s.gov.tick
      match ok za, ok zb with
      | true, false => (s.setGate i { failed := true, excluded := [g.b] }).record 9 0x20 0 0xFF i d
      | false, true => (s.setGate i { failed := true, excluded := [g.a] }).record 9 0x21 0 0xFF i d
      | _, _ => (s.setGate i { failed := true, excluded := [g.a, g.b], since := some t }).record 9 0x22 9 0xFF i d
  | _, _ => s

/-- Sources that some gate excludes. -/
def Fusion.excluded (x : Fusion) : List Nat := x.gates.flatMap (fun (e : Nat × Gate) => e.2.excluded)

/-! ### Corrections (R317) -/

/-- x ← x + ⌊(k (z − x) + 2^14) ÷ 2^15⌋. -/
def correct (k : Nat) (x z : Int) : Int := x + ((k : Int) * (z - x) + 16384) / 32768

/-- A vector corrected in the fields that are given. -/
def correctVec (k base : Nat) (x : List Int) (a : Aligned) : List Int :=
  (List.range x.length).map (fun i => match a.get (base + i) with
    | some z => correct k (vget x i) z
    | none => vget x i)

/-- The vector part of q corrected toward an attitude taken in its hemisphere, and q renormalised. -/
def correctAtt (k : Nat) (q : List Int) (a : Aligned) : List Int :=
  if k = 0 ∨ ([4, 5, 6].all (fun j => (a.get j).isNone)) then q
  else
    let z := (List.range 4).map (fun i => (a.get (3 + i)).getD (vget q i))
    let dot := (List.zipWith (fun x y => x * y) q z).foldl (· + ·) 0
    let z := if dot < 0 then z.map (fun x => -x) else z
    normQuat (vget q 0 :: [1, 2, 3].map (fun i =>
      match a.get (3 + i) with
      | some _ => correct k (vget q i) (vget z i)
      | none => vget q i))

/-- One aiding source corrects the state. -/
def Fusion.aid (x : Fusion) (e : FuSrc) (a : Aligned) : Fusion :=
  let rate := if e.queue.isSome then correctVec e.gainVel 10 x.rate a else x.rate
  let c := match a.get 13 with
    | some m => x.contacts ||| twos 32 m
    | none => x.contacts
  { x with pos := correctVec e.gainPos 0 x.pos a, vel := correctVec e.gainVel 7 x.vel a, att := correctAtt e.gainAtt x.att a
           rate := rate, contacts := c }

/-! ### Joint states and the record (R312, R320, R322) -/

/-- Joint entries of a GOVERNOR body (R300). -/
def jointEntry (body : Bytes) (j : Nat) : Bytes := (body.drop (0x80 + 64 * j)).take 64
def jointOn (body : Bytes) (j : Nat) : Bool := decide (j < leAt body 0 2) && bitN (leAt (jointEntry body j) 0 1) 0

/-- q and qd of joint j at T, or absent (R312, R430). -/
def State.jointAt (s : State) (j : Nat) (t : Int) : Option (Int × Int) :=
  let n := leAt (jointEntry s.govBody j) 1 1
  if (Tbl.getD s.mr.drives n {}).absent then none
  else (alignPair 250000 2 t (Tbl.getD s.fus.drives n [])).map (fun r =>
    let v := alignVals r
    (satS 16 (vget v 0), satS 16 (vget v 1)))

/-- An ego source is absent because the supply cause holds (R321). -/
def State.egoPaused (s : State) (c : FuCfg) : Bool :=
  s.gov.wheel.supply && [c.primary, c.standby].any (fun i => ((c.sources[i]?).map s.fuFabric).getD false)

/-- The state is usable (R320, R321). -/
def State.fuUsableNow (s : State) (c : FuCfg) (ego : Option Nat) (t : Int) : Bool :=
  (ego.isSome || s.egoPaused c) && decide (s.fus.conflictMs < c.limitMs) &&
  (List.range 64).all (fun j => !jointOn s.govBody j || (s.jointAt j t).isSome)

/-- The 128 words of the record (R322). -/
def State.fusedWords (s : State) (t : Int) : List Nat :=
  let f := s.fus
  let on := f.gates.filter (fun (e : Nat × Gate) => e.2.since.isSome)
  let tt := twos 64 t
  let flags := b2n f.usable + 2 * b2n (on ≠ []) + put 2 2 f.ego + put 4 1 (b2n f.extrapolated) + put 16 16 (min f.conflictMs 0xFFFF)
  let w (v : List Int) : List Nat := v.map (twos 32)
  let qs := (List.range 64).map (fun j => (s.jointAt j t).getD (0, 0))
  let pack (g : Int × Int → Int) : List Nat :=
    (List.range 32).map (fun i => twos 16 (g (nth qs (2 * i) (0, 0))) + put 16 16 (twos 16 (g (nth qs (2 * i + 1) (0, 0)))))
  let desync := maskOf ((f.tracks.filter (fun (e : Nat × Track) => e.2.state = TrackState.desync)).map (·.1))
  [s.gov.tick % 2 ^ 32, flags, tt % 2 ^ 32, tt / 2 ^ 32] ++ w f.pos ++ w f.vel ++ w f.att ++ w f.rate ++ w f.acc ++
  [f.contacts % 2 ^ 32, 0, 0, 0] ++ pack (·.1) ++ pack (·.2) ++ List.replicate 32 0 ++
  [f.usedMask % 2 ^ 32, f.usedMask / 2 ^ 32 % 2 ^ 32, desync % 2 ^ 32, desync / 2 ^ 32 % 2 ^ 32, f.gateMask, 0, 0, 0]

/-- Steps 2–6 of R323 at tick T. -/
def State.fuse (s : State) (tick : Nat) : State :=
  let c := s.fuCfg
  let t : Int := (tick : Int)
  let ego := s.egoAt c t
  let s := if ego.1 = s.fus.ego then s else s.record 9 0x10 0 0xFF (ego.2.getD 0xFF) (le 1 ego.1)
  let s := s.propagate c ego.2 t
  let n := c.sources.length
  let al := (List.range n).map (fun i => s.fuAlign c i t)
  let before := s.fus
  let was := s.fus.excluded
  let s := (c.gates.zip (List.range c.gates.length)).foldl (fun s e => s.runGate e.1 e.2 al before ego.2.isSome t) s
  let out := was ++ s.fus.excluded
  let used := (List.range n).filter (fun i =>
    ((al[i]?).join).isSome && !has out i && ((c.sources[i]?).map (fun e => e.kind ≠ 1 || e.queue.isSome)).getD false)
  let f := used.foldl (fun (f : Fusion) i =>
    match c.sources[i]?, (al[i]?).join with
    | some e, some a => f.aid e a
    | _, _ => f) { s.fus with contacts := 0 }
  let since := f.gates.filterMap (fun (e : Nat × Gate) => e.2.since)
  let first := since.foldl min t
  let gates := maskOf ((f.gates.filter (fun (e : Nat × Gate) => e.2.since.isSome)).map (·.1)) +
    65536 * maskOf ((f.gates.filter (fun (e : Nat × Gate) => e.2.excluded ≠ [])).map (·.1))
  let ext := (used ++ ego.2.toList).any (fun i => match (al[i]?).join with
    | some a => a.extrapolated
    | none => false)
  let s := { s with fus := { f with
    ego := ego.1, usedMask := maskOf used, gateMask := gates, extrapolated := ext
    conflictMs := if since = [] then 0 else ((t - first) / 1000000).toNat } }
  let s := { s with fus := { s.fus with usable := s.fuUsableNow c ego.2 t } }
  { s with gov := { s.gov with tickFused := s.fusedWords t } }

/-- The voted record taken as the state (R270). -/
def State.adoptFused (s : State) (ws : List Nat) : State :=
  let w (i n : Nat) : List Int := (List.range n).map (fun k => signed 32 (nth ws (i + k) 0))
  { s with
    gov := { s.gov with fused := ws }
    fus := { s.fus with pos := w 4 3, vel := w 7 3, att := w 10 4, rate := w 14 3, acc := w 17 3, contacts := nth ws 20 0
                        instant := some (signed 64 (nth ws 2 0 + 2 ^ 32 * nth ws 3 0)) } }

/-- CONFLICT_LIMIT_EXPIRY (R319, R320): the conflict time of the earliest unresolved gate has reached its limit. -/
def execConflictLimitExpiry (s : State) : Out :=
  let since := s.fus.gates.filterMap (fun (e : Nat × Gate) => e.2.since)
  let c := s.fuCfg
  match since with
  | [] => .next s
  | x :: xs =>
    let ms := (((s.now : Int) - xs.foldl min x) / 1000000).toNat
    if s.gov.sec.isNone ∨ ms < c.limitMs then .next s
    else .next (({ s with fus := { s.fus with usable := false, conflictMs := ms } }).holdCause 5 true)

end Sys2Proof.Machine
end

