-- ==== Sys2Proof/Machine/Planner.lean ====
section
/-!
DEFINITION. The bolters (R243–R267): occupancy grids and pyramids, batches, sphere tests, selection, re-checks, emission,
and the watch on the active plan.
-/
namespace Sys2Proof.Machine

/-! ### Rationals -/

/-- A rational n ÷ d with d positive. -/
structure Ratio where
  n : Int
  d : Nat
  deriving DecidableEq, Repr

def Ratio.ofInt (i : Int) : Ratio := ⟨i, 1⟩
def Ratio.ofDy (a : Dy) : Ratio := if 0 ≤ a.e then ⟨a.m * (2 ^ a.e.toNat : Nat), 1⟩ else ⟨a.m, 2 ^ (-a.e).toNat⟩
def Ratio.add (a b : Ratio) : Ratio := ⟨a.n * b.d + b.n * a.d, a.d * b.d⟩
def Ratio.sub (a b : Ratio) : Ratio := ⟨a.n * b.d - b.n * a.d, a.d * b.d⟩
def Ratio.mul (a b : Ratio) : Ratio := ⟨a.n * b.n, a.d * b.d⟩
/-- a ÷ b for positive b. -/
def Ratio.div (a b : Ratio) : Ratio := ⟨a.n * b.d, a.d * b.n.natAbs⟩
def Ratio.floor (a : Ratio) : Int := a.n / (a.d : Int)
def Ratio.le (a b : Ratio) : Bool := decide (a.n * b.d ≤ b.n * a.d)

/-- The value of a finite FP32 code. -/
def ratio32 (c : Nat) : Ratio := Ratio.ofDy (dy32 c)

/-! ### The BOLTER section (R267) -/

/-- A sphere: offset and radius as FP32 codes. -/
structure Sphere where
  x : Nat
  y : Nat
  z : Nat
  r : Nat
  deriving DecidableEq, Repr

/-- A BOLTER body. -/
structure BolterCfg where
  grid : Nat
  stride : Nat
  bufs : Nat
  threshold : Nat
  outsideFree : Bool
  queue : Nat
  pitch : Nat
  margin : Nat
  spacing : Nat
  timeStream : Nat
  sets : Nat
  staleMs : Nat
  risk : Nat
  back : Nat
  ahead : Nat
  deriving DecidableEq, Repr

/-- A field, or its default where it is 0. -/
def orElse (v d : Nat) : Nat := if v = 0 then d else v

def bolterCfg (b : Bytes) : BolterCfg :=
  { grid := leAt b 0 8, stride := leAt b 8 4, bufs := leAt b 12 1, threshold := orElse (leAt b 13 1) 64
    outsideFree := leAt b 14 1 = 1, queue := leAt b 15 1, pitch := orElse (leAt b 16 2) 50, margin := leAt b 18 2
    spacing := orElse (leAt b 20 4) 50000, timeStream := leAt b 24 1, sets := leAt b 25 1
    staleMs := orElse (leAt b 26 2) 500, risk := leAt b 28 4, back := orElse (leAt b 32 1) 4
    ahead := orElse (leAt b 33 1) 8 }

/-- The spheres of a set. -/
def sphereSet (b : Bytes) (n : Nat) : List Sphere :=
  let o := 0x40 + 2064 * n
  (List.range (leAt b o 1)).map (fun i =>
    let p := o + 16 + 16 * i
    { x := leAt b p 4, y := leAt b (p + 4) 4, z := leAt b (p + 8) 4, r := leAt b (p + 12) 4 })

/-- Millimetres in metres. -/
def metres (mm : Nat) : Ratio := ⟨(mm : Int), 1000⟩

def State.bolter (s : State) (b : Nat) : Bolter := Tbl.getD s.bolters b {}
def State.setBolter (s : State) (b : Nat) (x : Bolter) : State := { s with bolters := Tbl.set s.bolters b x }
def Bolter.cfg (x : Bolter) : BolterCfg := bolterCfg ((x.sec.map Section.body).getD [])
def Bolter.ctx (x : Bolter) : Nat := (x.sec.map Section.ctx).getD 64

/-- Lanes and builds stand still (R266). -/
def State.bolterPaused (s : State) : Bool := s.pw.fabricPaused || s.gov.wheel.state = .brake

/-! ### Grids and pyramids (R243–R249) -/

/-- Code of a voxel of slice i as the bolter reads it (R244, R245, R266). -/
def Pyramid.voxel (p : Pyramid) (i x y z : Nat) : Nat :=
  let n := i * 4194304 + (y * 256 + x) * 64 + z
  let off := 0x10000 + n
  let v := (p.grid.read (p.base + off)).toNat
  let t := (p.grid.read (p.base + 0x8010000 + n / 32)).toNat
  let lost := p.failed.any (fun r => (r.1 ≤ off && off < r.2) || (r.1 ≤ 0x8010000 + n / 32 && 0x8010000 + n / 32 < r.2))
  if lost || t = 255 || 128 ≤ v then 127 else v

/-- Code of a level-k cell: the largest level-0 code over its voxels (R247). -/
def Pyramid.cell (p : Pyramid) (k i x y z : Nat) : Nat :=
  let n := 2 ^ k
  maxL ((List.range n).flatMap (fun dy => (List.range n).flatMap (fun dx => (List.range n).map (fun dz =>
    p.voxel i (x * n + dx) (y * n + dy) (z * n + dz))))) 0

/-- The buffer of a frame. -/
def BolterCfg.buffer (c : BolterCfg) (n : Nat) : Nat := c.grid + n % max c.bufs 1 * c.stride

/-- The pages of a grid buffer that hold a poisoned line. -/
def State.poisonedPages (s : State) (base : Nat) : List Nat :=
  (List.range 2113).filter (fun p => s.poisonedIn (base + 65536 * p) 65536)

/-- The timestamp of a frame of a stream, as the fusion units hold it, or as the command brings it (R246, R303). -/
def State.frameStamp (s : State) (stream n : Nat) (given : Int) : Int :=
  match ((Tbl.getD s.fus.tracks stream {}).frames.find? (fun e => e.1 = n)) with
  | some e => e.2
  | none => given

/-- The build of frame n starts, or the epoch is rejected (R246–R248). A token of the bolter's pool goes with each
request. -/
def State.startBuild (s : State) (b n : Nat) (stamp : Int) : State :=
  let x := s.bolter b
  let c := x.cfg
  let base := c.buffer n
  let head := (List.range 32).map (fun i => s.mem.hbm.readN (base + 4 * i) 4)
  let bad := !(head.all finite32) || s.mem.hbm.read (base + 128) = 255 || s.poisonedIn base 192
  if bad then
    let s := (s.bump (Reg.blEpochReject b) 1).record 8 1 0 0xFF b (le 4 n)
    s.setBolter b { x with frame := n + 1, heldFrame := none }
  else
    let off := roundQ .rne ((Ratio.ofDy (dy32 (nth head 3 0))).n.natAbs * 1000000000) ((Ratio.ofDy (dy32 (nth head 3 0))).d)
    let off : Int := if neg32 (nth head 3 0) then -(off : Int) else off
    let g : Mem := { s.mem.hbm with cells := s.mem.hbm.cells.filter (fun e => base ≤ e.1 && e.1 < base + 138477568) }
    let p : Pyramid := { epoch := n, te := s.frameStamp c.timeStream n stamp + off, origin := head.take 3, base := base
                         grid := g, failed := [] }
    let s := s.setBolter b { x with building := some p, buildStart := s.now, heldFrame := none }
    let pool := 144 + b
    let k := (s.pool pool).held + (s.pool pool).returned
    (s.move pool .returned .held k).move pool .held .inFlight (min k 2113)

/-- The rows of the tensor whose buffer 0 stands at an address, by the stage that produces it. -/
def State.gridRows (s : State) (a : Nat) : Option Nat :=
  (s.stripedStages.find? (fun n => (s.img n).outAddr = a)).map (fun n =>
    let p := s.img n
    p.rows * (if p.conv then p.fOut else 1))

/-- GRID_PUBLISH (R246, R249): the frame's watermark has reached the full buffer; while a pyramid is being built or waits,
the publication is held. -/
def execGridPublish (b n : Nat) (stamp : Int) (s : State) : Out :=
  let x := s.bolter b
  let c := x.cfg
  let f := s.frameBuf (c.buffer n)
  let due := if x.building.isSome then x.frame + 1 else x.frame
  let full := match s.gridRows c.grid with
    | some r => decide (r ≤ f.rows)
    | none => false
  if 2 ≤ b ∨ x.sec.isNone ∨ n ≠ due ∨ f.frame ≠ n ∨ full = false ∨ x.heldFrame.isSome ∨ s.bolterPaused then .next s
  else if x.building.isSome ∨ x.pendingPyr.isSome then .next (s.setBolter b { x with heldFrame := some (n, stamp) })
  else .next (s.startBuild b n stamp)

/-! ### Batches (R252–R254) -/

/-- The header of a batch record (R252). -/
def State.batchAt (s : State) (addr ctx : Nat) (idx : Option Nat) (resultAddr : Nat) : Batch :=
  let h := s.local addr 64
  { ctx := ctx, idx := idx, addr := addr, resultAddr := resultAddr, candidates := leAt h 0 2, waypoints := leAt h 2 1
    urgent := bitN (leAt h 3 1) 0, toGov := bitN (leAt h 3 1) 1, batchId := leAt h 4 4, planStart := leAt h 8 8
    deadline := leAt h 16 8 }

def Batch.size (x : Batch) : Nat := 64 + x.candidates * (32 + 32 * x.waypoints)
/-- Address of candidate c, and of its waypoint w. -/
def Batch.cand (x : Batch) (c : Nat) : Nat := x.addr + 0x40 + c * (32 + 32 * x.waypoints)
def Batch.way (x : Batch) (c w : Nat) : Nat := x.cand c + 32 + 32 * w

/-- The squared norm of a waypoint's quaternion. -/
def quatNorm (w : Bytes) : Dy :=
  Dy.sum ((List.range 4).map (fun i => let d := dy32 (widen 3 (leAt w (16 + 2 * i) 2)); d.mul d))

/-- A waypoint keeps R253: finite numbers, a quaternion that can be normalised, a loaded set, reserved bytes 0. -/
def wayOk (sets : Nat) (w : Bytes) : Bool :=
  [4, 8, 12].all (fun o => finite32 (leAt w o 4)) &&
  (List.range 4).all (fun i => finite32 (widen 3 (leAt w (16 + 2 * i) 2))) && (quatNorm w).m ≠ 0 &&
  leAt w 24 1 < sets && leAt w 25 7 = 0

/-- A batch keeps R252 and R253. -/
def State.batchOk (s : State) (c : BolterCfg) (x : Batch) : Bool :=
  let h := s.local x.addr 64
  1 ≤ x.candidates && x.candidates ≤ 4096 && 1 ≤ x.waypoints && x.waypoints ≤ 64 && leAt h 3 1 < 4 && allZero (h.drop 24) &&
  (List.range x.candidates).all (fun k => allZero (s.local (x.cand k + 4) 28) &&
    (List.range x.waypoints).all (fun w => wayOk c.sets (s.local (x.way k w) 32)))

/-- [a, a + n) lies in a static region of a context (R226). -/
def State.inRegion (s : State) (ctx a n : Nat) : Bool :=
  (s.quota ctx).regions.any (fun r => r.addr ≤ a && a + n ≤ r.addr + r.pages * 65536)

/-- A batch takes its place in the queue: urgent ones go ahead of every one that is not (R254). -/
def enqueueBatch (x : Batch) (q : List Batch) : List Batch :=
  if x.urgent then q.takeWhile (·.urgent) ++ [x] ++ q.dropWhile (·.urgent) else q ++ [x]

/-- The request of a BOLTER entry. -/
def State.bolterAsk (s : State) (ctx idx : Nat) : Option Request :=
  (s.request ctx idx).bind (fun r => if r.target = 4 then some r else none)

/-- BATCH (R254); a full queue leaves the entry waiting (R34). -/
def execBatch (ctx idx : Nat) (s : State) : Out :=
  match s.bolterAsk ctx idx with
  | none => .next s
  | some r =>
    let op := leAt r.body 0 1
    let b := leAt r.body 1 1
    let x := s.bolter b
    let addr := leAt r.body 8 8
    let out := leAt r.body 16 8
    if r.begun ∨ op = 2 then .next s
    else if op ≠ 1 ∨ 2 ≤ b ∨ leAt r.body 2 6 ≠ 0 ∨ leAt r.body 24 8 ≠ 0 then .next (s.finish r 0x15 0 0)
    else if x.sec.isNone ∨ x.ctx ≠ ctx then .next (s.finish r 0x0C 0 0)
    else if x.stopped then .next (s.finish r 0x11 0 0)
    else
      let bt := s.batchAt addr ctx (some idx) out
      if s.inRegion ctx addr 64 = false ∨ s.inRegion ctx addr bt.size = false ∨
          (out ≠ 0 ∧ s.inRegion ctx out (64 + 32 * bt.waypoints) = false) then .next (s.finish r 0x0C 0 0)
      else if s.batchOk x.cfg bt = false then .next (s.finish r 0x15 0 0)
      else if 8 ≤ x.queue.length then .next s
      else .next ((s.setBolter b { x with queue := enqueueBatch bt x.queue }).begin r)

/-! ### The test (R255–R257) -/

/-- The centre of a sphere on one axis: exact position plus rotated offset, and the rounding that R255's widening
covers. -/
def centreOf (pitch : Nat) (way : Bytes) (sp : Sphere) (axis : Nat) : Ratio :=
  let q (i : Nat) : Dy := dy32 (widen 3 (leAt way (16 + 2 * i) 2))
  let w := q 0
  let u : List Dy := [q 1, q 2, q 3]
  let v : List Dy := [dy32 sp.x, dy32 sp.y, dy32 sp.z]
  let g (l : List Dy) (i : Nat) : Dy := nth l (i % 3) Dy.zero
  let dot (a b : List Dy) : Dy := Dy.sum (List.zipWith Dy.mul a b)
  let cross : Dy := ((g u (axis + 1)).mul (g v (axis + 2))).sub ((g u (axis + 2)).mul (g v (axis + 1)))
  let two : Dy := ⟨2, 0⟩
  let num := (((g v axis).mul ((w.mul w).sub (dot u u))).add ((two.mul (g u axis)).mul (dot u v))).add ((two.mul w).mul cross)
  let rot := (Ratio.ofDy num).div (Ratio.ofDy (quatNorm way))
  let key := axis + 3 * leNat (way ++ le 4 sp.x ++ le 4 sp.y ++ le 4 sp.z)
  let err : Ratio := ⟨(pitch : Int) * clampI (-65536) 65536 (Config.centreError key), 1000 * 2 ^ 24⟩
  ((ratio32 (leAt way (4 + 4 * axis) 4)).add rot).add err

/-- r of R255. -/
def testRadius (c : BolterCfg) (sp : Sphere) : Ratio :=
  ((ratio32 sp.r).add (metres c.margin)).add ⟨(c.pitch : Int), 256000⟩

/-- The pyramid level of a radius: the least k from 1 with 2r ≤ 2^k × pitch. -/
def testLevel (c : BolterCfg) (r : Ratio) : Nat :=
  ((List.range 6).map (· + 1)).find? (fun k => ((Ratio.ofInt 2).mul r).le ((Ratio.ofInt (2 ^ k : Nat)).mul (metres c.pitch))) |>.getD 6

/-- The slices of a waypoint at time t µs after T_p, and whether it used the horizon. -/
def testSlices (c : BolterCfg) (p : Pyramid) (planStart t : Nat) : List Nat × Bool :=
  let d : Int := (planStart : Int) + (t : Int) * 1000 - p.te
  let n : Int := (c.spacing : Int) * 1000
  if d ≤ 0 then ([0], false)
  else if 31 * n ≤ d then ([31], true)
  else ([(d / n).toNat, (d / n).toNat + 1], false)

/-- A sphere test (R255): whether it hits, the largest code read otherwise, and whether it used slice 31 as the
horizon. -/
def sphereTest (c : BolterCfg) (p : Pyramid) (planStart : Nat) (way : Bytes) (sp : Sphere) : Bool × Nat :=
  let r := testRadius c sp
  let k := testLevel c r
  let size := (Ratio.ofInt (2 ^ k : Nat)).mul (metres c.pitch)
  let box := [0, 1, 2].map (fun a =>
    let o := ratio32 (nth p.origin a 0)
    let m := centreOf c.pitch way sp a
    ((((m.sub r).sub o).div size).floor, (((m.add r).sub o).div size).floor))
  let dims : List Int := [256 / 2 ^ k, 256 / 2 ^ k, 64 / 2 ^ k].map (fun (n : Nat) => (n : Int))
  let out := (box.zip dims).any (fun e => e.1.1 < 0 || e.2 ≤ e.1.2)
  let rng (a : Nat) : List Nat :=
    let e := nth box a (0, 0)
    ((List.range ((e.2 - e.1).toNat + 1)).map (fun (i : Nat) => e.1 + (i : Int))).filterMap (fun v =>
      if 0 ≤ v ∧ v < nth dims a 0 then some v.toNat else none)
  let codes := (testSlices c p planStart (leAt way 0 4)).1.flatMap (fun i =>
    (rng 0).flatMap (fun x => (rng 1).flatMap (fun y => (rng 2).map (fun z => p.cell k i x y z))))
  (codes.any (fun v => c.threshold ≤ v) || (out && !c.outsideFree), maxL codes 0)

/-- A waypoint against every sphere of its set: whether it hits, its peak, and the horizon. -/
def wayTest (body : Bytes) (p : Option Pyramid) (planStart : Nat) (way : Bytes) : Bool × Nat × Bool :=
  let c := bolterCfg body
  match p with
  | none => (true, 0, false)
  | some p =>
    let rs := (sphereSet body (leAt way 24 1)).map (sphereTest c p planStart way)
    (rs.any (·.1), maxL (rs.map (·.2)) 0, (testSlices c p planStart (leAt way 0 4)).2)

/-- A candidate's waypoints in order up to the first hit: the sum of peak ÷ 127, the hit, the horizon (R256, R257). -/
def wayRun (body : Bytes) (p : Option Pyramid) (planStart : Nat) : Nat → List Bytes → Nat × Option Nat × Bool
  | _, [] => (0, none, false)
  | i, w :: ws =>
    let t := wayTest body p planStart w
    if t.1 then (0, some i, t.2.2)
    else
      let r := wayRun body p planStart (i + 1) ws
      (r.1, r.2.1, t.2.2 || r.2.2)

/-- Σ_w (peak_w ÷ 127) in FP32 over the waypoints before the first hit, from waypoint 0 on. -/
def riskSum (body : Bytes) (p : Option Pyramid) (planStart : Nat) (ws : List Bytes) (n : Nat) : Nat :=
  (ws.take n).foldl (fun a w => add32 a (ratToF32 (((wayTest body p planStart w).2.1 : Nat) : Int) 127 0)) 0

/-- A candidate tested (R256, R257); `bad`: its record could not be read (R266). -/
def State.testCand (s : State) (body : Bytes) (p : Option Pyramid) (bt : Batch) (bad : Bool) (k : Nat) : Cand :=
  let base := s.mem.hbm.readN (bt.cand k) 4
  let ws := (List.range bt.waypoints).map (fun w => s.local (bt.way k w) 32)
  if bad ∨ s.poisonedIn (bt.cand k) (32 + 32 * bt.waypoints) then
    { index := k, cost := base, firstHit := 0, hit := true, horizon := false }
  else
    let r := wayRun body p bt.planStart 0 ws
    let n := r.2.1.getD bt.waypoints
    let cost := add32 base (mul32 (bolterCfg body).risk (riskSum body p bt.planStart ws n))
    let ok := finite32 cost
    { index := k, cost := cost, firstHit := if ok then n else 0, hit := r.2.1.isSome || !ok, horizon := r.2.2 }

/-! ### Starting, checking and selection (R250, R256–R262) -/

/-- The valid candidates by cost, ties to the lower index. -/
def insertCand (x : Cand) : List Cand → List Cand
  | [] => [x]
  | y :: t => if lt32 y.cost x.cost then y :: insertCand x t else x :: y :: t

/-- The better of two colliding candidates (R258). -/
def betterHit (a b : Cand) : Cand :=
  if a.firstHit < b.firstHit then b
  else if b.firstHit < a.firstHit then a
  else if lt32 b.cost a.cost then b else a

/-- The pyramid that tests read: none where every test is a hit (R266). -/
def Bolter.grid (x : Bolter) : Option Pyramid := if x.gridLost then none else x.active

/-- Checking ends: the retained candidates and the status (R258); the result waits to be emitted. -/
def State.select (s : State) (b : Nat) (cands : List Cand) (timeout stale : Bool) : State :=
  let x := s.bolter b
  match x.cur with
  | none => s
  | some bt =>
    let good := (cands.filter (fun c => !c.hit)).foldr insertCand []
    let bad := (cands.filter (fun c => c.hit))
    let worstHit := match bad with
      | [] => none
      | c :: t => some (t.foldl betterHit c)
    let us := (s.now - x.curStart) / 1000
    let r : Result := { batch := bt, status := if good ≠ [] then 0 else if worstHit.isSome then 7 else 6, timeout := timeout
                        rechecked := false, stale := stale, lost := x.gridLost, kept := good.take 4
                        colliding := worstHit, epoch := (x.active.map (·.epoch)).getD 0, te := (x.active.map (·.te)).getD 0
                        checked := cands.length, valid := good.length, elapsedUs := us }
    s.setBolter b { x with cur := none, state := .waiting, result := some r, lastUs := us }

/-- BATCH_START (R250, R254, R262): the next batch, urgent first; one that starts after its deadline or against a stale
grid is not checked. -/
def execBatchStart (b : Nat) (s : State) : Out :=
  let x := s.bolter b
  match x.queue with
  | [] => .next s
  | bt :: q =>
    if x.state ≠ .idle ∨ x.stopped ∨ x.pendingPyr.isSome ∨ x.sec.isNone ∨ s.bolterPaused then .next s
    else
      let s := s.setBolter b { x with queue := q, cur := some bt, curStart := s.now, state := .checking }
      let stale : Bool := match x.active with
        | some p => decide (p.te + (x.cfg.staleMs : Int) * 1000000 < (s.now : Int))
        | none => false
      let late := decide (bt.deadline ≤ s.now)
      if stale ∨ late then .next (s.select b [] late stale) else .next s

/-- CHECKING_END (R256–R258, R262): every candidate has been tested before the deadline. -/
def execCheckingEnd (b : Nat) (late : List Nat) (s : State) : Out :=
  let x := s.bolter b
  match x.cur with
  | none => .next s
  | some bt =>
    if x.state ≠ .checking ∨ s.bolterPaused ∨ bt.deadline ≤ s.now then .next s
    else
      let body := (x.sec.map Section.body).getD []
      .next (s.select b ((List.range bt.candidates).map (fun k => s.testCand body x.grid bt (has late k) k)) false false)

/-- BATCH_DEADLINE (R262, R266): only candidates that were completely tested take part. A deadline that passes in a pause acts on
resumption. -/
def execBatchDeadline (b : Nat) (tested late : List Nat) (s : State) : Out :=
  let x := s.bolter b
  match x.cur with
  | none => .next s
  | some bt =>
    if x.state ≠ .checking ∨ s.bolterPaused ∨ s.now < bt.deadline then .next s
    else
      let body := (x.sec.map Section.body).getD []
      let ks := (List.range bt.candidates).filter (fun k => has tested k)
      .next (s.select b (ks.map (fun k => s.testCand body x.grid bt (has late k) k)) true false)

/-! ### The result record (R259, R260) -/

/-- The candidate a result names. -/
def Result.winner (r : Result) : Option Cand :=
  match r.kept with
  | c :: _ => some c
  | [] => if r.status = 7 then r.colliding else none

def Result.flags (r : Result) : Nat :=
  b2n r.timeout + 2 * b2n r.rechecked + 4 * b2n ((r.winner.map (·.horizon)).getD false) + 8 * b2n r.stale + 32 * b2n r.lost

/-- The 64 bytes of a record. -/
def recordHead (status flags b w batchId cand firstHit epoch planStart : Nat) (te : Int) (cost checked valid us : Nat) : Bytes :=
  le 1 status ++ le 1 flags ++ le 1 b ++ le 1 w ++ le 4 batchId ++ le 2 cand ++ le 1 firstHit ++ le 1 0 ++ le 4 epoch ++
  le 8 planStart ++ le 8 (twos 64 te) ++ le 4 cost ++ le 2 checked ++ le 2 valid ++ le 4 us ++ zeros 20

/-- The record of a result, with the winner's waypoints; a NO_PATH record carries none. -/
def State.resultRecord (s : State) (b : Nat) (r : Result) : Bytes :=
  let w := r.winner
  let n := if w.isSome then r.batch.waypoints else 0
  let fh := match w with
    | some c => if c.hit then c.firstHit else 0xFF
    | none => 0xFF
  recordHead r.status r.flags b n r.batch.batchId ((w.map (·.index)).getD 0xFFFF) fh r.epoch r.batch.planStart r.te
    ((w.map (·.cost)).getD 0) r.checked r.valid r.elapsedUs ++
  (match w with
   | some c => s.local (r.batch.way c.index 0) (32 * n)
   | none => [])

/-- Destination byte of a governor-interface queue (R510). -/
def govDest (q : Nat) : Nat := (30 + q / 8) + 32 * (q % 8)

/-- A record as the parcels of R260: tag 0 and the record's status. -/
def recordParcels (b ctx queue status batchId : Nat) (rec : Bytes) : List Parcel :=
  let gs := chunksOf 1024 (rec.length / 1024 + 1) rec
  (gs.zip (List.range gs.length)).map (fun e =>
    let n := (e.1.length + 31) / 32
    { dest := govDest queue, cls := 0, ctx := ctx, last := e.2 + 1 = gs.length, blocks := n, format := 8, seq := batchId, off := 32 * e.2
      tags := List.replicate n 0, status := List.replicate n status, payload := padTo 1024 e.1, weir := 17 + b })

/-- A parcel of bolter b is admitted at its weir on a credit and a token, if it can be. -/
def State.bolterAdmit (s : State) (b : Nat) (p : Parcel) : Option State :=
  let w := 17 + b
  let t := (s.setWaiting w [p]).admitEdge w p.dest
  if t.waiting w = [] then some t else none

/-- The last write or emission of a result is done: counters, the active plan, and the completion (R260, R264, R265). -/
def State.resultOver (s : State) (b : Nat) (r : Result) : State :=
  let rec' := s.resultRecord b r
  let s := if r.batch.resultAddr ≠ 0 then s.putMem r.batch.resultAddr rec' else s
  let s := s.bump (Reg.blBatches b) 1
  let s := if r.timeout then s.bump (Reg.blTimeouts b) 1 else s
  let s := if r.status = 6 then s.bump (Reg.blNoPath b) 1 else s
  let s := if r.status = 7 then s.bump (Reg.blColliding b) 1 else s
  let x := s.bolter b
  let x := { x with state := .idle, result := none }
  let x := if r.status = 0 ∧ r.batch.toGov ∧ x.cfg.queue ≠ 0xFF then
      { x with plan := some rec', blocked := false, watchHit := 0, signal := none, fullReplan := false }
    else if r.batch.repair then
      { x with signal := if x.fullReplan then none else some x.watchHit, fullReplan := true }
    else x
  let s := s.setBolter b x
  match r.batch.idx with
  | none => s
  | some i =>
    let w := r.winner
    let fh := match w with
      | some c => if c.hit then c.firstHit else 0xFF
      | none => 0xFF
    s.finishAt r.batch.ctx i r.status
      ((w.map (·.index)).getD 0xFFFF + put 16 8 fh + put 24 8 r.flags + put 32 32 r.epoch)

/-- The re-check of the retained valid candidates in cost order against the active pyramid, up to the first survivor (R261). -/
def State.recheck (s : State) (b : Nat) (x : Bolter) (r : Result) : State :=
  let body := (x.sec.map Section.body).getD []
  let test (c : Cand) : Cand := s.testCand body x.grid r.batch false c.index
  let gone := r.kept.takeWhile (fun c => (test c).hit)
  let keep := match r.kept.drop gone.length with
    | [] => []
    | c :: t => { c with horizon := (test c).horizon } :: t
  let n := gone.length + (if keep = [] then 0 else 1)
  let r' : Result := { r with
    kept := keep, status := if keep = [] then 6 else 0, rechecked := true
    epoch := (x.active.map (·.epoch)).getD r.epoch, te := (x.active.map (·.te)).getD r.te }
  (s.bump (Reg.blRechecks b) n).setBolter b { x with state := .waiting, result := some r' }

/-- The next parcel of a result is emitted; after the last, or where there is none to emit, the result is over. -/
def State.emitNext (s : State) (b : Nat) (x : Bolter) (r : Result) : State :=
  let ps := if r.batch.toGov ∧ x.cfg.queue ≠ 0xFF then
      recordParcels b x.ctx x.cfg.queue r.status r.batch.batchId (s.resultRecord b r)
    else []
  match ps[r.sent]? with
  | none => s.resultOver b r
  | some p =>
    match s.bolterAdmit b p with
    | none => s
    | some t =>
      let r' : Result := { r with sent := r.sent + 1 }
      if ps.length ≤ r'.sent then t.resultOver b r' else t.setBolter b { x with result := some r' }

/-- RESULT_EMIT (R260, R261): the re-check that is due; else a parcel of a watch notice; else the next parcel of the
result. A pyramid that waits becomes active first. -/
def execResultEmit (b : Nat) (s : State) : Out :=
  let x := s.bolter b
  let begun := match x.result with
    | some r => decide (0 < r.sent)
    | none => false
  if s.bolterPaused ∨ x.stopped then .next s
  else if x.state = .rechecking then
    match x.result with
    | some r => .next (s.recheck b x r)
    | none => .next (s.setBolter b { x with state := .idle })
  else match begun, x.notices with
    | false, p :: ps =>
      match s.bolterAdmit b p with
      | some t => .next (t.setBolter b { x with notices := ps })
      | none => .next s
    | _, _ =>
      if x.pendingPyr.isSome ∧ begun = false then .next s
      else match x.result with
        | some r => if x.state = .waiting then .next (s.emitNext b x r) else .next s
        | none => .next s

/-! ### The active epoch advances (R249, R261, R264) -/

/-- The active plan against the new pyramid: the first waypoint not yet past that fails (R264). -/
def State.watchFails (s : State) (body plan : Bytes) (p : Option Pyramid) : Option Nat :=
  let start := leAt plan 0x10 8
  (List.range (leAt plan 3 1)).find? (fun w =>
    let way := (plan.drop (64 + 32 * w)).take 32
    decide (s.now ≤ start + leAt way 0 4 * 1000) && (wayTest body p start way).1)

/-- The watch at an epoch switch: a notice and the signal to the planner firmware (R264). -/
def State.watch (s : State) (b : Nat) : State :=
  let x := s.bolter b
  let body := (x.sec.map Section.body).getD []
  match x.plan, x.active with
  | some plan, some p =>
    match s.watchFails body plan x.grid with
    | none => s.setBolter b { x with blocked := false, watchEpoch := p.epoch }
    | some k =>
      let rec' := recordHead 7 16 b (leAt plan 3 1) 0xFFFFFFFF (leAt plan 8 2) k p.epoch (leAt plan 0x10 8) p.te
        (leAt plan 0x20 4) (leAt plan 0x24 2) (leAt plan 0x26 2) (leAt plan 0x28 4) ++ plan.drop 64
      let ps := if x.cfg.queue = 0xFF then [] else recordParcels b x.ctx x.cfg.queue 7 0xFFFFFFFF rec'
      (s.bump (Reg.blColliding b) 1).setBolter b { x with
        blocked := true, watchHit := k, watchEpoch := p.epoch, signal := some k, notices := x.notices ++ ps }
  | _, _ => s

/-- A built pyramid becomes active: a retained result is to be checked again, the plan watch runs, a firmware whose full
re-plan failed tries again, and a held publication is built. -/
def State.activate (s : State) (b : Nat) (p : Pyramid) : State :=
  let x := s.bolter b
  let again := match x.result with
    | some r => r.kept ≠ [] && r.sent = 0 && r.epoch ≠ p.epoch
    | none => false
  let s := s.setBolter b { x with active := some p, gridLost := false, pendingPyr := none
                                  state := if again then .rechecking else x.state
                                  signal := if x.fullReplan then some x.watchHit else x.signal }
  let s := s.watch b
  match x.heldFrame with
  | some h => if (s.bolter b).building.isNone then s.startBuild b h.1 h.2 else s
  | none => s

/-- PYRAMID_ACTIVATE (R249): only while the bolter is neither checking nor re-checking. -/
def execPyramidActivate (b : Nat) (s : State) : Out :=
  let x := s.bolter b
  match x.pendingPyr with
  | none => .next s
  | some p => if x.state = .checking ∨ x.state = .rechecking then .next s else .next (s.activate b p)

/-- PYRAMID_BUILD_DONE (R247, R249, R266): the frame is released; the pyramid becomes active or waits. -/
def execPyramidBuildDone (b : Nat) (failed : List Nat) (s : State) : Out :=
  let x := s.bolter b
  match x.building with
  | none => .next s
  | some p =>
    if s.bolterPaused then .next s
    else
      let pages := failed ++ s.poisonedPages p.base
      let p := { p with failed := pages.map (fun n => (65536 * n, 65536 * n + 65536)) }
      let pool := 144 + b
      let s := s.move pool .inFlight .returned (s.pool pool).inFlight
      let x := { x with building := none, frame := p.epoch + 1, buildUs := (s.now - x.buildStart) / 1000 }
      let s := s.setBolter b { x with pendingPyr := some p }
      if x.state = .checking ∨ x.state = .rechecking then .next s else .next (s.activate b p)

/-! ### Watch and repair (R264, R265) -/

/-- CLEAR_WATCH (R264). -/
def execClearWatch (ctx idx : Nat) (s : State) : Out :=
  match s.bolterAsk ctx idx with
  | none => .next s
  | some r =>
    let b := leAt r.body 1 1
    let x := s.bolter b
    if r.begun ∨ leAt r.body 0 1 ≠ 2 then .next s
    else if 2 ≤ b ∨ allZero (r.body.drop 2) = false then .next (s.finish r 0x15 0 0)
    else if x.sec.isNone ∨ x.ctx ≠ ctx then .next (s.finish r 0x0C 0 0)
    else
      .next ((s.setBolter b { x with plan := none, blocked := false, signal := none, fullReplan := false }).finish r 0 0 0)

/-- A repair candidate keeps the active plan's waypoints before the replaced segment (R265). -/
def State.repairKeeps (s : State) (x : Bolter) (bt : Batch) (k : Nat) : Bool :=
  match x.plan with
  | none => false
  | some plan =>
    (List.range bt.candidates).all (fun c => s.local (bt.way c 0) (32 * (k - x.cfg.back)) = (plan.drop 64).take (32 * (k - x.cfg.back)))

/-- REPAIR_BATCH (R265): an urgent batch of the planner firmware answers the watch signal. -/
def execRepairBatch (b addr : Nat) (s : State) : Out :=
  let x := s.bolter b
  match x.signal with
  | none => .next s
  | some k =>
    let bt := { s.batchAt addr x.ctx none 0 with urgent := true, toGov := true, repair := true }
    if 2 ≤ b ∨ x.sec.isNone ∨ x.stopped ∨ 8 ≤ x.queue.length ∨ s.inRegion x.ctx addr bt.size = false ∨
        s.batchOk x.cfg bt = false ∨ (x.fullReplan = false ∧ s.repairKeeps x bt k = false) then .next s
    else .next (s.setBolter b { x with queue := enqueueBatch bt x.queue, signal := none })

end Sys2Proof.Machine
end

