-- ==== Sys2Proof/Machine/Governor.lean ====
section
/-!
DEFINITION. The governor (R268–R301): the interface queues, the tick, voting, the joint loop slices, the brake wheel's
commands, isolation and reload of lanes. One computation stands for the three lanes (R271); the operand of a vote says
where a lane strays from it.
-/
namespace Sys2Proof.Machine

/-! ### The GOVERNOR section (R299, R300) -/

/-- L in ns, the acceptance window's lead and guard in ns, imp_divider, single_lane_ms. -/
def launchNs (b : Bytes) : Nat := 10000 * (if leAt b 2 1 = 0 then 18 else leAt b 2 1)
def leadUs (b : Bytes) : Nat := if leAt b 3 1 = 0 then 65 else leAt b 3 1
def guardUs (b : Bytes) : Nat := if leAt b 4 1 = 0 then 5 else leAt b 4 1
def impDivider (b : Bytes) : Nat := if leAt b 5 1 = 0 then 1 else leAt b 5 1
def singleMs (b : Bytes) : Nat := if leAt b 6 2 = 0 then 2000 else leAt b 6 2

/-- A joint entry. -/
structure JointCfg where
  enabled : Bool
  table : Bool
  wrap : Bool
  drive : Nat
  pExp : Int
  vExp : Int
  tExp : Int
  gainShift : Nat
  kp : Int
  kd : Int
  holdShift : Nat
  bandShift : Nat
  kpHold : Int
  kdHold : Int
  gBand : Int
  qMin : Int
  qMax : Int
  qdMax : Int
  tauMax : Int
  dtauMax : Int
  qdReduced : Int
  tableOff : Nat
  deriving DecidableEq, Repr

def jointCfg (body : Bytes) (j : Nat) : JointCfg :=
  let e := jointEntry body j
  let s8 (o : Nat) : Int := signed 8 (leAt e o 1)
  let s16 (o : Nat) : Int := signed 16 (leAt e o 2)
  { enabled := jointOn body j, table := bitN (leAt e 0 1) 1, wrap := bitN (leAt e 0 1) 2, drive := leAt e 1 1
    pExp := s8 2, vExp := s8 3, tExp := s8 4, gainShift := leAt e 5 1, kp := s16 6, kd := s16 8, holdShift := leAt e 10 1
    bandShift := leAt e 11 1, kpHold := s16 12, kdHold := s16 14, gBand := s16 16, qMin := s16 18, qMax := s16 20
    qdMax := s16 22, tauMax := s16 24, dtauMax := s16 26, qdReduced := s16 28, tableOff := leAt e 32 4 }

def jointCfgs (body : Bytes) : List JointCfg := (List.range 64).map (jointCfg body)

/-! ### Interface queues (R80, R280, R285–R288) -/

/-- A GOVIF body. -/
structure QueueCfg where
  kind : Nat
  consumer : Nat
  depth : Nat
  tagLimit : Nat
  period : Nat
  holdLast : Nat
  action : Nat
  format : Nat
  /-- Exponent, target and field of each element. -/
  elements : List (Int × Nat × Nat)
  deriving DecidableEq, Repr

def queueCfg (b : Bytes) : QueueCfg :=
  { kind := leAt b 0 1, consumer := leAt b 1 1, depth := leAt b 2 1, tagLimit := leAt b 3 1, period := leAt b 6 2
    holdLast := leAt b 8 1, action := leAt b 9 1, format := leAt b 10 1
    elements := (List.range (leAt b 4 2)).map (fun i =>
      let o := 0x10 + 4 * i
      (signed 8 (leAt b o 1), leAt b (o + 1) 1, leAt b (o + 2) 1)) }

def State.gq (s : State) (q : Nat) : GovQueue := Tbl.getD s.gov.queues q {}
def State.setGq (s : State) (q : Nat) (x : GovQueue) : State :=
  { s with gov := { s.gov with queues := Tbl.set s.gov.queues q x } }
def GovQueue.cfg (x : GovQueue) : QueueCfg := queueCfg ((x.sec.map Section.body).getD [])

/-- The queues with a section. -/
def State.queuesOn (s : State) : List Nat := (List.range 16).filter (fun q => (s.gq q).sec.isSome)

/-- Parcels of one record: one item of one producer (R87). -/
def sameRecord (a b : Parcel) : Bool := a.weir = b.weir && a.mill = b.mill && a.stage = b.stage && a.seq = b.seq

/-- A slot is freed: its credit goes back to its producer, or is parked while the sluice is closed (R94, R286). -/
def State.freeGovSlot (s : State) (q : Nat) (p : Parcel) : State :=
  let pool := 448 + q
  let key := creditKey pool p.weir
  let s := s.move pool .held .returned 1
  if (s.gq q).closed then
    ({ s with leat := { s.leat with parked := Tbl.set s.leat.parked key (Tbl.getD s.leat.parked key 0 + 1) } }).move
      pool .returned .parked 1
  else
    ({ s with leat := { s.leat with returning := Tbl.set s.leat.returning key (Tbl.getD s.leat.returning key 0 + 1) } }).move
      pool .returned .inFlight 1

/-- The slots of some parcels of a queue are freed. -/
def State.freeRecord (s : State) (q : Nat) (ps : List Parcel) : State :=
  let s := s.setGq q { s.gq q with slots := (s.gq q).slots.filter (fun x => !ps.contains x) }
  ps.foldl (fun s p => s.freeGovSlot q p) s

/-- The parcels of the record that ends with parcel `p`. -/
def GovQueue.recordOf (x : GovQueue) (p : Parcel) : List Parcel := x.slots.filter (sameRecord p)

/-- The head parcel that has reached queue q, of the given kind, written into a slot. The queues are class M (R26, R32). -/
def State.govTake (s : State) (q kind cycles : Nat) : Option (Parcel × State) :=
  let d := govDest q
  match Tbl.getD s.leat.arrived d [] with
  | [] => none
  | p :: rest =>
    let x := s.gq q
    if 16 ≤ q ∨ x.sec.isNone ∨ x.cfg.kind ≠ kind ∨ p.cls ≠ 0 then none
    else
      let s := { s with leat := { s.leat with arrived := Tbl.set s.leat.arrived d rest } }
      let s := (s.latPeak p.cls p.weir cycles).move (448 + q) .inFlight .held 1
      some (p, s.setGq q { x with slots := x.slots ++ [p] })

/-- Blocks that R80 rejects. -/
def badBlocks (limit : Nat) (ps : List Parcel) : Nat :=
  sumN (ps.map (fun p => ((List.range p.blocks).filter (fun i => nth p.status i 0 ≠ 0 || decide (limit < nth p.tags i 0))).length))

/-- Elements of a record in FP32, BF16 or FP16. -/
def recordCodes (fmt : Nat) (ps : List Parcel) : List Nat :=
  ps.flatMap (fun p => unpackCodes (fmtWidth fmt) (32 * p.blocks) p.payload)

/-- n = x × 2^(15 − e) rounded as R278 rounds (R280). -/
def convQ15 (fmt code : Nat) (e : Int) : Int :=
  let x := dy32 (widen fmt code)
  (Dy.add ⟨x.m, x.e + 15 - e⟩ ⟨1, -1⟩).floor

/-- The converted record; a record with fewer values than elements has 0 for the rest. -/
def QueueCfg.convert (c : QueueCfg) (ps : List Parcel) : List Int :=
  let xs := recordCodes c.format ps
  (c.elements.zip (List.range c.elements.length)).map (fun e => convQ15 c.format (nth xs e.2 0) e.1.1)

/-- The integers of Q15 (R278). -/
def isQ15 (n : Int) : Bool := decide (-32768 ≤ n) && decide (n ≤ 32767)

/-- GOVIF_RECORD_ARRIVE (R80, R280, R286): one parcel; a complete record that is rejected frees its slots. -/
def execGovifRecordArrive (q cycles : Nat) (s : State) : Out :=
  match s.govTake q 1 cycles with
  | none => .next s
  | some (p, s) =>
    if p.last = false then .next s
    else
      let x := s.gq q
      let ps := x.recordOf p
      let bad := badBlocks x.cfg.tagLimit ps
      if bad ≠ 0 then .next ((s.bump (Reg.gvTagReject q) bad).freeRecord q ps)
      else if (x.cfg.convert ps).all isQ15 then .next s
      else .next ((s.bump (Reg.gvConvSat q) 1).freeRecord q ps)

/-- The bytes of a PLAN record. -/
def recordBytes (ps : List Parcel) : Bytes := ps.flatMap (fun p => p.payload.take (32 * p.blocks))

/-- A plan record as the governor keeps it (R259). -/
def planOf (rec : Bytes) : CurPlan :=
  let start := leAt rec 0x10 8
  let times := (List.range (leAt rec 3 1)).map (fun i => start + 1000 * leAt rec (64 + 32 * i) 4)
  { bolter := leAt rec 2 1, epoch := leAt rec 0x0C 4, planStart := start, lastNs := maxL times 0, record := rec }

/-- A watch notice that R288's exception takes: status COLLIDING, flag watch, its blocks rejected for that status alone. A block
with another status or a tag above the limit is a rejected block of R80, and nothing of its record acts (log entry 54). -/
def watchNotice (limit : Nat) (rec : Bytes) (ps : List Parcel) : Bool :=
  leAt rec 0 1 = 7 && bitN (leAt rec 1 1) 4 &&
  ps.all (fun p => (List.range p.blocks).all (fun i => nth p.status i 0 = 7 && decide (nth p.tags i 0 ≤ limit)))

/-- PLAN_RECORD_ARRIVE (R80, R288): a watch notice withdraws the current plan of its bolter. -/
def execPlanRecordArrive (q cycles : Nat) (s : State) : Out :=
  match s.govTake q 0 cycles with
  | none => .next s
  | some (p, s) =>
    if p.last = false then .next s
    else
      let x := s.gq q
      let ps := x.recordOf p
      let bad := badBlocks x.cfg.tagLimit ps
      let rec' := recordBytes ps
      if bad = 0 ∧ leAt rec' 0 1 = 0 then .next { s with gov := { s.gov with newPlan := some (planOf rec') } }
      else
        let s := (s.bump (Reg.gvTagReject q) bad).freeRecord q ps
        let mine : Bool := match s.gov.plan with
          | some c => c.bolter = leAt rec' 2 1
          | none => false
        if watchNotice x.cfg.tagLimit rec' ps = true ∧ mine = true then .next (({ s with gov := { s.gov with plan := none } }).holdCause 0 true)
        else .next s

/-- The causes of R286 follow the queues whose miss_action acts: 1 REDUCED, 2 HOLD. -/
def State.queueCauses (s : State) : State :=
  let acting (a : Nat) : Bool := s.queuesOn.any (fun q => (s.gq q).acting && (s.gq q).cfg.action = a)
  let w := { s.gov.wheel with capQueue := acting 1 }
  s.setWheel { w with hold := if acting 2 then addN w.hold 2 else remN w.hold 2 }

/-- From n × 2^(e − 15) into the units of R302, by field of R303. -/
def fieldUnits (k : Nat) (n e : Int) : Int :=
  shiftR n (if k < 3 then e + 1 else if k < 7 then e + 15 else if k < 10 then e + 5 else if k < 13 then e + 9 else e - 15)

/-- The corrected instant of frame n modulo 32,768 of a source's time_stream (R303, R308). -/
def State.frameInstant (s : State) (c : FuCfg) (src : Nat) (n : Int) : Option Int :=
  match c.sources[src]? with
  | none => none
  | some e =>
    let x := s.track e.stream
    if x.state = .locked then
      (x.frames.find? (fun (f : Nat × Int) => ((f.1 % 32768 : Nat) : Int) = n)).map (·.2)
    else none

/-- A fusion record gives each source it names a sample (R303); none where a frame is not known. -/
def State.fuseRecord (s : State) (c : FuCfg) (es : List (Int × Nat × Nat)) (v : List Int) : Option State :=
  let all := es.zip v
  let number := ((all.find? (fun (x : (Int × Nat × Nat) × Int) => x.1.2.2 = 14)).map (·.2)).getD 0
  let srcs := (all.filter (fun (x : (Int × Nat × Nat) × Int) => x.1.2.2 < 14)).foldl (fun l x => addN l x.1.2.1) []
  if srcs.all (fun i => (s.frameInstant c i number).isSome) then
    some (srcs.foldl (fun s i =>
      let comp (k : Nat) : Int := match all.find? (fun (x : (Int × Nat × Nat) × Int) => x.1.2.1 = i && x.1.2.2 = k) with
        | some x => fieldUnits k x.2 x.1.1
        | none => 0
      let smp : Sample := { t := (s.frameInstant c i number).getD 0, v := (List.range 14).map comp }
      { s with fus := { s.fus with samples := Tbl.set s.fus.samples i (addSample smp (s.samples i)) } }) s)
  else none

/-- A complete record of queue q is applied (R286), or, with an unknown frame, dropped as missing; its slots are freed. -/
def State.applyRecord (s : State) (c : FuCfg) (q : Nat) (p : Parcel) : State :=
  let x := s.gq q
  let ps := x.recordOf p
  let v := x.cfg.convert ps
  let r := if x.cfg.consumer = 0 then s.fuseRecord c x.cfg.elements v else some s
  match r with
  | none => s.freeRecord q ps
  | some t =>
    let t := t.freeRecord q ps
    t.setGq q { t.gq q with applied := v, inUse := true, fresh := true, missing := false, missCount := 0, dropped := false
                            acting := false }

/-- A tick of a queue's period (R286). -/
def GovQueue.tickPeriod (x : GovQueue) : GovQueue :=
  if x.phase + 1 < x.cfg.period then { x with phase := x.phase + 1 }
  else if x.fresh then { x with phase := 0, fresh := false, missing := false, missCount := 0 }
  else { x with phase := 0, missing := true, missCount := x.missCount + 1 }

/-- A VECTOR queue at the close of a window (R286, R287). -/
def State.closeQueue (s : State) (c : FuCfg) (q : Nat) : State :=
  let x := s.gq q
  if x.sec.isNone ∨ x.cfg.kind ≠ 1 then s
  else if s.gov.wheel.supply then
    s.setGq q { x.tickPeriod with missCount := 0, dropped := true, acting := false }
  else
    let s := s.setGq q { x with dropped := x.acting }
    let s := (x.slots.filter (fun p => p.last)).foldl (fun s p => s.applyRecord c q p) s
    s.setGq q (s.gq q).tickPeriod

/-- ACCEPTANCE_WINDOW_CLOSE (R269, R286, R309): frames, then records, for the tick to come. -/
def execAcceptanceWindowClose (s : State) : Out :=
  if s.pw.motionOn = false ∨ s.tm.running = false ∨ s.gov.sec.isNone ∨ s.gov.windowClosed = true then .next s
  else
    let t := s.tickNext
    let c := s.fuCfg
    let fs := s.fus.inbox
    let s := fs.foldl (fun s f => s.fuseFrame c t f) s
    let ti : Int := (t : Int)
    let s := s.countLate c (ti - 1000 * (leadUs s.govBody : Int)) (ti - 1000 * (guardUs s.govBody : Int)) fs
    let s := { s with fus := { s.fus with inbox := [] } }
    let s := ((List.range 16).foldl (fun s q => s.closeQueue c q) s).queueCauses
    .next { s with gov := { s.gov with windowClosed := true } }

/-- HOLD_LAST_EXPIRY (R286): miss_action acts until a record is applied again. -/
def execHoldLastExpiry (q : Nat) (s : State) : Out :=
  let x := s.gq q
  if 16 ≤ q ∨ x.sec.isNone ∨ x.cfg.kind ≠ 1 ∨ s.gov.wheel.supply ∨ x.acting ∨ x.missCount ≤ x.cfg.holdLast then .next s
  else .next ((s.setGq q { x with dropped := true, acting := true }).queueCauses)

/-! ### The tick (R275) -/

/-- A tick passes for the tick generator: an accepted phase takes effect after it, with its first tick at least 250,000 ns
later (R347). -/
def State.passTick (s : State) (t : Nat) : State :=
  { s with tm := { s.tm with phase := s.phaseNow, newPhase := none, armed := s.tm.newPhase.map (fun v => (v, t + 250000)) } }

/-- INNER_TICK (R275, R323, R347): fusion at the tick instant; none where the next instant is still to come under a new phase. -/
def execInnerTick (s : State) : Out :=
  if s.pw.motionOn = false ∨ s.tm.running = false ∨ s.armedTick.isSome = true then .next s
  else if s.gov.sec.isNone then .next (s.passTick s.tickNow)
  else
    let t := s.tickNow
    let s := { s with gov := { s.gov with
      windowClosed := false, tick := s.gov.tick + 1
      returns := (List.range 4).map (fun r => (r, Tbl.getD s.gov.returns r 0 + 1)) } }
    .next ((s.fuse t).passTick t)

/-! ### Voting (R272–R274) -/

/-- Where lanes stray: lane, and byte offset and value of a word, or none for an absent lane. -/
abbrev Strays := List (Nat × Option (Nat × Nat))

def Strays.absent (d : Strays) (l : Nat) : Bool := d.any (fun e => e.1 = l && e.2.isNone)

/-- Lane l's word at byte offset `off`, the healthy word being `w`. -/
def Strays.word (d : Strays) (l off w : Nat) : Nat :=
  match d.find? (fun e => e.1 = l && (match e.2 with
    | some x => x.1 = off
    | none => false)) with
  | some (_, some x) => x.2 % 2 ^ 32
  | _ => w

/-- The value that at least two hold, or that of the one lane that is there. -/
def majorityOf (vs : List Nat) : Option Nat :=
  match vs with
  | [v] => some v
  | _ => vs.find? (fun v => decide (2 ≤ (vs.filter (· = v)).length))

/-- Offsets of a point at which some lane strays. -/
def Strays.offsets (d : Strays) (base n : Nat) : List Nat :=
  (d.filterMap (fun e => e.2.map (·.1))).foldl (fun l o => if base ≤ o ∧ o < base + 4 * n ∧ o % 4 = 0 then addN l o else l) []

/-- A lane that runs a vote-compatible new build and strays in SHADOW ends the update (R489). -/
def State.shadowStray (s : State) (l : Nat) : State :=
  let u := s.sec.update
  if u.phase = .apply ∧ u.cls = 3 ∧ u.rollback = false ∧ u.unit = l then (s.setFw { u with done := u.done ++ [l] }).fwAbort else s

/-- No majority at a point (R274): the second in a row gives STO. -/
def State.noMajority (s : State) : State :=
  let s := (s.bump Reg.gvNoMajority 1).raise Reg.gvEvents 64
  let s := if s.gov.noMajority then s.stoCause 1 else s
  { s with gov := { s.gov with noMajority := true } }

/-- The voter at a point whose healthy content is `ws`, its first word at byte offset `base`: the majority words, none
where a word has no majority; lanes in the minority are isolated (R273). -/
def State.vote (s : State) (point base : Nat) (ws : List Nat) (d : Strays) : Option (List Nat) × State :=
  let inS := s.lanesIn
  let here := inS.filter (fun l => !d.absent l)
  if inS = [] ∧ s.gov.wheel.state = .standby then (none, s)
  else
    let offs := d.offsets base ws.length
    let w (o : Nat) : Nat := nth ws ((o - base) / 4) 0
    let maj (o : Nat) : Option Nat := majorityOf (here.map (fun l => d.word l o (w o)))
    if here = [] ∨ offs.any (fun o => (maj o).isNone) then (none, s.noMajority)
    else
      let major (o : Nat) : Nat := (maj o).getD 0
      let out := offs.foldl (fun l o => setNth l ((o - base) / 4) (major o)) ws
      let all := [0, 1, 2].filter (fun l => s.laneIn l || (s.lane l).state = .shadow)
      let bad := all.filter (fun l => d.absent l || offs.any (fun o => d.word l o (w o) ≠ major o))
      let n := if bad.any (fun l => d.absent l) then ws.length
        else (offs.filter (fun o => all.any (fun l => d.word l o (w o) ≠ major o))).length
      let s := if n = 0 then s else s.bump Reg.gvVoteMismatch n
      let s := { s with gov := { s.gov with noMajority := false } }
      let s := bad.foldl (fun s l =>
        let shadow : Bool := (s.lane l).state = .shadow
        let s := if d.absent l then s.isolate l 2 point base 0 (w base)
          else match offs.find? (fun o => d.word l o (w o) ≠ major o) with
            | some o => s.isolate l 1 point o (d.word l o (w o)) (major o)
            | none => s
        if shadow then s.shadowStray l else s) s
      (some out, s)

/-- VOTE_V1 (R270, R272, R274, R292, R320): the fused state; without a majority the previous tick's. -/
def execVoteV1 (dev : Strays) (s : State) : Out :=
  if s.pw.motionOn = false ∨ s.gov.tickFused = [] then .next s
  else
    let r := s.vote 1 0 s.gov.tickFused dev
    let s := { r.2 with gov := { r.2.gov with tickFused := [] } }
    let ws := r.1.getD s.gov.fused
    if ws = [] then .next s
    else
      let s := s.adoptFused ws
      let flags := nth ws 1 0
      let w := { s.gov.wheel with capConflict := bitN flags 1 }
      .next (s.setWheel { w with hold := if bitN flags 0 then remN w.hold 5 else addN w.hold 5 })

/-! ### Q15 and the slices (R278–R284) -/

/-- A value with the saturations met on the way to it. -/
abbrev Counted := Int × Nat

/-- A sum, or a shift's result, in the 40-bit accumulator. -/
def acc40 (a : Int) : Counted := let y := satS 40 a; (y, if y = a then 0 else 1)

/-- Accumulator to Q15. -/
def toQ15 (a : Int) : Counted :=
  let n := (a + 16384) / 32768
  let y := satS 16 n
  (y, if y = n then 0 else 1)

/-- A term added to an accumulator. -/
def accAdd (x : Counted) (t : Int) : Counted := let y := acc40 (x.1 + t); (y.1, x.2 + y.2)

/-- Entry i of a joint table: cogging torque and friction magnitude (R282). -/
def tableAt (body : Bytes) (off i : Nat) : Int × Int :=
  (signed 16 (leAt body (off + 4 * i) 2), max 0 (signed 16 (leAt body (off + 4 * i + 2) 2)))

/-- The look-up at position q: cogging in the accumulator, and m in Q15 (R282). -/
def tableLook (body : Bytes) (c : JointCfg) (q : Int) : Int × Counted :=
  if c.table then
    let u := (twos 16 q + 32768) % 65536
    let i := u / 16
    let f : Int := ((u % 16 : Nat) : Int)
    let j := if i = 4095 then (if c.wrap then 0 else 4095) else i + 1
    let a := tableAt body c.tableOff i
    let b := tableAt body c.tableOff j
    (a.1 * 32768 + (b.1 - a.1) * f * 2048, toQ15 (a.2 * 32768 + (b.2 - a.2) * f * 2048))
  else (0, (0, 0))

/-- b of R283, saturated without counting. -/
def bandOf (c : JointCfg) (qd : Int) : Int :=
  clampI (-32767) 32767 ((satS 40 (qd * c.gBand * (2 ^ c.bandShift : Nat)) + 16384) / 32768)

/-- What drives level 1: references, feed-forward and gains (R281, R291). -/
structure Law where
  qRef : List Int
  qdRef : List Int
  tau : List Int
  hold : Bool
  gainMode : Nat
  gainShift : List Nat
  gains : List (List Int)
  deriving DecidableEq, Repr

/-- Voted positions and velocities by joint (R322). -/
def packedAt (ws : List Nat) (base j : Nat) : Int := signed 16 (nth ws (base + j / 2) 0 / 2 ^ (16 * (j % 2)))
def State.votedQ (s : State) : List Int := (List.range 64).map (packedAt s.gov.fused 24)
def State.votedQd (s : State) : List Int := (List.range 64).map (packedAt s.gov.fused 56)

/-- The set-point in force; without one, the latched pose with the hold gains (R291). -/
def State.law (s : State) : Law :=
  match s.gov.setPoint with
  | some p => { qRef := p.qRef, qdRef := p.qdRef, tau := p.tauFf, hold := false, gainMode := p.gainMode
                gainShift := p.gainShift, gains := p.gains }
  | none => { qRef := if s.gov.latch = [] then s.votedQ else s.gov.latch, qdRef := [], tau := s.gov.frozenTau, hold := true
              gainMode := 0, gainShift := [], gains := [] }

/-- The limits in force of a joint: the more restrictive of its entry and SAFETY_FLOOR (R284, R479). -/
structure Limits where
  qMin : Int
  qMax : Int
  qdMax : Int
  qdReduced : Int
  tauMax : Int
  dtauMax : Int
  deriving DecidableEq, Repr

/-- A floor value in Q15, rounded toward the restrictive side. -/
def floorQ15 (code : Nat) (exp : Int) (up : Bool) : Int :=
  let x := dy32 code
  let y : Dy := ⟨x.m, x.e + 15 - exp⟩
  satS 16 (if up then -(Dy.floor y.neg) else y.floor)

def limitsOf (floor : Bytes) (c : JointCfg) (j : Nat) : Limits :=
  let e := (floor.drop (32 + 32 * j)).take 32
  let base : Limits := { qMin := c.qMin, qMax := c.qMax, qdMax := c.qdMax, qdReduced := c.qdReduced, tauMax := c.tauMax
                         dtauMax := c.dtauMax }
  if bitN (leAt e 0 1) 0 then
    { qMin := max base.qMin (floorQ15 (leAt e 4 4) c.pExp true), qMax := min base.qMax (floorQ15 (leAt e 8 4) c.pExp false)
      qdMax := min base.qdMax (floorQ15 (leAt e 12 4) c.vExp false)
      qdReduced := min base.qdReduced (floorQ15 (leAt e 16 4) c.vExp false)
      tauMax := min base.tauMax (floorQ15 (leAt e 20 4) c.tExp false)
      dtauMax := min base.dtauMax (floorQ15 (leAt e 24 4) c.tExp false) }
  else base

/-- The position or velocity error of a joint, rounded to Q15. -/
def errOf (on : Bool) (ref x : Int) : Counted := if on then toQ15 ((ref - x) * 32768) else (0, 0)

/-- Learned residuals of joint j (R281, R285). -/
def State.residuals (s : State) (j : Nat) : List Int :=
  s.queuesOn.flatMap (fun q =>
    let x := s.gq q
    if x.cfg.kind = 1 ∧ x.cfg.consumer = 2 ∧ x.inUse ∧ x.dropped = false then
      (x.cfg.elements.zip x.applied).filterMap (fun (e : (Int × Nat × Nat) × Int) =>
        if e.1.2.1 = j ∧ e.1.2.2 = 0 then some e.2 else none)
    else [])

/-- Gains of joint i with the errors they multiply, and the shift (R281). -/
def Law.row (w : Law) (c : JointCfg) (i : Nat) : List (Nat × Int) × Nat :=
  if w.hold then ([(i, c.kpHold), (64 + i, c.kdHold)], c.holdShift)
  else if w.gainMode = 1 then
    let g := nth w.gains i []
    (((List.range g.length).zip g).filter (fun (e : Nat × Int) => e.2 ≠ 0), nth w.gainShift i 0)
  else ([(i, c.kp), (64 + i, c.kd)], c.gainShift)

/-- Level 1 of an enabled joint (R281–R283): the command before limiting. -/
def level1 (body : Bytes) (w : Law) (c : JointCfg) (i : Nat) (errs : List Int) (q qd : Int) (res : List Int) : Counted :=
  let g := w.row c i
  let a : Counted := g.1.foldl (fun a e => accAdd a (e.2 * nth errs e.1 0)) (0, 0)
  let sh := acc40 (a.1 * (2 ^ g.2 : Nat))
  let look := tableLook body c q
  let fric := look.2.1 * (if c.table then bandOf c qd else 0)
  let terms := [nth w.tau i 0 * 32768, look.1, fric] ++ res.map (fun r => r * 32768)
  let a := terms.foldl accAdd (sh.1, a.2 + sh.2 + look.2.2)
  let y := toQ15 a.1
  (y.1, a.2 + y.2)

/-- Level 2 (R284): the limited command, and which of its stages changed it. -/
def level2 (l : Limits) (cap : Bool) (q qd p c : Int) : Int × Nat :=
  let v := if cap then l.qdReduced else l.qdMax
  let c1 := min (max c (p - l.dtauMax)) (p + l.dtauMax)
  let c2 := if v < qd then min c1 0 else if qd < -v then max c1 0 else c1
  let c3 := if l.qMax < q then min c2 0 else if q < l.qMin then max c2 0 else c2
  let c4 := min (max c3 (-l.tauMax)) l.tauMax
  (c4, b2n (c1 ≠ c) + 2 * b2n (c2 ≠ c1) + 4 * b2n (c3 ≠ c2) + 8 * b2n (c4 ≠ c3))

/-- What a slice leaves: level 1 output, command, stage flags, saturations. -/
structure SliceOut where
  on : Bool
  level1 : Int
  command : Int
  clamps : Nat
  sats : Nat
  deriving DecidableEq, Repr

/-- The 64 slices of a tick; `due`: level 1 runs (R276). -/
def State.slices (s : State) (due : Bool) : List SliceOut :=
  let body := s.govBody
  let cs := jointCfgs body
  let w := s.law
  let cap := s.gov.wheel.cap
  let qs := s.votedQ
  let qds := s.votedQd
  let floor := (s.otp 4).shadow
  let lims := (cs.zip (List.range 64)).map (fun (e : JointCfg × Nat) => limitsOf floor e.1 e.2)
  let data := (List.range 64).zip (cs.zip (qs.zip (qds.zip lims)))
  let errP := data.map (fun (e : Nat × JointCfg × Int × Int × Limits) => errOf e.2.1.enabled (nth w.qRef e.1 0) e.2.2.1)
  let errV := data.map (fun (e : Nat × JointCfg × Int × Int × Limits) =>
    let r := nth w.qdRef e.1 0
    let l := e.2.2.2.2.qdReduced
    errOf e.2.1.enabled (if cap then clampI (-l) l r else r) e.2.2.2.1)
  let errs := (errP ++ errV).map (·.1)
  data.map (fun (e : Nat × JointCfg × Int × Int × Limits) =>
    let i := e.1
    let c := e.2.1
    let q := e.2.2.1
    let qd := e.2.2.2.1
    let j : Joint := Tbl.getD s.gov.joints i {}
    if c.enabled then
      let l1 : Counted := if due then
          let y := level1 body w c i errs q qd (s.residuals i)
          (y.1, y.2 + (nth errP i (0, 0)).2 + (nth errV i (0, 0)).2)
        else (j.level1, 0)
      let l2 := level2 e.2.2.2.2 cap q qd j.command l1.1
      { on := true, level1 := l1.1, command := l2.1, clamps := l2.2, sats := l1.2 }
    else { on := false, level1 := 0, command := 0, clamps := 0, sats := 0 })

/-! ### The torque frame (R428, R429) -/

/-- The joint whose drive is node n. -/
def jointOfNode (cs : List JointCfg) (n : Nat) : Option Nat := cs.findIdx? (fun c => c.enabled && c.drive = n)

/-- Command word n (R429). -/
def commandWord (w : Wheel) (cs : List JointCfg) (out : List Int) (n : Nat) : Nat :=
  match w, jointOfNode cs n with
  | .sto, _ => 2 ^ 17
  | .standby, _ => 0
  | .hold, some j => twos 16 (nth out j 0) + 2 ^ 16 + 2 ^ 18
  | .hold, none => 2 ^ 18
  | _, some j => twos 16 (nth out j 0) + 2 ^ 16
  | _, none => 0

/-- Bytes 0x000–0x01F of a frame as words: `wheel` is word 4. -/
def State.frameHead (s : State) (launch wheel : Nat) : List Nat :=
  let cfg := s.reg Reg.mrCfg
  let apply := launch + 1000 * fld cfg 15 8
  [0x19 + 65536 * fld cfg 6 0 + 2 ^ 24 * fld cfg 18 16, s.gov.tick % 2 ^ 32, apply % 2 ^ 32, apply / 2 ^ 32 % 2 ^ 32,
   wheel, 0, 0, 0]

/-- The joints take their voted commands (R270, R284). -/
def State.takeCommands (s : State) (cs : List JointCfg) (out : List SliceOut) (words : List Nat) : State :=
  let live : Bool := match s.gov.wheel.state with
    | .standby | .sto => false
    | _ => true
  let js := (List.range 64).map (fun j =>
    let c : JointCfg := nth cs j (jointCfg [] 0)
    let o : SliceOut := nth out j { on := false, level1 := 0, command := 0, clamps := 0, sats := 0 }
    let x : Joint := if o.on ∧ live then
        { command := signed 16 (nth words c.drive 0), level1 := o.level1, clamps := o.clamps, saturated := 0 < o.sats }
      else {}
    (j, x))
  { s with gov := { s.gov with joints := js } }

/-- The wheel that GV_BRAKE_WHEEL bits [15:0] stand for; a state code that R289 does not name leaves the state. -/
def BrakeWheel.ofBits (w : BrakeWheel) (x : Nat) : BrakeWheel :=
  let st : Wheel := match x % 8 with
    | 0 => .standby
    | 1 => .run
    | 2 => .brake
    | 3 => .hold
    | 4 => .sto
    | _ => w.state
  { w with state := st, supply := bitN x 3, hold := bitsOf 6 (x / 16), sto := bitsOf 4 (x / 1024), capConflict := bitN x 14
           capQueue := bitN x 15 }

/-- The voted brake wheel replaces the lanes' own (R270). -/
def State.adoptWheel (s : State) (x : Nat) : State :=
  if x = s.gov.wheel.bits then s
  else
    let w := s.gov.wheel.ofBits x
    ({ s with gov := { s.gov with wheel := { w with state := s.gov.wheel.state } } }).wheelTo w.state

/-- The strays of V2, whose words are bytes 0x000–0x11F but the brake wheel's, which is V5's (R272, R428). -/
def Strays.ofV2 (d : Strays) : Strays := d.filter (fun e => match e.2 with
  | some x => x.1 ≠ 0x10
  | none => true)

/-- VOTE_V2, with V5 (R270, R272–R275, R284, R361, R428): the frame's words and the brake wheel are voted, the frame goes into both
launch queues. Without a majority the previous tick's words are used. -/
def execVoteV2 (cycles : Nat) (dev : Strays) (s : State) : Out :=
  if s.pw.motionOn = false ∨ s.tm.running = false ∨ s.gov.sec.isNone ∨ (s.fwClass 3).valid = false then .next s
  else
    let t := s.tickNow
    let cs := jointCfgs s.govBody
    let live : Bool := match s.gov.wheel.state with
      | .standby | .sto => false
      | _ => true
    let s := if live ∧ s.gov.setPoint = none ∧ s.gov.latch = [] then { s with gov := { s.gov with latch := s.votedQ } } else s
    let out := s.slices (s.tickIndex t % impDivider s.govBody = 0)
    let s := if live then
        (s.bump Reg.gvClampCount (sumN (out.map (fun o => (bitsOf 4 o.clamps).length)))).bump Reg.gvSatCount (sumN (out.map (·.sats)))
      else s
    let s := s.peakReg Reg.gvSlicePeak (min cycles 0xFFF)
    let words := (List.range 64).map (commandWord s.gov.wheel.state cs (out.map (·.command)))
    let launch := t + launchNs s.govBody
    let bits := s.gov.wheel.bits
    let head := s.frameHead launch bits
    let old := s.gov.votedFrame
    let r := s.vote 2 0 (head ++ words) dev.ofV2
    let s := match r.1 with
      | some ws => r.2.takeCommands cs out (ws.drop 8)
      | none => r.2
    let body := match r.1 with
      | some ws => ws
      | none => head ++ (if old = [] then List.replicate 64 0 else old.drop 8)
    let bits := s.gov.wheel.bits
    let v := s.vote 5 0x10 [bits] dev
    let s := match v.1 with
      | some ws => v.2.adoptWheel (nth ws 0 bits)
      | none => v.2
    let wheel := match v.1 with
      | some ws => nth ws 0 bits
      | none => if old = [] then bits else nth old 4 0
    let frame := setNth body 4 wheel
    let s := { s with gov := { s.gov with votedFrame := frame } }
    if s.pw.supply = .shutdown ∧ s.stoDone = true then .next s
    else
      let s := s.placeVoted 0 launch frame
      .next (s.placeVoted 1 launch (setNth frame 0 (nth frame 0 0 + 256)))

/-! ### Return routes (R272, R299) -/

/-- The set-point record (R277): a record with gain_mode 0 leaves the gains area as zeros. -/
def SetPoint.bytes (p : SetPoint) : Bytes :=
  let q (v : List Int) (n : Nat) : Bytes := (List.range n).flatMap (fun i => le 2 (twos 16 (nth v i 0)))
  le 4 p.cycle ++ le 1 p.status ++ le 1 p.gainMode ++ zeros 10 ++ q p.qRef 64 ++ q p.qdRef 64 ++ q p.tauFf 64 ++
  (List.range 64).flatMap (fun i => le 1 (nth p.gainShift i 0)) ++
  (if p.gainMode = 1 then (List.range 64).flatMap (fun i => q (nth p.gains i []) 128) else zeros 16384)

/-- Words of a run of bytes, and the bytes of words. -/
def wordsOf (b : Bytes) : List Nat := (List.range (b.length / 4)).map (fun i => leAt b (4 * i) 4)
def bytesOf (ws : List Nat) : Bytes := ws.flatMap (le 4)

/-- What a return route of the given content emits now. -/
def State.returnItem (s : State) (content : Nat) : List Nat :=
  match content with
  | 1 => s.gov.fused
  | 2 => wordsOf ((s.gov.lastSet.getD {}).bytes)
  | 3 => (List.range 32).map (fun i =>
      let c (j : Nat) : Nat := twos 16 (Tbl.getD s.gov.joints j {}).command
      c (2 * i) + 65536 * c (2 * i + 1))
  | _ => []

/-- The FP32 code of a Q15 value n with full scale 2^e: n × 2^(e − 15), exact (R62, R279). -/
def q15To32 (e n : Int) : Nat := (Dy.mk n (e - 15)).toF32 false

/-- `len` words of packed Q15 values from word `base`, as FP32 words; value j has the full scale `2 ^ exp j`. -/
def q15Words (exp : Nat → Int) (ws : List Nat) (base len : Nat) : List Nat :=
  (List.range (2 * len)).map (fun j => q15To32 (exp j) (packedAt ws base j))

/-- The words of a voted return item as the queue carries them: its Q15 values as FP32, its other words as they are (R62,
R277, R322; log entry 34). A gain is a plain Q15 number. -/
def returnWords (cs : List JointCfg) (content : Nat) (ws : List Nat) : List Nat :=
  let j (i : Nat) : JointCfg := nth cs i (jointCfg [] 0)
  let p (i : Nat) : Int := (j i).pExp
  let v (i : Nat) : Int := (j i).vExp
  let t (i : Nat) : Int := (j i).tExp
  match content with
  | 1 => ws.take 24 ++ q15Words p ws 24 32 ++ q15Words v ws 56 32 ++ ws.drop 88
  | 2 => ws.take 4 ++ q15Words p ws 4 32 ++ q15Words v ws 36 32 ++ q15Words t ws 68 32 ++ (ws.drop 100).take 16 ++
      q15Words (fun _ => 0) ws 116 4096
  | 3 => q15Words t ws 0 32
  | _ => []

/-- A return item as parcels of class M at weir 41: FP32 blocks with tag 0 and status OK (R31, R62; log entry 34). -/
def State.returnParcels (s : State) (dest row seq : Nat) (item : List Nat) : List Parcel :=
  let word := s.rowWord 41 row
  let gs := chunksOf 1024 (4 * item.length / 1024 + 1) (bytesOf item)
  (gs.zip (List.range gs.length)).map (fun (e : Bytes × Nat) =>
    let n := (e.1.length + 127) / 128
    { dest := dest, cls := 0, ctx := rowCtx word, priv := rowPriv word, last := e.2 + 1 = gs.length, blocks := n
      format := 1, seq := seq, off := 8 * e.2, tags := List.replicate n 0, status := List.replicate n 0
      payload := padTo 1024 e.1, weir := 41 })

/-- VOTE_V4 (R272, R274, R299): an item of return route r that is due; what weir 41 cannot admit yet waits there. -/
def execVoteV4 (r : Nat) (dev : Strays) (s : State) : Out :=
  let b := s.govBody
  let o := 0x40 + 16 * r
  let n := Tbl.getD s.gov.returns r 0
  if s.pw.motionOn = false ∨ s.gov.sec.isNone ∨ leAt b 0x20 1 ≤ r ∨ n < leAt b (o + 3) 1 + 1 then .next s
  else
    let v := s.vote 4 0 (s.returnItem (leAt b o 1)) dev
    let s := { v.2 with gov := { v.2.gov with returns := Tbl.set v.2.gov.returns r 0 } }
    match v.1 with
    | none => .next s
    | some ws =>
      let ps := s.returnParcels (leAt b (o + 1) 1) (leAt b (o + 2) 1) (s.gov.tick % 2 ^ 16)
        (returnWords (jointCfgs b) (leAt b o 1) ws)
      let s := s.setWaiting 41 (s.waiting 41 ++ ps)
      .next (ps.foldl (fun s p => s.admitEdge 41 p.dest) s)

/-! ### A new GOVERNOR section (R137, R296, R305) -/

/-- Fusion state under a new section: sources and gates whose entries are unchanged keep theirs; a changed source starts
in ACQUIRE. -/
def Fusion.reconfigure (x : Fusion) (a b : FuCfg) : Fusion :=
  let n := b.sources.length
  let same (i : Nat) : Bool := a.sources[i]? = b.sources[i]?
  let streams := b.sources.foldl (fun l e => addN l e.stream) []
  let kept := (List.range n).filter same |>.filterMap (fun i => (b.sources[i]?).map FuSrc.stream)
  let changed := streams.filter (fun k => !has kept k || (List.range n).any (fun i => !same i && (b.sources[i]?).map FuSrc.stream = some k))
  let tracks := streams.map (fun k =>
    let t : Track := Tbl.getD x.tracks k {}
    (k, if has changed k then { state := TrackState.acquire, frames := t.frames } else t))
  { x with
    tracks := tracks.foldl (fun t (e : Nat × Track) => Tbl.set t e.1 e.2)
      (x.tracks.map (fun (e : Nat × Track) => (e.1, ({ frames := e.2.frames } : Track))))
    samples := x.samples.filter (fun (e : Nat × List Sample) => decide (e.1 < n) && same e.1)
    gates := x.gates.filter (fun (e : Nat × Gate) => a.gates[e.1]? = b.gates[e.1]?) }

/-- A GOVERNOR section takes effect: a lane's copy in progress starts again (R296). -/
def State.takeGovernor (s : State) (x : Section) : State :=
  let f := s.fus.reconfigure s.fuCfg (Sys2Proof.Machine.fuCfg x.body)
  { s with
    fus := f
    gov := { s.gov with
      sec := some x, nextSec := none
      lanes := s.gov.lanes.map (fun (e : Nat × Lane) =>
        (e.1, if e.2.state = LaneState.reloading then { e.2 with copied := false, copyStart := s.now } else e.2)) } }

/-! ### Brake wheel commands (GV_CMD, R289–R293) -/

def State.cmdTaken (s : State) : State := { s with gov := { s.gov with cmdIgnored := false } }
def State.cmdDenied (s : State) : State := { s with gov := { s.gov with cmdIgnored := true } }

/-- ENABLE (R289, R290). -/
def execEnable (s : State) : Out :=
  if s.pw.motionOn = false then .next s
  else if s.gov.wheel.state ≠ .standby ∨ s.gov.sec.isNone ∨ s.lanesIn.length < 2 then .next s.cmdDenied
  else
    let s := s.cmdTaken
    let w := { s.gov.wheel with hold := addN s.gov.wheel.hold 0 }
    let s := { s with
      gov := { s.gov with wheel := w, cycle := 0, tick := 0, setPoint := none, nextSet := none, fallbacks := [], failRun := 0
                          okRun := 0, fallbackStep := 0, latch := [], frozenTau := s.gov.lastTau, joints := [], v3Done := false }
      sol := { s.sol with stages := [] } }
    .next (s.wheelTo ({ w with state := .run }).target)

/-- HOLD (R290). -/
def execHold (s : State) : Out :=
  if s.pw.motionOn = false then .next s
  else if has s.gov.wheel.hold 4 then .next s.cmdDenied else .next (s.cmdTaken.holdCause 4 true)

/-- RELEASE (R290). -/
def execRelease (s : State) : Out :=
  if s.pw.motionOn = false then .next s
  else if has s.gov.wheel.hold 4 then .next (s.cmdTaken.holdCause 4 false) else .next s.cmdDenied

/-- STOP (R289). -/
def execStop (s : State) : Out :=
  if s.pw.motionOn = false then .next s
  else if has s.gov.wheel.sto 3 then .next s.cmdDenied else .next (s.cmdTaken.stoCause 3)

/-- CLEAR_STO (R293). -/
def execClearSto (s : State) : Out :=
  if s.pw.motionOn = false then .next s
  else
    let a := nth s.tm.copies 0 0
    let b := nth s.tm.copies 1 0
    let c := nth s.tm.copies 2 0
    let timeOk : Bool := a = b || a = c || b = c
    if s.gov.wheel.state ≠ .sto ∨ s.lanesIn.length < 2 ∨ s.gov.noMajority = true ∨ timeOk = false ∨
        s.gov.wheel.everReset = true then .next s.cmdDenied
    else
      let s := s.cmdTaken
      .next (({ s with gov := { s.gov with wheel := { s.gov.wheel with sto := [] } } }).wheelTo .standby)

/-! ### Lanes (R294–R298) -/

/-- READMIT (R294). -/
def execReadmit (l : Nat) (s : State) : Out :=
  if s.pw.motionOn = false then .next s
  else if 3 ≤ l ∨ (s.lane l).state ≠ .out ∨ s.lanesIn.length < 2 then .next s.cmdDenied
  else .next (s.cmdTaken.setLane l { s.lane l with state := .isolated })

/-- Lane l is the unit whose GOVERNOR image is applied, or returned: it loads that image in place of the copy (R486, R488, R489). -/
def State.loadsStaged (s : State) (l : Nat) : Bool :=
  let u := s.sec.update
  u.phase = .apply && u.cls = 3 && (!u.voteCompat || u.now = l) && (s.lane l).cause = 5

/-- LANE_RESET_DONE (R295 steps 1 and 2, R297): a reload needs two lanes in service; one for another reason than the
update's turn ends a GOVERNOR update (R489). -/
def execLaneResetDone (l : Nat) (s : State) : Out :=
  let x := s.lane l
  let staged := s.loadsStaged l
  if s.pw.motionOn = false ∨ 3 ≤ l ∨ x.state ≠ .isolated ∨ (s.lanesIn.length < 2 ∧ staged = false) then .next s
  else
    let u := s.sec.update
    let s := s.setLane l { x with state := .reloading, copied := false, copyStart := s.now }
    if u.phase = .apply ∧ u.cls = 3 ∧ u.rollback = false ∧ staged = false then .next s.fwAbort else .next s

/-- HyperRAM of a lane (R242). -/
def ramBase (l : Nat) : Nat := l * 0x4000000

/-- The lane image in lane l's HyperRAM: the copy of a lane in service, or the staged build's, whose layout the spec does not give
(R295, R489). -/
def State.copyImage (s : State) (l : Nat) : State :=
  let n := s.gov.imageBytes
  if s.loadsStaged l then
    ({ s with mem := { s.mem with ram := s.mem.ram.writeBytes (ramBase l) (s.undefined n) } }).drew 1
  else match s.lanesIn with
  | k :: _ => { s with mem := { s.mem with ram := s.mem.ram.writeBytes (ramBase l) (s.mem.ram.readBytes (ramBase k) n) } }
  | [] => s

/-- LANE_COPY_DONE (R295 step 2): a unit whose two copies differ sends the lane to OUT. -/
def execLaneCopyDone (l : Nat) (ok : Bool) (s : State) : Out :=
  let x := s.lane l
  if s.pw.motionOn = false ∨ 3 ≤ l ∨ x.state ≠ .reloading ∨ x.copied = true ∨
      (s.lanesIn.length < 2 ∧ s.loadsStaged l = false) then .next s
  else if ok then .next ((s.copyImage l).setLane l { x with copied := true })
  else
    let s := (s.setLane l { x with state := .out, cause := 7, copied := false }).raise Reg.gvEvents 4
    .next (s.record 60 4 0 0xFF l (le 1 l ++ le 1 7 ++ le 1 0 ++ le 1 0 ++ le 4 s.gov.tick))

/-- SHADOW_PASS (R294, R295 step 4). -/
def execShadowPass (l : Nat) (s : State) : Out :=
  let x := s.lane l
  if s.pw.motionOn = false ∨ 3 ≤ l ∨ x.state ≠ .shadow ∨ x.shadow < 8 then .next s
  else .next (((s.setLane l { x with state := .inService, shadow := 0 }).raise Reg.gvEvents 2).laneCount)

/-- SINGLE_LANE_TIMEOUT (R298). -/
def execSingleLaneTimeout (s : State) : Out :=
  match s.gov.singleSince with
  | none => .next s
  | some t => if s.gov.sec.isNone ∨ s.now < t + 1000000 * singleMs s.govBody then .next s else .next (s.stoCause 2)

/-- LANE_WATCHDOG_EXPIRY (R294). -/
def execLaneWatchdogExpiry (l : Nat) (s : State) : Out :=
  if s.pw.motionOn ∧ l < 3 then .next (s.isolate l 4 0 0 0 0) else .next s

end Sys2Proof.Machine
end

