-- ==== Sys2Proof/Machine/Solver.lean ====
section
/-!
DEFINITION. The solver arrays and the model-predictive cycle (R324–R342): S32 arithmetic, factorization with pivot
replacement, the iteration, the residual, the warm start, the voted set-point and its fallbacks.
-/
namespace Sys2Proof.Machine

/-! ### The solver block (R342) -/

/-- A solver block; parameters as exact values. -/
structure QpCfg where
  stages : Nat
  iterations : Nat
  ldlt : Bool
  spacing : Nat
  pivot : Dy
  eps : Dy
  sigma : Dy
  rho : Dy
  rhoC : Dy
  alpha : Dy
  xLoM : Int
  xHiM : Int
  xLoV : Int
  xHiV : Int
  xL : Int
  xW : Int
  xY : Int
  xC : Int
  deriving DecidableEq, Repr

/-- Bytes of the solver block of a GOVERNOR body. -/
def solverBlock (body : Bytes) : Bytes := (body.drop (leAt body 0x18 4)).take (leAt body 0x1C 4)

/-- mantissa × 2^(exponent − 15). -/
def blockValue (b : Bytes) (o : Nat) : Dy := ⟨((leAt b o 2 : Nat) : Int), signed 8 (leAt b (o + 2) 1) - 15⟩

def qpCfg (body : Bytes) : QpCfg :=
  let b := solverBlock body
  let x (i : Nat) : Int := signed 8 (leAt b (0x20 + i) 1)
  { stages := leAt b 0 1, iterations := if leAt b 1 1 = 0 then 24 else leAt b 1 1, ldlt := leAt b 2 1 = 1, spacing := leAt b 4 4
    pivot := blockValue b 8, eps := blockValue b 0x0C, sigma := blockValue b 0x10, rho := blockValue b 0x14
    rhoC := blockValue b 0x18, alpha := blockValue b 0x1C, xLoM := x 0, xHiM := x 1, xLoV := x 2, xHiV := x 3, xL := x 4
    xW := x 5, xY := x 6, xC := x 7 }

/-! ### S32 (R325)

A sum of at most 64 products of 63 bits stays within the 72 bits of the accumulator, so sums here are exact; what brings them to
an S32 value rounds once and saturates. -/

/-- The value of an S32 mantissa at exponent x. -/
def s32 (n x : Int) : Dy := ⟨n, x - 31⟩

/-- An integer brought into the S32 range; whether it saturated. -/
def cut32 (n : Int) : Counted := let y := satS 32 n; (y, if y = n then 0 else 1)

/-- An exact value at exponent x: rounded to nearest with ties toward +∞, then saturated. -/
def toS32 (a : Dy) (x : Int) : Counted := cut32 (Dy.add ⟨a.m, a.e + 31 - x⟩ ⟨1, -1⟩).floor

/-- A quotient of integers rounded to nearest with ties toward +∞; beyond every range where the divisor is 0. -/
def quotR (n d : Int) : Int :=
  if d = 0 then (if n = 0 then 0 else if n < 0 then -(2 ^ 40 : Nat) else ((2 ^ 40 : Nat) : Int))
  else if d < 0 then rdiv (-n) d.natAbs else rdiv n d.natAbs

/-- a ÷ b at exponent x. -/
def divS32 (a b : Dy) (x : Int) : Counted :=
  let e := a.e - b.e + 31 - x
  if 0 ≤ e then cut32 (quotR (a.m * (2 ^ e.toNat : Nat)) b.m) else cut32 (quotR a.m (b.m * (2 ^ (-e).toNat : Nat)))

/-- √a at exponent x, for a ≥ 0. -/
def sqrtS32 (a : Dy) (x : Int) : Counted :=
  let e := a.e + 64 - 2 * x
  let n := if 0 ≤ e then a.m.natAbs * 2 ^ e.toNat else a.m.natAbs / 2 ^ (-e).toNat
  cut32 (((isqrt n + 1) / 2 : Nat) : Int)

/-- x = ⌊log2 max∣v∣⌋ + 1 within [lo, hi], and lo for an all-zero quantity (R329); values are multiples of 2^e. -/
def chooseExp (lo hi : Int) (m : Nat) (e : Int) : Int :=
  if m = 0 then lo else clampI lo hi ((Nat.log2 m : Int) + e + 1)

/-- A matrix brought to its exponent (R329), with the entries that saturate. -/
def normMat (lo hi : Int) (m : Mat) : Mat × Nat :=
  let top := m.rows.foldl (fun a r => r.foldl (fun a n => max a n.natAbs) a) 0
  let x := chooseExp lo hi top (m.exp - 31)
  let rows := m.rows.map (fun r => r.map (fun n => toS32 (s32 n m.exp) x))
  ({ rows := rows.map (fun r => r.map (·.1)), exp := x }, sumN (rows.map (fun r => sumN (r.map (·.2)))))

/-- A vector brought to its exponent (R329). -/
def normVec (c : QpCfg) (v : List Int) (exp : Int) : (List Int × Int) × Nat :=
  let g := normMat c.xLoV c.xHiV { rows := [v], exp := exp }
  ((nth g.1.rows 0 [], g.1.exp), g.2)

/-- A stage with each matrix and vector at its exponent (R329). -/
def normStage (c : QpCfg) (st : QpStage) : QpStage :=
  let h := normMat c.xLoM c.xHiM st.h
  let k := normMat c.xLoM c.xHiM st.c
  let g := normVec c st.g st.gExp
  let lo := normVec c st.lo st.loExp
  let hi := normVec c st.hi st.hiExp
  let l := st.lus.map (normMat c.xLoM c.xHiM)
  { st with h := h.1, c := k.1, g := g.1.1, gExp := g.1.2, lo := lo.1.1, loExp := lo.1.2, hi := hi.1.1, hiExp := hi.1.2
            lus := l.map (·.1), sats := st.sats + h.2 + k.2 + g.2 + lo.2 + hi.2 + sumN (l.map (·.2)) }

/-- Entry (i, j) of M_k = H_k + σI + ρC_kᵀC_k + ρ_c P_kᵀP_k, exactly (R328). -/
def systemEntry (c : QpCfg) (st : QpStage) (i j : Nat) : Dy :=
  let hv := s32 (nth (nth st.h.rows i []) j 0) st.h.exp
  let ct := Dy.sum (st.c.rows.map (fun r => (s32 (nth r i 0) st.c.exp).mul (s32 (nth r j 0) st.c.exp)))
  let diag := if i = j then c.sigma.add (c.rhoC.mul ⟨((st.shared.filter (fun p => p.1 = i)).length : Int), 0⟩) else Dy.zero
  (hv.add (c.rho.mul ct)).add diag

/-- The stage system M_k at its exponent (R328, R329). -/
def stageSystem (c : QpCfg) (st : QpStage) : Mat × Nat :=
  let n := st.g.length
  let es := (List.range n).map (fun i => (List.range n).map (systemEntry c st i))
  let e := es.foldl (fun a r => r.foldl (fun a d => if d.m = 0 then a else min a d.e) a) 0
  let top := es.foldl (fun a r => r.foldl (fun a d => max a (d.at e).natAbs) a) 0
  let x := chooseExp c.xLoM c.xHiM top e
  let rows := es.map (fun r => r.map (fun d => toS32 d x))
  ({ rows := rows.map (fun r => r.map (·.1)), exp := x }, sumN (rows.map (fun r => sumN (r.map (·.2)))))

/-! ### Factorization (R331, R332) -/

/-- A factor: rows of L up to the diagonal, which holds D or the Cholesky diagonal; what happened on the way. -/
structure Factor where
  rows : List (List Int) := []
  exp : Int := 0
  pivots : Nat := 0
  first : Option Nat := none
  sats : Nat := 0
  deriving DecidableEq, Repr

/-- τ in the exponent of a matrix: at least 1 in the last place. -/
def pivotAt (c : QpCfg) (x : Int) : Int := max 1 (toS32 c.pivot x).1

/-- A pivot below τ replaced (R332). -/
def replacePivot (ldlt : Bool) (t d : Int) : Int × Bool :=
  if ldlt then (if iabs d < t then (if d < 0 then -t else t, true) else (d, false))
  else (if d < t then (t, true) else (d, false))

/-- Diagonal entry of a finished row. -/
def diagOf (r : List Int) : Int := r.getLast?.getD 0

/-- Σ over the columns before j of L_i L_j, times D for LDLᵀ. -/
def rowDot (c : QpCfg) (x : Int) (ldlt : Bool) (done : List (List Int)) (a b : List Int) (j : Nat) : Dy :=
  Dy.sum ((List.range j).map (fun k =>
    let p := (s32 (nth a k 0) c.xL).mul (s32 (nth b k 0) c.xL)
    if ldlt then p.mul (s32 (diagOf (nth done k [])) x) else p))

/-- Row i of the factor, the rows before it being done. -/
def factorRow (c : QpCfg) (x : Int) (f : Factor) (a : List Int) (i : Nat) : Factor :=
  let off := (List.range i).foldl (fun (p : List Int × Nat) j =>
    let rj := nth f.rows j []
    let num := (s32 (nth a j 0) x).sub (rowDot c x c.ldlt f.rows p.1 rj j)
    let q := divS32 num (s32 (diagOf rj) x) c.xL
    (p.1 ++ [q.1], p.2 + q.2)) ([], 0)
  let d := toS32 ((s32 (nth a i 0) x).sub (rowDot c x c.ldlt f.rows off.1 off.1 i)) x
  let r := replacePivot c.ldlt (pivotAt c x) d.1
  let diag : Counted := if c.ldlt then (r.1, 0) else sqrtS32 (s32 r.1 x) x
  { f with rows := f.rows ++ [off.1 ++ [diag.1]], sats := f.sats + off.2 + d.2 + diag.2, pivots := f.pivots + b2n r.2
           first := if r.2 ∧ f.first.isNone then some i else f.first }

/-- Cholesky or LDLᵀ of a matrix. -/
def factorize (c : QpCfg) (m : Mat) : Factor :=
  (m.rows.zip (List.range m.rows.length)).foldl (fun f (e : List Int × Nat) => factorRow c m.exp f e.1 e.2) { exp := m.exp }

/-- One column of LU with partial pivoting: L has the columns before it, U the rows before it. -/
structure LuState where
  a : List (List Int)
  /-- Multipliers of each row so far. -/
  l : List (List Int)
  /-- Rows of U so far, by column. -/
  u : List (List Int) := []
  pivots : Nat := 0
  first : Option Nat := none
  sats : Nat := 0
  deriving DecidableEq, Repr

/-- Two entries of a list exchanged. -/
def swapNth {α : Type} (l : List α) (i j : Nat) (d : α) : List α := setNth (setNth l i (nth l j d)) j (nth l i d)

/-- Column k of LU (R331): the pivot is the entry of largest magnitude, ties to the lowest row. -/
def luColumn (c : QpCfg) (x : Int) (s : LuState) (k : Nat) : LuState :=
  let n := s.a.length
  let entry (i : Nat) (top : Nat) (col : List Int) : Counted :=
    toS32 ((s32 (nth (nth s.a i []) k 0) x).sub (Dy.sum ((List.range top).map (fun j =>
      (s32 (nth (nth s.l i []) j 0) c.xL).mul (s32 (nth col j 0) x))))) x
  let up := (List.range k).foldl (fun (p : List Int × Nat) i => let y := entry i i p.1; (p.1 ++ [y.1], p.2 + y.2)) ([], 0)
  let low := (List.range (n - k)).map (fun i => entry (k + i) k up.1)
  let best := (List.range low.length).foldl (fun b i =>
    if iabs (nth low b (0, 0)).1 < iabs (nth low i (0, 0)).1 then i else b) 0
  let low' := swapNth low 0 best (0, 0)
  let r := replacePivot true (pivotAt c x) (nth low' 0 (0, 0)).1
  let mul := (low'.drop 1).map (fun e => divS32 (s32 e.1 x) (s32 r.1 x) c.xL)
  let l := swapNth s.l k (k + best) []
  let l := (l.zip (List.range n)).map (fun (e : List Int × Nat) =>
    if k < e.2 then e.1 ++ [(nth mul (e.2 - k - 1) (0, 0)).1] else e.1)
  { a := swapNth s.a k (k + best) [], l := l, u := s.u ++ [up.1 ++ [r.1]], pivots := s.pivots + b2n r.2
    first := if r.2 ∧ s.first.isNone then some k else s.first
    sats := s.sats + up.2 + sumN (low.map (·.2)) + sumN (mul.map (·.2)) }

/-- LU of a matrix: replaced pivots, the row of the first, saturations. -/
def luFactor (c : QpCfg) (m : Mat) : LuState :=
  (List.range m.rows.length).foldl (luColumn c m.exp) { a := m.rows, l := m.rows.map (fun _ => []) }

/-! ### Solves (R334) -/

/-- The exponent of a vector that the solver block does not name: 0–2 within the triangular solves, 3 z_k and what is in its units, 4
λ_k (log entry 40). -/
def innerExp (c : QpCfg) (k : Nat) : Int := clampI c.xLoV c.xHiV (Config.solverExp k)
def zExp (c : QpCfg) : Int := innerExp c 3
def lExp (c : QpCfg) : Int := innerExp c 4

/-- L y = r, the diagonal of L being 1 for LDLᵀ. -/
def forward (c : QpCfg) (f : Factor) (r : List Int) : List Int × Nat :=
  (f.rows.zip (List.range f.rows.length)).foldl (fun (p : List Int × Nat) (e : List Int × Nat) =>
    let num := (s32 (nth r e.2 0) (innerExp c 0)).sub (Dy.sum ((List.range e.2).map (fun k =>
      (s32 (nth e.1 k 0) c.xL).mul (s32 (nth p.1 k 0) (innerExp c 1)))))
    let y := if c.ldlt then toS32 num (innerExp c 1) else divS32 num (s32 (diagOf e.1) f.exp) (innerExp c 1)
    (p.1 ++ [y.1], p.2 + y.2)) ([], 0)

/-- Lᵀ w = t, at exponent x_w; `t` is at exponent xt. -/
def backward (c : QpCfg) (f : Factor) (t : List Int) (xt : Int) : List Int × Nat :=
  let n := f.rows.length
  (List.range n).foldl (fun (p : List Int × Nat) k =>
    let i := n - 1 - k
    let num := (s32 (nth t i 0) xt).sub (Dy.sum ((List.range k).map (fun j =>
      (s32 (nth (nth f.rows (i + 1 + j) []) i 0) c.xL).mul (s32 (nth p.1 j 0) c.xW))))
    let y := if c.ldlt then toS32 num c.xW else divS32 num (s32 (diagOf (nth f.rows i [])) f.exp) c.xW
    (y.1 :: p.1, p.2 + y.2)) ([], 0)

/-- M_k^−1 r by two triangular solves. -/
def solveM (c : QpCfg) (f : Factor) (r : List Int) : List Int × Nat :=
  let y := forward c f r
  if c.ldlt then
    let t := (f.rows.zip y.1).map (fun (e : List Int × Int) =>
      divS32 (s32 e.2 (innerExp c 1)) (s32 (diagOf e.1) f.exp) (innerExp c 2))
    let w := backward c f (t.map (·.1)) (innerExp c 2)
    (w.1, w.2 + y.2 + sumN (t.map (·.2)))
  else
    let w := backward c f y.1 (innerExp c 1)
    (w.1, w.2 + y.2)

/-- C w in the units of z. -/
def timesC (c : QpCfg) (st : QpStage) (w : List Int) : List Counted :=
  st.c.rows.map (fun row => toS32 (Dy.sum (List.zipWith (fun a b => (s32 a st.c.exp).mul (s32 b c.xW)) row w)) (zExp c))

/-- The stage's part of an iteration (R334): its new w, z, y, and saturations. -/
def stageIter (c : QpCfg) (st : QpStage) (f : Factor) (it : Iter) (shared : List Int) : Iter × Nat :=
  let one : Dy := ⟨1, 0⟩
  let u := List.zipWith (fun z y => toS32 ((c.rho.mul (s32 z (zExp c))).sub (s32 y c.xY)) c.xY) it.z it.y
  let t := List.zipWith (fun (p : Nat × Nat) l => (p.1, toS32 ((c.rhoC.mul (s32 (nth shared p.2 0) c.xC)).sub (s32 l (lExp c))) (lExp c)))
    st.shared it.l
  let r := (List.range st.g.length).map (fun i =>
    let a := (c.sigma.mul (s32 (nth it.w i 0) c.xW)).sub (s32 (nth st.g i 0) st.gExp)
    let b := Dy.sum (List.zipWith (fun row (e : Counted) => (s32 (nth row i 0) st.c.exp).mul (s32 e.1 c.xY)) st.c.rows u)
    let d := Dy.sum (t.map (fun (e : Nat × Counted) => if e.1 = i then s32 e.2.1 (lExp c) else Dy.zero))
    toS32 ((a.add b).add d) (innerExp c 0))
  let w := solveM c f (r.map (·.1))
  let cw := timesC c st w.1
  let v := List.zipWith (fun (e : Counted) z => toS32 ((c.alpha.mul (s32 e.1 (zExp c))).add ((one.sub c.alpha).mul (s32 z (zExp c)))) (zExp c))
    cw it.z
  let q := it.y.map (fun y => divS32 (s32 y c.xY) c.rho (zExp c))
  let raw := List.zipWith (fun (a b : Counted) => cut32 (a.1 + b.1)) v q
  let lo := st.lo.map (fun b => (toS32 (s32 b st.loExp) (zExp c)).1)
  let hi := st.hi.map (fun b => (toS32 (s32 b st.hiExp) (zExp c)).1)
  let z := (raw.zip (lo.zip hi)).map (fun (e : Counted × Int × Int) => clampI e.2.1 e.2.2 e.1.1)
  let y := (it.y.zip (v.zip z)).map (fun (e : Int × Counted × Int) =>
    toS32 ((s32 e.1 c.xY).add (c.rho.mul ((s32 e.2.1.1 (zExp c)).sub (s32 e.2.2 (zExp c))))) c.xY)
  let sum (l : List Counted) : Nat := sumN (l.map (·.2))
  ({ it with w := w.1, z := z, y := y.map (·.1) },
   sum u + sum (t.map (·.2)) + sum r + w.2 + sum cw + sum v + sum q + sum raw + sum y)

/-- The number of shared states. -/
def sharedCount (sts : List QpStage) : Nat := maxL (sts.flatMap (fun st => st.shared.map (fun p => p.2 + 1))) 0

/-- c_j: the mean of its two copies, at x_c. -/
def consensus (c : QpCfg) (sts : List QpStage) (its : List Iter) (old : List Int) : List Counted :=
  (List.range (sharedCount sts)).map (fun j =>
    let v := (sts.zip its).flatMap (fun (e : QpStage × Iter) =>
      (e.1.shared.filter (fun p => p.2 = j)).map (fun p => nth e.2.w p.1 0))
    match v with
    | a :: b :: _ => toS32 (⟨(s32 (a + b) c.xW).m, (s32 (a + b) c.xW).e - 1⟩) c.xC
    | _ => (nth old j 0, 0))

/-- The multipliers of the shared states (R334). -/
def multipliers (c : QpCfg) (st : QpStage) (it : Iter) (shared : List Int) : Iter × Nat :=
  let l := List.zipWith (fun (p : Nat × Nat) l =>
    toS32 ((s32 l (lExp c)).add (c.rhoC.mul ((s32 (nth it.w p.1 0) c.xW).sub (s32 (nth shared p.2 0) c.xC)))) (lExp c))
    st.shared it.l
  ({ it with l := l.map (·.1) }, sumN (l.map (·.2)))

/-- The iterates with the saturations of each stage, and of the consensus values, so far. -/
structure QpRun where
  iters : List Iter
  shared : List Int
  sats : List Nat
  sharedSats : Nat := 0
  deriving DecidableEq, Repr

/-- One iteration over all stages. -/
def qpIter (c : QpCfg) (sts : List QpStage) (fs : List Factor) (r : QpRun) : QpRun :=
  let a := (sts.zip (fs.zip r.iters)).map (fun (e : QpStage × Factor × Iter) => stageIter c e.1 e.2.1 e.2.2 r.shared)
  let k := consensus c sts (a.map (·.1)) r.shared
  let sh := k.map (·.1)
  let b := (sts.zip a).map (fun (e : QpStage × Iter × Nat) =>
    let m := multipliers c e.1 e.2.1 sh
    (m.1, m.2 + e.2.2))
  { iters := b.map (·.1), shared := sh, sats := List.zipWith (fun x y => x + y) r.sats (b.map (·.2))
    sharedSats := r.sharedSats + sumN (k.map (·.2)) }

/-- Exactly `n` iterations. -/
def qpIters (c : QpCfg) (sts : List QpStage) (fs : List Factor) : Nat → QpRun → QpRun
  | 0, r => r
  | n + 1, r => qpIters c sts fs n (qpIter c sts fs r)

/-- r_p (R335). -/
def residual (c : QpCfg) (sts : List QpStage) (r : QpRun) : Dy :=
  (sts.zip r.iters).foldl (fun m (e : QpStage × Iter) =>
    let a := List.zipWith (fun (x : Counted) z => (Dy.sub (s32 x.1 (zExp c)) (s32 z (zExp c))).abs) (timesC c e.1 e.2.w) e.2.z
    let b := e.1.shared.map (fun p => (Dy.sub (s32 (nth e.2.w p.1 0) c.xW) (s32 (nth r.shared p.2 0) c.xC)).abs)
    (a ++ b).foldl Dy.max m) Dy.zero

/-! ### The warm start (R338, R339) -/

/-- The mask of the nonzero 8 × 8 tiles of C_k. -/
def tileMask (m : Mat) : Nat :=
  maskOf ((List.range 64).filter (fun t =>
    (List.range 8).any (fun i => (List.range 8).any (fun j => nth (nth m.rows (8 * (t / 8) + i) []) (8 * (t % 8) + j) 0 ≠ 0))))

/-- The structure digest. -/
def qpDigest (sts : List QpStage) : Nat :=
  leAt (Config.sm3 (le 1 sts.length ++ sts.flatMap (fun st =>
    le 1 st.g.length ++ le 1 st.c.rows.length ++ le 8 (tileMask st.c)))) 0 4

/-- Every iterate zero. -/
def coldStart (sts : List QpStage) : List Iter × List Int :=
  (sts.map (fun st =>
    { w := st.g.map (fun _ => 0), z := st.c.rows.map (fun _ => 0), y := st.c.rows.map (fun _ => 0)
      l := st.shared.map (fun _ => 0) }),
   List.replicate (sharedCount sts) 0)

/-- The iterates shifted by one stage: stage k + 1 moves to k and the last repeats; a consensus value moves with the
stage's place for it. -/
def shiftWarm (sts : List QpStage) (r : QpRun) : List Iter × List Int :=
  let its := r.iters.drop 1 ++ r.iters.getLast?.toList
  let n := sts.length
  let cs := (List.range (sharedCount sts)).map (fun j =>
    match sts.findIdx? (fun st => st.shared.any (fun p => p.2 = j)) with
    | none => nth r.shared j 0
    | some a =>
      let i := (((sts[a]?).map (fun st => st.shared.findIdx? (fun p => p.2 = j))).join).getD 0
      match (sts[min (a + 1) (n - 1)]?).map (fun st => nth st.shared i (0, j)) with
      | some p => nth r.shared p.2 0
      | none => nth r.shared j 0)
  (its, cs)

/-! ### The solve of a cycle -/

/-- What a solve leaves. -/
structure QpOut where
  run : QpRun
  digest : Nat
  cold : Bool
  pivots : Nat
  /-- Stage and row of the first replaced pivot. -/
  first : Option (Nat × Nat)
  sats : Nat
  rp : Dy
  deriving DecidableEq, Repr

/-- Factorization, iteration and residual (R331–R335, R339). -/
def qpSolve (c : QpCfg) (sts : List QpStage) (warm : Option (List Iter × List Int × Nat)) : QpOut :=
  let d := qpDigest sts
  let ms := sts.map (stageSystem c)
  let fs := ms.map (fun m => factorize c m.1)
  let lus := sts.map (fun st => st.lus.map (luFactor c))
  let cold : Bool := match warm with
    | some x => x.2.2 ≠ d
    | none => true
  let start := match warm, cold with
    | some x, false => (x.1, x.2.1)
    | _, _ => coldStart sts
  let r := qpIters c sts fs c.iterations { iters := start.1, shared := start.2, sats := sts.map (fun _ => 0) }
  let pivots := List.zipWith (fun (f : Factor) (l : List LuState) => f.pivots + sumN (l.map (·.pivots))) fs lus
  let firsts := List.zipWith (fun (f : Factor) (l : List LuState) => (l.filterMap (·.first)).head?.orElse (fun _ => f.first)) fs lus
  let first := ((firsts.zip (List.range firsts.length)).filterMap (fun (e : Option Nat × Nat) => e.1.map (fun row => (e.2, row)))).head?
  let facSats := List.zipWith (fun (f : Factor) (l : List LuState) => f.sats + sumN (l.map (·.sats))) fs lus
  { run := r, digest := d, cold := cold, pivots := sumN pivots, first := first
    sats := sumN (sts.map (·.sats)) + sumN (ms.map (·.2)) + sumN facSats + sumN r.sats + r.sharedSats, rp := residual c sts r }

/-- r_p ÷ eps_prim in units of 2^−8, stopping at 0xFFFF; how a remainder rounds is open. -/
def ratioOf (rp eps : Dy) (up : Bool) : Nat :=
  let e := min rp.e eps.e
  let n := (rp.at e).natAbs * 256
  let d := (eps.at e).natAbs
  if d = 0 then 0xFFFF else min 0xFFFF (n / d + b2n (up && decide (n % d ≠ 0)))

/-! ### The cycle (R52, R288, R291, R340) -/

/-- A cycle fails (R340). -/
def State.cycleFails (s : State) : State :=
  let n := s.gov.failRun + 1
  let s := { s with gov := { s.gov with failRun := n, okRun := 0, nextSet := if n ≤ 3 then s.gov.fallbacks[n - 1]? else none } }
  if n = 4 then s.holdCause 1 true else s

/-- A certified result arrives (R290, R340). -/
def State.cycleOk (s : State) (p : SetPoint) (fb : List SetPoint) : State :=
  let n := s.gov.okRun + 1
  let s := { s with gov := { s.gov with failRun := 0, okRun := n, nextSet := some p, fallbacks := fb, lastTau := p.tauFf } }
  if 2 ≤ n then s.holdCause 1 false else s

/-- The plan adopted at a boundary (R288); slots of complete plan records are freed. -/
def State.adoptPlan (s : State) : State :=
  let s := (List.range 16).foldl (fun s q =>
    let x := s.gq q
    if x.sec.isNone ∨ x.cfg.kind ≠ 0 then s
    else (x.slots.filter (fun p => p.last)).foldl (fun s p => s.freeRecord q ((s.gq q).recordOf p)) s) s
  match s.gov.newPlan with
  | none => s
  | some p =>
    let s := { s with gov := { s.gov with newPlan := none } }
    if p.lastNs < s.now then s.bump Reg.gvPlanSkip 1
    else ({ s with gov := { s.gov with plan := some p } }).holdCause 0 false

/-- Lanes at a boundary (R295 steps 3 and 4). -/
def Lane.boundary (x : Lane) : Lane :=
  if x.state = .shadow then { x with shadow := x.shadow + 1 }
  else if x.state = .reloading ∧ x.copied then { x with state := .shadow, shadow := 0, copied := false }
  else x

/-- Measurement slots that records in use hold, as S32 mantissa and exponent (R330). -/
def State.measured (s : State) : Tbl (Int × Int) :=
  s.queuesOn.foldl (fun t q =>
    let x := s.gq q
    if x.cfg.kind = 1 ∧ x.cfg.consumer = 1 ∧ x.inUse ∧ x.dropped = false then
      (x.cfg.elements.zip x.applied).foldl (fun t (e : (Int × Nat × Nat) × Int) => Tbl.set t e.1.2.2 (e.2 * 65536, e.1.1)) t
    else t) []

/-- What the assembly program reads in measurement slot k: what a record wrote, else the default of the parameter table (R330,
R342). -/
def State.slotValue (s : State) (k : Nat) : Int × Int :=
  let table := leAt (solverBlock s.govBody) 0x38 4
  (Tbl.find s.sol.slots k).getD (signed 32 (leAt s.govBody (table + 4 * k) 4), signed 8 (leAt s.govBody (table + 1024 + k) 1))

/-- The set-point of the cycle that begins: in HOLD a fallback set-point is no certified result (R291, R340). -/
def State.nextLaw (s : State) : State :=
  let j := if s.gov.nextSet.isSome ∧ 1 ≤ s.gov.failRun then s.gov.failRun else 0
  let hold : Bool := s.gov.wheel.state = .hold
  let on := decide (0 < j) && !hold
  let s := if on then s.bump Reg.svFallbackCount 1 else s
  { s with gov := { s.gov with
      setPoint := if hold ∧ 0 < j then none else s.gov.nextSet
      nextSet := none, fallbackStep := if on then j else 0, frozenTau := s.gov.lastTau } }

/-- CYCLE_BOUNDARY (R52, R269, R288, R291, R295, R328). -/
def execCycleBoundary (qp : List QpStage) (s : State) : Out :=
  if s.pw.motionOn = false ∨ s.tm.running = false then .next s
  else
    let s := match s.gov.nextSec with
      | some x => s.takeGovernor x
      | none => s
    let s := { s with gov := { s.gov with lanes := s.gov.lanes.map (fun (e : Nat × Lane) => (e.1, e.2.boundary)) } }
    if s.gov.sec.isNone then .next s
    else
      let s := if s.sol.stages ≠ [] ∧ s.gov.v3Done = false then s.cycleFails else s
      let s := s.nextLaw.adoptPlan
      let hold : Bool := s.gov.wheel.state = .hold
      let live : Bool := match s.gov.wheel.state with
        | .standby | .sto => false
        | _ => true
      .next { s with
        gov := { s.gov with
          cycle := if s.gov.wheel.state = .standby then s.gov.cycle else (s.gov.cycle + 1) % 2 ^ 64
          latch := if hold then (if s.gov.latch = [] then s.votedQ else s.gov.latch) else []
          holdTarget := hold, v3Done := false }
        sol := { s.sol with stages := if live then qp.map (normStage (qpCfg s.govBody)) else [], slots := s.measured } }

/-! ### V3 (R335–R340) -/

/-- Q15 vectors of 64 packed two to a word, and back. -/
def packQ15 (v : List Int) : List Nat :=
  (List.range 32).map (fun i => twos 16 (nth v (2 * i) 0) + 65536 * twos 16 (nth v (2 * i + 1) 0))
def unpackQ15 (ws : List Nat) (n : Nat) : List Int := (List.range n).map (fun j => signed 16 (nth ws (j / 2) 0 / 2 ^ (16 * (j % 2))))

/-- The record that 4,212 words spell (R277). -/
def setPointOf (ws : List Nat) : SetPoint :=
  let flags := nth ws 1 0
  { cycle := nth ws 0 0, status := flags % 256, gainMode := flags / 256 % 256, qRef := unpackQ15 (ws.drop 4) 64
    qdRef := unpackQ15 (ws.drop 36) 64, tauFf := unpackQ15 (ws.drop 68) 64
    gainShift := (List.range 64).map (fun i => nth ws (100 + i / 4) 0 / 2 ^ (8 * (i % 4)) % 256)
    gains := if flags / 256 % 256 = 1 then (List.range 64).map (fun i => unpackQ15 (ws.drop (116 + 64 * i)) 128) else [] }

/-- The words of the fallback set-points and of the warm start. -/
def fallbackWords (p : SetPoint) : List Nat := packQ15 p.qRef ++ packQ15 p.qdRef ++ packQ15 p.tauFf
def iterInts (i : Iter) : List Int := i.w ++ i.z ++ i.y ++ i.l
def warmWords (w : List Iter × List Int) : List Nat := (w.1.flatMap iterInts ++ w.2).map (twos 32)

/-- Integers read off words in the shape of a list. -/
def refill (ws : List Nat) (v : List Int) : List Int := (List.range v.length).map (fun i => signed 32 (nth ws i 0))

/-- The warm start that words spell in the shape of another. -/
def warmOf (ws : List Nat) : List Iter → List Int → List Iter × List Int
  | [], c => ([], refill ws c)
  | i :: t, c =>
    let a := i.w.length
    let b := i.z.length
    let d := i.y.length
    let x : Iter := { w := refill ws i.w, z := refill (ws.drop a) i.z, y := refill (ws.drop (a + b)) i.y
                      l := refill (ws.drop (a + b + d)) i.l }
    let r := warmOf (ws.drop (a + b + d + i.l.length)) t c
    (x :: r.1, r.2)

/-- v1 + ⌊((v2 − v1) × w + 2^15) ÷ 2^16⌋ by component (R310). -/
def blend (w : Int) (a b : List Int) : List Int := List.zipWith (fun x y => x + ((y - x) * w + 32768) / 65536) a b

/-- Fallback set-points 1–3 (R337): interpolated between the stages that bracket j × 1,000 µs; with one stage they hold its
position at rest. -/
def fallbacksOf (c : QpCfg) (p : SetPoint) (out : Extract) : List SetPoint :=
  (List.range 3).map (fun j =>
    if c.stages = 1 then { p with qdRef := [] }
    else
      let t := 1000 * (j + 1)
      let a := t / max c.spacing 1
      let w : Int := (((t - a * c.spacing) * 65536 / max c.spacing 1 : Nat) : Int)
      let u := nth out.points a ([], [], [])
      let v := if w = 0 then u else nth out.points (a + 1) ([], [], [])
      { p with qRef := blend w u.1 v.1, qdRef := blend w u.2.1 v.2.1, tauFf := blend w u.2.2 v.2.2 })

/-- VOTE_V3 (R272, R274, R333–R340). -/
def execVoteV3 (assembly iter extract : Nat) (out : Extract) (dev : Strays) (s : State) : Out :=
  let live : Bool := match s.gov.wheel.state with
    | .standby | .sto => false
    | _ => true
  if s.pw.motionOn = false ∨ s.gov.sec.isNone ∨ s.gov.v3Done ∨ s.sol.stages = [] ∨ live = false then .next s
  else
    let c := qpCfg s.govBody
    let o := qpSolve c s.sol.stages s.sol.warm
    let sats := o.sats + out.sats
    let above := c.eps.lt o.rp
    let ok := !above && o.pivots = 0 && sats = 0
    let fr := s.free
    let s := fr.2
    let wd := match s.sol.warm with
      | some x => x.2.2
      | none => 0
    let s := (s.bump Reg.svPivotCount o.pivots).bump Reg.svSatCount sats
    let s := if o.cold then s.bump Reg.svMismatchCount 1 else s
    let s := if ok then s else s.bump Reg.svNotcertCount 1
    let s := { s with sol := { s.sol with
      status := if ok then (if o.cold then 0x0A else 0) else 3
      pivot := decide (0 < o.pivots), saturated := decide (0 < sats), residual := above, cold := o.cold
      stage := (o.first.getD (0, 0)).1, row := (o.first.getD (0, 0)).2
      ratio := ratioOf o.rp c.eps (Config.roundUp (s.freeN - 1)), digest := o.digest, warmDigest := wd
      timing := min assembly 255 + 256 * min iter 255 + 65536 * min extract 255
      iters := o.run.iters, shared := o.run.shared } }
    let p : SetPoint := { cycle := s.gov.cycle % 2 ^ 32, status := if ok then 0 else 3, gainMode := out.gainMode
                          qRef := (nth out.points 0 ([], [], [])).1, qdRef := (nth out.points 0 ([], [], [])).2.1
                          tauFf := (nth out.points 0 ([], [], [])).2.2, gainShift := out.gainShift, gains := out.gains }
    let fbs := fallbacksOf c p out
    let warm := shiftWarm s.sol.stages o.run
    let r := s.vote 3 0 (wordsOf p.bytes ++ fbs.flatMap fallbackWords ++ warmWords warm ++ [o.digest]) dev
    let s := { r.2 with gov := { r.2.gov with v3Done := true } }
    match r.1 with
    | none => .next s.cycleFails
    | some ws =>
      let v := setPointOf ws
      let fb := (List.range 3).map (fun j =>
        let f := ws.drop (4212 + 96 * j)
        { v with qRef := unpackQ15 f 64, qdRef := unpackQ15 (f.drop 32) 64, tauFf := unpackQ15 (f.drop 64) 64, status := 0 })
      let w := warmOf (ws.drop 4500) warm.1 warm.2
      let s := { s with
        gov := { s.gov with lastSet := some v, mpcOk := v.status = 0 }
        sol := { s.sol with warm := some (w.1, w.2, ws.getLast?.getD o.digest) } }
      .next (if v.status = 0 then s.cycleOk v fb else s.cycleFails)

end Sys2Proof.Machine
end

