-- ==== Sys2Proof/Machine/Bodies.lean ====
section
/-!
DEFINITION. What the loader accepts in the body of one section by itself: step 7 of R122 for each type of R113.
-/
namespace Sys2Proof.Machine

/-- 0 for a default, or a value of a range. -/
def orZero (lo hi n : Nat) : Bool := n = 0 || within lo hi n

/-- A part of a run of bytes lies inside it. -/
def partIn (b : Bytes) (off n : Nat) : Bool := off + n ≤ b.length

/-! ### The common header (R114) -/

/-- The header of a section agrees with its table entry and keeps its ranges (R114). -/
def Section.headOk (x : Section) : Bool :=
  let b := x.bytes
  let mills : Bool := x.typ = 1 || x.typ = 0xA
  64 ≤ b.length && leAt b 0 1 = x.typ && leAt b 1 1 = x.target &&
  (x.ctx ≤ 63 || (x.ctx = 0xFF && !mills)) && leAt b 3 1 = 0 && leAt b 4 4 ≤ 4194304 && leAt b 8 2 ≤ 64 &&
  leAt b 0xA 2 ≤ 640 && (if mills then within 1 2000 (leAt b 0xC 2) else leAt b 0xC 2 = 0) && leAt b 0xE 2 = 0 &&
  allZero ((b.drop 0x1C).take 36) && partIn b (leAt b 0x10 4) (8 * leAt b 8 2) &&
  partIn b (leAt b 0x14 4) (16 * leAt b 0xA 2) && partIn b (leAt b 0x18 4) (leAt b 4 4)

/-- A target inside the range of its type (R113). -/
def targetOk (typ t : Nat) : Bool :=
  match typ with
  | 1 | 9 | 0xA | 0xB | 6 => decide (t < 16)
  | 2 | 7 => decide (t = 0)
  | 3 => decide (t < 42)
  | 4 | 8 => decide (t < 64)
  | 5 => decide (t < 2)
  | _ => false

/-- What a destination byte of a route, an entry point, a binding or a return route may name (R510). -/
def destOk (d : Nat) : Bool := decide (d % 32 < 16) || d = 27 || decide (30 ≤ d % 32)

/-! ### Image stages (R147–R154, R161, R163) -/

/-- argmax and argmax_value of a stage with C_out channels (R161). -/
def argmaxOk (p : ImgP) : Bool :=
  (!p.argmaxValue || p.argmax) &&
  (!p.argmax || (p.outFmt = 8 && decide (p.outC ≤ 128)) || (p.outFmt = 3 && decide (p.outC ≤ 2048)) ||
    (p.outFmt = 1 && decide (p.outC ≤ 16384)))

/-- A CONV stage (R147, R149, R161, R163): within the limits, not a 1 × 1 one of stride 1, which is a MATMUL stage. -/
def convOk (p : ImgP) : Bool :=
  p.convFits && !(p.kw = 1 && p.kh = 1 && p.sw = 1 && p.sh = 1 && p.mode = 1) && argmaxOk p && p.resv = 0

/-- A POOL stage (R152, R163). -/
def poolOk (p : ImgP) : Bool := p.poolFits && p.weights = 0 && !p.argmax && !p.argmaxValue && p.resv = 0

/-- A MOVE stage with params 0 (R151, R163). -/
def moveOk (p : ImgP) : Bool :=
  within 1 8192 p.inW && within 1 8192 p.inH && within 1 16384 p.inC && decide (p.mode < 4) &&
  (if 2 ≤ p.mode then p.outC = 0 && decide (1 < p.fIn) else within 1 16384 p.outC) &&
  (p.mode ≠ 2 || (p.inW % p.fIn = 0 && p.inH % p.fIn = 0)) && (p.mode ≠ 3 || p.inC % (p.fIn * p.fIn) = 0) &&
  within 1 10 p.inFmt && within 1 10 p.outFmt && p.weights = 0 && !p.argmax && !p.argmaxValue && p.resv = 0

/-- Channels as a tap's run is padded (R148); the vector unit pads nothing. -/
def ImgP.runChans (p : ImgP) : Nat :=
  if p.conv && !p.depthwise then (p.c / max p.mode 1 + 31) / 32 * 32 * p.mode else p.c

/-- Bytes of some elements of a format, and of their tag plane. -/
def elemBytes (fmt n : Nat) : Nat := (fmtWidth fmt * n + 7) / 8
def bandBytes (fmt n : Nat) : Nat := elemBytes fmt n + (n + 31) / 32

/-- Rows of the stored input, as the operator sees it, that a full stripe reads, clipped to the tensor (R153, R154). -/
def ImgP.bandRows (p : ImgP) : Nat :=
  if p.typ = 8 then
    min p.inH (match p.mode with
      | 1 => p.inH
      | 2 => p.stripeRows * p.fIn
      | 3 => (List.range (min p.fIn p.stripes)).foldl (fun n j =>
          max n (((j + 1) * p.stripeRows - 1) / p.fIn + 1 - j * p.stripeRows / p.fIn)) 0
      | _ => p.stripeRows)
  else min p.h ((p.stripeRows - 1) * p.sh + p.keH)

/-- Elements of an input band and of an output stripe; argmax leaves an index plane, and a value plane beside it (R161). -/
def ImgP.bandCount (p : ImgP) : Nat := p.bandRows * p.w * p.runChans
def ImgP.stripeCount (p : ImgP) : Nat :=
  p.stripeRows * p.cols * (if p.argmax then 1 + b2n p.argmaxValue else p.chans)

/-- Service time of one stripe in fabric cycles (R107, R148, R149, R152): the largest of its terms. Band and stripe count as so many
parcels in and out and as so many millpond lines. `stones` is the number of stones of the stage. -/
def ImgP.stripeCycles (p : ImgP) (stones : Nat) : Nat :=
  let n := p.stripeRows * p.cols
  let up (a b : Nat) : Nat := (a + b - 1) / max b 1
  let parcels (fmt k : Nat) : Nat := up (up k 32) (blocksPer fmt)
  let lines := up (bandBytes p.inFmt p.bandCount) 128 + up (bandBytes p.outFmt p.stripeCount) 128
  let units :=
    if p.conv then
      if p.depthwise then p.kh * p.kw * up (n * p.c) 512
      else
        let g := max p.mode 1
        let kt := if p.inFmt = 7 ∨ p.inFmt = 9 then 256 else 128
        let wide := if p.inFmt = 2 ∨ p.inFmt = 3 then 2 else 1
        let k := p.kh * p.kw * ((p.c / g + 31) / 32 * 32)
        let tiles := up (p.outC / g) 128 * up k kt
        let load := 32 * wide
        g * max (up (tiles * n * wide) stones) (if n < load then up (tiles * load) stones else 0)
    else if p.pool then
      let v := up (n * p.c) 512
      p.kh * p.kw * v + (if p.mode % 2 = 1 then v else 0)
    else 0
  max units (max (max (parcels p.inFmt p.bandCount) (parcels p.outFmt p.stripeCount)) (up lines 32))

/-- A striped stage fits its working pages and its drain bound (R154). -/
def stripedOk (p : ImgP) (working drain stones : Nat) : Bool :=
  within 1 1024 p.stripeRows && within 2 4 p.bufs &&
  decide (2 * bandBytes p.inFmt p.bandCount + elemBytes p.outFmt p.stripeCount ≤ working * 65536) &&
  decide (p.stripeCycles stones ≤ drain * 1250)

/-! ### Attention stages (R164, R165, R190) -/

/-- The stage type of a role (R164). -/
def roleType (role : Nat) : Nat := nth [0, 1, 6, 1, 8, 9, 4] role 0

/-- What an attention stage may be (R164, R165, R181, R185, R186, R190); reserved bits and bytes are 0 (log entry 33). -/
def attnOk (typ : Nat) (p : AttnP) : Bool :=
  within 1 6 p.role && roleType p.role = typ && decide (p.dimCode < 4) && within 1 256 p.qHeads && within 1 p.qHeads p.kvHeads &&
  p.qHeads % max p.kvHeads 1 = 0 && decide (1 ≤ p.headCount) && decide (p.headFirst + p.headCount ≤ p.kvHeads) &&
  within 2 5 p.fmt && decide (p.ring < 2) && (if p.ring = 1 then within 128 131072 p.window else p.window = 0) &&
  ([0, 1, 2, 3, 4, 5].any (fun b => bucketBound b = p.chunkMax)) &&
  (p.role ≠ 1 || (finite32 p.scale && (dy32 p.scale).m ≠ 0)) && decide (p.masks < 8) && decide (p.buckets < 64) &&
  within 1 16 p.splits && decide (p.split < p.splits) && within 1 64 p.modCount && decide (p.modIndex < p.modCount) &&
  (match p.modMode with
   | 0 => p.modCount = 1
   | 1 => within 2 8 p.modCount && decide (p.modCount ≤ p.kvHeads) && p.headFirst = p.modIndex * p.kvHeads / p.modCount &&
          p.headFirst + p.headCount = (p.modIndex + 1) * p.kvHeads / p.modCount
   | 2 => decide (2 ≤ p.modCount) && p.ring = 0
   | _ => false) &&
  p.bucketSplits.all (fun n => within 1 p.splits n) && p.resv = 0

/-! ### MILL and TILE_FUSED bodies (R86, R91, R118, R120, R513) -/

/-- Whether the unit bits [19:16] of a stage configuration — stone 0, stone 1, vector, special-function — name only units of its
type (R91). -/
def unitsOk (w : Nat) : Bool :=
  let allowed := nth [0, 3, 7, 4, 12, 4, 12, 12, 4, 4, 7, 4, 7] (cfgType w) 0
  (fldN w 19 16) &&& allowed = fldN w 19 16

/-- Stage entry i of a mill's section (R91, R513); a program stands in the body of a MILL section only. -/
def stageOk (x : Section) (i : Nat) : Bool :=
  let b := x.millBody
  let w := stageCfg b i
  let p := imgOf b i
  let typ := cfgType w
  decide (typ < 13) && decide (cfgParams w < 2) &&
  (!cfgValid w ||
    (typ ≠ 0 && cfgCtx w = x.ctx && unitsOk w && decide (cfgLimit w ≤ 254) &&
     (x.typ ≠ 1 || partIn b (leAt b (64 * i + 4) 4) (leAt b (64 * i + 8) 4)) &&
     (if cfgParams w = 1 then attnOk typ (attnOf b i)
      else
        (match typ with
         | 1 => Config.stonePairing (stageParams b i)
         | 2 => convOk p
         | 8 => moveOk p
         | 0xB => poolOk p
         | _ => true) &&
        (if stageStriped b i then stripedOk p x.working x.drainBound (b2n (bitN w 16) + b2n (bitN w 17))
         else (typ ≠ 2 && typ ≠ 8 && typ ≠ 0xB) || p.bufs = 0))))

/-- The hopper table (R86). -/
def hoppersOk (b : Bytes) : Bool :=
  (List.range 8).all (fun q =>
    let h := hopperCfg b q
    h.depth = 0 || (within 4 128 h.depth && decide (h.stage < 8) && decide (h.cls < 4))) &&
  decide (sumN ((List.range 8).map (fun q => (hopperCfg b q).depth)) ≤ 256)

/-- A destination takes parcels of a class by itself: the governor-interface queues are of class M (R26, R32). -/
def classOk (dest cls : Nat) : Bool := decide (dest % 32 < 30) || cls = 0

/-- The route table (R89, R118, R510): at most 4 destinations of a stage. -/
def routesOk (b : Bytes) : Bool :=
  (List.range 32).all (fun i => bitN (leAt b (576 + 16 * i) 1) 0 || allZero ((b.drop (576 + 16 * i)).take 16)) &&
  (routesOf b).all (fun r => destOk r.dest && decide (r.cls < 4) && decide (r.row < 64) && classOk r.dest r.cls) &&
  (List.range 8).all (fun i => decide (((routesOf b).filter (fun r => r.stage = i)).length ≤ 4))

/-- The tables and the page layout of a mill's section, and its preloads. -/
def tablesOk (x : Section) : Bool :=
  let b := x.millBody
  partIn b 0 1728 && (List.range 8).all (stageOk x) && hoppersOk b && routesOk b &&
  (List.range 640).all (fun i => decide (pageKind b i < 3)) && x.preloads.all (fun p => within 1 640 p.pages && within 1 3 p.cls)

def millOk (x : Section) : Bool := tablesOk x

/-- A TILE_FUSED section (R120): an image of one mill and the wrapper; every stage that the loader makes of it is a TILE_FUSED
stage of R91. -/
def tileOk (x : Section) : Bool :=
  let b := x.millBody
  partIn x.body 0 4096 && Config.tileOneMill (x.body.take (x.body.length - 4096)) && tablesOk x &&
  (List.range 8).all (fun i => !cfgValid (stageCfg b i) || (cfgType (stageCfg b i) = 0xC && cfgParams (stageCfg b i) = 0))

/-! ### LEAT bodies (R417, R418, R423) -/

/-- A stream binding (R423). -/
def bindingOk (x : Binding) : Bool :=
  decide (x.stream < 48) && decide (x.lane < 16) && decide (x.cls < 2) && decide (x.row < 64) &&
  (if 12 ≤ x.lane then x.kind = 2 && x.ctx = 0xFF && within 1 4096 x.frameMax
   else decide (x.kind < 2) && decide (x.ctx < 64) && within 1 33554432 x.frameMax &&
    (if x.kind = 0 then destOk x.dest && classOk x.dest x.cls else decide (x.mill < 16) && decide (x.stage < 8)))

def groupOk (mid : Nat) (g : Group) : Bool :=
  within 1 4 g.op && within 1 2 g.format && decide (g.cls < 4) && decide (g.algorithm < 3) && within 2 1024 g.members.length &&
  decide (g.ctx < 64) && g.elements % 32 = 0 && (g.op ≠ 3 || g.elements % (32 * g.members.length) = 0) &&
  (g.members.filter (fun m => m = mid)).length = 1

def leatOk (mid : Nat) (b : Bytes) : Bool :=
  let bs := leatBindings b
  partIn b 0 32 && decide (leAt b 8 2 ≤ 48) && decide (leatEntries b ≤ 64) && decide (leatGroups b ≤ 64) &&
  partIn b (leAt b 0x10 4) (32 * leAt b 8 2) && partIn b (leAt b 0x14 4) (8 * leatEntries b) &&
  partIn b (leAt b 0x18 4) (32 * leatGroups b) && bs.all bindingOk && decide ((bs.map (·.stream)).Nodup) &&
  (List.range (leatEntries b)).all (fun i =>
    let e := leatEntry b i
    destOk e.dest && within 2 3 e.cls && classOk e.dest e.cls && decide (e.ctx < 64) && decide (e.row < 64)) &&
  (List.range (leatGroups b)).all (fun g => groupOk mid (leatGroup b g))

/-! ### QUOTA, BOLTER, STREAM bodies (R226, R251, R267, R192, R214) -/

def quotaOk (b : Bytes) : Bool :=
  let q := quotaOf b
  partIn b 0 32 && decide (q.mp ≤ 10240) && decide (q.hbm ≤ hbmPages) && decide (q.store ≤ 4194304) && decide (leAt b 12 1 ≤ 28) &&
  decide (leAt b 13 1 ≤ 64) && partIn b 32 (16 * leAt b 13 1) && q.hbmLate.all (orZero 5 60000) && q.storeLate.all (orZero 1 1000)

/-- A sphere of a set: 0 < ρ′, ρ′ + pitch ÷ 256 ≤ 32 × pitch, ∣offset∣ ≤ 32 × pitch (R251). -/
def sphereOk (pitch margin : Nat) (sp : Sphere) : Bool :=
  let p := metres pitch
  let far := p.mul (Ratio.ofInt 32)
  let r := (ratio32 sp.r).add (metres margin)
  let sq (c : Nat) : Ratio := (ratio32 c).mul (ratio32 c)
  [sp.x, sp.y, sp.z, sp.r].all finite32 && !r.le (Ratio.ofInt 0) && (r.add (p.mul ⟨1, 256⟩)).le far &&
  (((sq sp.x).add (sq sp.y)).add (sq sp.z)).le (far.mul far)

def bolterOk (b : Bytes) : Bool :=
  let c := bolterCfg b
  let zero (v lo hi : Nat) : Bool := orZero lo hi v
  within 2 4 c.bufs && decide (leAt b 13 1 ≤ 127) && decide (leAt b 14 1 ≤ 1) && (decide (c.queue < 16) || c.queue = 0xFF) &&
  zero (leAt b 16 2) 10 500 && decide (c.margin ≤ 500) && zero (leAt b 20 4) 1000 1000000 && decide (c.timeStream < 48) &&
  within 1 16 c.sets && zero (leAt b 26 2) 10 10000 && finite32 c.risk && decide (0 ≤ (dy32 c.risk).m) &&
  decide (leAt b 32 1 ≤ 16) && decide (leAt b 33 1 ≤ 32) && c.stride % 65536 = 0 && decide (138477568 ≤ c.stride) &&
  partIn b 0 (0x40 + 2064 * c.sets) &&
  (List.range c.sets).all (fun n => within 1 128 (leAt b (0x40 + 2064 * n) 1) && (sphereSet b n).all (sphereOk c.pitch c.margin))

/-- layout_digest (R214): SM3 truncated to 32 bits. -/
def layoutDigest (b : Bytes) : Nat :=
  let c := streamCfg b
  leNat ((Config.sm3 (le 1 c.format ++ le 2 c.channels ++ (List.range c.layers.length).flatMap (fun i =>
    (b.drop (32 + 16 * i)).take 1 ++ (b.drop (32 + 16 * i + 3)).take 3))).take 4)

def layerOk (l : Layer) : Bool :=
  decide (l.mill < 16) && decide (l.stage < 8) &&
  (match l.kind with
   | 1 => within 1 16384 l.c
   | 2 => within 1 16384 l.c && decide (l.c * (l.n + 1) ≤ 1048576)
   | 3 => within 1 16384 l.c && within 2 8 l.n
   | 4 | 5 => within 1 4096 l.c
   | _ => false)

def streamOk (b : Bytes) : Bool :=
  let c := streamCfg b
  partIn b 0 (32 + 16 * leAt b 4 2) && within 1 256 c.count && decide (c.first + c.count ≤ 256) && within 1 128 c.layers.length &&
  within 1 4096 c.maxSteps && within 1 16 c.depth && anyFmt c.format && within 1 16384 c.channels && c.digest = layoutDigest b &&
  c.layers.all layerOk

/-! ### GOVIF bodies (R285, R303) -/

def govifOk (b : Bytes) : Bool :=
  let c := queueCfg b
  decide (c.kind < 2) && within 4 32 c.depth && decide (c.tagLimit < 255) && partIn b 0 (0x10 + 4 * leAt b 4 2) &&
  (if c.kind = 0 then c.elements = [] && c.period = 0
   else
    decide (c.consumer < 3) && within 1 512 c.elements.length && within 1 4000 c.period && decide (c.holdLast < 16) &&
    decide (c.action < 3) && within 1 3 c.format &&
    (if c.consumer = 2 then c.elements.all (fun e => decide (e.2.1 < 64) && e.2.2 = 0)
     else if c.consumer = 0 then
      c.elements.all (fun e => decide (e.2.2 < 15)) &&
      (match c.elements.filter (fun e => e.2.2 = 14) with
       | [e] => e.1 = 15
       | _ => false)
     else c.elements.all (fun e => e.2.1 = 0)))

/-! ### GOVERNOR bodies (R299, R300, R304, R305, R342) -/

/-- A source entry keeps R304 and R305; a stream source that is transformed (R314) names a transform entry that is valid (R313, log
entry 37). -/
def fuSrcOk (c : FuCfg) (x : FuSrc) : Bool :=
  (x.queue.isSome || x.kind = 4 || ((c.xforms[x.transform]?).map FuXform.valid).getD false) &&
  within 1 4 x.kind && (decide (x.origin < 48) || within 0x80 0x8F x.origin) && decide (x.transform < c.xforms.length) &&
  within 50 1000000 x.periodUs && (!x.tickLocked || x.periodUs = 250 || x.periodUs = 125 || x.periodUs = 62) &&
  within 100 1000000 x.jitter && decide (x.shift ≤ 8) && decide (x.extrap ≤ 2) &&
  (if x.queue.isSome then decide (x.timeStream < 48) else x.timeStream = 0) &&
  decide (x.gainPos < 32768) && decide (x.gainVel < 32768) && decide (x.gainAtt < 32768)

def fuGateOk (c : FuCfg) (g : FuGate) : Bool :=
  let n := c.sources.length
  decide (g.a < n) && decide (g.b < n) && (decide (g.arbiter < n) || within 0xFE 0xFF g.arbiter) && decide (g.quantity < 4) &&
  within 1 16 g.failN && within 1 64 g.passN

/-- Source i is an IMU. -/
def FuCfg.imu (c : FuCfg) (i : Nat) : Bool := ((c.sources[i]?).map (fun x => decide (x.kind = 1))).getD false

def fusionOk (body : Bytes) : Bool :=
  let b := fuBlock body
  let c := fuCfg body
  leAt body 0x14 4 ≠ 0 && partIn body (leAt body 0x10 4) (leAt body 0x14 4) && within 1 64 (leAt b 0 1) && decide (leAt b 1 1 ≤ 16) &&
  within 1 256 (leAt b 2 2) && partIn b 0 (0x20 + 32 * leAt b 0 1 + 16 * leAt b 1 1 + 32 * leAt b 2 2) &&
  orZero 10 200 (leAt b 8 2) && c.imu c.primary && (c.standby = 0xFF || c.imu c.standby) &&
  c.sources.all (fuSrcOk c) && c.gates.all (fuGateOk c)

/-- A parameter encoded as eps_prim, its mantissa at least `lo`. -/
def paramOk (b : Bytes) (o lo : Nat) : Bool := within lo 32767 (leAt b o 2)

def solverOk (body : Bytes) : Bool :=
  let b := solverBlock body
  let c := qpCfg body
  let table := leAt b 0x38 4
  let sub (o : Nat) : Bool := partIn body (leAt b o 4) (leAt b (o + 4) 4)
  leAt body 0x1C 4 ≠ 0 && partIn body (leAt body 0x18 4) (leAt body 0x1C 4) && partIn b 0 0x40 && within 1 32 c.stages &&
  decide (leAt b 1 1 ≤ 25) && decide (leAt b 2 1 ≤ 1) && within 100 50000 c.spacing &&
  (decide (c.stages < 2) || decide (3000 ≤ (c.stages - 1) * c.spacing)) && paramOk b 8 1 && paramOk b 0x0C 1 && paramOk b 0x10 0 &&
  paramOk b 0x14 1 && paramOk b 0x18 1 && paramOk b 0x1C 1 && !c.alpha.lt ⟨1, -15⟩ && !(Dy.ofInt 2).lt c.alpha &&
  [c.xLoM, c.xHiM, c.xLoV, c.xHiV, c.xL, c.xW, c.xY, c.xC].all (fun x => decide (-64 ≤ x) && decide (x ≤ 63)) &&
  sub 0x28 && sub 0x30 && sub 0x38 && decide (1280 ≤ leAt b 0x3C 4) &&
  (List.range 256).all (fun i => let x := signed 8 (leAt body (table + 1024 + i) 1); decide (-64 ≤ x) && decide (x ≤ 63)) &&
  Config.programsFit body

def jointOk (body : Bytes) (j : Nat) : Bool :=
  let c := jointCfg body j
  let exp (x : Int) : Bool := decide (-8 ≤ x) && decide (x ≤ 15)
  !c.enabled ||
    (decide (c.drive < 64) && exp c.pExp && exp c.vExp && exp c.tExp && decide (c.gainShift ≤ 8) && decide (c.holdShift ≤ 8) &&
     decide (c.bandShift ≤ 15) && (if c.table then partIn body c.tableOff 16384 else c.tableOff = 0))

/-- A return route of a GOVERNOR body: content, destination, row, period in ticks less 1. -/
def returnRoute (b : Bytes) (r : Nat) : Nat × Nat × Nat := (leAt b (0x40 + 16 * r) 1, leAt b (0x41 + 16 * r) 1, leAt b (0x42 + 16 * r) 1)
def returnRoutes (b : Bytes) : List (Nat × Nat × Nat) := (List.range (leAt b 0x20 1)).map (returnRoute b)

def governorOk (b : Bytes) : Bool :=
  let div := leAt b 5 1
  partIn b 0 0x1080 && within 1 64 (leAt b 0 2) && orZero 12 23 (leAt b 2 1) && orZero 1 15 (leAt b 4 1) &&
  (div = 0 || div = 1 || div = 2 || div = 4) && orZero 100 10000 (leAt b 6 2) && decide (leAt b 0x20 1 ≤ 4) &&
  (returnRoutes b).all (fun r => within 1 3 r.1 && destOk r.2.1 && decide (r.2.2 < 64)) &&
  (List.range 64).all (jointOk b) && fusionOk b && solverOk b

/-! ### Every type -/

/-- The embedded sections of a FALLBACK body fill it exactly, are of the four types and spare the target mill (R119). -/
def fallbackOk (x : Section) : Bool :=
  let r := embedded x.gen 64 x.body
  r.2 && r.1.all (fun y => (y.typ = 1 || y.typ = 0xA || y.typ = 2 || y.typ = 3) && !((y.typ = 1 || y.typ = 0xA) && y.target = x.target))

/-- The body of a section, by its type (R113). -/
def Section.bodyOk (mid : Nat) (x : Section) : Bool :=
  match x.typ with
  | 1 => millOk x
  | 2 => leatOk mid x.body
  | 3 => decide (x.body.length ≤ 256) && x.body.length % 4 = 0
  | 4 => quotaOk x.body
  | 5 => bolterOk x.body
  | 6 => govifOk x.body
  | 7 => governorOk x.body
  | 8 => streamOk x.body
  | 9 => fallbackOk x
  | 0xA => tileOk x
  | 0xB => decide (64 ≤ x.body.length)
  | _ => false

/-- One section by itself (step 7 of R122). -/
def Section.ok (mid : Nat) (x : Section) : Bool := targetOk x.typ x.target && x.headOk && x.bodyOk mid

end Sys2Proof.Machine
end

