-- ==== Sys2Proof/Machine/Verify.lean ====
section
/-!
DEFINITION. Verification of a millplan (R122): the image, the steps 1–13 over a set of sections, and the rules of a
replacement (R128, step 14).
-/
namespace Sys2Proof.Machine

/-! ### The image (R110–R112) -/

/-- Section table entry i of an image, with the section's bytes. -/
def imageSection (img : Bytes) (gen i : Nat) : Section :=
  let o := 256 + 48 * i
  { typ := leAt img o 1, target := leAt img (o + 1) 1, flags := leAt img (o + 2) 2, digest := (img.drop (o + 16)).take 32
    bytes := (img.drop (leAt img (o + 4) 4)).take (leAt img (o + 8) 4), gen := gen }

/-- The millplan of an image. -/
def imagePlan (img : Bytes) : Plan :=
  let gen := leAt img 0x18 4
  { planId := leAt img 0x10 8, gen := gen, replacement := bitN (leAt img 0x0E 2) 0, minFw := leAt img 0x1C 2
    signer := (img.drop 0x28).take 16, sections := (List.range (leAt img 0x0C 2)).map (imageSection img gen) }

/-- The table lies in the image; sections are aligned, in order, apart and inside (R110). -/
def tableOk (img : Bytes) : Bool :=
  let n := leAt img 0x0C 2
  let off (i : Nat) : Nat := leAt img (256 + 48 * i + 4) 4
  let stop (i : Nat) : Nat := off i + leAt img (256 + 48 * i + 8) 4
  partIn img 256 (48 * n) && (List.range n).all (fun i =>
    off i % 64 = 0 && decide (256 + 48 * n ≤ off i) && decide (stop i ≤ img.length) &&
    (i + 1 = n || decide (off i < off (i + 1) ∧ stop i ≤ off (i + 1))))

/-- Step 1. -/
def headerOk (img : Bytes) (mid : Nat) : Bool :=
  let n := leAt img 0x0C 2
  let m := leAt img 0x20 2
  leAt img 0 4 = 0x4E4C504D && leAt img 4 2 = 0x0200 && leAt img 6 2 = 256 && leAt img 8 4 = img.length && within 1 256 n &&
  (!bitN (leAt img 0x0E 2) 0 || n = 1) && leAt img 0x1E 2 = 0x0016 && (m = mid || m = 0xFFFF) && leAt img 0x24 4 = 256 &&
  tableOk img

/-- Steps 2 and 3: what the signature covers, and by which key. -/
def keyOk (s : State) (img : Bytes) : Bool := digestOf ((img.drop 0x38).take 64) = (s.otp 6).shadow
def signatureOk (img : Bytes) : Bool :=
  Config.sm2Verify ((img.drop 0x38).take 64) ((img.drop 0x28).take 16) (img.take 0x78 ++ (img.drop 256).take (48 * leAt img 0x0C 2))
    ((img.drop 0x78).take 64)

/-- Step 5: the vendor's signature of a FIRMWARE section (R121). -/
def vendorOk (x : Section) : Bool :=
  let b := x.body
  x.typ ≠ 0xB || (bitN x.flags 0 && decide (64 ≤ b.length) &&
    Config.sm2Verify Config.vendorKey Config.vendorId (digestOf (b.take (b.length - 64))) (b.drop (b.length - 64)))

/-! ### Sets of sections -/

/-- What a check answers: a cause and the place of the section that failed, where one did. -/
abbrev Verdict := Option (Nat × Option Nat)

/-- The first section of a set that fails a check. -/
def firstBad (cause : Nat) (f : Section → Bool) (xs : List Section) : Verdict :=
  (xs.findIdx? (fun x => !f x)).map (fun i => (cause, some i))

/-- The first failure of several checks. -/
def firstOf (l : List Verdict) : Verdict := (l.find? Option.isSome).getD none

/-- Two sections stand in each other's place: the same type and target, or both configure one mill (R128). -/
def samePlace (x y : Section) : Bool :=
  x.target = y.target && (x.typ = y.typ || ((x.typ = 1 || x.typ = 0xA) && (y.typ = 1 || y.typ = 0xA)))

/-- A set with one section put in its place. -/
def putSection (xs : List Section) (y : Section) : List Section :=
  if xs.any (samePlace y) then xs.map (fun x => if samePlace y x then y else x) else xs ++ [y]

def setFind (xs : List Section) (typ target : Nat) : Option Section := xs.find? (fun x => x.typ = typ && x.target = target)
def setBody (xs : List Section) (typ target : Nat) : Bytes := ((setFind xs typ target).map Section.body).getD []

/-- The mills that a set configures. -/
def millsOf (xs : List Section) : List Nat := xs.filterMap (fun x => if x.typ = 1 || x.typ = 0xA then some x.target else none)

/-! ### Step 7 (R113) -/

/-- The counts of a full set; missing FALLBACK sections are step 13's. -/
def countsOk (xs : List Section) : Bool :=
  decide (xs.Pairwise (fun x y => samePlace x y = false)) && (setFind xs 2 0).isSome && (setFind xs 7 0).isSome

/-- The tables of mill m in a set. -/
def setTables (xs : List Section) (m : Nat) : Bytes :=
  ((xs.find? (fun x => (x.typ = 1 || x.typ = 0xA) && x.target = m)).map Section.millBody).getD []

/-- A destination's queue is bound to the class of what is sent to it (R32, R86). -/
def queueClassOk (xs : List Section) (dest cls : Nat) : Bool :=
  decide (16 ≤ dest % 32) ||
  (let h := hopperCfg (setTables xs (dest % 32)) (dest / 32)
   h.depth = 0 || h.cls = cls)

/-- Checks of step 7 between sections: what a section sends has the class of the queue it goes to (R32, R86), a queue source's queue
feeds the fusion unit (R305), streams belong to one context (R192), a FALLBACK section has a mill (R113). -/
def crossOk (xs : List Section) (x : Section) : Bool :=
  match x.typ with
  | 1 | 0xA => (routesOf x.millBody).all (fun r => queueClassOk xs r.dest r.cls)
  | 2 => (leatBindings x.body).all (fun e => decide (12 ≤ e.lane) || e.kind ≠ 0 || queueClassOk xs e.dest e.cls) &&
    (List.range (leatEntries x.body)).all (fun i => let e := leatEntry x.body i; queueClassOk xs e.dest e.cls)
  | 7 => (returnRoutes x.body).all (fun r => queueClassOk xs r.2.1 0) && (fuCfg x.body).sources.all (fun e => match e.queue with
      | none => true
      | some q => let c := queueCfg (setBody xs 6 q); (setFind xs 6 q).isSome && c.kind = 1 && c.consumer = 0)
  | 8 =>
    let c := streamCfg x.body
    xs.all (fun y => y.typ ≠ 8 || y.target = x.target ||
      (let d := streamCfg y.body; decide (c.first + c.count ≤ d.first) || decide (d.first + d.count ≤ c.first)))
  | 9 => has (millsOf xs) x.target
  | _ => true

def step7 (mid : Nat) (whole : Bool) (xs : List Section) : Verdict :=
  firstOf [firstBad 7 (Section.ok mid) xs, if whole && !countsOk xs then some (7, none) else none,
           if whole then firstBad 7 (crossOk xs) xs else none]

/-! ### Step 8: addresses (R48, R49, R117, R219, R226) -/

/-- The first reserved HBM address (R219). -/
def hbmReserved : Nat := 0x132409A0000

/-- [a, a + n) lies inside one of some regions. -/
def inRegions (rs : List Region) (a n : Nat) : Bool := rs.any (fun r => decide (r.addr ≤ a) && decide (a + n ≤ r.addr + r.pages * 65536))

/-- The HBM ranges that a section uses, each with its context (R226); a frame buffer holds a whole tensor, and behind an index plane
the value plane where it has one (R161). -/
def Section.ranges (x : Section) : List (Nat × Nat × Nat) :=
  let b := x.body
  match x.typ with
  | 1 | 0xA =>
    let b := x.millBody
    (List.range 8).flatMap (fun i =>
      if stageStriped b i then
        let p := imgOf b i
        (List.range p.bufs).flatMap (fun k =>
          [(x.ctx, p.inAddr + k * p.inStride, (p.inTensor 0 0).bytes),
           (x.ctx, p.outAddr + k * p.outStride, (p.outTensor 0 0).bytes * (1 + b2n p.argmaxValue))])
      else
        match bodyAttn b i with
        | some p => if p.role = 1 ∨ p.role = 3 ∨ p.role = 4 then [(x.ctx, p.table, 4096 * 64)] else []
        | none => []) ++
    x.preloads.map (fun p => (x.ctx, p.hbm, p.pages * 65536))
  | 2 =>
    (leatBindings b).filterMap (fun e =>
      if e.lane < 12 then some (e.ctx, e.buffer, 8 * ((e.frameMax + 65535) / 65536) * 65536) else none) ++
    (List.range (leatGroups b)).map (fun g =>
      let e := leatGroup b g
      let n := e.elements * (if e.format = 1 then 4 else 2)
      (e.ctx, e.buffer, n + (e.elements + 31) / 32))
  | 5 =>
    let c := bolterCfg b
    (List.range c.bufs).map (fun k => (x.ctx, c.grid + k * c.stride, 138477568))
  | 8 =>
    let c := streamCfg b
    [(x.target, c.queue, c.count * c.depth * c.slotPages * 65536)]
  | _ => []

/-- Weights of a convolution, and the fewest bytes that they take in a format that may stand beside the input's (R58, R148). -/
def ImgP.weightCount (p : ImgP) : Nat :=
  p.outC * (p.kh * p.kw * (if p.depthwise then 1 else (p.c / max p.mode 1 + 31) / 32 * 32))
def ImgP.weightBytes (p : ImgP) : Nat :=
  (((List.range 10).filter (fun f => if p.depthwise then anyFmt f else stoneMode p.inFmt f)).map (fun f =>
    planeBytes f p.weightCount + scaleBytes f p.weightCount)).min?.getD 0

/-- What stages and layers name in a millpond lies in its populated 40 MiB (R49): the weights of a convolution, the state slots of a
layer. -/
def Section.pondOk (x : Section) : Bool :=
  match x.typ with
  | 1 | 0xA =>
    let b := x.millBody
    (List.range 8).all (fun i =>
      let w := stageCfg b i
      let p := imgOf b i
      !(cfgValid w && cfgParams w = 0 && cfgType w = 2) || decide (p.weights + p.weightBytes ≤ 0x2800000))
  | 8 =>
    let c := streamCfg x.body
    c.layers.all (fun l => decide (l.offset + (c.count - 1) * l.stride + l.slotBytes ≤ 0x2800000))
  | _ => true

/-- Addresses that must be aligned or zero. -/
def Section.alignOk (x : Section) : Bool :=
  let b := x.body
  x.preloads.all (fun p => p.hbm % 65536 = 0 && p.offset % 65536 = 0 && decide (p.offset + p.pages * 65536 ≤ 0x2800000)) &&
  (match x.typ with
   | 2 => (leatBindings b).all (fun e => if 12 ≤ e.lane then e.buffer = 0 else e.buffer % 65536 = 0) &&
      (List.range (leatGroups b)).all (fun g => (leatGroup b g).buffer % 65536 = 0)
   | 5 => (bolterCfg b).grid % 65536 = 0
   | 8 => (streamCfg b).queue % 65536 = 0
   | _ => true)

/-- The regions of a QUOTA section are aligned, allocatable and apart from every other region (R226). -/
def regionsOk (xs : List Section) (x : Section) : Bool :=
  x.typ ≠ 4 ||
  (let rs := (quotaOf x.body).regions
   let others := (xs.filter (fun y => y.typ = 4 && y.target ≠ x.target)).flatMap (fun y => (quotaOf y.body).regions)
   let apart (a b : Region) : Bool := decide (a.addr + a.pages * 65536 ≤ b.addr) || decide (b.addr + b.pages * 65536 ≤ a.addr)
   rs.all (fun r => r.addr % 65536 = 0 && decide (0x10000000000 ≤ r.addr) && decide (r.addr + r.pages * 65536 ≤ hbmReserved) &&
     others.all (apart r)) &&
   decide (rs.Pairwise (fun a b => apart a b = true)))

/-- Step 8; `extra` are regions that still count although the set has them no more. -/
def step8 (extra : List (Nat × Region)) (xs : List Section) : Verdict :=
  let regions (c : Nat) : List Region :=
    (quotaOf (setBody xs 4 c)).regions ++ extra.filterMap (fun e => if e.1 = c then some e.2 else none)
  firstOf
    [ firstBad 8 (regionsOk xs) xs,
      firstBad 8 (fun x => x.alignOk && x.pondOk && x.ranges.all (fun r => decide (r.2.1 + r.2.2 ≤ hbmReserved) && inRegions (regions r.1) r.2.1 r.2.2)) xs,
      firstBad 0x10 (fun x => x.typ ≠ 4 || decide (sumN ((quotaOf x.body).regions.map (·.pages)) ≤ (quotaOf x.body).hbm)) xs ]

/-! ### Step 9: manifests (R116, R267, R285, R299) -/

/-- Pools that manifests cover. -/
def manifestPool (p : Nat) : Bool := decide (p ≤ 145) || within 448 463 p

/-- The section that may own a pool. -/
def ownerOk (x : Section) (p : Nat) : Bool :=
  if p < 128 then (x.typ = 1 || x.typ = 0xA) && x.target = p / 8
  else if p < 144 then (x.typ = 1 || x.typ = 0xA) && x.target = p - 128
  else if p < 146 then x.typ = 5 && x.target = p - 144
  else x.typ = 6 && x.target = p - 448

def Section.owns (x : Section) : List Manifest := x.manifest.filter (fun e => e.kind = 0)
def Section.grants (x : Section) : List Manifest := x.manifest.filter (fun e => e.kind = 1)
/-- The OWN entry of a pool. -/
def Section.own (x : Section) (p : Nat) : Option Manifest := x.owns.find? (fun e => e.pool = p)

/-- The entries of one section, and the pools that it uses: each has an owner, and the edge producers of a LEAT section and the return
routes of a GOVERNOR section have their grants. -/
def manifestOk (xs : List Section) (x : Section) : Bool :=
  let all := xs.flatMap Section.manifest
  x.manifest.all (fun e =>
    decide (e.kind < 2) && manifestPool e.pool &&
    (if e.kind = 0 then
      ownerOk x e.pool && (all.filter (fun f => f.kind = 0 && f.pool = e.pool)).length = 1 &&
      e.count = e.selfOpen + sumN ((all.filter (fun f => f.kind = 1 && f.pool = e.pool)).map (·.count)) &&
      (decide (e.pool < 128) || decide (144 ≤ e.pool) || within 1 64 e.count)
     else e.selfOpen = 0 && all.any (fun f => f.kind = 0 && f.pool = e.pool))) &&
  (let owned (d : Nat) : Bool := match destPool d with
    | some p => all.any (fun f => f.kind = 0 && f.pool = p)
    | none => true
   let granted (d : Nat) : Bool := match destPool d with
    | some p => x.grants.any (fun e => e.pool = p)
    | none => true
   match x.typ with
   | 1 | 0xA => (List.range 8).all (fun q =>
      let d := (hopperCfg x.millBody q).depth
      (x.own (8 * x.target + q)).map (·.count) = (if d = 0 then none else some d)) &&
    (routesOf x.millBody).all (fun r => owned r.dest)
   | 2 => (leatBindings x.body).all (fun e => decide (12 ≤ e.lane) || e.kind ≠ 0 || granted e.dest) &&
    (List.range (leatEntries x.body)).all (fun i => granted (leatEntry x.body i).dest)
   | 5 =>
    (match x.own (144 + x.target) with
     | some e => within 1 64 e.count && e.selfOpen = e.count
     | none => false) &&
    (let q := (bolterCfg x.body).queue
     q = 0xFF || x.grants.any (fun e => e.pool = 448 + q))
   | 6 => (x.own (448 + x.target)).map (fun e => (e.count, e.selfOpen)) = some ((queueCfg x.body).depth, 0)
   | 7 => (returnRoutes x.body).all (fun r => granted r.2.1)
   | _ => true)

def step9 (xs : List Section) : Verdict := firstBad 9 (manifestOk xs) xs

/-! ### Steps 10 and 11: weirs, links, shares, class-M traversal (R101–R105) -/

/-- Rows of weir w in a set. -/
def setRows (xs : List Section) (w : Nat) : List Nat := weirRows (setBody xs 3 w)

/-- A flow of a section into the leat: weir, row, class, context (none: the module's own), destination where a route names
one. -/
structure Flow where
  weir : Nat
  row : Nat
  cls : Nat
  ctx : Option Nat
  dest : Option Nat
  deriving DecidableEq, Repr

/-- A row of a class and context, not the privileged owner's. -/
def rowIs (word cls ctx : Nat) : Bool := rowValid word && rowCls word = cls && !rowPriv word && rowCtx word = ctx

/-- The flows of a section. -/
def Section.flows (xs : List Section) (x : Section) : List Flow :=
  let b := x.body
  match x.typ with
  | 1 | 0xA => (routesOf x.millBody).filterMap (fun r =>
      if r.dest % 32 = x.target then none else some { weir := x.target, row := r.row, cls := r.cls, ctx := some x.ctx, dest := some r.dest })
  | 2 =>
    (leatBindings b).filterMap (fun e =>
      if e.lane < 12 then
        some { weir := 19 + e.lane, row := e.row, cls := e.cls, ctx := some e.ctx, dest := if e.kind = 0 then some e.dest else none }
      else none) ++
    (List.range (leatEntries b)).map (fun i =>
      let e := leatEntry b i
      { weir := 39, row := e.row, cls := e.cls, ctx := some e.ctx, dest := some e.dest })
  | 5 =>
    let q := (bolterCfg b).queue
    if q = 0xFF then []
    else [{ weir := 17 + x.target, row := ((setRows xs (17 + x.target)).findIdx? (fun w => rowIs w 0 x.ctx)).getD 64, cls := 0
            ctx := some x.ctx, dest := some (govDest q) }]
  | 7 => (returnRoutes b).map (fun r =>
      { weir := 41, row := r.2.2, cls := 0, ctx := none, dest := some r.2.1 })
  | _ => []

/-- A flow has its row (R102); a return route's is of class M (R31). -/
def flowOk (xs : List Section) (f : Flow) : Bool :=
  let w := nth (setRows xs f.weir) f.row 0
  match f.ctx with
  | some c => rowIs w f.cls c
  | none => rowValid w && rowCls w = f.cls

/-- The outputs that a parcel takes from router k to a destination, as router × 8 + output. -/
def pathFrom : Nat → Nat → Nat → List Nat
  | 0, _, _ => []
  | n + 1, k, d =>
    let o := nextOut k d
    (8 * k + o) :: (if k = (attachOf (d % 32)).1 then [] else match neighbour k o with
      | some e => pathFrom n e.1 d
      | none => [])

/-- The outputs on a flow's route. -/
def Flow.path (f : Flow) : List Nat :=
  match f.dest with
  | some d => pathFrom 7 (entryOf f.weir).1 d
  | none => []

/-- The links of a flow's route: the entry link, which a binding to a frame buffer uses too, and each output (R103). -/
def Flow.links (f : Flow) : List Nat :=
  (128 + 8 * (entryOf f.weir).1 + (entryOf f.weir).2) :: f.path

/-- The rows of a class that use a link, each once, as weir × 64 + row. -/
def rowsOn (fs : List Flow) (link cls : Nat) : List Nat :=
  fs.foldl (fun l f => if f.cls = cls && has f.links link then addN l (64 * f.weir + f.row) else l) []

/-- The word of a row numbered weir × 64 + row. -/
def rowAt (xs : List Section) (k : Nat) : Nat := nth (setRows xs (k / 64)) (k % 64) 0

/-- The rates on a link keep R103. -/
def linkOk (xs : List Section) (fs : List Flow) (link : Nat) : Bool :=
  let m := sumN ((rowsOn fs link 0).map (fun k => rowRate (rowAt xs k)))
  let v := sumN ((rowsOn fs link 1).map (fun k => rowRate (rowAt xs k)))
  decide (m ≤ 256) && decide (m + v ≤ 896)

/-- D of a class-M flow (R105). -/
def traversal (xs : List Section) (fs : List Flow) (f : Flow) : Nat :=
  4 * f.path.length + 1 + sumN (f.path.map (fun out =>
    1 + sumN ((remN (rowsOn fs out 0) (64 * f.weir + f.row)).map (fun k => rowBurst (rowAt xs k)))))

def setFlows (xs : List Section) : List Flow := xs.flatMap (Section.flows xs)

/-- The largest D of a set and the weir its flow enters by. -/
def largestD (xs : List Section) : Nat × Nat :=
  let fs := setFlows xs
  fs.foldl (fun a f => if f.cls = 0 && f.dest.isSome && decide (a.1 < traversal xs fs f) then (traversal xs fs f, f.weir) else a) (0, 0)

/-- The station shares of a LEAT body (R104). -/
def sharesOk (b : Bytes) : Bool :=
  let m := fldN (leAt b 0 4) 9 0
  let v := fldN (leAt b 0 4) 19 10
  let cap := fldN (leAt b 4 4) 9 0
  decide (m + v ≤ 875) && (cap = 0 || decide (m ≤ cap))

def step10 (xs : List Section) : Verdict :=
  let fs := setFlows xs
  firstOf
    [ firstBad 0xA (fun x =>
        (x.typ ≠ 3 || (weirRows x.body).all (fun w => !rowValid w || (decide (rowRate w ≤ 1024) && within 1 255 (rowBurst w)))) &&
        (x.flows xs).all (flowOk xs) &&
        x.preloads.all (fun p => (setRows xs 16).any (fun w => rowIs w p.cls x.ctx)) &&
        (x.typ ≠ 2 || sharesOk x.body)) xs,
      firstBad 0xA (fun x => (x.flows xs).all (fun f => f.links.all (linkOk xs fs))) xs ]

def step11 (xs : List Section) : Verdict :=
  let fs := setFlows xs
  firstBad 0xB (fun x => (x.flows xs).all (fun f => f.cls ≠ 0 || f.dest.isNone || decide (traversal xs fs f ≤ 2500))) xs

/-! ### Step 12: safety (R30, R301, R479) -/

/-- The value of a Q15 limit at a full scale (R279). -/
def q15At (n : Int) (exp : Int) : Dy := ⟨n, exp - 15⟩

/-- An enabled joint lies within its SAFETY_FLOOR entry. -/
def jointSafe (floor body : Bytes) (j : Nat) : Bool :=
  let c := jointCfg body j
  let e := (floor.drop (32 + 32 * j)).take 32
  let f (i : Nat) : Dy := dy32 (leAt e (4 + 4 * i) 4)
  let fin := (List.range 6).all (fun i => finite32 (leAt e (4 + 4 * i) 4))
  !c.enabled ||
    (bitN (leAt e 0 1) 0 && fin && !(q15At c.qMin c.pExp).lt (f 0) && (q15At c.qMax c.pExp).le (f 1) && (q15At c.qdMax c.vExp).le (f 2) &&
     (q15At c.qdReduced c.vExp).le (f 3) && (q15At c.tauMax c.tExp).le (f 4) && (q15At c.dtauMax c.tExp).le (f 5))

/-- A GOVERNOR body under a SAFETY_FLOOR generation, empty where the group is blank. -/
def safetyOk (floor b : Bytes) : Bool :=
  decide (guardUs b < leadUs b) && decide (leadUs b - guardUs b + launchNs b / 1000 ≤ 250) &&
  (List.range 64).all (fun j => jointSafe floor b j) && (floor = [] || decide (singleMs b ≤ leAt floor 2 2))

def step12 (floor : Bytes) (xs : List Section) : Verdict := firstBad 0xC (fun x => x.typ ≠ 7 || safetyOk floor x.body) xs

/-! ### Steps 7–13 together -/

/-- Steps 7–12 on a set. -/
def checkSet (mid : Nat) (floor : Bytes) (whole : Bool) (extra : List (Nat × Region)) (xs : List Section) : Verdict :=
  firstOf [step7 mid whole xs, step8 extra xs, step9 xs, step10 xs, step11 xs, step12 floor xs]

/-- Pages that a set's sections of a context take: working and preloaded (R511). -/
def setPages (xs : List Section) (c : Nat) : Nat := sumN (xs.map (fun x => if x.ctx = c then x.working + x.preloadPages else 0))

/-- The set that runs without the target mill of a FALLBACK section (R119). -/
def fallbackSet (xs : List Section) (x : Section) : List Section :=
  x.affected.foldl putSection (xs.filter (fun y => y.typ ≠ 9 && !((y.typ = 1 || y.typ = 0xA) && y.target = x.target)))

/-- Step 13 on a set. -/
def step13 (mid : Nat) (floor : Bytes) (xs : List Section) : Verdict :=
  if (millsOf xs).any (fun m => (setFind xs 9 m).isNone) then some (0xD, none)
  else firstBad 0xD (fun x => x.typ ≠ 9 ||
    (let ys := fallbackSet xs x
     (checkSet mid floor true [] ys).isNone && (List.range 64).all (fun c => decide (setPages ys c ≤ (quotaOf (setBody ys 4 c)).mp)))) xs

/-! ### Step 14: replacements (R128, R158, R211, R215, R226, R423) -/

/-- Two lists have the same members, each as often. -/
def sameMembers {α : Type} [DecidableEq α] (a b : List α) : Bool := a.isPerm b

/-- Producers of each hopper queue, as 256 × (queue + 1) + producers, and destination queues of the routes of a section. -/
def Section.joins (x : Section) : List Nat :=
  let b := x.body
  match x.typ with
  | 1 | 0xA => (List.range 8).map (fun q => 256 * (q + 1) + (hopperCfg x.millBody q).producers) ++ (routesOf x.millBody).map (·.dest)
  | 2 => (List.range (leatEntries b)).map (fun i => (leatEntry b i).dest) ++ (leatBindings b).filterMap (fun e => if e.kind = 0 then some e.dest else none)
  | 5 => [(bolterCfg b).queue]
  | 7 => (returnRoutes b).map (fun r => r.2.1)
  | _ => []

/-- Striped tensors of a section that another section shares: address, stripe_rows, buffers, stride (R158). -/
def Section.crossing (xs : List Section) (x : Section) : List (Nat × Nat × Nat × Nat) :=
  let ps (y : Section) : List ImgP := ((List.range 8).filter (stageStriped y.millBody)).map (imgOf y.millBody)
  let others := xs.filter (fun y => !samePlace x y)
  let ins := (ps x).filter (fun p => !(ps x).any (fun q => q.outAddr = p.inAddr))
  let outs := (ps x).filter (fun p => others.any (fun y => (ps y).any (fun q => q.inAddr = p.outAddr) ||
    (y.typ = 5 && (bolterCfg y.body).grid = p.outAddr)))
  ins.map (fun p => (p.inAddr, p.stripeRows, p.bufs, p.inStride)) ++ outs.map (fun p => (p.outAddr, p.stripeRows, p.bufs, p.outStride))

/-- Splits, caches and commit order of the attention stages of a section (R188): every parameter but a stage's scale and masks. -/
def Section.splits (x : Section) : List AttnP :=
  ((List.range 8).filterMap (bodyAttn x.millBody)).map (fun p => { p with scale := 0, masks := 0 })

/-- The pages that stream states cover on a mill stay working pages (R211). -/
def statePagesOk (xs : List Section) (x : Section) : Bool :=
  (x.typ ≠ 1 && x.typ ≠ 0xA) || xs.all (fun y => y.typ ≠ 8 ||
    (let c := streamCfg y.body
     c.layers.all (fun l => l.mill ≠ x.target || l.stride * c.count = 0 ||
       (List.range ((l.offset + l.stride * c.count - 1) / 65536 + 1 - l.offset / 65536)).all (fun i => pageKind x.millBody (l.offset / 65536 + i) = 2))))

/-- A STREAM body with its queue_depth blanked. -/
def depthBlank (b : Bytes) : Bytes := patch b 8 [0]

/-- Pages that a context holds outside regions (R226). -/
def State.coversHeld (s : State) (r : Region) : Bool :=
  s.tiers.runs.any (fun h => h.kind ≠ .region &&
    decide (h.first * 65536 + 0x10000000000 < r.addr + r.pages * 65536) &&
    decide (r.addr < (h.first + h.pages) * 65536 + 0x10000000000))

/-- A loaded stage names a firmware slot (R137). -/
def slotNamed (xs : List Section) (slot : Nat) : Bool :=
  xs.any (fun x => (List.range 8).any (fun i =>
    cfgValid (stageCfg x.millBody i) && Config.namesSlot (stageParams x.millBody i) slot))

/-- What a section of the type changes only under conditions of its own. -/
def State.typeOk (s : State) (xs : List Section) (old x : Section) : Verdict :=
  match x.typ with
  | 2 =>
    let motion (b : Bytes) : List Binding := (leatBindings b).filter (fun e => decide (12 ≤ e.lane))
    if sameMembers (motion old.body) (motion x.body) then none else some (0xF, some 0)
  | 4 =>
    let olds := (quotaOf old.body).regions
    let news := (quotaOf x.body).regions
    if (news.filter (fun r => !olds.contains r)).any s.coversHeld then some (8, some 0)
    else if (xs.filter (fun y => y.typ ≠ 4)).any (fun y => y.ranges.any (fun r => r.1 = x.target && !inRegions news r.2.1 r.2.2)) then some (0xF, some 0)
    else none
  | 8 =>
    let c := streamCfg old.body
    if depthBlank old.body = depthBlank x.body then none
    else if (List.range c.count).all (fun i => decide ((Tbl.getD s.streams (c.first + i) {}).state = .free)) then none
    else some (0xF, some 0)
  | 0xB => if slotNamed xs x.target then some (0xF, some 0) else none
  | _ => none

/-- Step 14 for the section of a replacement against the loaded millplan. -/
def State.step14 (s : State) (p : Plan) : Verdict :=
  match s.loader.loaded, p.sections with
  | some l, [x] =>
    if p.planId ≠ l.planId ∨ p.gen ≤ l.gen then some (0xE, some 0)
    else
      match l.sections.find? (samePlace x) with
      | none => some (0xF, some 0)
      | some old =>
        let granted (q : Nat) : Bool := l.sections.any (fun y => !samePlace x y && y.grants.any (fun e => e.pool = q))
        let outer (y : Section) : List (Nat × Nat) := (y.owns.filter (fun e => granted e.pool)).map (fun e => (e.pool, e.count))
        let gs (y : Section) : List (Nat × Nat) := y.grants.map (fun e => (e.pool, e.count))
        if !sameMembers (gs old) (gs x) || !sameMembers (outer old) (outer x) || !sameMembers old.joins x.joins ||
            !sameMembers (old.crossing l.sections) (x.crossing l.sections) || !sameMembers old.splits x.splits || !statePagesOk l.sections x then some (0xF, some 0)
        else s.typeOk l.sections old x
  | _, _ => some (0xE, some 0)

/-! ### All steps (R122) -/

/-- The place in the table of the replacement of a section of the whole set: its one section is number 0. -/
def replacedAt (v : Verdict) : Verdict := v.map (fun e => (e.1, some 0))

/-- The verdict on a copied image: none where it verifies. -/
def State.verify (s : State) (img : Bytes) : Verdict :=
  let mid := fld (s.reg Reg.pxModuleId) 9 0
  let floor := (s.otp 4).shadow
  let p := imagePlan img
  let xs := p.sections
  if !headerOk img mid then some (1, none)
  else if !keyOk s img then some (2, none)
  else if !signatureOk img then some (3, none)
  else
    let first := firstOf
      [ firstBad 4 (fun x => digestOf x.bytes = x.digest) xs, firstBad 5 vendorOk xs,
        if (List.range 16).all (fun u => decide (p.minFw ≤ s.runningBuild 1 u) || (s.sec.update.phase = .apply && s.fwSkips 1 u)) then none else some (6, none) ]
    if first.isSome then first
    else if p.replacement then
      let base := (s.loader.loaded.map (·.sections)).getD []
      let whole := s.loader.loaded.isSome
      let set := xs.foldl putSection base
      let extra := (xs.filter (fun x => x.typ = 4)).flatMap (fun x => (quotaOf (setBody base 4 x.target)).regions.map (fun r => (x.target, r)))
      firstOf [replacedAt (checkSet mid floor whole extra set), if whole then replacedAt (step13 mid floor set) else none, s.step14 p]
    else firstOf [checkSet mid floor true [] xs, step13 mid floor xs]

end Sys2Proof.Machine
end

