-- ==== Sys2Proof/Machine/Loader.lean ====
section
/-!
DEFINITION. The millplan loader (R110–R145, R511, R514): copy and verification, preloads, LOAD and UNLOAD, swap and reload, the
replacement of other sections, evacuation and RESTORE.
-/
namespace Sys2Proof.Machine

/-! ### Places of the staging buffer (R124, R219) -/

def stagingBase : Nat := hbmReserved
def loadedBase : Nat := hbmReserved + 33554432

/-- What runs when a sluice opens: RUN, or PAUSED while the fabric is paused (R109). -/
def State.opened (s : State) : MillState := if s.pw.fabricPaused then .paused else .run

/-! ### Copy and verification (R122–R124) -/

/-- An ignored command, or the effect of one on an idle loader (R138); MP_STATUS.busy stands at 1 while a management core reloads
(R486). -/
def State.ldStart (s : State) (k : State → State) : State := 
  if s.loader.state = .idle ∧ s.mgmtReload = false then k s.ldAccept else s.ldIgnore

/-- COPY_VERIFY (R124): a bad range ends it at once, and the state MANUFACTURE accepts no millplan (R482). -/
def execCopyVerify (s : State) : Out :=
  .next (s.ldStart (fun s =>
    let off := s.regN Reg.mpSrcOffset
    let len := s.regN Reg.mpSrcLength
    if s.lifecycle = 0 then s.ldFail 2 0 0x16 none 1 none s.ldPlan 0
    else if off % 4096 ≠ 0 ∨ len = 0 ∨ 33554432 < len ∨ 67108864 < off + len then s.ldFail 2 1 0 none 1 none s.ldPlan 0
    else
      let s := s.discardStaged
      { s with loader := { s.loader with state := .copying, srcOffset := off, srcLength := len } }))

/-- Parcels of the copy, which a firmware channel of the sack hoist moves, pass weir 16 on its row of the privileged owner's class S,
and freely where it has none (log entry 19). -/
def State.copyPass (s : State) : State :=
  let left := (s.loader.srcLength + 1023) / 1024 - s.loader.passed
  match s.rowFor 16 { dest := 0, cls := 3, ctx := 0, priv := true } with
  | none => { s with loader := { s.loader with passed := s.loader.passed + left } }
  | some r =>
    let k := min left (Tbl.getD s.leat.tokens (rowKey 16 r) 0 / 1024)
    let t := s.takeTokensOf 16 r k
    { t with loader := { t.loader with passed := t.loader.passed + k } }

/-- COPY_DONE (R124): every parcel has passed, and the bytes stand in the staging buffer. -/
def execCopyDone (s : State) : Out :=
  if s.loader.state ≠ .copying ∨ s.pw.fabricPaused = true then .next s
  else
    let s := s.copyPass
    if s.loader.passed * 1024 < s.loader.srcLength then .next s
    else
      let s := s.setLocal stagingBase (s.pondRead s.loader.srcOffset s.loader.srcLength)
      .next { s with loader := { s.loader with state := .verifying, passed := 0 } }

/-- The status of a verification cause (R122). -/
def causeStatus (cause : Nat) : Nat := if 2 ≤ cause ∧ cause ≤ 5 then 0x0D else 0

/-- Page i of a millpond is free in the layout of the section that runs (R131). -/
def Section.pageFree (x : Section) (i : Nat) : Bool := pageKind x.millBody i = 0

/-- A staged section is a reload: some preloaded page is in use (R131). -/
def isReload (old x : Section) : Bool :=
  x.preloads.any (fun p => (List.range p.pages).any (fun k => !old.pageFree (p.offset / 65536 + k)))

/-- VERIFY_DONE (R122, R123, R131, R514): the millplan is staged, or rejected with a cause. -/
def execVerifyDone (s : State) : Out :=
  if s.loader.state ≠ .verifying then .next s
  else
    let img := s.local stagingBase s.loader.srcLength
    let p := imagePlan img
    match s.verify img with
    | some v => .next (s.ldFail 2 v.1 (causeStatus v.1) v.2 1 none p 0)
    | none =>
      let x := if p.replacement then p.sections.head? else none
      let old := x.bind (fun x => (s.loader.loaded.map (·.sections)).getD [] |>.find? (samePlace x))
      let mill : Bool := match x with
        | some y => (y.typ = 1 || y.typ = 0xA) && y.preloads ≠ []
        | none => false
      let reload : Bool := mill && (match old, x with
        | some o, some y => isReload o y
        | _, _ => false)
      .next { s.ldDone with loader := { s.ldDone.loader with
        staged := some p, reload := reload, ready := p.replacement && (!mill || reload), charged := [], passed := 0
        preloadDone := 0, preloadTotal := ((x.map Section.preloadPages).getD 0) } }

/-! ### Pages and preloads (R117, R130, R224, R511) -/

def State.chargePond (s : State) (c n : Nat) : State := s.move (160 + c) .returned .held n
def State.releasePond (s : State) (c n : Nat) : State := s.move (160 + c) .held .returned n

/-- One preloaded page of mill m: the HBM page, or undefined bytes where a line of it is poisoned (R220). -/
def State.copyPage (s : State) (src dst : Nat) : State :=
  if s.poisonedIn src 65536 then
    (s.drew 65536).setLocal dst ((List.range 65536).map (fun i => BitVec.ofNat 8 (Config.freeWord (s.freeN + i))))
  else s.setLocal dst (s.local src 65536)

/-- A page of a preload list: where it comes from and goes, and what charges it at weir 16 and in the millpond (R117, R130). -/
structure PreloadPage where
  src : Nat
  dst : Nat
  cls : Nat
  ctx : Nat
  deriving DecidableEq, Repr

/-- The pages of a section's preload list, in its mill. -/
def Section.pageList (x : Section) : List PreloadPage :=
  x.preloads.flatMap (fun p => (List.range p.pages).map (fun k =>
    { src := p.hbm + k * 65536, dst := x.target * 0x4000000 + p.offset + k * 65536, cls := p.cls, ctx := x.ctx }))

/-- A page is charged as its preload starts (R130, R511). -/
def State.chargePage (s : State) (c : Nat) : State :=
  let n := min 1 (s.pool (160 + c)).returned
  let s := s.chargePond c n
  { s with loader := { s.loader with charged := Tbl.set s.loader.charged c (Tbl.getD s.loader.charged c 0 + n) } }

/-- Page k of the lists in progress goes on through weir 16 as far as its row has tokens (R102, R130): it is charged with its first
parcel, where an earlier start has not charged it, and stands in the millpond when its 64 parcels have passed. -/
def State.preloadPage (s : State) (k : Nat) (e : PreloadPage) : State :=
  let begun := s.loader.passed % 64
  let r := s.passWeir 16 e.cls e.ctx (64 - begun)
  if r.1 = 0 then s
  else
    let t := { r.2 with loader := { r.2.loader with passed := r.2.loader.passed + r.1 } }
    let t := if begun = 0 ∧ Tbl.getD t.loader.charged e.ctx 0 ≤ k then t.chargePage e.ctx else t
    if begun + r.1 = 64 then
      let t := t.copyPage e.src e.dst
      { t with loader := { t.loader with preloadDone := k + 1 } }
    else t

/-- Pages from number k on move in order, until one waits for a token. -/
def State.preloadRun (s : State) : Nat → List PreloadPage → State
  | _, [] => s
  | k, e :: es =>
    let t := s.preloadPage k e
    if t.loader.preloadDone = k + 1 then t.preloadRun (k + 1) es else t

/-- The preload lists of some sections go on. -/
def State.preloadOn (s : State) (xs : List Section) : State :=
  s.preloadRun s.loader.preloadDone ((xs.flatMap Section.pageList).drop s.loader.preloadDone)

/-- Preload lists of so many pages are about to run. -/
def State.preloadFrom (s : State) (n : Nat) : State :=
  { s with loader := { s.loader with preloadDone := 0, preloadTotal := n, passed := 0 } }

/-- The row of a firmware channel has no token for its next parcel. -/
def State.noToken (s : State) (p : Parcel) : Bool := match s.rowFor 16 p with
  | some r => !s.hasToken 16 r
  | none => false

/-- Every page has moved. -/
def State.preloaded (s : State) : Bool := s.loader.preloadDone = s.loader.preloadTotal

/-- Some page of a preload list cannot be read. -/
def State.preloadBad (s : State) (x : Section) : Bool := x.preloads.any (fun p => s.poisonedIn p.hbm (p.pages * 65536))

/-! ### Boundaries (R115, R125, R132, R133) -/

/-- The weir that names a section as a holder of credits (R94, R116). -/
def Section.holder (x : Section) : Nat :=
  match x.typ with
  | 2 => 19
  | 5 => 17 + x.target
  | 7 => 41
  | _ => x.target

/-- Pools whose credits are held by producers: hopper queues and governor queues. -/
def creditPool (p : Nat) : Bool := decide (p < 128) || within 448 463 p

/-- Credits of a key and those on their way to it are parked. -/
def State.parkKey (s : State) (p w : Nat) : State :=
  let key := creditKey p w
  let h := s.credits p w
  let f := Tbl.getD s.leat.returning key 0
  let s := { s with leat := { s.leat with
    credits := Tbl.erase s.leat.credits key
    returning := Tbl.erase s.leat.returning key
    parked := if h + f = 0 then s.leat.parked else Tbl.set s.leat.parked key (Tbl.getD s.leat.parked key 0 + h + f) } }
  (s.move p .held .parked h).move p .inFlight .parked f

/-- Every producer's credits of a pool are parked. -/
def State.parkPool (s : State) (p : Nat) : State := (List.range 42).foldl (fun s w => s.parkKey p w) s

/-- The boundary items of a section are parked (R132): its own pools wholly, of others' pools what it holds. -/
def State.parkSection (s : State) (x : Section) : State :=
  x.manifest.foldl (fun s e =>
    if e.kind = 1 then s.parkKey e.pool x.holder
    else if creditPool e.pool then s.parkPool e.pool
    else (s.move e.pool .held .parked (s.pool e.pool).held).move e.pool .returned .parked (s.pool e.pool).returned) s

/-- Parked items of a key go back to their holder: at once to the section itself, over the sideband to another (R133). -/
def State.unparkKey (s : State) (p w : Nat) (now : Bool) : State :=
  let key := creditKey p w
  let n := Tbl.getD s.leat.parked key 0
  if n = 0 then s
  else
    let s := { s with leat := { s.leat with parked := Tbl.erase s.leat.parked key } }
    if now then (s.setCredits p w (s.credits p w + n)).move p .parked .held n
    else { s with leat := { s.leat with returning := Tbl.set s.leat.returning key (Tbl.getD s.leat.returning key 0 + n) } }.move p .parked .inFlight n

/-- Every parked item of a section's boundaries is released to the holder it came from (R135). -/
def State.unparkSection (s : State) (x : Section) : State :=
  x.manifest.foldl (fun s e =>
    if e.kind = 1 then s.unparkKey e.pool x.holder true
    else if creditPool e.pool then (List.range 42).foldl (fun s w => s.unparkKey e.pool w (holderOf w = x.holder)) s
    else s.move e.pool .parked .held (s.pool e.pool).parked) s

/-- Parked items of a boundary of a section, as step 3 of R133 counts them. -/
def State.parkedOf (s : State) (x : Section) (e : Manifest) : Nat :=
  if e.kind = 1 then Tbl.getD s.leat.parked (creditKey e.pool x.holder) 0 else (s.pool e.pool).parked

/-- The first boundary whose parked count is not the section's. -/
def State.parkMismatch (s : State) (x : Section) : Option Nat :=
  (x.manifest.find? (fun e => s.parkedOf x e ≠ e.count)).map (·.pool)

/-- Items granted to a holder: returned → held. -/
def State.grantItems (s : State) (p w n : Nat) : State :=
  let k := min n (s.pool p).returned
  let s := s.move p .returned .held k
  if creditPool p then s.setCredits p w (s.credits p w + k) else s

/-- The sections in force: those of the loaded millplan with a fallback placement in their places. -/
def State.inForce (s : State) : List Section :=
  let base := (s.loader.loaded.map (·.sections)).getD []
  let base := match s.loader.placedFor with
    | some f => base.filter (fun x => !((x.typ = 1 || x.typ = 0xA) && x.target = f))
    | none => base
  s.loader.placed.foldl putSection base

/-- Steps 4 and 5 of a change of boundaries (R125, R126, R133, R141): what the old sections held goes to returned, pools take
their new sizes, the new sections are granted their counts, and other holders get back what was parked for them. -/
def State.regrant (s : State) (old new : List Section) : State :=
  let inside := (old ++ new).map Section.holder
  let pools := ((old ++ new).flatMap Section.manifest).foldl (fun l e => addN l e.pool) []
  let outside := s.inForce.filter (fun y => !(old ++ new).any (samePlace y))
  let s := pools.foldl (fun s p =>
    let faulty := s.poolFault p
    let s := if creditPool p then
        inside.foldl (fun s w =>
          let key := creditKey p w
          let n := Tbl.getD s.leat.parked key 0
          { s with leat := { s.leat with parked := Tbl.erase s.leat.parked key } }.move p .parked .returned n) s
      else s.move p .parked .returned (s.pool p).parked
    let s := s.releasePool p
    let s := match new.findSome? (fun x => x.own p) with
      | some e => s.sizePool p e.count
      | none =>
        if old.any (fun x => (x.own p).isSome) then
          ({ s with leat := { s.leat with parked := Tbl.drop s.leat.parked (fun k => k / 64 = p) } }.move p .parked .returned (s.pool p).parked).sizePool p 0
        else s
    if faulty then
      let s := { s with leat := { s.leat with credits := Tbl.drop s.leat.credits (fun k => k / 64 = p)
                                              returning := Tbl.drop s.leat.returning (fun k => k / 64 = p)
                                              parked := Tbl.drop s.leat.parked (fun k => k / 64 = p) } }
      outside.foldl (fun s y => (y.grants.filter (fun e => e.pool = p)).foldl (fun s e => s.grantItems p y.holder e.count) s) s
    else if creditPool p then (List.range 42).foldl (fun s w => s.unparkKey p w false) s
    else s) s
  new.foldl (fun s x => x.manifest.foldl (fun s e => s.grantItems e.pool x.holder (if e.kind = 0 then e.selfOpen else e.count)) s) s

/-! ### Writing sections (R113, R126, R133) -/

/-- A mill's section is written: its stages start again, and its generator is reseeded (R64). `fb` is the failed mill of the
FALLBACK section it comes from. -/
def State.writeMill (s : State) (x : Section) (fb : Option Nat) : State :=
  let m := x.target
  let o := s.mill m
  let k := s.free
  let s := k.2.setMill m
    { state := s.opened, sec := some x, fallbackFor := fb, coreRunning := o.coreRunning, heartbeat := o.heartbeat
      srDegraded := o.srDegraded, tested := o.tested }
  let s := { s with loader := { s.loader with stopped := remN s.loader.stopped m } }
  s.reseed m (k.1 % 2 = 0)

/-- The rows of a weir are written, every bucket full (R101). -/
def State.writeWeir (s : State) (x : Section) : State :=
  let w := x.target
  let rows := weirRows x.body
  let set (t : Tbl Nat) (f : Nat → Nat) : Tbl Nat :=
    (List.range rows.length).foldl (fun t i => Tbl.set t (rowKey w i) (f (nth rows i 0))) (Tbl.drop t (fun k => k / 64 = w))
  { s with leat := { s.leat with
      rows := set s.leat.rows id
      tokens := set s.leat.tokens (fun r => if rowValid r then 1024 * rowBurst r else 0)
      shut := remN s.leat.shut w } }

/-- The edge weirs whose ingress a LEAT section configures. -/
def edgeWeirs : List Nat := 16 :: (List.range 21).map (· + 19)

/-- Bindings of fabric lanes that a LEAT section changes or removes. -/
def State.changedBindings (s : State) (x : Section) : List Binding :=
  s.bindings.filter (fun e => decide (e.lane < 12) && !(leatBindings x.body).contains e)

/-- The edge ingress admits no new item; what the streams of changed bindings have admitted still passes (R137). -/
def State.closeEdge (s : State) (x : Section) : State :=
  { s with leat := { s.leat with closing := edgeWeirs.foldl addN s.leat.closing
                                 leaving := (s.changedBindings x).map (fun e => e.stream + 1) } }

/-- Admission resumes at the edge. -/
def State.openEdge (s : State) : State := { s with leat := { s.leat with closing := [], leaving := [] } }

/-- A LEAT section is written: its station shares (R104), and its bindings, by which frames in assembly of a changed stream are torn
(R137). -/
def State.writeLeat (s : State) (x : Section) : State :=
  let s := (s.changedBindings x).foldl (fun s e => s.tear e.stream) s
  let a := leAt x.body 0 4
  { s with
    leat := { s.leat with mFloor := fldN a 9 0, vFloor := fldN a 19 10, msCap := fldN (leAt x.body 4 4) 9 0 }
    sn := { s.sn with leat := x.body } }

/-- The largest class-M traversal of the sections in force (LT_M_BOUND_MAX). -/
def State.boundShown (s : State) : State :=
  let d := largestD s.inForce
  { s with leat := { s.leat with boundMax := d.1, boundWeir := d.2 } }

/-- Queued chunks of a stream return STALE_GEN, and so does a command that waits for a chunk boundary (R206; log entry 28). -/
def State.staleStream (s : State) (n ctx : Nat) (c : StreamCfg) : State :=
  let s := match (s.strm n).wait with
    | some w => s.finishAt w.ctx w.idx 0x05 (streamResult (s.strm n).gen 0)
    | none => s
  (s.setStrm n { s.strm n with wait := none, ending := false }).staleQueue n ctx c

/-- A stream is PAUSED with its next generation and zero state (R203, R212). -/
def State.renewStream (s : State) (n ctx : Nat) (c : StreamCfg) : State :=
  let g := nextGen (s.strm n).gen
  let s := s.staleStream n ctx c
  let s := s.setStrm n { s.strm n with state := .paused, gen := g, fresh := g, nextSeq := 0, stepsDone := 0, started := [] }
  s.zeroLayers n c g

/-- A STOPPED stream enters PAUSED once every section that runs its layers has been written again (R203). -/
def State.wakeStreams (s : State) : State :=
  (List.range 256).foldl (fun s n =>
    match s.streamSection n with
    | none => s
    | some c =>
      if (s.strm n).state = .stopped ∧
          c.2.layers.all (fun l => (s.mill l.mill).sec.isSome && !has (s.mill l.mill).stopped l.stage) = true then s.renewStream n c.1 c.2
      else s) s

/-- Started chunks of a stream are abandoned: their queue pages return and their requests complete with EVACUATED (R142, R212). -/
def State.dropStarted (s : State) (n ctx : Nat) (c : StreamCfg) : State :=
  let x := s.strm n
  let s := x.started.foldl (fun s k => match k.chunk.req with
    | some r => s.finishAt r.1 r.2 0x14 0
    | none => s) s
  let held := (x.started.filter (fun k => k.layer = 0)).length
  (s.setStrm n { s.strm n with started := [] }).queuePages ctx c held

/-- Sections of one type of a list. -/
def ofType (t : Nat) (xs : List Section) : List Section := xs.filter (fun x => x.typ = t)
def millSections (xs : List Section) : List Section := xs.filter (fun x => x.typ = 1 || x.typ = 0xA)

/-! ### LOAD (R126, R227, R511) -/

/-- Store pages that a context owns (R227). -/
def State.storeOwned (s : State) (c : Nat) : Nat := (s.tiers.map.filter (fun (e : Nat × MapEntry) => e.2.ctx = c && e.2.state ≠ StoreState.free)).length

/-- The quotas of the contexts fit (R227, R511). -/
def State.loadFits (s : State) (xs : List Section) : Bool :=
  (List.range 64).all (fun c =>
    let q := quotaOf (setBody xs 4 c)
    decide (setPages xs c ≤ q.mp) && decide (s.storeOwned c ≤ q.store))

/-- The static regions of a QUOTA section as runs of pages. -/
def regionRuns (c : Nat) (rs : List Region) : List HbmRun :=
  rs.map (fun r => { first := (r.addr - hbmBase) / 65536, pages := r.pages, ctx := c, kind := .region })

/-- Step 1: quota pools of a context; its store pages attach, its regions are charged. -/
def State.openQuota (s : State) (xs : List Section) (c : Nat) : State :=
  let q := quotaOf (setBody xs 4 c)
  let s := ((s.sizePool (160 + c) q.mp).sizePool (224 + c) q.hbm).sizePool (288 + c) q.store
  let s := s.move (288 + c) .returned .held (s.storeOwned c)
  let s := { s with tiers := { s.tiers with runs := s.tiers.runs ++ regionRuns c q.regions } }
  s.move (224 + c) .returned .held (sumN (q.regions.map (·.pages)))

/-- A GOVIF section is written: the queue starts empty. -/
def State.writeGovif (s : State) (x : Section) : State := s.setGq x.target { sec := some x }

/-- The GOVERNOR section of a LOAD: the first takes effect at once, a later one at the next cycle boundary (R137). -/
def State.writeGovernor (s : State) (x : Section) : State :=
  if s.gov.sec.isNone then s.takeGovernor x else { s with gov := { s.gov with nextSec := some x } }

/-- Step 1 of R126. -/
def State.loadOpen (s : State) (p : Plan) : State :=
  let s := (List.range 64).foldl (fun s c => s.openQuota p.sections c) s
  (ofType 3 p.sections).foldl (fun s x => s.writeWeir x) s

/-- Steps 3–6 of R126. -/
def State.loadPlan (s : State) (p : Plan) : State :=
  let xs := p.sections
  let s := { s with loader := { s.loader with
    loaded := some p, staged := none, ready := false, reload := false, placed := [], placedFor := none, stopped := [], charged := [] } }
  let s := (millSections xs).foldl (fun s x => (s.chargePond x.ctx x.working).writeMill x none) s
  let s := (ofType 2 xs).foldl (fun s x => s.writeLeat x) s
  let s := (ofType 5 xs).foldl (fun s x => s.setBolter x.target { sec := some x }) s
  let s := { s with gov := { s.gov with queues := [] } }
  let s := (ofType 6 xs).foldl (fun s x => s.writeGovif x) s
  let s := (ofType 7 xs).foldl (fun s x => s.writeGovernor x) s
  let s := (s.regrant [] xs).wakeStreams
  s.boundShown.setLocal loadedBase (s.local stagingBase s.loader.srcLength)

/-! ### UNLOAD (R127, R224, R227) -/

/-- A pool that nothing uses any more: every item to returned, size 0. -/
def State.emptyPool (s : State) (p : Nat) : State :=
  let s := s.releasePool p
  let x := s.pool p
  let s := ((s.move p .held .returned x.held).move p .inFlight .returned x.inFlight).move p .parked .returned x.parked
  s.resize p 0

/-- The streams of a millplan that goes: chunks return as at END (R205), and a STOPPED one stays so until its sections are written
again (R203; log entry 28). -/
def State.unloadStreams (s : State) : State :=
  (List.range 256).foldl (fun s n =>
    match s.streamSection n with
    | none => s
    | some c =>
      if (s.strm n).state = .free then s
      else
        let stopped : Bool := (s.strm n).state = .stopped
        let s := (s.dropStarted n c.1 c.2).staleStream n c.1 c.2
        s.setStrm n { state := if stopped then .stopped else .free, gen := (s.strm n).gen, ctx := c.1 }) s

/-- What a millplan left is gone: credits, sections, pages, streams and sequences; a stream keeps its generation (R203), a mill in
FAULT stays so. -/
def State.unloadPlan (s : State) : State :=
  let s := s.unloadStreams
  let s := (List.range 16).foldl (fun s m =>
    let x := s.mill m
    let k : Mill := { coreRunning := x.coreRunning, heartbeat := x.heartbeat, srDegraded := x.srDegraded, tested := x.tested }
    s.setMill m (if x.state = .fault then
      { k with state := .fault, ledgerStop := x.ledgerStop, watchdog := x.watchdog, uncorrectable := x.uncorrectable, faultPool := x.faultPool }
      else k)) s
  let s := (List.range 146).foldl (fun s p => s.emptyPool p) s
  let s := (List.range 16).foldl (fun s q => s.emptyPool (448 + q)) s
  let s := (List.range 192).foldl (fun s i => s.emptyPool (160 + i)) s
  { s with
    leat := { sCount := s.leat.sCount, bufs := s.leat.bufs.map (fun (e : Nat × List Parcel) => (e.1, e.2.filter (fun p => (destPool p.dest).isNone)))
              arrived := s.leat.arrived.filter (fun (e : Nat × List Parcel) => (destPool e.1).isNone) }
    sn := { s.sn with leat := [] }
    ops := {}
    bolters := []
    tiers := { s.tiers with runs := [] }
    gov := { s.gov with queues := s.gov.queues.map (fun (e : Nat × GovQueue) => (e.1, { e.2 with slots := [], closed := false })) }
    loader := { s.loader with loaded := none, placed := [], placedFor := none, stopped := [], charged := [] } }

/-- A step of a LOAD failed (R126, R138): what it has written is unloaded, and the staged millplan goes with it (log entry 19). -/
def State.loadFail (s : State) (sec : Option Nat) : State :=
  let p := s.ldPlan
  let s := s.unloadPlan
  { s with loader := { s.loader with staged := none, ready := false, reload := false, passed := 0 } }.ldFail 3 0x11 0 sec 2 (some 0) p 0

/-- Steps 3–6 once every preload list has run: a page that cannot be read, or a mill in FAULT, fails the LOAD. -/
def State.loadStep (s : State) : State :=
  match s.loader.staged with
  | none => s
  | some x =>
    if s.preloaded = false then s
    else if x.sections.any s.preloadBad ∨ (List.range 16).any (fun m => (s.mill m).state = .fault) = true then
      s.loadFail (x.sections.findIdx? s.preloadBad)
    else
      let s := (s.loadPlan x).ldDone
      { s with loader := { s.loader with loads := (s.loader.loads + 1) % 2 ^ 32 } }

/-- LOAD (R126, R474, R482): the quotas and weir rows, and the preload lists that follow; the other steps when these have run. -/
def execLoad (s : State) : Out :=
  .next (s.ldStart (fun s =>
    let p := s.ldPlan
    if s.lifecycle ≠ 1 then s.ldFail 2 0 0x16 none 2 (some 0) p 0
    else match s.loader.staged with
    | none => s.ldFail 2 0 0 none 2 (some 0) p 0
    | some x =>
      if x.replacement ∨ s.loader.loaded.isSome ∨ (List.range 16).any (fun m => decide ((s.mill m).state ≠ .empty)) = true then
        s.ldFail 2 0 0 none 2 (some 0) p 0
      else if !s.loadFits x.sections then s.ldFail 2 0x10 0 none 2 (some 0) p 0
      else
        let s := (s.loadOpen x).preloadFrom (sumN ((millSections x.sections).map Section.preloadPages))
        { s with loader := { s.loader with state := .loading, step := 2, mill := 0, started := s.now } }.loadStep))

/-! ### Sluices and drains (R132) -/

/-- A sluice closes (R132): a mill in RUN goes to CLOSED, and producers in no item send their credits for it back. -/
def State.closeMill (s : State) (m : Nat) : State :=
  let x := s.mill m
  if x.state = .run then
    (List.range 8).foldl (fun s q => s.recallPool (8 * m + q)) (s.setMill m { x with state := .closed, drained := false })
  else s

/-- Parcels in routers and at their destinations. -/
def State.inLeat (s : State) : List Parcel := s.leat.bufs.flatMap (fun e => e.2) ++ s.leat.arrived.flatMap (fun e => e.2)

/-- Parcels that stand at a consumer: hopper slots, slots being read, slots of governor queues. -/
def State.inSlots (s : State) (p : Nat) : List Parcel :=
  if p < 128 then Tbl.getD (s.mill (p / 8)).hopper (p % 8) [] ++ Tbl.getD (s.mill (p / 8)).reading (p % 8) []
  else (s.gq (p - 448)).slots

/-- No work of a mill is left (R132): its hopper, tailrace and loopback are empty, no item or stripe (R153) is in progress, no producer
is in the midst of an item to it, no parcel or credit of its boundaries is on the way, and no tier request is out. -/
def State.millQuiet (s : State) (m : Nat) : Bool :=
  let x := s.mill m
  let goes (d p : Nat) : Bool := destPool d = some p
  let xs := (x.sec.map Section.manifest).getD []
  x.spent && (List.range 8).all (fun q => Tbl.getD x.reading q [] = []) && (List.range 8).all (fun i => !(s.stripe (8 * m + i)).active) &&
  s.tiers.reqs.all (fun r => r.mill ≠ m) &&
  xs.all (fun e => !creditPool e.pool ||
    (if e.kind = 0 then
      s.inLeat.all (fun c => !goes c.dest e.pool) && (List.range 42).all (fun w => !s.emitting w e.pool) &&
      (List.range 42).all (fun w => Tbl.getD s.leat.returning (creditKey e.pool w) 0 = 0) &&
      s.mills.all (fun (y : Nat × Mill) => y.2.tail.all (fun t => !t.credited || t.dests.all (fun d => !goes d.1 e.pool)))
     else s.inLeat.all (fun c => !(goes c.dest e.pool && c.weir = m)) && (s.inSlots e.pool).all (fun c => c.weir ≠ m) &&
      Tbl.getD s.leat.returning (creditKey e.pool m) 0 = 0))

/-- Mills whose drain is awaited. -/
def State.draining (s : State) : List Nat := (List.range 16).filter (fun m => (s.mill m).state = .closed && !(s.mill m).drained)

/-- A mill is drained: the items of its boundaries are parked and ML_STATE.drained is set. -/
def State.drainMill (s : State) (m : Nat) : State :=
  let s := match (s.mill m).sec with
    | some x => s.parkSection x
    | none => s
  s.setMill m { s.mill m with drained := true }

/-- The sluice reopens with the section unchanged (R135). -/
def State.reopen (s : State) (m : Nat) : State :=
  let s := match (s.mill m).sec with
    | some x => s.unparkSection x
    | none => s
  s.setMill m { s.mill m with state := s.opened, drained := false }

/-- µs since the command in progress started. -/
def State.ldUs (s : State) : Nat := (s.now - s.loader.started) / 1000

/-- MP_LAST_SWAP and MP_LOAD_COUNT at the end of a swap (0), reload (1), evacuation (2) or restore (3). -/
def State.ldTimed (s : State) (kind : Nat) : State :=
  { s with loader := { s.loader with lastUs := min s.ldUs 0xFFFFF, lastKind := kind, loads := (s.loader.loads + 1) % 2 ^ 32 } }

/-- The loader works on. -/
def State.ldRun (s : State) (st : LoaderState) (step m : Nat) : State :=
  { s with loader := { s.loader with state := st, step := step, mill := m, started := s.now } }

/-! ### Swap and reload (R131–R136, R511) -/

/-- Pages a mill's section holds of its context: working and preloaded (R224). -/
def Section.pondPages (x : Section) : Nat := x.working + x.preloadPages

/-- Working pages of a mill that stream states cover: no replacement releases them (R211). -/
def State.statePages (s : State) (m : Nat) : Nat :=
  (((s.inForce.filter (fun y => y.typ = 8)).flatMap (fun y =>
    let c := streamCfg y.body
    c.layers.flatMap (fun l => if l.mill ≠ m ∨ l.stride * c.count = 0 then [] else
      (List.range ((l.offset + l.stride * c.count - 1) / 65536 + 1 - l.offset / 65536)).map (fun i => l.offset / 65536 + i)))).foldl addN []).length

/-- The loaded millplan with one section replaced (R129). -/
def Plan.replace (l p : Plan) (x : Section) : Plan := { l with gen := p.gen, sections := l.sections.map (fun y => if samePlace x y then x else y) }

/-- The replacement is in force: the loaded millplan takes it and its generation, and nothing is staged. -/
def State.adopted (s : State) (x : Section) : State :=
  { s with loader := { s.loader with
      loaded := s.loader.loaded.map (fun l => l.replace s.ldPlan x)
      placed := s.loader.placed.filter (fun y => !samePlace x y)
      staged := none, ready := false, reload := false, charged := [], passed := 0 } }

/-- Frame count and stripe of the lowest-numbered striped stage of a section (R158). -/
def State.stripeAt (s : State) (x : Section) : Bytes :=
  match (List.range 8).find? (stageStriped x.millBody) with
  | some i => let p := s.stripe (8 * x.target + i); le 4 p.frame ++ le 2 p.stripe
  | none => le 4 0xFFFFFFFF ++ le 2 0xFFFF

/-- The record of a completed replacement. -/
def State.replacedRec (s : State) (x : Section) (kind : Nat) (stripe : Bytes) : State :=
  s.record 1 0x41 0 0xFF x.target (le 1 x.typ ++ le 1 kind ++ le 2 0 ++ le 4 (s.ldUs % 2 ^ 32) ++
    le 4 ((s.loader.loaded.map (·.gen)).getD 0) ++ stripe)

/-- Steps 4 and 5 of R133 for the staged section of mill m. -/
def State.swapFinish (s : State) (x : Section) : State :=
  let m := x.target
  let kind := b2n s.loader.reload
  let old := (s.mill m).sec
  let stripe := s.stripeAt x
  let keep := s.statePages m
  let s := match old with
    | some o => if s.loader.reload then s else s.releasePond o.ctx (o.pondPages - keep)
    | none => s
  let s := (s.chargePond x.ctx (x.working - keep)).adopted x
  let s := s.writeMill x none
  let s := s.regrant (old.toList) [x]
  let s := s.wakeStreams.boundShown
  ((s.ldTimed kind).replacedRec x kind stripe).ldDone

/-- An abort before step 4 (R135, R138): the sluice reopens and the staged section stays. -/
def State.swapAbort (s : State) (cause m : Nat) : State :=
  let op := s.loader.state.op
  let s := if (s.mill m).state = .closed then s.reopen m else s
  s.ldFail 3 cause 0 (some 0) op (some m) s.ldPlan 0

/-- Pages of a staged section still to be charged, and pages the old one gives back to the same context (R511). -/
def State.swapFits (s : State) (x : Section) : Bool :=
  let keep := s.statePages x.target
  let more := x.working - keep + (if s.loader.reload then x.preloadPages else 0)
  let back := match (s.mill x.target).sec with
    | some o => if o.ctx = x.ctx then o.pondPages - keep else 0
    | none => 0
  decide (more ≤ (s.pool (160 + x.ctx)).returned + back)

/-- What stops where the replacement of a section asks for it (R137). -/
def State.replaceStart (s : State) (x : Section) : State :=
  match x.typ with
  | 2 => s.closeEdge x
  | 3 => { s with leat := { s.leat with shut := addN s.leat.shut x.target } }
  | 6 => (s.setGq x.target { s.gq x.target with closed := true }).recallPool (448 + x.target)
  | _ => s

/-- SWAP of a READY staged replacement (R133, R136, R137, R474, R482, R514). -/
def State.swapStart (s : State) : State :=
  let p := s.ldPlan
  let fail (s : State) (cause status : Nat) (src : Nat) : State := s.ldFail 2 cause status (some 0) 4 (some src) p 0
  match s.stagedSection with
  | none => fail s (if s.lifecycle ≠ 1 then 0 else 0x17) (if s.lifecycle ≠ 1 then 0x16 else 0) 0
  | some x =>
    let mill : Bool := x.typ = 1 || x.typ = 0xA
    if s.lifecycle ≠ 1 then fail s 0 0x16 x.target
    else if !s.loader.ready ∨ (mill = true ∧ (s.mill x.target).state ≠ .run) then fail s 0x17 0 x.target
    else if mill then
      if !s.swapFits x then fail s 0x10 0 x.target
      else (s.ldRun .swapping 1 x.target).closeMill x.target
    else (s.ldRun .swapping 1 x.target).replaceStart x

/-- SWAP. -/
def execSwap (s : State) : Out := .next (s.ldStart State.swapStart)

/-- PRELOAD (R130, R514): the pages that an earlier start has not charged fit the pool. -/
def execPreload (s : State) : Out :=
  .next (s.ldStart (fun s =>
    let p := s.ldPlan
    match s.stagedSection with
    | none => s.ldFail 2 0x17 0 (some 0) 3 (some 0) p 0
    | some x =>
      let mill : Bool := x.typ = 1 || x.typ = 0xA
      if mill = true ∧ (s.mill x.target).state ≠ .run then s.ldFail 2 0x17 0 (some 0) 3 (some x.target) p 0
      else if s.loader.ready then s.ldDone
      else
        let n := x.preloadPages - Tbl.getD s.loader.charged x.ctx 0
        if (s.pool (160 + x.ctx)).returned < n then s.ldFail 2 0x10 0 (some 0) 3 (some x.target) p 0
        else (s.ldRun .preloading 0 x.target).preloadFrom x.preloadPages))

/-! ### Evacuation and restore (R138–R145, R159, R189, R212) -/

/-- The FALLBACK section of a mill in the loaded millplan. -/
def State.fallback (s : State) (f : Nat) : Option Section := s.loader.loaded.bind (fun p => p.find 9 f)

/-- The sections that the command in progress writes: the affected set of an evacuation, or the primary sections of a
restore. -/
def State.targets (s : State) : List Section :=
  let f := s.loader.mill
  let fb := ((s.fallback f).map Section.affected).getD []
  let base := (s.loader.loaded.map (·.sections)).getD []
  if s.loader.state = .restoring then
    fb.filterMap (fun x => base.find? (samePlace x)) ++ base.filter (fun x => (x.typ = 1 || x.typ = 0xA) && x.target = f)
  else fb

/-- The mills of the affected set. -/
def State.affectedMills (s : State) : List Nat := millsOf (((s.fallback s.loader.mill).map Section.affected).getD [])

/-- Items that stand in a mill, by context and item number. -/
def Mill.itemKeys (x : Mill) : List (Nat × Nat) :=
  let ps := x.hopper.flatMap (fun e => e.2) ++ x.reading.flatMap (fun e => e.2) ++ x.loop ++ x.tail.map (·.parcel)
  (ps.map (fun p => (p.ctx, p.seq))).eraseDups

/-- The items of a mill are abandoned: the host requests they belong to complete with EVACUATED (R142), and what its stages read or
wait for ends (R189). -/
def State.abandon (s : State) (m : Nat) : State :=
  let items := (s.mill m).itemKeys
  let s := items.foldl (fun s e => match s.request e.1 e.2 with
    | some r => if r.begun && r.target = 5 then s.finish r 0x14 0 0 else s
    | none => s) s
  let s := s.endMillReads m
  { s with loader := { s.loader with abandoned := s.loader.abandoned + items.length
                                     lostItems := (items.map (·.2)).foldl addN s.loader.lostItems
                                     lostMills := addN s.loader.lostMills m } }

/-- A stream that loses a layer: started chunks are abandoned and counted, and it takes a new generation (R142, R212). -/
def State.loseStream (s : State) (n ctx : Nat) (c : StreamCfg) : State :=
  let k := (s.strm n).started.length
  let s := (s.dropStarted n ctx c).renewStream n ctx c
  let s := { s with loader := { s.loader with abandoned := s.loader.abandoned + k } }
  s.record 7 1 0x14 ctx n (le 4 (s.strm n).gen ++ le 1 ctx)

/-- Streams with a layer on some mills lose it. -/
def State.loseStreams (s : State) (ms : List Nat) : State :=
  (List.range 256).foldl (fun s n => match s.streamSection n with
    | some c => if (s.strm n).state ≠ .free ∧ c.2.layers.any (fun l => has ms l.mill) = true then s.loseStream n c.1 c.2 else s
    | none => s) s

/-- An interrupted frame of a striped stage: every row counts as written, those that were not are marked; the stage starts
again at stripe 0 of the next frame (R159). -/
def State.cutFrames (s : State) (xs : List Section) : State :=
  xs.foldl (fun s x =>
    ((List.range 8).filter (stageStriped x.millBody)).foldl (fun s i =>
      let n := 8 * x.target + i
      let p := imgOf x.millBody i
      let st := s.stripe n
      if st.stripe = 0 ∧ st.active = false ∧ st.frameOpen = false then s
      else
        let a := p.outBuf st.frame
        let b := s.frameBuf a
        let h := (p.outTensor 0 0).h
        let s := s.setFrameBuf a { b with rows := h, uncertFrom := if b.rows < h then some b.rows else b.uncertFrom }
        s.setStripe n { frame := st.frame + 1 }) s) s

/-- A striped stage that another mill runs from now on goes on with the next frame of its tensors (R159). -/
def State.moveFrames (s : State) (old new : List Section) : State :=
  let at' (xs : List Section) : List (Node × Nat × Nat) := xs.flatMap (fun x =>
    ((List.range 8).filter (stageStriped x.millBody)).map (fun i =>
      let p := imgOf x.millBody i
      (8 * x.target + i, p.inAddr, p.outAddr)))
  let was := (at' old).map (fun e => (e.2, (s.stripe e.1).frame))
  (at' new).foldl (fun s e => match was.find? (fun w => w.1 = e.2) with
    | some w => s.setStripe e.1 { frame := w.2 }
    | none => s) s

/-- A mill of a command in progress that did not drain is reset, and its items are abandoned (R127, R141 step 3). -/
def State.forceDrain (s : State) (m : Nat) : State :=
  let x := (s.mill m).sec
  let s := (s.abandon m).resetMill m .closed
  let s := match x with
    | some y => (s.setMill m { s.mill m with sec := some y }).parkSection y
    | none => s
  s.setMill m { s.mill m with drained := true }

/-- Pages that the reset of a mill reclaimed return, at most n of context c, with their record (R40, R225). -/
def State.reclaimedPond (s : State) (c n : Nat) : State :=
  let r := min n (s.pool (160 + c)).reclaimed
  if r = 0 then s else (s.move (160 + c) .reclaimed .returned r).record 2 2 0 0xFF (160 + c) (le 4 r)

/-- Pages of a mill's old section return, those that its reset reclaimed first (R141 step 4). -/
def State.freePond (s : State) (c n : Nat) : State :=
  let r := min n (s.pool (160 + c)).reclaimed
  (s.reclaimedPond c n).move (160 + c) .held .returned (n - r)

/-- The pages that a mill lost in a reset return as its next section is written (R225). -/
def State.lostPond (s : State) (x : Section) : State :=
  if (s.mill x.target).sec.isSome then s
  else match s.inForce.find? (samePlace x) with
    | some o => s.reclaimedPond o.ctx o.pondPages
    | none => s

/-- The pages of new sections that their preloads have not charged (R511). -/
def State.chargeRest (s : State) (news : List Section) : State :=
  let s := (List.range 64).foldl (fun s c =>
    s.chargePond c (sumN (news.map (fun x => if x.ctx = c then x.pondPages else 0)) - Tbl.getD s.loader.charged c 0)) s
  { s with loader := { s.loader with charged := [] } }

/-- Parcels addressed to a mill that is gone are reconciled (R141 step 1). -/
def State.purgeTo (s : State) (f : Nat) : State :=
  let gone := s.inLeat.filter (fun p => p.dest % 32 = f)
  let keep (l : List Parcel) : List Parcel := l.filter (fun p => p.dest % 32 ≠ f)
  let s := { s with leat := { s.leat with
    bufs := s.leat.bufs.map (fun (e : Nat × List Parcel) => (e.1, keep e.2))
    arrived := s.leat.arrived.map (fun (e : Nat × List Parcel) => (e.1, keep e.2)) } }
  gone.foldl (fun s p => match destPool p.dest with
    | some q => s.reclaim q .inFlight 1 1 (16 + f) 0
    | none => s) s

/-- Steps 4 and 5 of R141, for an evacuation or a restore. -/
def State.evacFinish (s : State) : State :=
  let f := s.loader.mill
  let restore : Bool := s.loader.state = .restoring
  let lost (m : Nat) : Bool := has s.loader.stopped m && (s.mill m).state = .empty && !(s.mill m).tested
  let new := s.targets.filter (fun x => !((x.typ = 1 || x.typ = 0xA) && lost x.target))
  let news := millSections new
  let aff := s.affectedMills
  let ms := if restore then addN aff f else aff
  let old := ms.filterMap (fun m => (s.mill m).sec) ++ (ofType 2 new ++ ofType 3 new).filterMap (fun x => s.inForce.find? (samePlace x))
  let mine := (s.loader.loaded.bind (fun p => (millSections p.sections).find? (fun x => x.target = f))).toList
  let s := (s.cutFrames (millSections old ++ (if restore then [] else mine))).purgeTo f
  let s := s.moveFrames (millSections old ++ mine) news
  let s := if restore then s else (List.range 8).foldl (fun s q => s.parkPool (8 * f + q)) s
  let s := (ofType 2 old).foldl (fun s x => s.parkSection x) s
  let s := (millSections old ++ (if restore then [] else mine)).foldl (fun s x => s.freePond x.ctx x.pondPages) s
  let s := (news.foldl State.lostPond s).chargeRest news
  let s := { s with loader := { s.loader with
    placed := if restore then s.loader.placed.filter (fun x => !new.any (samePlace x) && !(millsOf [x]).any (has ms)) else new
    placedFor := if restore then (if s.loader.placedFor = some f then none else s.loader.placedFor) else some f } }
  let gone := ms.filter (fun m => !(millsOf news).contains m)
  let s := gone.foldl (fun s m => s.setMill m { coreRunning := (s.mill m).coreRunning, heartbeat := (s.mill m).heartbeat, tested := (s.mill m).tested }) s
  let s := news.foldl (fun s x => s.writeMill x (if restore then none else some f)) s
  let s := (ofType 3 new).foldl (fun s x => s.writeWeir x) s
  let s := (ofType 2 new).foldl (fun s x => s.writeLeat x) s
  let s := s.regrant (old ++ (if restore then [] else mine)) new
  let s := (s.wakeStreams.loseStreams s.loader.lostMills).discardMerges s.loader.lostItems
  let s := s.openEdge
  let mask := maskOf aff
  let us := s.ldUs % 2 ^ 32
  let s := s.boundShown.ldTimed (if restore then 3 else 2)
  if restore then (s.record 1 0x43 0 0xFF f (le 2 mask ++ le 2 0 ++ le 4 us)).ldDone
  else
    let s := s.setMill f { s.mill f with state := .evacuated }
    let s := s.record 1 0x42 0x14 0xFF f (le 2 mask ++ le 2 0 ++ le 4 s.loader.abandoned ++ le 4 us)
    ({ s with loader := { s.loader with abandoned := 0 } }.raise Reg.mpEvents 8).ldDone

/-- Every item that the edge ingress has begun to admit has landed (R137). -/
def State.edgeQuiet (s : State) : Bool :=
  s.inLeat.all (fun p => !has edgeWeirs p.weir) &&
  edgeWeirs.all (fun w => (s.waiting w).all (fun p => p.off = 0 || (s.waiting w).any (fun q => q.off = 0 && q.dest = p.dest && q.seq = p.seq))) &&
  s.tiers.chans.all (fun (e : Nat × Chan) => !e.2.busy || e.2.passed = 0 || e.2.passed = e.2.unit / 1024)

/-- Step 3 is over: no drain is awaited, and a paused edge ingress is quiet. -/
def State.evacReady (s : State) : Bool := s.draining.isEmpty && (s.leat.closing = [] || s.edgeQuiet)

/-- Step 3: the sluices of the affected mills close at one edge, and the edge ingress pauses where the set holds a LEAT section. -/
def State.evacClose (s : State) : State :=
  let s := s.affectedMills.foldl (fun s m => s.closeMill m) s
  let s := (ofType 2 s.targets).foldl (fun s x => s.closeEdge x) s
  let s := { s with loader := { s.loader with step := 3 } }
  if s.evacReady then s.evacFinish else s

/-- Step 2: the preload lists of the sections to be written; step 3 follows when nothing is to be preloaded and the fabric runs. -/
def State.evacPreload (s : State) : State :=
  let n := sumN ((millSections s.targets).map Section.preloadPages)
  let s := s.preloadFrom n
  let s := { s with loader := { s.loader with step := 2, charged := [] } }
  if n = 0 ∧ s.pw.fabricPaused = false then s.evacClose else s

/-- An evacuation of mill f starts (R141 step 1). -/
def State.evacStart (s : State) (f : Nat) : State :=
  let s := { s with loader := { s.loader with abandoned := 0, lostItems := [], lostMills := [], queued := none } }
  let s := (s.abandon f).resetMill f .fault
  (s.ldRun .evacuating 1 f).evacPreload

/-- A second mill fails while a fallback placement runs, or during an evacuation (R144): its pipelines stop, it is reset, and a
record says so. A command that ends with it ends with NO_SPARE. -/
def State.noSpare (s : State) (f : Nat) (ends : Bool) : State :=
  let nodes := s.stagesOf f
  let stopped := (s.pipelines nodes).foldl (fun l n => addN l (n / 8)) [f]
  let items := (s.mill f).itemKeys.map (·.2)
  let s := ((((s.stopPipelines nodes).abandon f).discardMerges items).resetMill f .empty).releaseMills
  let s := { s with loader := { s.loader with stopped := stopped.foldl addN s.loader.stopped } }
  let s := s.raise Reg.mpEvents 16
  let p := s.loader.loaded.getD {}
  if ends then s.ldFail 2 0x16 0 (some 0) 7 (some f) p (maskOf stopped)
  else
    { s with loader := { s.loader with cause := 0x16 } }.record 1 0x16 0 0xFF f (le 8 p.planId ++ le 4 p.gen ++ le 1 7 ++ zeros 3 ++ le 2 (maskOf stopped))

/-- The end of UNLOAD once every mill has drained (R127). -/
def State.unloadStep (s : State) : State :=
  if s.draining.isEmpty && (List.range 16).all (fun m => decide ((s.mill m).state ≠ .paused)) then
    let failed := (List.range 16).filter (fun m => decide ((s.mill m).state = .fault))
    (failed.foldl (fun s m => (s.endMillReads m).resetMill m .empty) s).unloadPlan.ldDone
  else s

/-- A command whose drain has no mill left to wait for goes on (R127, R141). -/
def State.drainsOver (s : State) : State :=
  match s.loader.state with
  | .evacuating | .restoring => if s.loader.step = 3 && s.evacReady then s.evacFinish else s
  | .unloading => s.unloadStep
  | _ => s

/-- An evacuation of mill f is called for, by the host or by auto_evacuate (R138, R144). -/
def State.evacAsk (s : State) (f : Nat) (host : Bool) : State :=
  let spare : Bool := s.loader.placedFor.isNone
  match s.loader.state with
  | .idle =>
    if spare then s.ldAccept.evacStart f else s.ldAccept.noSpare f true
  | .copying | .verifying =>
    let s := s.ldFail 3 0x14 0 (some 0) 1 none s.ldPlan 0
    if spare then s.evacStart f else s.noSpare f true
  | .preloading =>
    let hit : Bool := match s.stagedSection with
      | some x => ((s.fallback f).map Section.affected).getD [] |>.any (samePlace x)
      | none => false
    let s := s.ldFail 3 0x14 0 (some 0) 3 (some s.loader.mill) s.ldPlan 0
    let s := if hit then s.discardStaged else s
    if spare then s.evacStart f else s.noSpare f true
  | .swapping =>
    if 4 ≤ s.loader.step then { s with loader := { s.loader with queued := some f } }
    else
      let x := s.stagedSection
      let hit : Bool := match x with
        | some x => ((s.fallback f).map Section.affected).getD [] |>.any (samePlace x)
        | none => false
      let mill : Bool := match x with
        | some x => x.typ = 1 || x.typ = 0xA
        | none => false
      let s := if mill then s.swapAbort 0x14 s.loader.mill
        else
          let s := s.openEdge
          let s := { s with leat := { s.leat with shut := [] }
                            gov := { s.gov with queues := s.gov.queues.map (fun (e : Nat × GovQueue) => (e.1, { e.2 with closed := false })) } }
          s.ldFail 3 0x14 0 (some 0) 4 (some s.loader.mill) s.ldPlan 0
      let s := if hit then s.discardStaged else s
      if spare then s.evacStart f else s.noSpare f true
  | .loading => s.loadFail none
  | .unloading => if host then s.ldIgnore else s.unloadStep
  | .evacuating =>
    if s.loader.mill = f then (if host then s.ldIgnore else s)
    else
      let s := s.noSpare f false
      if s.loader.step = 3 && s.evacReady then s.evacFinish else s
  | .restoring =>
    if has s.affectedMills f then
      let r := s.loader.mill
      let s := s.affectedMills.foldl (fun s m => if (s.mill m).state = .closed then s.reopen m else s) s
      let s := s.openEdge.uncharge
      (s.noSpare f false).ldFail 3 0x15 0 (some 0) 8 (some r) s.ldPlan 0
    else s.noSpare f false

/-- EVACUATE (R138, R141, R514). -/
def execEvacuate (m : Nat) (s : State) : Out :=
  if 16 ≤ m then .next s
  else if (s.mill m).state ≠ .fault then
    .next (s.ldStart (fun s => s.ldFail 2 0x17 0 (some 0) 7 (some m) s.ldPlan 0))
  else .next (s.evacAsk m true)

/-- AUTO_EVACUATE (R138, R141): a mill in FAULT with auto_evacuate set; UNLOAD resets it itself. -/
def execAutoEvacuate (m : Nat) (s : State) : Out :=
  if 16 ≤ m ∨ (s.mill m).state ≠ .fault ∨ fld (s.reg Reg.mpCtrl) 0 0 = 0 ∨
      (s.loader.state = .evacuating ∧ s.loader.mill = m) ∨ s.loader.queued = some m then .next s
  else .next (s.evacAsk m false)

/-- RESTORE (R145): of a mill that is EVACUATED, or EMPTY after a reset, and has passed MILL_TEST since its fault. -/
def execRestore (m : Nat) (s : State) : Out :=
  .next (s.ldStart (fun s =>
    let x := s.mill m
    let had : Bool := ((s.loader.loaded.map (·.sections)).getD []).any (fun y => (y.typ = 1 || y.typ = 0xA) && y.target = m)
    if 16 ≤ m ∨ had = false ∨ (s.fallback m).isNone = true ∨ (x.state ≠ .evacuated ∧ x.state ≠ .empty) ∨ x.tested = false then
      s.ldFail 2 0x0F 0 (some 0) 8 (some m) s.ldPlan 0
    else (s.ldRun .restoring 1 m).evacPreload))

/-! ### The events of a command in progress -/

/-- The sections whose preload lists the command in progress runs. -/
def State.preloading (s : State) : List Section :=
  match s.loader.state with
  | .preloading => s.stagedSection.toList
  | .swapping => if s.loader.reload && s.loader.step = 4 then s.stagedSection.toList else []
  | .loading => millSections ((s.loader.staged.map (·.sections)).getD [])
  | .evacuating | .restoring => if s.loader.step = 2 then millSections s.targets else []
  | _ => []

/-- The firmware channels at work for the loader, as MT_CH_0 and MT_CH_1 show them: the copy of an image and a preload (R124, R130,
R228). -/
def State.fwChan (s : State) (n : Nat) : Option Chan :=
  let l := s.loader
  if n = 0 ∧ l.state = .copying then
    some { busy := true, firmware := true, cls := 3, total := (l.srcLength + 65535) / 65536, next := l.passed / 64
           waiting := s.noToken { dest := 0, cls := 3, ctx := 0, priv := true } }
  else if n = 1 then
    (match (s.preloading.flatMap Section.pageList)[l.preloadDone]? with
     | some e => some { busy := true, firmware := true, cls := e.cls, total := l.preloadTotal, next := l.preloadDone
                        waiting := s.noToken { dest := 0, cls := e.cls, ctx := e.ctx } }
     | none => none)
  else none

/-- A queued EVACUATE starts once the sluice has reopened (R138). -/
def State.takeQueued (s : State) : State :=
  match s.loader.queued with
  | some f =>
    let s := { s with loader := { s.loader with queued := none } }
    if s.loader.state = .idle ∧ (s.mill f).state = .fault then s.evacAsk f true else s
  | none => s

/-- PRELOAD_DONE (R126, R130, R136, R141, R514): the preload lists of the command in progress go on as far as weir 16 has tokens, and
the command goes on when they have run. -/
def execPreloadDone (s : State) : Out :=
  if s.pw.fabricPaused then .next s
  else
    match s.loader.state with
    | .preloading =>
      (match s.stagedSection with
       | none => .next s
       | some x =>
        let t := s.ldPlan
        let s := s.preloadOn [x]
        if s.preloaded = false then .next s
        else
        let s := s.ldDone
        let s := { s with loader := { s.loader with ready := decide (t.replacement = true) } }
        .next (if fld (s.reg Reg.mpCtrl) 1 1 = 1 then s.ldAccept.swapStart else s))
    | .swapping =>
      (match s.stagedSection with
       | some x =>
        if s.loader.reload ∧ s.loader.step = 4 then
          let s := s.preloadOn [x]
          .next (if s.preloaded then (s.swapFinish x).takeQueued else s)
        else .next s
       | none => .next s)
    | .evacuating | .restoring =>
      if s.loader.step = 2 then
        let s := s.preloadOn (millSections s.targets)
        .next (if s.preloaded then s.evacClose else s)
      else .next s
    | .loading =>
      (match s.loader.staged with
       | some p => .next (s.preloadOn (millSections p.sections)).loadStep
       | none => .next s)
    | _ => .next s

/-- UNLOAD (R127): every sluice closes; staged pages go too. -/
def execUnload (s : State) : Out :=
  .next (s.ldStart (fun s =>
    if s.loader.loaded.isNone then s.ldDone
    else
      let s := s.discardStaged.ldRun .unloading 1 0
      ((List.range 16).foldl (fun s m => s.closeMill m) s).unloadStep))

/-- DISCARD (R126, R224). -/
def execDiscard (s : State) : Out := .next (s.ldStart (fun s => s.discardStaged.ldDone))

/-- DRAIN_COMPLETE of mill m (R132, R133, R136, R141, R486): the next step of the command, or of the firmware update, that closed its
sluice. -/
def execDrainComplete (m : Nat) (s : State) : Out :=
  if 16 ≤ m ∨ s.pw.fabricPaused = true then .next s
  else if (s.mill m).state ≠ .closed ∨ (s.mill m).drained = true then .next s.drainsOver
  else if s.millQuiet m = false then .next s
  else
    match s.loader.state with
    | .swapping =>
      (match s.stagedSection, (s.mill m).sec with
       | some x, some o =>
        if s.loader.step ≠ 1 ∨ x.target ≠ m then .next (if s.fwMill m then s.drainMill m else s)
        else
          let s := s.drainMill m
          (match s.parkMismatch o with
           | some p => .next ((s.swapAbort 0x13 m).ledgerFault p)
           | none =>
            if s.loader.reload then
              let n := o.pondPages - s.statePages m
              let s := (s.releasePond o.ctx n).preloadFrom x.preloadPages
              let s := s.setMill m { s.mill m with freed := n }
              .next { s with loader := { s.loader with step := 4, charged := [] } }
            else .next (s.swapFinish x).takeQueued)
       | _, _ => .next s)
    | .evacuating | .restoring | .unloading => .next (s.drainMill m).drainsOver
    | _ => .next (if s.fwMill m then s.drainMill m else s)

/-- DRAIN_TIMEOUT of mill m (R127, R135, R141): drain_bound_us has elapsed. -/
def execDrainTimeout (m : Nat) (s : State) : Out :=
  if 16 ≤ m ∨ s.pw.fabricPaused = true then .next s
  else if (s.mill m).state ≠ .closed ∨ (s.mill m).drained = true then .next s.drainsOver
  else
    match s.loader.state with
    | .swapping => if s.loader.step = 1 ∧ s.loader.mill = m then .next (s.swapAbort 0x12 m) else .next s
    | .evacuating | .restoring | .unloading => .next (s.forceDrain m).drainsOver
    | _ => .next s

/-- What the loader does when the domain of mill m is reset behind a closed sluice (R441): the target of a replacement counts
as failed (R140), and a drain that waited for it is over. -/
def State.resetBehindSluice (s : State) (m : Nat) : State :=
  let s := s.endMillReads m
  if s.loader.state = .swapping ∧ s.replaces m = true then (s.setMill m { s.mill m with state := .fault }).targetFault m
  else if s.pw.fabricPaused then s
  else s.drainsOver

/-! ### Sections other than MILL and TILE_FUSED (R137) -/

/-- A LEAT replacement is written and admission resumes (R137). -/
def State.applyLeat (s : State) (x : Section) : State := ((s.writeLeat x).adopted x).openEdge

/-- What the edge ingress has begun to admit has landed, and every frame that a changed binding has admitted is delivered. -/
def State.leatReady (s : State) (x : Section) : Bool :=
  s.edgeQuiet && (s.changedBindings x).all (fun e => (s.stream e.stream).slots = [])

/-- A QUOTA replacement (R137, R226): sizes through returned counts, regions added and removed. -/
def State.applyQuota (s : State) (x : Section) : State :=
  let c := x.target
  let o := s.quota c
  let q := quotaOf x.body
  let adds := q.regions.filter (fun r => !o.regions.contains r)
  let cuts := o.regions.filter (fun r => !q.regions.contains r)
  let s := s.move (224 + c) .held .returned (sumN (cuts.map (·.pages)))
  let s := ((s.sizePool (160 + c) q.mp).sizePool (224 + c) q.hbm).sizePool (288 + c) q.store
  let s := s.move (224 + c) .returned .held (sumN (adds.map (·.pages)))
  let keep := s.tiers.runs.filter (fun r => !(r.kind = .region && r.ctx = c && (regionRuns c cuts).contains r))
  ({ s with tiers := { s.tiers with runs := keep ++ regionRuns c adds } }).adopted x

/-- The cause that stops a QUOTA replacement at its point of change, 0 for none. -/
def State.quotaCause (s : State) (x : Section) : Nat :=
  let c := x.target
  let o := s.quota c
  let q := quotaOf x.body
  let adds := q.regions.filter (fun r => !o.regions.contains r)
  let cuts := o.regions.filter (fun r => !q.regions.contains r)
  let short (p size back more : Nat) : Bool := decide ((s.pool p).size + more > size + (s.pool p).returned + back)
  if adds.any s.coversHeld then 8
  else if short (160 + c) q.mp 0 0 ∨ short (224 + c) q.hbm (sumN (cuts.map (·.pages))) (sumN (adds.map (·.pages))) = true ∨
      short (288 + c) q.store 0 0 = true then 0x10
  else 0

/-- A BOLTER replacement (R137, R266): another pitch, grid or set of spheres discards the pyramids and the plan; the tokens of a
build that is discarded return, and its frame is released. -/
def State.applyBolter (s : State) (x : Section) : State :=
  let b := x.target
  let y := s.bolter b
  let old := y.cfg
  let new := bolterCfg x.body
  let oldSets := ((y.sec.map Section.body).getD []).drop 0x40
  let lost : Bool := old.pitch ≠ new.pitch || old.grid ≠ new.grid || old.stride ≠ new.stride || old.bufs ≠ new.bufs ||
    old.outsideFree ≠ new.outsideFree || oldSets ≠ x.body.drop 0x40
  let s := if lost then s.move (144 + b) .inFlight .returned (s.pool (144 + b)).inFlight else s
  let s := s.parkSection (y.sec.getD x)
  let s := (s.adopted x).regrant (y.sec.toList) [x]
  let done := match y.building with
    | some p => p.epoch + 1
    | none => y.frame
  let y := { y with sec := some x, stopped := false }
  if lost then
    (s.setBolter b { y with building := none, pendingPyr := none, heldFrame := none, active := none, gridLost := true, plan := none, blocked := false, frame := done }).record
      8 2 0 0xFF b (le 1 2)
  else s.setBolter b y

/-- SECTION_REPLACE_APPLY (R137): the staged section takes effect at its point of change. -/
def execSectionReplaceApply (s : State) : Out :=
  if s.loader.state ≠ .swapping ∨ s.pw.fabricPaused = true then .next s
  else
    match s.stagedSection with
    | none => .next s
    | some x =>
      let fin (t : State) : Out := .next (((t.boundShown.replacedRec x 0 (le 4 0xFFFFFFFF ++ le 2 0xFFFF)).ldDone).takeQueued)
      let fail (cause : Nat) : Out := .next (s.ldFail (if cause = 0x0F then 2 else 3) cause 0 (some 0) 4 (some x.target) s.ldPlan 0)
      match x.typ with
      | 2 => if s.leatReady x then fin (s.applyLeat x) else .next s
      | 3 => fin ((s.adopted x).writeWeir x)
      | 4 => if s.quotaCause x ≠ 0 then fail (s.quotaCause x) else fin (s.applyQuota x)
      | 5 => if (s.bolter x.target).cur.isNone && (s.bolter x.target).result.isNone then fin (s.applyBolter x) else .next s
      | 6 =>
        let p := 448 + x.target
        if (s.gq x.target).slots = [] ∧ s.inLeat.all (fun c => destPool c.dest ≠ some p) = true ∧
            (List.range 42).all (fun w => !s.emitting w p) = true then
          let old := (s.gq x.target).sec
          let s' := (s.parkPool p).adopted x
          fin ((s'.setGq x.target { s'.gq x.target with sec := some x, closed := false }).regrant old.toList [x])
        else .next s
      | 7 => fin ((s.adopted x).writeGovernor x)
      | 8 =>
        let c := streamCfg (s.body 8 x.target)
        let free := (List.range c.count).all (fun i => decide ((s.strm (c.first + i)).state = .free))
        if free || depthBlank (s.body 8 x.target) = depthBlank x.body then fin (s.adopted x).wakeStreams else fail 0x0F
      | 9 => fin (s.adopted x)
      | 0xB => if slotNamed s.inForce x.target then fail 0x0F else fin (s.adopted x)
      | _ => .next s

end Sys2Proof.Machine
end

