-- ==== Sys2Proof/Machine/Supply.lean ====
section
/-!
DEFINITION. Supply, hold-up, power cap, temperature, clocks, crossings, reset requests and bring-up (R433–R455, R505).
-/
namespace Sys2Proof.Machine

/-! ### Shared by the supply events -/

/-- A voltage above the absolute maximum of R495 stops the model; any other is taken as the input. -/
def State.volts (s : State) (v : Nat) (k : State → State) : Out :=
  if 8000 < v then .fault .ratingExceeded
  else
    let low := fld (s.reg Reg.pwSupplyMin) 15 0
    let s := if s.pw.motionOn ∧ v < low then s.setReg Reg.pwSupplyMin (word v) else s
    .next (k { s with pw := { s.pw with inputV := v, dipMin := min s.pw.dipMin v } })

/-- The figures of channel 61, events 1–5 (R466). -/
def supplyDetail (lowest below used left : Nat) : Bytes := le 2 lowest ++ le 2 (min below 0xFFFF) ++ le 2 used ++ le 2 left

/-- FABRIC_PAUSE (R109, R445): mills in RUN stop at credit boundaries. -/
def State.pauseFabric (s : State) : State :=
  { s with
    mills := s.mills.map (fun (e : Nat × Mill) => (e.1, if e.2.state = MillState.run then { e.2 with state := MillState.paused } else e.2))
    pw := { s.pw with fabricPaused := true, pausedAt := if s.pw.fabricPaused then s.pw.pausedAt else s.now } }

/-- Time in PAUSED counts toward no late limit (R236). -/
def State.skipPause (s : State) : State :=
  let d := s.now - s.pw.pausedAt
  { s with tiers := { s.tiers with
    reqs := s.tiers.reqs.map (fun r => { r with start := r.start + d })
    chans := s.tiers.chans.map (fun (e : Nat × Chan) => (e.1, { e.2 with start := e.2.start + d })) } }

/-- The fabric resumes at one edge (R445): held frames of Phirov are handled, held pages of the sack hoist begin, and an UNLOAD that runs closes the sluices. -/
def State.resumeFabric (s : State) : State :=
  let held := (List.range 16).filter (fun m => (s.mill m).state = .paused)
  let s := if s.pw.fabricPaused then s.skipPause else s
  let s := { s with
    mills := s.mills.map (fun (e : Nat × Mill) => (e.1, if e.2.state = MillState.paused then { e.2 with state := MillState.run } else e.2))
    pw := { s.pw with fabricPaused := false } }
  let s := if s.loader.state = .unloading then held.foldl (fun s m => s.closeMill m) s else s
  let s := held.foldl (fun s m => if s.fwMill m then s.closeMill m else s) s
  let s := (List.range 32).foldl (fun s n =>
    if (s.chan n).held then (s.setChan n { s.chan n with held := false }).pageBegins n else s) s
  s.pxDrainAll

/-- The BRAKE cause of the brake wheel (R289). -/
def State.supplyCause (s : State) (on : Bool) : State := s.setWheel { s.gov.wheel with supply := on }

/-- The ordered shutdown starts (R447): STO with cause supply_reset, fabric rails off. -/
def State.startShutdown (s : State) : State :=
  let s := s.setWheel { s.gov.wheel with sto := addN s.gov.wheel.sto 0, everReset := true }
  let s := { s with
    ledger := {}
    hp := { state := .off }
    gov := { s.gov with stoFrames := 0, stoActive := 0 }
    pw := { s.pw with supply := .shutdown, fabricOn := false, fabricPaused := false }
    ck := { s.ck with fabricLock := false, hbmLock := [], held := [],
                      service := s.ck.service.filter (fun c => c < 4 || c = 6 || (36 ≤ c && c < 42)) }
    mem := { s.mem with sram := s.mem.sram.lose } }
  s.fwLost.fabricClear

/-! ### Supply (R443–R450) -/

/-- SUPPLY_WARNING (R444, R445); the reset has qualified already where hold-up energy below its reserve feeds the motion
domain (R443, R446). -/
def execSupplyWarning (v : Nat) (s : State) : Out :=
  s.volts v (fun s =>
    if s.pw.motionOn = false ∨ s.pw.supply ≠ .normal ∨ 3300 ≤ v then s
    else
      let s := { s with pw := { s.pw with supply := .dip, dipMin := v, dipHoldup := s.pw.holdup } }
      let s := (s.raise Reg.pwEvents 1).bump Reg.pwDipCount 1
      let s := (s.supplyCause true).pauseFabric
      if s.pw.onHoldup ∧ s.pw.holdupLow then s.startShutdown else s)

/-- SUPPLY_RISE (R444). -/
def execSupplyRise (v : Nat) (s : State) : Out :=
  s.volts v (fun s =>
    if s.pw.supply = .dip ∧ 3500 ≤ v then { s with pw := { s.pw with supply := .recovering } } else s)

/-- SUPPLY_FALL (R444). -/
def execSupplyFall (v : Nat) (s : State) : Out :=
  s.volts v (fun s =>
    if s.pw.supply = .recovering ∧ v < 3500 then { s with pw := { s.pw with supply := .dip } } else s)

/-- RECOVERY_QUALIFIED (R445, R448): NORMAL again, the fabric resumes, and the dip is recorded and logged. -/
def execRecoveryQualified (v lowest below left : Nat) (s : State) : Out :=
  s.volts v (fun s =>
    if s.pw.supply ≠ .recovering ∨ v < 3500 then s
    else
      let m := min s.pw.dipMin lowest
      let used := s.pw.dipHoldup - left
      let s := { s with pw := { s.pw with supply := .normal, holdup := left, lastDipMin := m
                                          lastDipBelow := min below 0xFFFF, dipMin := 0xFFFF } }
      let s := s.raise Reg.pwEvents 2
      let s := s.record 61 1 0 0xFF 0 (supplyDetail m below used left)
      let e : LogEntry := { event := 1, minV := m, below := min below 0xFFFF, used := used, left := left }
      ((s.logSupply e).supplyCause false).resumeFabric)

/-- The reset qualifies (R443, R444, R447). -/
def State.qualifyReset (s : State) : State :=
  if s.pw.motionOn ∧ (s.pw.supply = .dip ∨ s.pw.supply = .recovering) then s.startShutdown else s

/-- HOLDUP_TAKEOVER (R446): with the energy below its reserve the reset qualifies at once. -/
def execHoldupTakeover (v : Nat) (s : State) : Out :=
  s.volts v (fun s =>
    if s.pw.motionOn = false ∨ 2800 ≤ v then s
    else
      let s := { s with pw := { s.pw with onHoldup := true } }
      if s.pw.holdupLow then s.qualifyReset else s)

/-- HOLDUP_END (R446). -/
def execHoldupEnd (v left : Nat) (s : State) : Out :=
  s.volts v (fun s =>
    if s.pw.onHoldup ∧ 2800 ≤ v then { s with pw := { s.pw with onHoldup := false, holdup := left } } else s)

/-- HOLDUP_LOW_CHANGE (R446): below the reserve while the input is below 28.0 V, the reset qualifies. -/
def execHoldupLowChange (left : Nat) (s : State) : Out :=
  if s.pw.motionOn = false then .next s
  else
    let low := decide (left < 450)
    let was := s.pw.holdupLow
    let s := { s with pw := { s.pw with holdup := left, holdupLow := low } }
    let s := if low ∧ was = false then s.raise Reg.pwEvents 16 else s
    .next (if low ∧ s.pw.onHoldup then s.qualifyReset else s)

/-- SUPPLY_RESET (R443, R447): the input below 28.0 V for 1.5 ms. -/
def execSupplyReset (v : Nat) (s : State) : Out := s.volts v (fun s => if v < 2800 then s.qualifyReset else s)

/-- SHUTDOWN_STO_DONE (R447, R448, R469). -/
def execShutdownStoDone (lowest below left : Nat) (s : State) : Out :=
  if s.pw.supply ≠ .shutdown ∨ s.pw.motionOn = false ∨ s.stoDone = false then .next s
  else
    let m := min s.pw.dipMin lowest
    let e : LogEntry := { event := 2, minV := m, below := min below 0xFFFF, used := s.pw.dipHoldup - left, left := left }
    let s := (s.logSupply e)
    let s := { s with ev := { s.ev with opSaved := s.ev.opSeconds } }
    let s := s.powerOff
    .next { s with pw := { s.pw with wasShutdown := true, wasClockFailure := false } }

/-- START_QUALIFIED (R443, R453, R469): not while the motion die is hot (R505). -/
def execStartQualified (v : Nat) (cold : Bool) (s : State) : Out :=
  s.volts v (fun s =>
    if s.pw.motionOn ∨ v < 3600 ∨ s.pw.motionHot then s
    else
      let s := { s with
        ev := { s.ev with powerCycles := s.ev.powerCycles + 1 }
        pw := { s.pw with
          motionOn := true, cold := cold, clockFailed := false, refAbsent := false } }
      s.enterStage 1)

/-- OVER_VOLTAGE_NOTICE (R449). -/
def execOverVoltageNotice (v : Nat) (s : State) : Out :=
  s.volts v (fun s =>
    if s.pw.motionOn = false ∨ v ≤ 6200 then s
    else (s.raise Reg.pwEvents 4).record 61 3 0 0xFF 0 (supplyDetail v 0 0 s.pw.holdup))

/-! ### Power cap and temperature (R451, R452, R505) -/

/-- The FIELD power cap is in force. -/
def State.capField (s : State) : Bool := bitN (s.regN Reg.pwCap) 0

/-- The throttle level k: the higher of the two levels (R452, R505). -/
def State.throttle (s : State) : Nat := max s.pw.capLevel s.pw.thermLevel

/-- THROTTLE_UPDATE (R452, R505): both levels move by one step. -/
def execThrottleUpdate (p : Nat) (fabric motion face : Int) (s : State) : Out :=
  if s.pw.motionOn = false then .next s
  else
    let above := s.capField && decide (1800 < p)
    let unmet := above && s.pw.capLevel = 15
    let cap := if s.capField then (if above then min 15 (s.pw.capLevel + 1) else if p < 1800 then s.pw.capLevel - 1 else s.pw.capLevel)
      else 0
    let therm := if s.pw.thermal = .normal then s.pw.thermLevel - 1 else min 15 (s.pw.thermLevel + 1)
    let was := s.pw.capUnmet
    let s := { s with pw := { s.pw with inputP := p, capLevel := cap, thermLevel := therm, capUnmet := unmet
                                        fabricT := fabric, motionT := motion, faceT := face } }
    if unmet ∧ was = false then
      .next ((s.raise Reg.pwEvents 8).record 61 4 0 0xFF 0 (supplyDetail s.pw.inputV 0 0 s.pw.holdup))
    else .next s

/-- PW_CAP (R451): under FULL no cap throttles. -/
def execPwCap (v : Nat) (s : State) : Out :=
  let s := s.setReg Reg.pwCap (word (v % 2))
  if v % 2 = 0 then .next { s with pw := { s.pw with capLevel := 0, capUnmet := false } } else .next s

/-- The record of an entry into a row of R505. -/
def State.thermalRecord (s : State) (t : Int) (row : Nat) : State :=
  s.record 61 6 0 0xFF 0 (le 2 (twos 16 t) ++ le 1 row)

/-- THERMAL_THROTTLE (R505). -/
def execThermalThrottle (t : Int) (s : State) : Out :=
  if s.pw.motionOn = false ∨ s.pw.thermal ≠ .normal ∨ t < 1000 then .next s
  else
    let s := { s with pw := { s.pw with thermal := .throttling, fabricT := t } }
    .next ((s.raise Reg.pwThermalEvents 1).thermalRecord t 1)

/-- THERMAL_FABRIC_RESET (R505). -/
def execThermalFabricReset (t : Int) (s : State) : Out :=
  if s.pw.motionOn = false ∨ s.pw.thermal = .fabricHeld ∨ t < 1100 then .next s
  else
    let s := { s with pw := { s.pw with thermal := .fabricHeld, fabricT := t } }
    .next (((s.raise Reg.pwThermalEvents 2).thermalRecord t 2).resetFabric)

/-- THERMAL_SHUTDOWN (R505): the shutdown of R447. -/
def execThermalShutdown (t : Int) (s : State) : Out :=
  if s.pw.motionOn = false ∨ s.pw.supply = .shutdown ∨ t < 1150 then .next s
  else
    let s := { s with pw := { s.pw with motionHot := true, motionT := t, dipMin := s.pw.inputV, dipHoldup := s.pw.holdup } }
    .next ((s.thermalRecord t 3).startShutdown)

/-- THERMAL_RELEASE (R505): the fabric group itself comes up with DOMAIN_RELEASE. -/
def execThermalRelease (motion : Bool) (t : Int) (s : State) : Out :=
  if motion then
    if t < 950 then .next { s with pw := { s.pw with motionHot := false, motionT := t } } else .next s
  else if (s.pw.thermal = .throttling ∧ t < 950) ∨ (s.pw.thermal = .fabricHeld ∧ t < 900) then
    .next { s with pw := { s.pw with thermal := .normal, fabricT := t } }
  else .next s

/-! ### Clocks and crossings (R433–R437) -/

/-- The record of a PLL check failure. -/
def State.pllRecord (s : State) (source unit : Nat) : State := s.record 15 2 0 0xFF source (le 1 unit)

/-- The SerDes PLL or the crossing of a timing port fails: its domain is reset, or a ring port's PCS restarts (R434,
R437). -/
def State.portFails (s : State) (t : Nat) : State :=
  if t < 8 then s.resetDomain (32 + t) else if t < 24 then s.resetDomain (40 + t) else s.linkDown t

/-- CLOCK_CHECK_FAIL (R434). -/
def execClockCheckFail (clock unit : Nat) (s : State) : Out :=
  if s.pw.motionOn = false then .next s
  else match clock with
    | 0 => .next (s.clockFailure s.pw.refAbsent)
    | 1 =>
      let s := (s.raise Reg.ckEvents 1).pllRecord 1 0
      .next ({ s with ck := { s.ck with fabricLock := false } }.resetFabric)
    | 2 =>
      if unit < 6 then
        let s := (s.raise Reg.ckEvents 2).pllRecord 2 unit
        .next ({ s with ck := { s.ck with hbmLock := remN s.ck.hbmLock unit } }.resetFabric)
      else .next s
    | 3 =>
      if unit < 26 then
        let s := (s.raise Reg.ckEvents 4).pllRecord 3 unit
        .next ({ s with ck := { s.ck with serdesBad := addN s.ck.serdesBad unit } }.portFails unit)
      else .next s
    | _ => .next s

/-- REFERENCE_ABSENT (R434). -/
def execReferenceAbsent (s : State) : Out := .next (s.clockFailure true)

/-- CLOCK_RESTART_ATTEMPT (R434): from stage MOTION_POWER; without the reference every attempt stops there. -/
def execClockRestartAttempt (present : Bool) (s : State) : Out :=
  if s.pw.clockFailed ∧ (s.pw.motionOn = false ∨ s.pw.refAbsent) ∧ s.pw.motionHot = false then
    let s := { s with pw := { s.pw with motionOn := true, refAbsent := !present, clockFailed := !present } }
    .next (s.enterStage 1)
  else .next s

/-- The domains on the two sides of a crossing, as far as R438 has one. -/
def crossingDomains (c : Nat) : List Nat :=
  if c < 3 then [c + 1]
  else if c = 4 ∨ c = 5 then [4]
  else if c = 7 then [8]
  else if c = 8 then [4, 6]
  else if c = 9 then [4, 7]
  else if 16 ≤ c ∧ c < 24 then [c + 16]
  else if 24 ≤ c ∧ c < 40 then [c + 24]
  else []

/-- The check of a crossing is suspended (R437, R441). -/
def State.cdcSuspended (s : State) (c : Nat) : Bool :=
  (crossingDomains c).any (fun d => has s.ck.held d) || (c = 7 && s.hp.lowPower)

/-- The action of R437. -/
def State.cdcAction (s : State) (c side : Nat) : State :=
  if c < 3 then s.isolate c 6 0 0 0 0
  else if c = 3 ∨ c = 6 then s.clockFailure s.pw.refAbsent
  else if c = 4 then (if side = 0 then s.clockFailure s.pw.refAbsent else s.resetFabric)
  else if c = 5 ∨ c = 8 then s.resetFabric
  else if c = 7 then
    let s := s.resetDomain 8
    { s with hp := { s.hp with fsps := s.hp.fsps.map (fun (e : Nat × Fsp) => (e.1, { e.2 with trained := 0 })) } }
  else if c = 9 then s.resetDomain 7
  else s.portFails (c - 16)

/-- CDC_TIMEOUT (R437). -/
def execCdcTimeout (crossing side : Nat) (s : State) : Out :=
  let known := crossing < 10 || (16 ≤ crossing && crossing < 42)
  if s.pw.motionOn = false ∨ known = false ∨ s.cdcSuspended crossing = true then .next s
  else
    let s := (s.bump Reg.ckCdcTimeouts 1).raise Reg.ckEvents 8
    let s := { s with ck := { s.ck with cdcLast := match s.ck.cdcLast with
                                                  | some x => some x
                                                  | none => some (crossing, side) } }
    let s := s.record 15 1 0x10 0xFF crossing (le 1 side)
    .next (s.cdcAction crossing side)

/-! ### Reset requests (R438–R442) -/

/-- DOMAIN_RESET (R440, R441). -/
def execDomainReset (d : Nat) (s : State) : Out :=
  if s.pw.motionOn = false then .next s
  else if 16 ≤ d ∧ d < 32 ∧ has s.ck.held d = false then .next ((s.resetDomain d).resetBehindSluice (d - 16))
  else .next (s.resetDomain d)

/-- FABRIC_GROUP_RESET (R439). -/
def execFabricGroupReset (s : State) : Out := if s.pw.fabricOn then .next s.resetFabric else .next s

/-- DOMAIN_RELEASE (R440). -/
def execDomainRelease (d : Nat) (s : State) : Out := .next (s.releaseDomain d)

/-- What R442 accepts. -/
def State.acceptsReset (s : State) (d : Nat) : Bool :=
  d = 127 || (16 ≤ d && d < 32 && ((s.mill (d - 16)).state = .empty || (s.mill (d - 16)).state = .evacuated)) ||
  (32 ≤ d && d < 40) || (48 ≤ d && d < 60) || (60 ≤ d && d < 64 && s.gov.wheel.state = .standby)

/-- PW_RESET_CMD (R442): a port left down under R463 may come up again. -/
def execPwResetCmd (v : Nat) (s : State) : Out :=
  let d := v % 128
  if s.pw.resetBusy then .next s
  else if s.acceptsReset d then
    let t := if 32 ≤ d ∧ d < 40 then d - 32 else if 48 ≤ d ∧ d < 64 then d - 40 else 26
    let s := { s with
      pw := { s.pw with resetBusy := true, resetResult := 0, resetDomain := d }
      ev := { s.ev with portDown := remN s.ev.portDown t, retrainFails := Tbl.erase s.ev.retrainFails t } }
    .next (if d = 127 then s.resetFabric else s.resetDomain d)
  else .next { s with pw := { s.pw with resetResult := 2, resetDomain := d } }

/-! ### Bring-up (R453–R455) -/

/-- Stage OTP of one group (R478): the highest committed generation whose check passes. -/
def State.otpLoad (s : State) (g : Nat) : State :=
  let x := s.otp g
  let ok := x.gens.filter (fun (e : Nat × OtpGen) => e.2.marker && e.2.crcOk)
  let cur := maxL (ok.map (·.1)) 0
  let bad := (x.gens.filter (fun (e : Nat × OtpGen) => e.2.marker && !e.2.crcOk && decide (cur < e.1))).map (·.1)
  let data := match Tbl.find x.gens cur with
    | some y => y.data
    | none => []
  let s := s.setOtp g { x with current := cur, shadow := data, pending := false, checkFail := bad ≠ [] }
  bad.foldl (fun s n => (s.raise Reg.scEvents 16).record 17 2 0 0xFF g (le 1 n)) s

/-- Stage ROM of one firmware class (R487): an image that fails is refused, with its record. -/
def State.romCheck (s : State) (bad k : Nat) : State :=
  let c := s.fwClass k
  let s := { s with sec := { s.sec with classes := Tbl.set s.sec.classes k { c with valid := !bitN bad k } } }
  if bitN bad k then s.record 16 5 0x0D 0xFF k (le 2 c.build ++ le 4 c.epoch) else s

/-- A record of the supply log copied into the recorder (R448). -/
def State.copyLog (s : State) (e : LogEntry) : State :=
  if e.copied then s
  else
    let s := s.bump (Reg.evChCount 61) 1
    let r := s.newRec s.ev.next 61 e.event 0 0xFF 0 3 (supplyDetail e.minV e.below e.used e.left)
    { s with ev := { s.ev with next := s.ev.next + 1 } }.enterRec r

/-- A record of the buffer whose CRC fails is replaced at start-up (R467). -/
def State.replaceBad (s : State) : State :=
  let bad := s.ev.buffer.filter (fun r => r.bad)
  let s := { s with ev := { s.ev with buffer := s.ev.buffer.filter (fun r => !r.bad) } }
  bad.foldl (fun s r => s.record 0 2 0 0xFF 0 (le 8 r.seq)) s

/-- The end of the current stage. -/
def State.stageDone (s : State) (bad : Nat) : State :=
  match s.pw.stage with
  | 1 => if s.pw.refAbsent then s else { s with ck := { s.ck with tcxoOk := true } }.enterStage 2
  | 2 => { s with ck := { s.ck with motionLock := true } }.enterStage 3
  | 3 =>
    let s := (List.range 8).foldl (fun s g => s.otpLoad g) s
    { s with pw := { s.pw with fabricOn := true } }.enterStage 4
  | 4 =>
    let s := [1, 2, 3, 4, 5].foldl (fun s k => s.romCheck bad k) s
    let s := { s with
      ck := { s.ck with fabricLock := true }
      tiers := { s.tiers with storeReady := true }
      pw := { s.pw with recovery := [1, 2, 3, 4, 5].any (fun k => !(s.fwClass k).valid) } }
    s.enterStage 5
  | 5 =>
    let d := s.free
    let s := { d.2 with
      tm := { d.2.tm with running := true }
      gov := { d.2.gov with imageBytes := if (s.fwClass 3).valid then d.1 % 67108865 else 0 }
      ck := { d.2.ck with service := [0, 1, 2, 3, 6].foldl addN d.2.ck.service }
      pw := { d.2.pw with holdup := 1000, holdupLow := false } }
    s.enterStage 6
  | 6 =>
    let s := { s with ledger := {} }.fabricUp
    let l := s.pw.log
    let s := l.foldl (fun s e => s.copyLog e) s
    let s := { s with pw := { s.pw with log := l.map (fun (e : LogEntry) => { e with copied := true }) } }
    (s.replaceBad.flushAll).enterStage 7
  | 7 => if s.hp.state ≠ .off then s.enterStage 8 else s
  | _ => s

/-- BOOT_STAGE_DONE (R453): not once the module has been left in a stage (R455). -/
def execBootStageDone (bad : Nat) (s : State) : Out :=
  if s.pw.motionOn = false ∨ s.pw.stuck ∨ s.pw.supply = .shutdown then .next s else .next (s.stageDone bad)

/-- BOOT_STAGE_OVERRUN (R455, R500). -/
def execBootStageOverrun (s : State) : Out :=
  if s.pw.motionOn = false ∨ s.pw.stage = 0 ∨ 8 ≤ s.pw.stage then .next s
  else
    let n := s.pw.overruns + 1
    .next { s with pw := { s.pw with overruns := n, stuck := s.pw.stuck || decide (3 ≤ n), uart := s.pw.uart ++ [16 + s.pw.stage] } }

end Sys2Proof.Machine
end

