-- ==== Sys2Proof/Machine/HostPort.lean ====
section
/-!
DEFINITION. The host port (chapter 14): its states, the LPDDR5X device, the rings with their doorbells, seals, credits and
completions, ITEM entries, and HOST_ALERT_N.
-/
namespace Sys2Proof.Machine

/-! ### HOST_ALERT_N (R381, R383, R399) -/

/-- HP_EVENTS: the bits of its own and the summaries of other blocks. -/
def State.hpEvents (s : State) : Nat :=
  s.regN Reg.hpEvents % 64 + put 8 1 (b2n (s.regN Reg.mpEvents ≠ 0)) + put 9 1 (b2n (s.regN Reg.gvEvents ≠ 0)) +
  put 10 1 (b2n (s.regN Reg.tmEvents ≠ 0)) + put 11 1 (b2n (s.regN Reg.lgFault ≠ 0))

/-- HP_PENDING: the contexts with an enabled event (R399). -/
def State.ctxPending (s : State) : List Nat :=
  (List.range 64).filter (fun c => (s.reg (Reg.hpCtxEvents c) &&& s.reg (Reg.hpCtxEventEn c)) ≠ 0)

/-- A cause of R399 holds in SERVICE. -/
def State.alertCause (s : State) : Bool :=
  s.hp.state = .service &&
  (word s.hpEvents &&& word (fld (s.reg Reg.hpEventEn) 11 0) ≠ 0 ||
   bitN (s.regN Reg.hpEventEn) 12 && !s.ctxPending.isEmpty)

/-- HOST_ALERT_N is asserted. -/
def State.alert (s : State) : Bool := s.hp.holdAlert || (s.alertCause && !s.hp.holdoff)

/-- After an access has changed `s` into `t`: where it released HOST_ALERT_N, the holdoff runs (R399). -/
def State.released (s t : State) : State :=
  if s.alert && !t.alert && fld (t.reg Reg.hpCtrl) 25 16 ≠ 0 then { t with hp := { t.hp with holdoff := true } } else t

/-- ALERT_HOLDOFF_EXPIRY (R399). -/
def execAlertHoldoffExpiry (s : State) : Out := .next { s with hp := { s.hp with holdoff := false } }

/-! ### States of the port (R380–R383) -/

/-- RESET_N_ASSERT (R382). -/
def execResetNAssert (s : State) : Out :=
  if s.hp.state = .off then .next { s with hp := { s.hp with resetN := true } }
  else
    let s := (s.resetHost true).holdDomain 8
    .next { s with hp := { s.hp with resetN := true } }

/-- HOST_PORT_INIT_READY (R380, R381, R453): stage HOST_INIT is reached, or the port comes back from RESET_n; the host then
releases RESET_n. `ms`: time since start qualification. -/
def execHostPortInitReady (ms : Nat) (s : State) : Out :=
  if s.hp.state ≠ .off ∨ s.pw.stage < 7 ∨ has s.ck.held 4 = true then .next s
  else
    let s := if has s.ck.held 8 then s.releaseDomain 8 else s
    .next { s with hp := { s.hp with state := .init, holdAlert := false, resetN := false }
                   pw := { s.pw with toHostMs := if s.pw.stage = 7 then ms else s.pw.toHostMs } }

/-- A write of HP_CTRL: the holdoff, and SERVICE from INIT while HOST_ALERT_N is released (R380, R383). The mailbox ring is then
enabled (R401) and crossing 7 runs in service mode (R454). -/
def State.writeHpCtrl (s : State) (v : Nat) : State :=
  if s.hp.state = .off then s
  else
    let s := s.setReg Reg.hpCtrl (word (put 16 10 (min (fldN v 25 16) 1000)))
    if bitN v 0 ∧ s.hp.state = .init ∧ s.hp.holdAlert = false then
      { s.setRing mb { state := .run } with
        hp := { (s.setRing mb { state := .run }).hp with state := .service }
        ck := { s.ck with service := addN s.ck.service 7 }
        pw := { s.pw with stage := if s.pw.stage = 7 then 8 else s.pw.stage } }
    else s

/-- HP_CTRL_SERVICE: the host writes HP_CTRL (R380). -/
def execHpCtrlService (v : Nat) (s : State) : Out := .next (s.writeHpCtrl v)

/-- HOST_PORT_DOMAIN_RESET (R383), for a cause that keeps the trained settings; CDC_TIMEOUT on crossing 7 discards them. -/
def execHostPortDomainReset (s : State) : Out := if s.pw.fabricOn then .next (s.resetDomain 8) else .next s

/-! ### The LPDDR5X device (R367–R369) -/

/-- The device takes commands: the port is not OFF and the host holds it in no low-power mode. -/
def HostPort.listens (h : HostPort) : Bool := h.state ≠ .off && !h.lowPower

/-- Mode registers that hold what the host writes (R368), and those of them with one copy for each frequency set point. -/
def mrStored (r : Nat) : Bool :=
  (1 ≤ r && r ≤ 3) || (10 ≤ r && r ≤ 20) || r = 26 || r = 28 || r = 30 || (31 ≤ r && r ≤ 34)
def mrPerSet (r : Nat) : Bool := (1 ≤ r && r ≤ 3) || (10 ≤ r && r ≤ 20 && r ≠ 16)

/-- MR16 of a channel. -/
def HostPort.mr16 (h : HostPort) (ch : Nat) : Nat := Tbl.getD h.modeRegs (256 * (ch % 4) + 16) 0

/-- The key of a mode register: of the set point that MR16 selects for writing. -/
def HostPort.mrKey (h : HostPort) (ch r : Nat) : Nat :=
  (if mrPerSet r then 1024 * (Config.fspWrite (h.mr16 ch) % 3) else 0) + 256 * (ch % 4) + r % 256

/-- The operating set point (HP_TRAIN.fsp), as channel 0 selects it. -/
def HostPort.fsp (h : HostPort) : Nat := Config.fspOp (h.mr16 0) % 3

/-- MODE_REGISTER_WRITE (R368). -/
def execModeRegisterWrite (ch r v : Nat) (s : State) : Out :=
  if s.hp.listens && mrStored r then
    .next { s with hp := { s.hp with modeRegs := Tbl.set s.hp.modeRegs (s.hp.mrKey ch r) (v % 256) } }
  else .next s

/-- What a mode register reads as (R368); the result of the duty-cycle monitor, MR26, is a free value. -/
def State.mrValue (s : State) (ch r : Nat) : Nat :=
  if r = 0 ∨ r = 4 ∨ r = 8 then Config.mrReading r % 256
  else if r = 6 then Config.portRevision % 256
  else if r = 26 then s.free.1 % 256
  else if mrStored r then Tbl.getD s.hp.modeRegs (s.hp.mrKey ch r) 0
  else 0

/-- MODE_REGISTER_READ (R368). -/
def execModeRegisterRead (ch r : Nat) (s : State) : Out :=
  if s.hp.listens then
    let t := if r = 26 then s.drew 1 else s
    .next { t with hp := { t.hp with readData := [word (s.mrValue ch r)] } }
  else .next s

/-- The words of a run of bytes. -/
def burstWords : Bytes → List Word
  | b0 :: b1 :: b2 :: b3 :: t => word (leNat [b0, b1, b2, b3]) :: burstWords t
  | _ => []

/-- A training kind done for the operating set point, with the rate it ran at. -/
def State.trained (s : State) (bit rate : Nat) : State :=
  let f := Tbl.getD s.hp.fsps s.hp.fsp {}
  { s with hp := { s.hp with fsps := Tbl.set s.hp.fsps s.hp.fsp { trained := f.trained ||| bit, rate := rate % 16384 } } }

/-- TRAINING (R369). Kinds: 0 command bus, 1 WCK2CK leveling, 2 RDC, which reads the patterns of MR31–MR34, 3 WFF and 4 RFF over
the write FIFO of 8 bursts, 5 VREF of CA, 6 VREF of DQ. -/
def execTraining (kind rate : Nat) (data : Bytes) (s : State) : Out :=
  if s.hp.listens = false then .next s
  else match kind with
    | 0 => .next (s.trained 1 rate)
    | 1 => .next (s.trained 2 rate)
    | 2 =>
      let t := s.trained 4 rate
      .next { t with hp := { t.hp with readData := [31, 32, 33, 34].map (fun r => word (s.mrValue 0 r)) } }
    | 3 => .next { s with hp := { s.hp with fifo := if 8 ≤ s.hp.fifo.length then s.hp.fifo else s.hp.fifo ++ [padTo 32 data] } }
    | 4 =>
      let t := s.trained 8 rate
      (match t.hp.fifo with
       | b :: rest => .next { t with hp := { t.hp with fifo := rest, readData := burstWords b } }
       | [] => .next t)
    | _ => .next s

/-- REFRESH (R367): accepted, with no effect. -/
def execRefresh (s : State) : Out := .next s

/-- POWER_DOWN (R367): the content is kept and the module keeps running. -/
def execPowerDown (s : State) : Out :=
  if s.hp.state = .off then .next s else .next { s with hp := { s.hp with lowPower := true } }

/-- POWER_DOWN_EXIT (R437). -/
def execPowerDownExit (s : State) : Out := .next { s with hp := { s.hp with lowPower := false } }

/-! ### Doorbells, seals and acceptance (R384–R388, R401) -/

/-- A ring enters ERROR (R386, R387). -/
def State.ringError (s : State) (c cause : Nat) : State :=
  let s := s.setRing c { s.ring c with state := .error, cause := cause }
  if c = mb then s else (s.raise (Reg.hpCtxEvents c) 2).raise Reg.hpEvents 4

/-- The producer doorbell of a ring: announces, or sends the ring to ERROR (R387). The mailbox has no credits (R401). -/
def State.announce (s : State) (c v : Nat) : State :=
  let r := s.ring c
  let n := (v % 65536 + 65536 - r.sqCons) % 65536
  if r.state ≠ .run ∨ n ≤ (r.announced + 65536 - r.sqCons) % 65536 then s
  else if s.sqDepth c < n then s.ringError c 2
  else if c ≠ mb ∧ s.issued c < n then s.ringError c 1
  else s.setRing c { r with announced := v % 65536 }

/-- HP_CTX_SQ_DB (R387). -/
def execHpCtxSqDb (ctx v : Nat) (s : State) : Out := if ctx < 64 then .next (s.announce ctx v) else .next s

/-- HP_MB_SQ_DB (R401). -/
def execHpMbSqDb (v : Nat) (s : State) : Out := .next (s.announce mb v)

/-- Both bursts of a slot are sealed (R385). -/
def State.slotSealed (s : State) (c i : Nat) : Bool :=
  has (s.ring c).sealed (s.sqSlot c i) && has (s.ring c).sealed (s.sqSlot c i + 32)

/-- An announced entry waits for its seal (HP_CTX_STATUS.seal_wait). -/
def State.sealWait (s : State) (c : Nat) : Bool :=
  (s.ring c).state = .run && (s.ring c).sqCons ≠ (s.ring c).announced && !s.slotSealed c (s.ring c).sqCons

/-- The request that a submission entry makes (R384). -/
def entryRequest (c : Nat) (b : Bytes) : Request :=
  { ctx := c, idx := leAt b 0 2, target := leAt b 2 1, notify := bitN (leAt b 3 1) 0, tag := leAt b 8 8, body := b.drop 32 }

/-- Reserved bytes and bits of an entry's header are zero (R384). -/
def headerClean (b : Bytes) : Bool := leAt b 3 1 < 2 && allZero ((b.drop 4).take 4) && allZero ((b.drop 16).take 16)

/-- Targets a ring knows (R384, R471, R494). -/
def targetKnown (c t : Nat) : Bool :=
  if c = mb then (0x10 ≤ t && t ≤ 0x14) || (0x18 ≤ t && t ≤ 0x1D) else 1 ≤ t && t ≤ 5

/-- The op of a TIER or STREAM entry is one that its table has (R204, R230); the other targets check their own. -/
def opKnown (q : Request) : Bool :=
  let op := leAt q.body 0 1
  (q.target ≠ 1 || (1 ≤ op && op ≤ 3)) && (q.target ≠ 2 || (1 ≤ op && op ≤ 7))

/-- A free slot of the completion ring: a context's credits ensure one (R393); the mailbox needs one (R401). -/
def State.slotFree (s : State) (c : Nat) : Bool :=
  let r := s.ring c
  c ≠ mb || (r.cqProd + 65536 - r.cqAck) % 65536 + r.outstanding < 1024

/-- The entry at the consumer index is copied and accepted (R385, R392); a malformed one completes at once (R384), and in
recovery the boot ROM serves only ATTEST, CERT_READ and FW_UPDATE (R491). -/
def State.acceptEntry (s : State) (c : Nat) : State :=
  let r := s.ring c
  let a := s.sqSlot c r.sqCons
  let b := s.mem.sram.readBytes a 64
  let q := entryRequest c b
  if q.idx ≠ r.sqCons then s.ringError c 3
  else
    let s := s.setRing c { r with sqCons := (r.sqCons + 1) % 65536, outstanding := r.outstanding + 1
                                  sealed := remN (remN r.sealed a) (a + 32) }
    let s := { s with hp := { s.hp with requests := s.hp.requests ++ [q] } }
    if c = mb && s.pw.recovery && !(0x18 ≤ q.target && q.target ≤ 0x1A) then s.finish q 0x16 0 0
    else if headerClean b && targetKnown c q.target && opKnown q then s
    else s.finish q 0x15 0 0

/-- ENTRY_ACCEPT (R385, R386). -/
def execEntryAccept (ctx : Nat) (s : State) : Out :=
  let r := s.ring ctx
  if ctx ≤ mb ∧ r.state = .run ∧ r.sqCons ≠ r.announced ∧ s.slotSealed ctx r.sqCons = true ∧ s.slotFree ctx = true then
    .next (s.acceptEntry ctx)
  else .next s

/-- SEAL_WAIT_TIMEOUT (R386). -/
def execSealWaitTimeout (ctx : Nat) (s : State) : Out :=
  if ctx < 64 ∧ s.sealWait ctx = true then .next (s.raise (Reg.hpCtxEvents ctx) 8) else .next s

/-! ### Completions and acknowledgements (R389–R394) -/

/-- The last credit of a draining ring is back: it is DISABLED and its pool sized to 0 (R394). Under RESET the credits of
completions that are not acknowledged go with the rest. -/
def State.drainEnd (s : State) (c : Nat) : State :=
  let r := s.ring c
  let p := hostPool c
  if r.state = .draining ∧ r.outstanding = 0 ∧ (r.resetting ∨ (s.pool p).returned = 0) then
    let s := s.setRing c { r with state := .disabled, resetting := false, cause := 0, announced := r.sqCons, sealed := [] }
    (s.move p .held .returned (s.pool p).held).settlePool c
  else s

/-- The 32 bytes of a completion entry at index i (R389). -/
def completionBytes (depth i : Nat) (d : Done) : Bytes :=
  le 1 ((i / depth + 1) % 2) ++ le 1 d.status ++ le 1 d.req.target ++ le 1 (1 + d.extra) ++ le 2 d.req.idx ++ le 2 0 ++
  le 8 d.req.tag ++ le 8 d.result ++ le 8 d.time

/-- A completion of a request accepted before a host-port reset: not written; its credit goes to returned, and the pool is
sized to 0 with the last (R382). -/
def State.orphanDone (s : State) (d : Done) : State :=
  let c := d.req.ctx
  let s := s.bump Reg.hpDropped 1
  if c = mb then s
  else
    let r := s.ring c
    let s := s.setRing c { r with orphans := r.orphans - (1 + d.extra) }
    (s.move (hostPool c) .held .returned (1 + d.extra)).settlePool c

/-- A completion of an enabled ring: written as one entry, or dropped under RESET (R390, R394). -/
def State.complete (s : State) (d : Done) : State :=
  let c := d.req.ctx
  let r := s.ring c
  let n := 1 + d.extra
  let s := if c = mb then s else s.move (hostPool c) .held .returned n
  if r.resetting then
    ((s.setRing c { r with outstanding := r.outstanding - n }).bump Reg.hpDropped 1).drainEnd c
  else
    let s := { s with mem := { s.mem with sram := s.mem.sram.writeBytes (s.cqSlot c r.cqProd) (completionBytes (s.cqDepth c) r.cqProd d) } }
    let s := s.setRing c { r with outstanding := r.outstanding - n, cqProd := (r.cqProd + 1) % 65536 }
    if c = mb then s.raise Reg.hpEvents 16
    else if d.req.notify then s.raise (Reg.hpCtxEvents c) 1
    else s

/-- COMPLETION_WRITE (R390): the request that completed first. -/
def execCompletionWrite (s : State) : Out :=
  match s.hp.done with
  | [] => .next s
  | d :: rest =>
    let s := { s with hp := { s.hp with done := rest } }
    if orphanMark ≤ d.req.idx then .next (s.orphanDone d) else .next (s.complete d)

/-- Credits that `n` completions from index i return, as their entries say. -/
def State.ackCredits (s : State) (c i : Nat) : Nat → Nat
  | 0 => 0
  | n + 1 => (s.mem.sram.read (s.cqSlot c (i % 65536) + 3)).toNat + s.ackCredits c (i + 1) n

/-- The acknowledgement doorbell of a ring (R391, R392). -/
def State.acknowledge (s : State) (c v : Nat) : State :=
  let r := s.ring c
  let n := (v % 65536 + 65536 - r.cqAck) % 65536
  if r.state = .disabled then s
  else if (r.cqProd + 65536 - r.cqAck) % 65536 < n then (if c = mb then s else s.raise (Reg.hpCtxEvents c) 4)
  else
    let k := s.ackCredits c r.cqAck n
    let s := s.setRing c { r with cqAck := v % 65536 }
    if c = mb then s else (s.move (hostPool c) .returned .held k).drainEnd c

/-- HP_CTX_CQ_DB (R391). -/
def execHpCtxCqDb (ctx v : Nat) (s : State) : Out := if ctx < 64 then .next (s.acknowledge ctx v) else .next s

/-- HP_MB_CQ_DB (R401). -/
def execHpMbCqDb (v : Nat) (s : State) : Out := .next (s.acknowledge mb v)

/-! ### Ring commands (R393–R395) -/

/-- HP_CTX_CFG and HP_CTX_POND of a context are valid. -/
def State.ringCfgOk (s : State) (c : Nat) : Bool :=
  let w := s.reg (Reg.hpCtxCfg c)
  let g := s.reg (Reg.hpCtxPond c)
  6 ≤ fld w 3 0 && fld w 3 0 ≤ 11 && 6 ≤ fld w 7 4 && fld w 7 4 ≤ 12 &&
  1 ≤ fld w 20 8 && fld w 20 8 ≤ 2 ^ fld w 7 4 && fld g 9 0 + fld g 20 10 ≤ 1024

/-- The grants of two contexts share a page (R395). -/
def State.grantsOverlap (s : State) (c k : Nat) : Bool :=
  let g := s.reg (Reg.hpCtxPond c)
  let h := s.reg (Reg.hpCtxPond k)
  fld g 9 0 < fld h 9 0 + fld h 20 10 && fld h 9 0 < fld g 9 0 + fld g 20 10 && fld g 20 10 ≠ 0 && fld h 20 10 ≠ 0

/-- ENABLE is accepted (R393–R395): not before the requests of an earlier enabling have ended. -/
def State.mayEnable (s : State) (c : Nat) : Bool :=
  let r := s.ring c
  r.state = .disabled && r.orphans = 0 && s.ringCfgOk c &&
  !(List.range 64).any (fun k => k ≠ c && (s.ring k).state ≠ .disabled && s.grantsOverlap c k)

/-- The result of a ring command (HP_CMD_STATUS). -/
def State.cmdResult (s : State) (n : Nat) : State := { s with hp := { s.hp with cmdResult := n } }

/-- HP_CTX_CMD ENABLE: the pool sized, its credits issued, the completion ring memory zeroed (R390, R392). -/
def State.ctxEnable (s : State) (c : Nat) : State :=
  if s.mayEnable c then
    let n := fld (s.reg (Reg.hpCtxCfg c)) 20 8
    let p := hostPool c
    let s := s.sizePool p n
    let s := (s.move p .returned .inFlight n).move p .inFlight .held n
    let s := { s with mem := { s.mem with sram := s.mem.sram.writeBytes (s.cqSlot c 0) (zeros (32 * s.cqDepth c)) } }
    (s.setRing c { state := .run }).cmdResult 1
  else s.cmdResult 2

/-- HP_CTX_CMD DISABLE, of a ring that runs (R394). -/
def State.ctxDisable (s : State) (c : Nat) : State :=
  let r := s.ring c
  if r.state = .run then ((s.setRing c { r with state := .draining, announced := r.sqCons }).drainEnd c).cmdResult 1
  else s.cmdResult 2

/-- HP_CTX_CMD RESET: the way out of ERROR (R394); of a DISABLED ring it has no effect. -/
def State.ctxReset (s : State) (c : Nat) : State :=
  let r := s.ring c
  if r.state = .disabled then s.cmdResult 1
  else ((s.setRing c { r with state := .draining, resetting := true, announced := r.sqCons }).drainEnd c).cmdResult 1

/-- CTX_ENABLE (R390, R392, R393, R395, R460). -/
def execCtxEnable (ctx : Nat) (s : State) : Out := if ctx < 64 then .next (s.ctxEnable ctx) else .next s

/-- CTX_DISABLE (R394). -/
def execCtxDisable (ctx : Nat) (s : State) : Out := if ctx < 64 then .next (s.ctxDisable ctx) else .next s

/-- CTX_RESET (R394). -/
def execCtxReset (ctx : Nat) (s : State) : Out := if ctx < 64 then .next (s.ctxReset ctx) else .next s

/-! ### ITEM (R398) -/

/-- An item as parcels (R73): `fmt` is the format in which the pipeline takes it. -/
def itemParcels (e : EntryPoint) (idx fmt : Nat) (data : Bytes) : List Parcel :=
  dataParcels { dest := e.dest, cls := e.cls, ctx := e.ctx, format := fmt, seq := idx, weir := 39 } data

/-- ITEM (R398): malformed where the entry point or class is none of the LEAT section, VIEW_DENIED outside the context or its
grant (R395); else its parcels wait at weir 39. -/
def execItem (ctx idx fmt : Nat) (s : State) : Out :=
  match s.request ctx idx with
  | none => .next s
  | some r =>
    if r.target ≠ 5 ∨ r.begun then .next s
    else
      let b := s.body 2 0
      let e := leatEntry b (leAt r.body 0 1)
      if allZero ((r.body.drop 2).take 2) = false ∨ allZero (r.body.drop 28) = false ∨
          leatEntries b ≤ leAt r.body 0 1 ∨ leAt r.body 1 1 ≠ e.cls ∨ leAt r.body 4 4 = 0 then .next (s.finish r 0x15 0 0)
      else if e.ctx ≠ ctx ∨ s.inGrant ctx (leAt r.body 8 8) (leAt r.body 4 4) = false ∨
          s.inGrant ctx (leAt r.body 16 8) (leAt r.body 24 4) = false then .next (s.finish r 0x0C 0 0)
      else
        let ps := itemParcels e idx fmt (s.pondRead (leAt r.body 8 8) (leAt r.body 4 4))
        .next ((s.begin r).setWaiting 39 (s.waiting 39 ++ ps))

end Sys2Proof.Machine
end

