-- ==== Sys2Proof/Machine/Ring.lean ====
section
/-!
DEFINITION. The motion ring's returned copies: drive status, and the ring's state (R430–R432).
-/
namespace Sys2Proof.Machine

/-- A slot is valid; its drive reports sto_active, or a fault (R430). -/
def slotValid (x : DriveSlot) : Bool := bitN x.st 0
def slotSto (x : DriveSlot) : Bool := bitN x.st 0 && bitN x.st 2
def slotFault (x : DriveSlot) : Bool := bitN x.st 0 && bitN x.st 3

/-- apply_delay_us and drive_count of MR_CFG. -/
def State.applyUs (s : State) : Nat := fld (s.reg Reg.mrCfg) 15 8
def State.driveCount (s : State) : Nat := fld (s.reg Reg.mrCfg) 6 0

/-- The other copy of a tick, if it has returned. -/
def State.otherCopy (s : State) (tick copy : Nat) : Option RingCopy :=
  s.mr.copies.find? (fun c => c.tick = tick && c.copy ≠ copy)

/-- Whether the copy's slot is the one to use beside the other copy's valid slot: the later sample, the port-0 copy on
equal instants (R430). -/
def slotWins (copy : Nat) (x y : DriveSlot) : Bool := decide (y.t < x.t) || (x.t = y.t && copy = 0)

/-- Node n's status taken from a returned copy (R312, R430). -/
def State.takeSlot (s : State) (tick copy n : Nat) (x : DriveSlot) : State :=
  let old := match s.otherCopy tick copy with
    | some c => (Tbl.find c.slots n).bind (fun y => if slotValid y then some y else none)
    | none => none
  let use : Bool := match old with
    | some y => slotWins copy x y
    | none => true
  if use then
    let l := Tbl.getD s.fus.drives n []
    let l := match old with
      | some y => l.filter (fun (z : Sample) => z.t ≠ (y.t : Int))
      | none => l
    let smp : Sample := { t := (x.t : Int), v := [x.q, x.qd] }
    { s with fus := { s.fus with drives := Tbl.set s.fus.drives n (addSample smp l) }
             mr := { s.mr with drives := Tbl.set s.mr.drives n { st := x.st, tickLow := x.tickLow, absent := false } } }
  else s

/-- RING_COPY_RETURN (R430–R432): a copy of a launched frame that reaches a ring port in time. -/
def execRingCopyReturn (tick copy port traversal : Nat) (slots : List (Nat × DriveSlot)) (s : State) : Out :=
  let known := s.mr.launched.any (fun (x : Nat × Nat) => x.1 = tick && x.2 = copy)
  let back := s.mr.copies.any (fun c => c.tick = tick && c.copy = copy)
  let d := s.applyUs
  if known = false ∨ back = true ∨ 2 ≤ port ∨ 1000 * d + 10000 < traversal then .next s
  else
    let good := slots.filter (fun (e : Nat × DriveSlot) => decide (e.1 < s.driveCount) && slotValid e.2)
    let s := good.foldl (fun s (e : Nat × DriveSlot) => s.takeSlot tick copy e.1 e.2) s
    let tbl := good.foldl (fun (t : Tbl DriveSlot) (e : Nat × DriveSlot) => Tbl.set t e.1 e.2) []
    let units := min (traversal / 10) 0xFFFF
    let c : RingCopy := { tick := tick, copy := copy, port := port, traversal := traversal, slots := tbl }
    let mr := { s.mr with copies := s.mr.copies ++ [c] }
    let mr := if copy = 0 then { mr with reach0 := tbl.length, trav0 := units } else { mr with reach1 := tbl.length, trav1 := units }
    let s := { s with mr := mr }
    let ev := (if 1000 * d < traversal + 5000 then 8 else 0) + (if good.any (fun (e : Nat × DriveSlot) => slotFault e.2) then 16 else 0)
    .next (if ev = 0 then s else s.raise Reg.mrEvents ev)

/-- Codes of MR_STATUS.state. -/
def RingHealth.code : RingHealth → Nat
  | .ok => 0
  | .degraded => 1
  | .lost => 2

/-- The state after a classed tick (R432); the runs include the tick. -/
def ringNext (st : RingHealth) (broken : Bool) (okRun shortRun : Nat) (good : List Bool) : RingHealth :=
  match st with
  | .ok => if 3 ≤ shortRun then .lost else if broken then .degraded else .ok
  | .degraded => if 3 ≤ shortRun then .lost else if 8 ≤ okRun then .ok else .degraded
  | .lost => if 8 ≤ okRun then .ok else if good.length = 8 ∧ good.any id then .degraded else .lost

/-- A change of the ring's state: its event and its record (R432, R509). -/
def State.ringTo (s : State) (st : RingHealth) (tick : Nat) : State :=
  let old := s.mr.state
  if st = old then s
  else
    let s := { s with mr := { s.mr with state := st, okRun := 0, shortRun := 0, goodRun := [] } }
    let s := s.raise Reg.mrEvents (match st with
      | .ok => 4
      | .degraded => 1
      | .lost => 2)
    s.record 13 st.code 0 0xFF 0 (le 1 old.code ++ le 1 s.mr.reach0 ++ le 1 s.mr.reach1 ++ le 1 0 ++ le 4 tick)

/-- RING_RETURN_DEADLINE (R430, R432, R447): the tick is classed by its returned copies. -/
def execRingReturnDeadline (tick : Nat) (s : State) : Out :=
  let sent := (s.mr.launched.filter (fun (x : Nat × Nat) => x.1 = tick)).length
  if sent = 0 then .next s
  else
    let cs := s.mr.copies.filter (fun c => c.tick = tick)
    let s := if cs.length < sent then s.bump Reg.mrReturnMiss (sent - cs.length) else s
    let nodes := List.range s.driveCount
    let seen (n : Nat) : Bool := cs.any (fun c => (Tbl.find c.slots n).isSome)
    let short := nodes.any (fun n => !seen n)
    let ok := cs.any (fun c => c.copy = 0 && c.port = 1) && cs.any (fun c => c.copy = 1 && c.port = 0) && !short
    let broken := cs.any (fun c => c.copy = c.port) && !short
    let absent := nodes.filter (fun n => !seen n)
    let drives := absent.foldl (fun (t : Tbl Drive) n => Tbl.set t n { Tbl.getD t n {} with absent := true }) s.mr.drives
    let okRun := if ok then s.mr.okRun + 1 else 0
    let shortRun := if short then s.mr.shortRun + 1 else 0
    let good := if short then [] else (broken :: s.mr.goodRun).take 8
    let body := s.govBody
    let joints := (List.range 64).filter (fun j => jointOn body j)
    let sto := joints.all (fun j => cs.any (fun c => match Tbl.find c.slots (leAt (jointEntry body j) 1 1) with
      | some x => slotSto x
      | none => false))
    let next := ringNext s.mr.state broken okRun shortRun good
    let s := { s with
      mr := { s.mr with
        launched := s.mr.launched.filter (fun (x : Nat × Nat) => x.1 ≠ tick)
        copies := s.mr.copies.filter (fun c => c.tick ≠ tick)
        drives := drives, okRun := okRun, shortRun := shortRun, goodRun := good }
      gov := { s.gov with stoActive := if sto then s.gov.stoActive + 1 else 0 } }
    .next (s.ringTo next tick)

end Sys2Proof.Machine
end

