-- ==== Sys2Proof/Machine/RegRead.lean ====
section
/-!
DEFINITION. What each register shows that is not stored as a word: the read-only registers of every block, by the fields of
their field maps, and the address a register access names.
-/
namespace Sys2Proof.Machine

/-! ### Addresses (R20, R51, R377) -/

/-- The address under which the register of a window address is held: a context register at its privileged instance, any
other register at its own. -/
def regAddr (a : Nat) : Nat :=
  if 0x1000000 ≤ a ∧ a < 0x5000000 then
    let c := (a - 0x1000000) / 0x100000
    let o := a % 0x100000
    if o < 0x24 then 0x11000 + 0x100 * c + o
    else if 0xF0000 ≤ o ∧ o < 0xF0020 then 0x301000 + 0x20 * c + (o - 0xF0000)
    else a
  else a

/-- The access type of a register through a window address: HP_CTX_CFG and HP_CTX_POND are RO in a context view. -/
def accessAt (a : Nat) : Option Access :=
  (regRow (regAddr a)).map (fun r => if 0x1000000 ≤ a ∧ r.access = .rw ∧ (a % 0x100000 = 0x1C ∨ a % 0x100000 = 0x20) then .ro else r.access)

/-- The element of an array of registers at an address. -/
def elemOf (base stride count a : Nat) : Option Nat :=
  if base ≤ a ∧ (a - base) % stride = 0 ∧ (a - base) / stride < count then some ((a - base) / stride) else none

/-- Word i of a number. -/
def wordOf (n i : Nat) : Nat := n / 2 ^ (32 * i) % 2 ^ 32

/-! ### Ledger, mills, leat (chapters 1–3) -/

def State.shownLedger (s : State) (o : Nat) : Option Nat :=
  let x := s.ledger.snap
  match o with
  | 0x04 => some ((s.ledger.faultPool.map (fun p => 2 ^ 31 + p)).getD 0)
  | 0x08 => some s.ledger.recons
  | 0x10 => some (b2n x.busy + 2 * b2n x.valid + 4 * b2n x.ignored + 8 * b2n (x.valid && poolReserved x.pool) +
      16 * b2n (x.valid && x.counts.balanced) + put 16 9 x.pool)
  | 0x14 => some x.counts.size
  | 0x18 => some x.counts.held
  | 0x1C => some x.counts.inFlight
  | 0x20 => some x.counts.parked
  | 0x24 => some x.counts.returned
  | 0x28 => some x.counts.reclaimed
  | 0x30 => some (wordOf s.ledger.reclaimTotal 0)
  | 0x34 => some (wordOf s.ledger.reclaimTotal 1)
  | _ => none

/-- Codes of R109. -/
def MillState.code : MillState → Nat
  | .empty => 0
  | .loading => 1
  | .run => 2
  | .paused => 3
  | .closed => 4
  | .fault => 5
  | .evacuated => 6

/-- ML_ATTN_CFG. -/
def State.attnCfg (s : State) (m : Nat) : Nat :=
  let ps := (List.range 8).filterMap (fun i => s.attn m i)
  let mask := ps.foldl (fun a p => a ||| p.buckets) 0
  let q := ps.find? (fun p => p.role = 1)
  put 0 6 mask + 64 * b2n (ps.any (fun p => p.role = 5)) + 128 * b2n (ps.any (fun p => p.role = 6)) +
  (match q with
   | some p => put 8 4 p.split + put 12 5 p.splits + put 17 2 p.modMode
   | none => 0)

/-- ML_STRIPE_POS_s. -/
def State.stripeWord (s : State) (m i : Nat) : Nat :=
  let x := Tbl.getD s.ops.stripes (8 * m + i) {}
  let b := s.millBody m
  if stageStriped b i then put 0 13 x.stripe + put 13 2 (x.frame % max (imgOf b i).bufs 1) + 2 ^ 15 + put 16 16 x.frame else 0

def State.shownMill (s : State) (m o : Nat) : Option Nat :=
  let x := s.mill m
  let b := s.millBody m
  if 0x100 ≤ o ∧ o < 0x120 then some (if b = [] then 0 else stageCfg b ((o - 0x100) / 4))
  else if 0x200 ≤ o ∧ o < 0x220 then
    let q := (o - 0x200) / 4
    let n := (Tbl.getD x.hopper q []).length + (Tbl.getD x.reading q []).length
    some (put 0 8 (s.depthOf m q) + put 8 8 n + (if b = [] then 0 else put 16 3 (hopperCfg b q).stage + put 20 2 (hopperCfg b q).cls))
  else if 0x400 ≤ o ∧ o < 0x420 then some (s.stripeWord m ((o - 0x400) / 4))
  else match o with
    | 0x00 => some (m + put 4 2 (m / 4) + put 6 2 m)
    | 0x04 => some (x.state.code + 8 * b2n x.drained + 16 * b2n x.ledgerStop + 32 * b2n x.watchdog + 64 * b2n x.uncorrectable)
    | 0x20 => some (b2n x.coreRunning + put 16 16 (s.runningBuild 1 m))
    | 0x24 => some x.heartbeat
    | 0x500 => some (s.attnCfg m)
    | 0x800 => some (b2n ((List.range 8).any (fun i => b ≠ [] && cfgValid (stageCfg b i) && cfgSr (stageCfg b i))) + 2 * b2n x.srDegraded)
    | _ => none

/-- A parcel waits at weir w for a token (WR_STATUS_w). -/
def State.weirWaits (s : State) (w : Nat) : Bool :=
  if w < 16 then (s.mill w).tail.any (fun t => t.credited && t.dests.any (fun d => !s.hasToken w d.2.2))
  else if w = 16 then s.tiers.chans.any (fun (e : Nat × Chan) => e.2.busy && e.2.waiting) ||
    [0, 1].any (fun n => ((s.fwChan n).map (·.waiting)).getD false)
  else (s.waiting w).any (fun p => match s.edgeRow w p with
    | some r => !s.hasToken w r
    | none => false)

def State.shownLeat (s : State) (o : Nat) : Option Nat :=
  if 0x8000 ≤ o ∧ (o - 0x8000) / 0x400 < 42 then
    let w := (o - 0x8000) / 0x400
    let k := o % 0x400
    if k = 0 then
      some (((List.range 64).filter (fun r => rowValid (s.rowWord w r))).length + 128 * b2n (s.weirWaits w))
    else if 0x100 ≤ k ∧ k < 0x200 then some (s.rowWord w ((k - 0x100) / 4))
    else none
  else match o with
    | 0x14 => some (put 0 12 s.leat.boundMax + put 12 6 s.leat.boundWeir)
    | 0x20 => some (put 0 10 s.leat.mFloor + put 10 10 s.leat.vFloor)
    | 0x24 => some (put 0 10 s.leat.msCap)
    | _ => none

/-! ### Loader, streams, tiers, bolters (chapters 4, 7, 8, 9) -/

/-- MP_STATUS.state. -/
def LoaderState.code : LoaderState → Nat
  | .idle => 0
  | .copying => 1
  | .verifying => 2
  | .preloading => 3
  | .swapping => 4
  | .loading => 5
  | .unloading => 6
  | .evacuating => 7
  | .restoring => 8

/-- Codes of R203. -/
def StreamState.code : StreamState → Nat
  | .free => 0
  | .active => 1
  | .paused => 2
  | .exporting => 3
  | .importing => 4
  | .stopped => 5

/-- MP_STAGED. -/
def State.stagedWord (s : State) : Nat :=
  match s.loader.staged with
  | none => 0
  | some p =>
    1 + 2 * b2n p.replacement + 4 * b2n s.loader.reload + 8 * b2n s.loader.ready +
    (match s.stagedSection with
     | some x => put 4 8 x.typ + put 12 8 x.target
     | none => 0)

def State.shownLoader (s : State) (o : Nat) : Option Nat :=
  let l := s.loader
  if 0x1000 ≤ o ∧ o < 0x1800 then
    let x := s.strm ((o - 0x1000) / 8)
    if o % 8 = 0 then some (x.state.code + 8 * b2n (x.bad ≠ []) + 16 * b2n x.keep + put 8 6 x.ctx + put 16 5 x.queue.length)
    else if o % 8 = 4 then some x.gen
    else none
  else if 0x40 ≤ o ∧ o < 0x80 then
    let x := s.mill ((o - 0x40) / 4)
    some (match x.sec with
      | none => 0
      | some y => put 0 8 y.typ + (match x.fallbackFor with
        | some f => 256 + put 9 4 f
        | none => 0))
  else match o with
    | 0x04 => some (l.state.code + 16 * b2n (l.state ≠ .idle || s.mgmtReload) + 32 * b2n l.ignored + put 6 2 l.result + put 8 8 l.cause +
        put 16 8 l.status + put 24 8 l.failSection)
    | 0x10 => some (wordOf ((l.loaded.map (·.planId)).getD 0) 0)
    | 0x14 => some (wordOf ((l.loaded.map (·.planId)).getD 0) 1)
    | 0x18 => some ((l.loaded.map (·.gen)).getD 0)
    | 0x1C => some s.stagedWord
    | 0x20 => some (put 0 16 l.preloadDone + put 16 16 l.preloadTotal)
    | 0x24 => some (min l.lastUs 0xFFFFF + put 20 2 l.lastKind)
    | 0x30 => some (maskOf ((List.range 16).filter (fun m => (s.mill m).state = .evacuated)) + put 16 16 (maskOf l.stopped))
    | 0x34 => some l.loads
    | _ => none

/-- The 8 bytes of a page map entry as a number (R222). -/
def MapEntry.word (e : MapEntry) : Nat :=
  let st := match e.state with
    | .free => 0
    | .zero => 1
    | .data => 2
    | .lost => 3
  let low := st + put 2 6 e.ctx + put 8 1 (b2n e.busy) + put 12 32 e.slot
  low + put 56 8 (crc8 (le 7 low))

/-- Pages in no region and not held (MT_HBM_FREE). -/
def State.hbmFree (s : State) : Nat :=
  hbmPages - sumN (s.tiers.runs.map (·.pages)) - (s.tiers.retired.filter (fun p => (s.hbmRun p).isNone)).length

/-- MT_CH_n. -/
def Chan.word (x : Chan) : Nat :=
  if x.busy then
    (if x.waiting then 2 else 1) + (if x.firmware then 256 else put 2 6 x.ctx) + put 9 2 x.cls + put 16 16 (x.total - x.next)
  else 0

def State.shownTiers (s : State) (o : Nat) : Option Nat :=
  let t := s.tiers
  let e := Tbl.getD t.map (s.regN Reg.mtMapIndex) {}
  if 0x1000 ≤ o ∧ o < 0x1800 then
    let c := (o - 0x1000) / 0x20
    match o % 0x20 with
    | 0x00 => some (s.pool (160 + c)).size
    | 0x04 => some (s.pool (160 + c)).held
    | 0x08 => some (s.pool (224 + c)).size
    | 0x0C => some (s.pool (224 + c)).held
    | 0x10 => some (s.pool (288 + c)).size
    | 0x14 => some (s.pool (288 + c)).held
    | _ => none
  else if 0x100 ≤ o ∧ o < 0x180 then some ((s.fwChan ((o - 0x100) / 4)).getD (s.chan ((o - 0x100) / 4))).word
  else match o with
    | 0x00 => some (b2n t.mapReady + 2 * b2n t.hbmReady + 4 * b2n t.storeReady + 8 * b2n (t.map.any (fun e => e.2.state = .lost)))
    | 0x04 => some (hbmPages - t.retired.length)
    | 0x08 => some s.hbmFree
    | 0x0C => some (4194304 - (t.map.filter (fun e => e.2.state ≠ .free)).length)
    | 0x1C => some (if t.poisonAll then 1024 * hbmPages - t.poisonFlip.length else t.poisonFlip.length)
    | 0x20 => some (b2n t.rowRepair.isSome + put 1 3 t.lastStation + put 4 12 (min t.repairs.length 0xFFF) +
        put 16 12 (min t.retired.length 0xFFF) + put 28 1 (b2n (t.repairs.any (fun r => !t.committed.contains r))))
    | 0x34 => some (wordOf e.word 0)
    | 0x38 => some (wordOf e.word 1)
    | 0x44 => some (b2n t.cmdBusy + put 1 2 t.cmdResult)
    | _ => none

/-- BL_STATUS.state. -/
def BolterState.code : BolterState → Nat
  | .idle => 0
  | .checking => 1
  | .rechecking => 2
  | .waiting => 3

def State.shownBolter (s : State) (b o : Nat) : Option Nat :=
  let x := s.bolter b
  let c := x.cfg
  let on := x.sec.isSome
  let te := twos 64 ((x.active.map (·.te)).getD 0)
  let stale := match x.active with
    | some p => decide ((c.staleMs : Int) * 1000000 < (s.now : Int) - p.te)
    | none => false
  match o with
  | 0x00 => some (x.state.code + 4 * b2n x.building.isSome + 8 * b2n x.pendingPyr.isSome + 16 * b2n (x.active.isSome && !x.gridLost) +
      32 * b2n stale + put 8 4 x.queue.length)
  | 0x04 => some ((x.active.map (·.epoch)).getD 0)
  | 0x08 => some (wordOf te 0)
  | 0x0C => some (wordOf te 1)
  | 0x10 => some x.buildUs
  | 0x14 => some x.lastUs
  | 0x30 => some (b2n x.plan.isSome + 2 * b2n x.blocked + put 2 6 x.watchHit + put 8 24 x.watchEpoch)
  | 0x40 => some (if on then put 0 10 c.pitch + put 10 20 (c.spacing / 1000) + put 30 2 (c.bufs - 1) else 0)
  | 0x44 => some (if on then put 0 7 c.threshold + 128 * b2n c.outsideFree + put 8 4 c.queue + put 12 1 (b2n (c.queue ≠ 0xFF)) +
      put 13 5 c.sets + put 18 6 c.timeStream else 0)
  | _ => none

/-! ### Motion complex (chapters 10–12) -/

/-- GV_LANE_l. -/
def State.laneWord (s : State) (l : Nat) : Nat :=
  let x := s.lane l
  let st := match x.state with
    | .inService => 0
    | .isolated => 1
    | .reloading => 2
    | .shadow => 3
    | .out => 4
  let done := if x.state = .reloading then
      (if x.copied then 100 else min 100 ((s.now - x.copyStart) * 20 / max s.gov.imageBytes 1))
    else 0
  st + put 3 4 x.cause + put 8 7 done + put 16 4 (x.isolations.filter (fun t => s.now - t < 3600000000000)).length

/-- GV_QUEUE_q. -/
def State.queueWord (s : State) (q : Nat) : Nat :=
  let x := s.gq q
  if x.sec.isNone then 0
  else
    put 0 1 x.cfg.kind + put 1 2 x.cfg.consumer + put 3 2 x.cfg.action + 32 * b2n x.missing + 64 * b2n x.dropped +
    put 8 6 x.cfg.depth + put 16 4 (min x.missCount 15) + put 20 12 x.cfg.period

/-- imp_divider as GV_CFG codes it. -/
def dividerCode (n : Nat) : Nat := if n = 4 then 2 else if n = 2 then 1 else 0

def State.shownGov (s : State) (o : Nat) : Option Nat :=
  let g := s.gov
  let b := s.govBody
  if 0x10 ≤ o ∧ o < 0x1C then some (s.laneWord ((o - 0x10) / 4))
  else if 0x100 ≤ o ∧ o < 0x200 then
    let j := (o - 0x100) / 4
    let x := Tbl.getD g.joints j {}
    some (twos 16 x.command + put 16 1 (b2n (jointOn b j)) + put 17 4 x.clamps + put 21 1 (b2n x.saturated))
  else if 0x2000 ≤ o ∧ o < 0x2040 then
    let x := s.gq ((o - 0x2000) / 4)
    some (if x.sec.isSome then x.cfg.tagLimit % 256 + 256 else 0)
  else if 0x2080 ≤ o ∧ o < 0x20C0 then some (s.queueWord ((o - 0x2080) / 4))
  else match o with
    | 0x00 => some (maskOf s.lanesIn + 8 * b2n g.sec.isSome + 16 * b2n g.wheel.cap + 32 * b2n g.mpcOk + 64 * b2n g.cmdIgnored)
    | 0x04 => some g.wheel.bits
    | 0x20 => some (wordOf g.cycle 0)
    | 0x24 => some (wordOf g.cycle 1)
    | 0x3C => some (match g.plan with
        | some p => 1 + 2 * b2n (p.bolter = 1) + 4 * b2n (p.lastNs < s.now) + put 8 24 p.epoch
        | none => 0)
    | 0x40 => some (if g.sec.isSome then
        put 0 5 (launchNs b / 10000) + put 5 8 (leadUs b) + put 13 4 (guardUs b) + put 17 2 (dividerCode (impDivider b)) +
        put 19 6 (leAt b 0 2 - 1) else 0)
    | 0x44 => some (put 0 27 g.imageBytes)
    | _ => none

/-- Codes of R306. -/
def TrackState.code : TrackState → Nat
  | .unbound => 0
  | .acquire => 1
  | .locked => 2
  | .desync => 3

/-- FU_STREAM_s. -/
def State.streamWord (s : State) (n : Nat) : Nat :=
  let x := s.track n
  let c := s.fuCfg
  let ex := (List.range c.sources.length).any (fun i =>
    has s.fus.excluded i && (match c.sources[i]? with
      | some e => e.origin = n
      | none => false))
  x.state.code + 4 * b2n x.late + 8 * b2n ex + put 4 4 x.good + put 8 24 (twos 24 (clampI (-8388607) 8388607 (x.offset / 1000)))

def State.shownFusion (s : State) (o : Nat) : Option Nat :=
  let f := s.fus
  let bad := maskOf ((List.range 48).filter (fun n => (s.track n).state = .desync))
  let open' := f.gates.filter (fun e => e.2.since.isSome)
  if 0x100 ≤ o ∧ o < 0x1C0 then some (s.streamWord ((o - 0x100) / 4))
  else match o with
    | 0x00 => some (b2n f.usable + 2 * b2n (!open'.isEmpty) + put 2 2 f.ego + put 16 16 (min f.conflictMs 0xFFFF))
    | 0x04 => some (wordOf bad 0)
    | 0x08 => some (wordOf bad 1)
    | 0x0C => some (put 0 16 (maskOf (open'.map (·.1))) +
        put 16 16 (maskOf ((f.gates.filter (fun e => e.2.excluded ≠ [])).map (·.1))))
    | _ => none

def State.shownSolver (s : State) (o : Nat) : Option Nat :=
  let v := s.sol
  let b := s.govBody
  let c := qpCfg b
  match o with
  | 0x00 => some (put 0 8 v.status + 256 * b2n v.pivot + 512 * b2n v.saturated + 1024 * b2n v.residual + 2048 * b2n v.cold +
      put 12 2 s.gov.fallbackStep + put 16 5 v.stage + put 21 6 v.row)
  | 0x04 => some (put 0 16 v.ratio)
  | 0x08 => some v.timing
  | 0x0C => some (if s.gov.sec.isSome ∧ leAt b 0x1C 4 ≠ 0 then
      put 0 5 c.iterations + put 5 6 c.stages + put 11 1 (b2n c.ldlt) + put 12 20 c.spacing else 0)
  | 0x10 => some v.digest
  | 0x14 => some v.warmDigest
  | _ => none

/-! ### Time (chapter 13) -/

/-- TM_PORT_STATE_p. -/
def State.portWord (s : State) (p : Nat) : Nat :=
  let x := s.port p
  s.roleNow p + 4 * b2n x.asCapable + 8 * b2n x.linkUp + 16 * b2n x.aligned

def State.shownTime (s : State) (o : Nat) : Option Nat :=
  let t := s.tm
  let pps := (t.ppsCap % (65536 * 1000000000 * 2 ^ 48)).toNat
  if 0x100 ≤ o ∧ (o - 0x100) / 0x20 < 26 then
    let p := (o - 0x100) / 0x20
    match o % 0x20 with
    | 0x04 => some (s.portWord p)
    | 0x14 => some (twos 32 ((s.port p).delay / 4096))
    | _ => none
  else match o with
    | 0x00 => some (t.fantail.code + 8 * b2n t.gmSelf + put 4 5 (t.slave.getD 0x1F) + 512 * b2n t.slewing + 1024 * b2n t.far +
        2048 * b2n t.expired + 4096 * b2n t.cmdIgnored)
    | 0x10 => some (timeNs s.now16)
    | 0x14 => some (wordOf (timeSec s.now16) 0)
    | 0x18 => some (timeSec s.now16 / 2 ^ 32 % 65536)
    | 0x1C => some (s.now16 % 65536)
    | 0x2C => some (twos 32 (satS 32 (t.theta / 65536)))
    | 0x30 => some (twos 32 t.f)
    | 0x34 => some (twos 32 t.fInt)
    | 0x40 => some (if t.fantail = .holdover then sat32 ((s.now - t.holdSince) / 1000000000) else 0)
    | 0x44 => some (wordOf t.gmId 0)
    | 0x48 => some (wordOf t.gmId 1)
    | 0x58 => some (timeNs pps)
    | 0x5C => some (wordOf (timeSec pps) 0)
    | 0x60 => some (timeSec pps / 2 ^ 32 % 65536)
    | _ => none

/-! ### Host port (chapter 14) -/

/-- HP_STATUS.state; outside SERVICE a read of HP_STATUS gives zero (R381). -/
def HpState.code : HpState → Nat
  | .off => 0
  | .init => 1
  | .service => 2

/-- HP_CTX_STATUS.state. -/
def RingState.code : RingState → Nat
  | .disabled => 0
  | .run => 1
  | .error => 2
  | .draining => 3

/-- HP_TRAIN. -/
def State.trainWord (s : State) : Nat :=
  let h := s.hp
  let f := Tbl.getD h.fsps h.fsp {}
  let mr (r : Nat) : Nat := Tbl.getD h.modeRegs (1024 * h.fsp + r) 0
  put 0 14 f.rate + put 14 2 h.fsp + put 16 1 (b2n (Config.bankGroup (mr 3))) + put 17 1 (b2n (Config.wck4to1 (mr 18))) +
  put 18 4 f.trained + put 24 8 Config.portRevision

def State.shownHost (s : State) (o : Nat) : Option Nat :=
  if 0x1000 ≤ o ∧ o < 0x5000 then
    let c := (o - 0x1000) / 0x100
    let r := s.ring c
    let p := s.pool (hostPool c)
    match o % 0x100 with
    | 0x00 => some (r.state.code + put 2 2 r.cause + 16 * b2n (s.sealWait c))
    | 0x04 => some r.sqCons
    | 0x08 => some r.cqProd
    | 0x0C => some (put 0 13 (s.issued c) + put 16 13 (r.outstanding + r.orphans + p.inFlight))
    | 0x10 => some (put 0 13 p.returned + put 16 13 p.size)
    | _ => none
  else match o with
    | 0x00 => some (if s.hp.state = .service then s.hp.state.code + 4 * b2n (!has s.ck.service 7) + 8 * b2n s.alert else 0)
    | 0x04 => some (s.regN Reg.hpCtrl + b2n (s.hp.state = .service))
    | 0x08 => some s.hpEvents
    | 0x10 => some (wordOf (maskOf s.ctxPending) 0)
    | 0x14 => some (wordOf (maskOf s.ctxPending) 1)
    | 0x28 => some s.trainWord
    | 0x44 => some (put 1 2 s.hp.cmdResult)
    | 0xA0 => some (put 0 16 (s.ring mb).sqCons + put 16 16 (s.ring mb).cqProd)
    | _ => none

/-! ### Phirov, sensors, ring (chapter 15) -/

/-- PX_PEER_m. -/
def Peer.word (x : Peer) : Nat :=
  let st := match x.state with
    | .down => 0
    | .joining => 1
    | .up => 2
  put 0 3 x.port + put 3 3 x.peerPort + 64 * b2n x.valid + put 8 2 st + put 16 16 x.session

def State.shownPhirov (s : State) (o : Nat) : Option Nat :=
  let x := s.px
  if 0x8000 ≤ o ∧ o < 0x9000 then some (s.peer ((o - 0x8000) / 4)).word
  else match elemOf 0x100C 0x100 8 o with
    | some p => some (put 0 11 (s.peersUp p).length + put 11 1 (b2n (has x.linkUp p)) + put 12 1 (b2n (has x.full p)))
    | none =>
      if o = 4 then some (maskOf ((List.range 8).filter (has x.linkUp)) + put 8 8 (maskOf ((List.range 8).filter s.pxOn))) else none

def State.shownIo (s : State) (o : Nat) : Option Nat :=
  let r := s.mr
  if o < 0x40 then
    let l := o / 4
    some (b2n (has s.sn.linkUp l) + 2 * b2n ((l < 12 && s.pw.fabricPaused) || has s.sn.paused l))
  else if 0x100 ≤ o ∧ o < 0x400 then
    let n := (o - 0x100) / 0x10
    let x := s.stream n
    match o % 0x10 with
    | 0x0 => some (match s.binding n with
        | some b => put 0 4 b.lane + 16 + put 5 4 (x.slots.length + b2n x.asm.isSome) + put 9 1 (b2n x.asm.isSome)
        | none => 0)
    | 0x4 => some x.shown
    | _ => none
  else if 0x8100 ≤ o ∧ o < 0x8200 then
    let d := Tbl.getD r.drives ((o - 0x8100) / 4) {}
    some (put 0 8 d.st + put 8 8 d.tickLow + put 16 1 (b2n d.absent))
  else match o with
    | 0x8000 =>
      let st := match r.state with
        | .ok => 0
        | .degraded => 1
        | .lost => 2
      some (st + 4 * b2n r.link0 + 8 * b2n r.link1 + put 4 7 r.reach0 + put 11 7 r.reach1)
    | 0x800C => some (put 0 16 r.trav0 + put 16 16 r.trav1)
    | _ => none

/-! ### Clocks, power, recorder, security (chapters 16–19) -/

/-- CK_CROSS_MODE: the crossings of each group that run in handshake mode. -/
def State.crossMode (s : State) : Nat :=
  let some' (l : List Nat) : Nat := b2n (l.any (fun c => !has s.ck.service c))
  let run (a n : Nat) : List Nat := (List.range n).map (· + a)
  some' [3, 6] + 2 * some' [0, 1, 2] + 4 * some' [4] + 8 * some' [5] + 16 * some' [7] + 32 * some' [8] + 64 * some' [9] +
  128 * some' (run 16 8) + 256 * some' (run 24 16) + 512 * some' [40, 41]

/-- Ports whose SerDes PLL CK_STATUS covers: the enabled Phirov ports, the sensor lanes and the ring ports. -/
def State.serdesOk (s : State) : Bool :=
  s.ck.serdesBad.all (fun t => t < 8 && !s.pxOn t)

/-- PW_STATUS.supply. -/
def Supply.code : Supply → Nat
  | .normal => 0
  | .dip => 1
  | .recovering => 2
  | .shutdown => 3

def State.shownClocks (s : State) (o : Nat) : Option Nat :=
  let p := s.pw
  match o with
  | 0x000 => some (b2n s.ck.tcxoOk + 2 * b2n s.ck.motionLock + 4 * b2n s.ck.fabricLock +
      8 * b2n ([0, 1, 2, 3, 4, 5].all (has s.ck.hbmLock)) + 16 * b2n (s.serdesOk && s.ck.motionLock))
  | 0x00C => some (match s.ck.cdcLast with
      | some x => put 0 6 x.1 + put 6 1 x.2 + 2 ^ 31
      | none => 0)
  | 0x010 => some s.crossMode
  | 0x100 => some (p.supply.code + 4 * b2n p.onHoldup + 8 * b2n p.holdupLow + 16 * b2n s.capField + 32 * b2n p.capUnmet +
      64 * b2n (6200 < p.inputV))
  | 0x104 => some (put 0 16 p.inputV)
  | 0x10C => some (put 0 16 p.inputP)
  | 0x110 => some (put 0 16 p.holdup)
  | 0x118 => some (max p.capLevel p.thermLevel)
  | 0x11C => some (put 0 16 p.lastDipMin + put 16 16 (min p.lastDipBelow 0xFFFF))
  | 0x128 => some (b2n p.cold + 2 * b2n p.wasShutdown + 4 * b2n p.wasClockFailure + put 16 16 p.fabricResets)
  | 0x130 => some (b2n p.resetBusy + put 1 2 p.resetResult + put 3 7 p.resetDomain)
  | 0x134 => some (put 0 4 p.stage + 16 * b2n p.recovery + put 16 16 p.toHostMs)
  | 0x200 =>
    let st := match p.thermal with
      | .normal => 0
      | .throttling => 1
      | .fabricHeld => 2
    some (twos 8 (p.fabricT / 10) + put 8 8 (twos 8 (p.motionT / 10)) + put 16 8 (twos 8 (p.faceT / 10)) + put 24 2 st)
  | _ => none

/-- Word i of a latch window. -/
def Latch.word (x : Latch) (i : Nat) : Nat := leAt x.data (4 * i) 4
def Latch.statusWord (x : Latch) : Nat := put 0 3 x.status + 8 * b2n x.busy

def State.shownRecorder (s : State) (o : Nat) : Option Nat :=
  let e := s.ev
  let x := s.latch 64
  if 0x40 ≤ o ∧ o < 0x80 then some (x.word ((o - 0x40) / 4))
  else match o with
    | 0x00 => some (b2n (s.storeRuns && !e.buffer.isEmpty) + 2 * b2n e.full + 4 * b2n (1048576 < e.flushed) + put 16 13 e.buffer.length)
    | 0x04 => some (wordOf e.head 0)
    | 0x08 => some (wordOf e.head 1)
    | 0x0C => some (wordOf e.oldest 0)
    | 0x10 => some (wordOf e.oldest 1)
    | 0x14 => some e.opSeconds
    | 0x18 => some e.powerCycles
    | 0x1C => some (put 0 9 e.pendingLive.length)
    | 0x30 => some x.statusWord
    | 0x34 => some (sumN ((List.range 4).map (fun g => put (5 * g) 5 (Tbl.getD e.retraining g 0x1F))))
    | 0x38 => some (maskOf e.portDown)
    | _ => none

/-- The recorder's registers of a context view. -/
def State.shownCtx (s : State) (c o : Nat) : Option Nat :=
  let x := s.latch c
  if 0x840 ≤ o ∧ o < 0x880 then some (x.word ((o - 0x840) / 4))
  else match o with
    | 0x800 => some (wordOf s.ev.head 0)
    | 0x804 => some (wordOf s.ev.head 1)
    | 0x810 => some x.statusWord
    | _ => none

def State.shownIdent (s : State) (o : Nat) : Option Nat :=
  match o with
  | 0x00 => some (0x0016 + put 16 8 Config.siliconRevision + put 24 8 1)
  | 0x04 => some (leAt (s.otp 0).shadow 36 4)
  | 0x08 => some (leAt (s.otp 0).shadow 40 4)
  | 0x0C => some (s.lifecycle + put 2 3 (s.otp 1).current)
  | _ => none

/-- OT_GROUP_g. -/
def State.groupWord (s : State) (g : Nat) : Nat :=
  let x := s.otp g
  put 0 3 x.current + put 3 3 x.consumed + 64 * b2n ((Tbl.getD x.gens 4 {}).consumed) + 128 * b2n x.pending + 256 * b2n x.checkFail

def State.shownSecurity (s : State) (o : Nat) : Option Nat :=
  let u := s.sec.update
  if 0x10 ≤ o ∧ o < 0x24 then
    let k := s.fwClass ((o - 0x10) / 4 + 1)
    some (put 0 16 k.build + put 16 16 k.epoch)
  else if 0x100 ≤ o ∧ o < 0x120 then some (s.groupWord ((o - 0x100) / 4))
  else match o with
    | 0x00 => some (s.lifecycle + 4 * b2n s.pw.recovery + 8 * b2n s.sec.debugOpen +
        16 * b2n (s.sec.otpRunning || !s.sec.otpQueue.isEmpty))
    | 0x0C =>
      let ph := match u.phase with
        | .idle => 0
        | .stage => 1
        | .apply => 2
        | .commit => 3
      some (ph + put 2 3 u.cls + put 5 5 u.unit + put 10 5 u.done.length + put 15 1 (b2n u.rollback) + put 16 16 u.build)
    | _ => none

/-! ### A register's value -/

/-- The value of a register that its unit computes, by block (R51). -/
def State.shown (s : State) (a : Nat) : Option Nat :=
  if a < 0x10000 then s.shownIdent a
  else if a < 0x20000 then s.shownHost (a - 0x10000)
  else if a < 0x30000 then s.shownLedger (a - 0x20000)
  else if a < 0x100000 then none
  else if a < 0x200000 then s.shownMill ((a - 0x100000) / 0x10000) (a % 0x10000)
  else if a < 0x300000 then s.shownLeat (a - 0x200000)
  else if a < 0x400000 then s.shownTiers (a - 0x300000)
  else if a < 0x500000 then (if a < 0x420000 then s.shownBolter ((a - 0x400000) / 0x10000) (a % 0x10000) else none)
  else if a < 0x503000 then s.shownGov (a - 0x500000)
  else if a < 0x504000 then s.shownFusion (a - 0x503000)
  else if a < 0x600000 then s.shownSolver (a - 0x504000)
  else if a < 0x700000 then s.shownTime (a - 0x600000)
  else if a < 0x780000 then s.shownPhirov (a - 0x700000)
  else if a < 0x800000 then s.shownIo (a - 0x780000)
  else if a < 0x900000 then s.shownClocks (a - 0x800000)
  else if a < 0xA00000 then s.shownRecorder (a - 0x900000)
  else if a < 0xB00000 then s.shownSecurity (a - 0xA00000)
  else if a < 0xC00000 then s.shownLoader (a - 0xB00000)
  else if 0x1000000 ≤ a ∧ a < 0x5000000 then s.shownCtx ((a - 0x1000000) / 0x100000) (a % 0x100000)
  else none

/-- The value a read of a register returns before any capture: zero for a write-only register and where no register stands
(R21, R23). -/
def State.regValue (s : State) (a : Nat) : Word :=
  match regRow (regAddr a) with
  | none => 0
  | some r =>
    if r.access = .wo then 0
    else match s.shown (regAddr a) with
      | some n => word n
      | none => s.reg (regAddr a)

end Sys2Proof.Machine
end

