-- ==== Sys2Proof/Machine/HostRegs.lean ====
section
/-!
DEFINITION. Register accesses: writes by access type with the actions of command registers, reads with what they capture and
clear (R19–R24, R373, R374).
-/
namespace Sys2Proof.Machine

/-- The state that an action answers, or the one it started from. -/
def stateOf (o : Out) (s : State) : State :=
  match o with
  | .next t => t
  | _ => s

/-! ### Writes of RW registers -/

/-- The value of TM_PORT_CFG_p that a write of `v` leaves: ports 8–25 are masters, and domain and log_pdelay follow the field
map. -/
def portCfgValue (p v : Nat) : Nat :=
  put 0 1 v + put 1 2 (if 8 ≤ p then 1 else v / 2) + put 4 4 (v / 16) +
  put 8 4 (if 8 ≤ p ∧ p < 24 then 0 else v / 256) + put 12 7 (if 8 ≤ p ∧ p < 24 then v / 4096 else 0)

/-- A write of an RW register (R21) with what its own rule adds. HP_CTX_CFG and HP_CTX_POND are written while the ring is
DISABLED, PX_GRANT while the port is disabled. -/
def State.writeRw (s : State) (a v mask : Nat) : State :=
  if a = Reg.hpCtrl then s.writeHpCtrl v
  else if a = Reg.tmCtrl then stateOf (execTmCtrlSourceWrite v s) s
  else if a = Reg.tmTickPhase then stateOf (execTmTickPhaseWrite v s) s
  else if a = Reg.pxModuleId then stateOf (execPxModuleIdWrite v s) s
  else if a = Reg.mrCfg then stateOf (execMrCfgWrite v s) s
  else if a = Reg.pwCap then stateOf (execPwCap v s) s
  else if a = Reg.evRdSeqHi then stateOf (execEvRdSeqHiWrite v s) s
  else if a = Reg.hpEventEn then s.setReg a (word v &&& 0x1F3F)
  else match elemOf (Reg.hpCtxCfg 0) 0x100 64 a, elemOf (Reg.hpCtxPond 0) 0x100 64 a, elemOf (Reg.evCtxSelHi 0) 0x100000 64 a,
      elemOf (Reg.pxPortCfg 0) 0x100 8 a, elemOf (Reg.pxGrantA 0) 0x100 8 a, elemOf (Reg.pxGrantB 0) 0x100 8 a,
      elemOf (Reg.pxPeer 0) 4 1024 a, elemOf (Reg.tmPortCfg 0) 0x20 26 a with
    | some c, _, _, _, _, _, _, _ => if (s.ring c).state = .disabled then s.setReg a (word v &&& word mask) else s
    | _, some c, _, _, _, _, _, _ => if (s.ring c).state = .disabled then s.setReg a (word v &&& word mask) else s
    | _, _, some c, _, _, _, _, _ => stateOf (execEvCtxSelHiWrite c v s) s
    | _, _, _, some p, _, _, _, _ =>
      stateOf (if bitN v 0 then execPhirovPortEnable p v s else execPhirovPortDisable p v s) s
    | _, _, _, _, some p, _, _, _ => if s.pxOn p then s else s.setReg a (word v &&& word mask)
    | _, _, _, _, _, some p, _, _ => if s.pxOn p then s else s.setReg a (word v &&& word mask)
    | _, _, _, _, _, _, some m, _ => stateOf (execPxPeerWrite m v s) s
    | _, _, _, _, _, _, _, some p => s.setReg a (word (portCfgValue p v))
    | _, _, _, _, _, _, _, _ => s.setReg a (word v &&& word mask)

/-! ### Command registers (WO) -/

/-- HP_CTX_CMD. -/
def State.ctxCmd (s : State) (v : Nat) : State :=
  match fldN v 9 8 with
  | 1 => s.ctxEnable (v % 64)
  | 2 => s.ctxDisable (v % 64)
  | 3 => s.ctxReset (v % 64)
  | _ => s

/-- MP_CMD. -/
def State.loaderCmd (s : State) (v : Nat) : State :=
  let m := fldN v 7 4
  match v % 16 with
  | 1 => stateOf (execCopyVerify s) s
  | 2 => stateOf (execLoad s) s
  | 3 => stateOf (execPreload s) s
  | 4 => stateOf (execSwap s) s
  | 5 => stateOf (execDiscard s) s
  | 6 => stateOf (execUnload s) s
  | 7 => stateOf (execEvacuate m s) s
  | 8 => stateOf (execRestore m s) s
  | _ => s

/-- MT_CMD. -/
def State.tierCmd (s : State) (v : Nat) : State :=
  match v % 16 with
  | 1 => stateOf (execPurge (fldN v 9 4) s) s
  | 2 => stateOf (execCommit s) s
  | _ => s

/-- GV_CMD. -/
def State.govCmd (s : State) (v : Nat) : State :=
  match v % 16 with
  | 1 => stateOf (execEnable s) s
  | 2 => stateOf (execHold s) s
  | 3 => stateOf (execRelease s) s
  | 4 => stateOf (execStop s) s
  | 5 => stateOf (execClearSto s) s
  | 6 => stateOf (execReadmit (fldN v 5 4) s) s
  | _ => { s with gov := { s.gov with cmdIgnored := true } }

/-- TM_CMD. -/
def State.timeCmd (s : State) (v : Nat) : State :=
  match v % 16 with
  | 1 => stateOf (execTimeSet s) s
  | 2 => stateOf (execReacquire s) s
  | _ => { s with tm := { s.tm with cmdIgnored := true } }

/-- The action of a WO register (R21). -/
def State.writeWo (s : State) (a v : Nat) : State :=
  if a = Reg.lgSnapCtrl then stateOf (execLgSnapCtrl v s) s
  else if a = Reg.hpCtxCmd then s.ctxCmd v
  else if a = Reg.hpMbSqDb then s.announce mb v
  else if a = Reg.hpMbCqDb then s.acknowledge mb v
  else if a = Reg.mpCmd then s.loaderCmd v
  else if a = Reg.mtCmd then s.tierCmd v
  else if a = Reg.gvCmd then s.govCmd v
  else if a = Reg.tmCmd then s.timeCmd v
  else if a = Reg.pwResetCmd then stateOf (execPwResetCmd v s) s
  else match elemOf (Reg.hpCtxSqDb 0) 0x100000 64 a, elemOf (Reg.hpCtxCqDb 0) 0x100000 64 a with
    | some c, _ => s.announce c v
    | _, some c => s.acknowledge c v
    | _, _ => s

/-! ### W1C and W1S registers (R21, R22) -/

/-- Bits cleared, then those set that events set in the same cycle (R22). What a bit stands for goes with it: LG_FAULT_POOL with
LG_FAULT, CK_CDC_LAST with its bit. -/
def State.clearBits (s : State) (a v ev : Nat) : State :=
  let s := s.setReg a ((s.reg a &&& ~~~ word v) ||| word ev)
  if a = Reg.lgFault ∧ bitN v 0 ∧ bitN ev 0 = false then { s with ledger := { s.ledger with faultPool := none } }
  else if a = Reg.ckEvents ∧ bitN v 3 ∧ bitN ev 3 = false then { s with ck := { s.ck with cdcLast := none } }
  else s

/-! ### One register written -/

/-- A write of the register at a window address, as its access type says (R21, R23). -/
def State.writeReg (s : State) (a v : Nat) : State :=
  let r := regAddr a
  match accessAt a, regRow r with
  | some .rw, some row => s.writeRw r v row.mask
  | some .wo, _ => s.writeWo r v
  | some .w1c, _ => s.clearBits r v 0
  | some .w1s, some row => s.setReg r (s.reg r ||| (word v &&& word row.mask))
  | _, _ => s

/-! ### Reads -/

/-- Low words of the 64-bit pairs: a read captures the high word (R19, R470, HP_CTX_CRED). -/
def lowWord (r : Nat) : Bool :=
  r = Reg.lgReclaimTotalLo || r = Reg.mpPlanIdLo || r = Reg.mtMapEntryLo || r = Reg.gvCycleLo || r = Reg.fuDesyncLo ||
  r = Reg.tmGmIdLo || r = Reg.hpPendingLo || r = Reg.evHeadLo || r = Reg.evOldestLo || r = Reg.scIdSerialLo ||
  (elemOf (Reg.blGridTimeLo 0) 0x10000 2 r).isSome || (elemOf (Reg.evCtxHeadLo 0) 0x100000 64 r).isSome ||
  r = Reg.evRdSeqLo || (elemOf (Reg.evCtxSelLo 0) 0x100000 64 r).isSome ||
  (elemOf (Reg.hpCtxCredA 0) 0x100 64 r).isSome

/-- An RC register after it has been read: what events of the same cycle leave (R22). Cleared, a register is back at its Reset value,
which for PW_SUPPLY_MIN, a minimum, is 0x0000FFFF and not 0: DESIGN CHOICE (log entry 2). -/
def State.clearRc (s : State) (r ev : Nat) : State :=
  if ev = 0 then { s with regs := Tbl.erase s.regs r } else s.setReg r (word ev)

/-- A read of the register at a window address: the value, and the state with what the read captures, uses up or clears
(R19, R21, R22, R346). -/
def State.readReg (s : State) (a ev : Nat) : Word × State :=
  let r := regAddr a
  if r = Reg.tmNowNs then (word (s.captureTime false).1, (s.captureTime false).2)
  else if r = Reg.tmPpsCapNs then (word (s.captureTime true).1, (s.captureTime true).2)
  else if lowWord r then (s.regValue a, { s with hold := Tbl.set s.hold (r + 4) (s.regValue (a + 4)) })
  else match Tbl.find s.hold r with
    | some w => (w, { s with hold := Tbl.erase s.hold r })
    | none =>
      if accessAt a = some .rc then (s.regValue a, s.clearRc r ev)
      else (s.regValue a, s)

/-- The data that the last access returned. -/
def State.answer (s : State) (ws : List Word) : State := { s with hp := { s.hp with readData := ws } }

/-! ### The commands -/

/-- REGISTER_WRITE (R21, R23): an RW register takes the value; a register of another type, and an offset where none stands, is
left as it was. -/
def execRegisterWrite (a v : Nat) (s : State) : Out :=
  match accessAt a, regRow (regAddr a) with
  | some .rw, some row => .next (s.released (s.writeRw (regAddr a) v row.mask))
  | _, _ => .next s

/-- W1C_WRITE (R21, R22). -/
def execW1cWrite (a v ev : Nat) (s : State) : Out :=
  match accessAt a with
  | some .w1c => .next (s.released (s.clearBits (regAddr a) v ev))
  | _ => .next s

/-- W1S_WRITE (R21). -/
def execW1sWrite (a v : Nat) (s : State) : Out :=
  match accessAt a, regRow (regAddr a) with
  | some .w1s, some row =>
    .next (s.released (s.setReg (regAddr a) (s.reg (regAddr a) ||| (word v &&& word row.mask))))
  | _, _ => .next s

/-- RC_READ (R21, R22). -/
def execRcRead (a ev : Nat) (s : State) : Out :=
  match accessAt a with
  | some .rc => .next ((s.clearRc (regAddr a) ev).answer [s.regValue a])
  | _ => .next s

/-- CAPTURE_READ_LOW_WORD (R19). -/
def execCaptureReadLowWord (a : Nat) (s : State) : Out :=
  if lowWord (regAddr a) || regAddr a = Reg.tmNowNs || regAddr a = Reg.tmPpsCapNs then
    let r := s.readReg a 0
    .next (r.2.answer [r.1])
  else .next s

/-- LG_FAULT_CLEAR (R21, R41): the flags are cleared and LG_FAULT_POOL with them; no stopped pipeline restarts. -/
def execLgFaultClear (v : Nat) (s : State) : Out := .next (s.released (s.clearBits Reg.lgFault v 0))

end Sys2Proof.Machine
end

