-- ==== Sys2Proof/Machine/Burst.lean ====
section
/-!
DEFINITION. READ and WRITE bursts of the host port: window addresses, registers, ring windows, mailbox area, host pond, stray
accesses (R370–R380).
-/
namespace Sys2Proof.Machine

/-! ### The window map (R370, R376, R377) -/

/-- The window address of a burst (R370). -/
def burstAddr (row bank ch col : Nat) : Nat :=
  row % 16384 * 2 ^ 17 + bank % 16 * 2 ^ 13 + ch % 4 * 2 ^ 11 + col / 16 % 64 * 32

/-- A window address inside a register range. -/
def inRegs (a : Nat) : Bool := a < 0x05000000

/-- The ring and the offset in its submission window. -/
def sqWindow (a : Nat) : Option (Nat × Nat) :=
  if 0x01000000 ≤ a ∧ a < 0x05000000 ∧ 0x10000 ≤ a % 0x100000 ∧ a % 0x100000 < 0x80000 then
    some ((a - 0x01000000) / 0x100000, a % 0x100000 - 0x10000)
  else if 0x08000000 ≤ a ∧ a < 0x08010000 then some (mb, a - 0x08000000)
  else none

/-- The ring and the offset in its completion window. -/
def cqWindow (a : Nat) : Option (Nat × Nat) :=
  if 0x01000000 ≤ a ∧ a < 0x05000000 ∧ 0x80000 ≤ a % 0x100000 ∧ a % 0x100000 < 0xF0000 then
    some ((a - 0x01000000) / 0x100000, a % 0x100000 - 0x80000)
  else if 0x08010000 ≤ a ∧ a < 0x08018000 then some (mb, a - 0x08010000)
  else none

/-- A window address in the data area of the mailbox, or in the host pond. -/
def inSram (a : Nat) : Bool := (0x08000000 ≤ a && a < 0x0C000000) || (0x40000000 ≤ a && a < 0x44000000)

/-- Bytes of the ring windows that the configured depths back (R377); a depth out of its range backs none. -/
def State.sqBytes (s : State) (c : Nat) : Nat :=
  let k := fld (s.reg (Reg.hpCtxCfg c)) 3 0
  if c = mb ∨ (6 ≤ k ∧ k ≤ 11) then 64 * s.sqDepth c else 0
def State.cqBytes (s : State) (c : Nat) : Nat :=
  let k := fld (s.reg (Reg.hpCtxCfg c)) 7 4
  if c = mb ∨ (6 ≤ k ∧ k ≤ 12) then 32 * s.cqDepth c else 0

/-! ### Stray accesses (R379) -/

/-- A stray access: counted, its address kept, and recorded at most once per second. -/
def State.strayAt (s : State) (a : Nat) : State :=
  let first := s.ev.straySince = 0
  let s := if bitN (s.regN Reg.hpEvents) 0 then s else s.setReg Reg.hpStrayAddr (word a)
  let s := (s.bump Reg.hpStrayCount 1).raise Reg.hpEvents 1
  let s := { s with ev := { s.ev with straySince := s.ev.straySince + 1
                                      strayFirst := if first then a else s.ev.strayFirst } }
  let due := match s.ev.strayLast with
    | none => true
    | some t => decide (t + 1000000000 ≤ s.now)
  if due then
    let s := s.record 14 1 0x13 0xFF 0 (le 4 s.ev.straySince ++ le 4 s.ev.strayFirst)
    { s with ev := { s.ev with strayLast := some s.now, straySince := 0 } }
  else s

/-! ### READ (R371, R373, R375) -/

/-- Eight registers read at one instant: a pair in one burst is consistent. -/
def State.readWords (s : State) (a : Nat) : Nat → List Word × State
  | 0 => ([], s)
  | n + 1 =>
    let r := s.readReg a 0
    let t := r.2.readWords (a + 4) n
    (r.1 :: t.1, t.2)

/-- Eight zero words. -/
def zeroBurst : List Word := List.replicate 8 0

/-- A READ in SERVICE at a window address. -/
def State.readAt (s : State) (a : Nat) : State :=
  let ram (n off : Nat) : State := if off < n then s.answer (burstWords (s.mem.sram.readBytes a 32)) else s.answer zeroBurst
  let t := match sqWindow a, cqWindow a with
    | some w, _ => ram (s.sqBytes w.1) w.2
    | _, some w => ram (s.cqBytes w.1) w.2
    | _, _ =>
      if inRegs a then (s.readWords a 8).2.answer (s.readWords a 8).1
      else if inSram a then ram 1 0
      else (s.strayAt a).answer zeroBurst
  if has s.hp.bad a then (t.raise Reg.hpEvents 32).answer zeroBurst else t

/-- READ_BURST (R370–R380): no response in OFF or in a low-power mode, zeros in INIT. -/
def execReadBurst (row bank ch col : Nat) (s : State) : Out :=
  if s.hp.listens = false then .next (s.answer [])
  else if s.hp.state = .init then .next (s.answer zeroBurst)
  else .next (s.released (s.readAt (burstAddr row bank ch col)))

/-! ### WRITE (R374, R377, R385) -/

/-- The 4 mask bits of word i of a burst. -/
def maskWord (mask i : Nat) : Nat := mask / 2 ^ (4 * i) % 16

/-- Word i of a burst: written where all its bytes are unmasked, counted where some are masked and a register stands there
(R374); `only` limits the writes to one address. -/
def State.writeWord (s : State) (a : Nat) (data : Bytes) (mask : Nat) (only : Option Nat) (i : Nat) : State :=
  let w := a + 4 * i
  let m := maskWord mask i
  if (match only with
      | some x => w ≠ x
      | none => false) || m = 15 then s
  else if m = 0 then s.writeReg w (leAt data (4 * i) 4)
  else if (regRow (regAddr w)).isSome then (s.bump Reg.hpPartialCount 1).raise Reg.hpEvents 2
  else s

/-- The eight words of a burst. -/
def State.writeWords (s : State) (a : Nat) (data : Bytes) (mask : Nat) (only : Option Nat) : State :=
  [0, 1, 2, 3, 4, 5, 6, 7].foldl (fun s i => s.writeWord a data mask only i) s

/-- The bytes of a burst after a masked write over what stood there. -/
def mergeBytes (old data : Bytes) (mask : Nat) : Bytes :=
  (List.range 32).map (fun i => if bitN mask i then nth old i 0 else nth data i 0)

/-- A masked write of a burst of SRAM. A full burst replaces a word that held an uncorrectable error. -/
def State.writeRam (s : State) (a : Nat) (data : Bytes) (mask : Nat) : State :=
  let bs := mergeBytes (s.mem.sram.readBytes a 32) data mask
  { s with mem := { s.mem with sram := s.mem.sram.writeBytes a bs }
           hp := { s.hp with bad := if mask = 0 then remN s.hp.bad a else s.hp.bad } }

/-- A WRITE in SERVICE at a window address. -/
def State.writeAt (s : State) (a : Nat) (data : Bytes) (mask : Nat) : State :=
  match sqWindow a, cqWindow a with
  | some w, _ =>
    if w.2 < s.sqBytes w.1 then
      let s := s.writeRam a data mask
      let r := s.ring w.1
      if mask = 0 then s.setRing w.1 { r with sealed := addN r.sealed a } else s
    else s
  | _, some _ => s
  | _, _ =>
    if inRegs a then
      let s := s.writeWords a data mask none
      if mask = 0 then { s with hp := { s.hp with bad := remN s.hp.bad a } } else s
    else if inSram a then s.writeRam a data mask
    else s.strayAt a

/-- WRITE_BURST (R370–R380): ignored in OFF or in a low-power mode; in INIT only HP_CTRL is written. -/
def execWriteBurst (row bank ch col : Nat) (data : Bytes) (mask : Nat) (s : State) : Out :=
  let a := burstAddr row bank ch col
  let m := mask % 2 ^ 32
  let d := padTo 32 data
  if s.hp.listens = false then .next s
  else if s.hp.state = .init then
    .next (if a = 0x10000 then s.writeWords a d m (some Reg.hpCtrl) else s)
  else .next (s.released (s.writeAt a d m))

end Sys2Proof.Machine
end

