-- ==== Sys2Proof/Machine/Dependability.lean ====
section
/-!
DEFINITION. Ledger faults, scrubbing and what uncorrectable errors do, MILL_TEST, and the failure of an HBM channel or stack
(R41, R457–R464, R512).
-/
namespace Sys2Proof.Machine

/-- LEDGER_FAULT (R41, R460): the counts of a pool are found at values that break R39. Balanced counts are no fault, and a pool
in fault raises none again. -/
def execLedgerFault (p held inFlight parked returned reclaimed : Nat) (s : State) : Out :=
  let x : Pool := { size := (s.pool p).size, held := held, inFlight := inFlight, parked := parked, returned := returned
                    reclaimed := reclaimed }
  if x.balanced ∨ poolReserved p ∨ s.poolFault p then .next s
  else .next ((s.setPool p x).ledgerFault p)

/-! ### Scrubbing (R457, R458, R512) -/

/-- The counter of the corrected errors of a structure (R512); store pages and map entries have none. -/
def ceCounter (code unit : Nat) : Option Nat :=
  match code with
  | 0 | 4 => some Reg.mtCeCount
  | 1 => some (Reg.evCeCount 0)
  | 2 | 3 => some (Reg.evCeCount 1)
  | 7 => some (Reg.evCeCount 2)
  | 8 => some (Reg.evCeCount 3)
  | 9 => some (Reg.evCeCount 4)
  | 10 => some (Reg.evCeCount 5)
  | 11 => some (Reg.evCeCount (6 + unit % 3))
  | 12 => some (Reg.evCeCount (9 + unit % 3))
  | 13 => some (Reg.evCeCount 12)
  | _ => none

/-- A store page's entry becomes LOST, with its record (R222, R238). -/
def State.losePage (s : State) (p ev : Nat) : State :=
  (s.setMap p { s.mapEntry p with state := .lost }).record 5 ev 0x02 0xFF 0 (le 4 p)

/-- A parcel whose payload was struck (R458). -/
def Parcel.struck (p : Parcel) : Parcel :=
  { p with tags := List.replicate p.blocks 255, status := List.replicate p.blocks 0x02 }

/-- What an uncorrectable error in a structure does (R457). -/
def State.strike (s : State) (code unit addr : Nat) : State :=
  match code with
  | 0 | 1 => if unit < 16 then (s.millFault unit 4 0).targetFault unit else s
  | 2 =>
    let q := Tbl.getD s.leat.bufs unit []
    (match q[addr]? with
     | some p => { s with leat := { s.leat with bufs := Tbl.set s.leat.bufs unit (setNth q addr p.struck) } }
     | none => s)
  | 3 => s.resetFabric
  | 4 => if tierOf addr = some .hbm then { s with tiers := s.tiers.setPoison (addr / 64) true } else s
  | 5 => if (s.mapEntry addr).state = .data then s.losePage addr 2 else s
  | 6 => if addr < 4194304 then s.losePage addr 1 else s
  | 7 => { s with hp := { s.hp with bad := addN s.hp.bad (addr / 32 * 32) } }
  | 8 => if poolReserved unit ∨ s.poolFault unit then s else s.ledgerFault unit
  | 9 =>
    let x := s.bolter unit
    if 2 ≤ unit ∨ x.active.isNone then s
    else (s.setBolter unit { x with active := none, gridLost := true }).record 8 2 0 0xFF unit (le 1 1)
  | 10 =>
    (match (s.gq unit).slots[addr]? with
     | some p => s.freeRecord unit ((s.gq unit).recordOf p)
     | none => s)
  | 11 => if unit < 3 then s.isolate unit 4 0 0 0 0 else s
  | 12 => if unit < 3 then s.isolate unit 3 0 0 0 0 else s
  | 13 => { s with ev := { s.ev with buffer := s.ev.buffer.map (fun r => if r.seq = addr then { r with bad := true } else r) } }
  | _ => s

/-- SCRUB_PASS (R457, R458, R512). -/
def execScrubPass (code unit addr corrected : Nat) (ue : Bool) (s : State) : Out :=
  let s := match ceCounter code unit with
    | some a => s.bump a corrected
    | none => s
  if ue ∧ code < 14 then .next ((s.bump Reg.evUeCount 1).strike code unit addr) else .next s

/-! ### MILL_TEST (R464) -/

/-- Spare rows of a mill in use, in one bank. -/
def State.sparesUsed (s : State) (m bank : Nat) : Nat :=
  (s.tiers.repairs.filter (fun r => r.kind = 2 && r.mill = m && r.bank = bank)).length

/-- A failing row mapped to a spare of its bank, where one remains, with its record; and whether it was. -/
def State.mapRow (s : State) (m : Nat) (row : Nat × Nat) : Bool × State :=
  let n := s.sparesUsed m row.1
  if n < 4 ∧ row.1 < 32 then
    let e : Repair := { kind := 2, mill := m, bank := row.1, row := row.2, spare := n }
    (true, ({ s with tiers := { s.tiers with repairs := s.tiers.repairs ++ [e] } }).record 6 4 0 0xFF m e.bytes)
  else (false, s)

/-- Every failing row: how many were mapped, and the state. -/
def State.mapRows (s : State) (m : Nat) : List (Nat × Nat) → Nat × State
  | [] => (0, s)
  | r :: rest =>
    let x := s.mapRow m r
    let y := x.2.mapRows m rest
    (b2n x.1 + y.1, y.2)

/-- MILL_TEST (R464): the mill is reset, its failing rows are mapped, and it is EMPTY where all passed. -/
def execMillTest (idx : Nat) (passed : Bool) (rows : List (Nat × Nat)) (s : State) : Out :=
  match s.mbRequest idx 0x14 with
  | none => .next s
  | some r =>
    let m := leAt r.body 0 1
    if 16 ≤ m ∨ allZero (r.body.drop 1) = false then .next (s.finish r 0x15 0 0)
    else if (s.mill m).state ≠ .evacuated ∧ (s.mill m).state ≠ .empty then .next (s.finish r 0x16 0 0)
    else
      let s := s.resetMill m (s.mill m).state
      let x := s.mapRows m rows
      let ok := passed && x.1 = rows.length
      let s := x.2
      let s := (s.setMill m { s.mill m with state := if ok then .empty else .evacuated, tested := ok }).releaseMills
      let left := 128 - (s.tiers.repairs.filter (fun e => e.kind = 2 && e.mill = m)).length
      let s := (s.record 4 0x20 0 0xFF m (le 1 (b2n ok) ++ le 1 x.1 ++ le 2 left)).raise Reg.evEvents 64
      .next (s.finish r 0 (b2n ok + put 8 8 x.1 + put 16 16 left) 0)

/-! ### HBM channel and stack failures (R459) -/

/-- HBM_STACK_FAILURE (R459): the record and the reset of the fabric group. A station has 12 channels, on stacks of its own (R96, R218);
channel 0xFF is a whole stack. -/
def execHbmStackFailure (station ch stack : Nat) (s : State) : Out :=
  if s.pw.fabricOn ∧ has s.ck.held 4 = false ∧ station < 8 ∧ (ch < 12 ∨ ch = 0xFF) ∧ has (stationStacks station) stack = true then
    .next ((s.record 5 3 0x02 0xFF station (le 1 ch ++ le 1 stack)).resetFabric)
  else .next s

end Sys2Proof.Machine
end

