-- ==== Sys2Proof/Machine/Firmware.lean ====
section
/-!
DEFINITION. Firmware applied unit by unit, returned, and committed (R486–R491).
-/
namespace Sys2Proof.Machine

/-- Every port is to retrain, one of each group at a time (R463, R486). -/
def State.retrainAll (s : State) : State :=
  let ports := (List.range 26).filter (fun t => !has s.ev.portDown t && !s.ev.retraining.any (fun e => e.2 = t))
  let s := { s with ev := { s.ev with retrainWait := ports.foldl addN s.ev.retrainWait } }
  [0, 1, 2, 3].foldl (fun s g => if (Tbl.find s.ev.retraining g).isSome then s else s.retrainNext g) s

/-- The turn of a unit starts (R486): a mill's sluice closes, a lane is isolated, the store controller restarts, the ports
retrain. -/
def State.fwTurn (s : State) : State :=
  let u := s.sec.update
  match u.cls with
  | 1 => s.closeMill u.now
  | 3 => s.fwLaneTurn
  | 4 => { s with tiers := { s.tiers with storeReady := false } }
  | 5 => s.retrainAll
  | _ => s

/-- Whether the turn's procedure has run: the mill is drained, the lane is in service again, the ports have retrained. -/
def State.fwReady (s : State) : Bool :=
  let u := s.sec.update
  match u.cls with
  | 1 => (s.mill u.now).state = .closed && (s.mill u.now).drained
  | 3 => !u.voteCompat || (s.lane u.now).state = .inService
  | 5 => s.ev.retraining.isEmpty && s.ev.retrainWait.all (fun t => 24 ≤ t)
  | _ => true

/-- A loader command holds the sluice of mill m closed. -/
def State.loaderCloses (s : State) (m : Nat) : Bool :=
  match s.loader.state with
  | .swapping => s.replaces m
  | .evacuating | .restoring | .unloading => true
  | _ => false

/-- The turn is over (R486): the sluice reopens with the section unchanged, the store serves again. -/
def State.fwTurnEnd (s : State) : State :=
  let u := s.sec.update
  match u.cls with
  | 1 => if u.phase = .apply ∧ (s.mill u.now).state = .closed ∧ s.loaderCloses u.now = false then s.reopen u.now else s
  | 4 => if u.phase = .apply then { s with tiers := { s.tiers with storeReady := true } } else s
  | 5 => if u.phase = .apply then { s with ev := { s.ev with retrainWait := [] } } else s
  | _ => s

/-- An abort (R488): the turn in progress ends, and the first unit to be returned takes its turn. -/
def State.fwStop (s : State) : State :=
  let s := s.fwTurnEnd.fwAbort
  if s.sec.update.phase = .apply ∧ s.sec.update.cls ≠ 3 then s.fwTurn else s

/-- FW_APPLY (R488, R491): in recovery the image is committed directly and the module restarts from stage ROM. -/
def execFwApply (idx : Nat) (s : State) : Out :=
  match s.fwRequest idx 2 with
  | none => .next s
  | some r =>
    let u := s.sec.update
    if u.staged = false ∨ u.phase ≠ .idle ∨ leAt r.body 1 1 ≠ u.cls then .next (s.finish r 0x16 0 0)
    else
      let s := (s.setFw { u with phase := .apply, req := some idx, unit := s.fwNext u.cls 16 0 }).begin r
      let s := s.fwRecord 2 0
      if s.pw.recovery then
        let s := s.fwCommit
        .next ({ s with pw := { s.pw with recovery := false, stuck := false } }.enterStage 4)
      else if fwUnits u.cls ≤ s.sec.update.unit then .next s.fwCommit
      else .next s.fwTurn

/-- A unit is returned to the committed image (R488). -/
def State.fwReturned (s : State) (k : Nat) (rest : List Nat) : State :=
  let s := s.fwTurnEnd
  let u := s.sec.update
  let s := { s with sec := { s.sec with running := Tbl.erase s.sec.running (u.cls * 32 + k) } }
  let s := s.setFw { u with done := rest }
  if rest = [] then s.fwAborted else if u.cls = 3 ∧ u.voteCompat = false then s else s.fwTurn

/-- The unit in turn, or all three lanes, runs the staged image; the next turn starts, or the update commits (R488). -/
def State.fwUpdated (s : State) : State :=
  let s := s.fwTurnEnd
  let u := s.sec.update
  let us := if u.cls = 3 ∧ u.voteCompat = false then [0, 1, 2] else [u.unit]
  let run := us.foldl (fun t k => Tbl.set t (u.cls * 32 + k) u.build) s.sec.running
  let n := s.fwNext u.cls 16 (if us.length = 3 then 3 else u.unit + 1)
  let s := { s with sec := { s.sec with running := run } }
  let s := s.setFw { u with done := u.done ++ us, unit := n, repeated := false }
  if fwUnits u.cls ≤ n then s.fwCommit else s.fwTurn

/-- FW_UNIT_DONE (R486–R490): the unit whose turn it is runs its new image, or failed to. A mill out of service is skipped. -/
def execFwUnitDone (ok : Bool) (s : State) : Out :=
  let u := s.sec.update
  if u.phase ≠ .apply ∨ s.pw.fabricPaused = true then .next s
  else if u.rollback then
    match u.done with
    | [] => .next s.fwAborted
    | k :: t => if s.fwSkips u.cls k ∨ s.fwReady = true then .next (s.fwReturned k t) else .next s.fwTurn
  else if s.fwSkips u.cls u.unit then
    let n := s.fwNext u.cls 16 (u.unit + 1)
    let s := s.setFw { u with unit := n, repeated := false, skipped := u.skipped ++ [u.unit] }
    if fwUnits u.cls ≤ n then .next s.fwCommit else .next s.fwTurn
  else if ok then (if s.fwReady then .next s.fwUpdated else if u.cls = 1 then .next s.fwTurn else .next s)
  else if u.repeated then .next s.fwStop
  else .next (s.setFw { u with repeated := true })

/-- FW_ABORT (R488). -/
def execFwAbort (idx : Nat) (s : State) : Out :=
  match s.fwRequest idx 3 with
  | none => .next s
  | some r =>
    let u := s.sec.update
    if u.staged = false ∧ u.phase = .idle then .next (s.finish r 0x16 0 0)
    else .next (s.fwStop.finish r 0 (u.build + 65536 * u.done.length) 0)

end Sys2Proof.Machine
end

