-- ==== Sys2Proof/Machine/Stage.lean ====
section
/-!
DEFINITION. STAGE_ITEM (R88): a step of any stage on an item, a stripe or a chunk, by its type and its attention role (R91, R153,
R164, R197).
-/
namespace Sys2Proof.Machine

/-- A step of a stage that is not striped, by its role (R164) and operation. -/
def State.roleStep (s : State) (m i : Nat) (job : StageJob) : Option State :=
  match s.attn m i, job.op with
  | none, .scan n ins => s.scanStep m i job n ins
  | none, _ => s.stageStep m i job
  | some p, .score q slot => if p.role = 1 then s.scoreStep m i p job q slot else none
  | some p, .softmax n x => if p.role = 2 then s.softStep m i p job n x else none
  | some p, .value x slot => if p.role = 3 then s.valueStep m i p job x slot else none
  | some p, .merge xs => if p.role = 5 then s.collectPartial m i p job xs else none
  | some p, .rotary x pos => if p.role = 6 then s.rotaryStep m i p job x pos else none
  | some _, _ => none

/-- A stage begins an item, or has ended it. -/
def State.markItem (s : State) (m i : Nat) (last : Bool) : State :=
  let x := s.mill m
  s.setMill m { x with items := if last then remN x.items i else addN x.items i }

/-- A stripe in progress is finished in PAUSED and while the mill drains, as an item is (R109, R153). -/
def State.stripeWorks (s : State) (m : Nat) : Bool :=
  s.millWorks m || (s.mill m).state = .paused || (s.mill m).state = .closed

/-- STAGE_ITEM (R88): the stage is bound to an operation of its type, it may take a step, and the step begins an item exactly where none
is in progress. -/
def execStageItem (m i : Nat) (job : StageJob) (s : State) : Out :=
  let b := s.millBody m
  let w := stageCfg b i
  if cfgValid w = false ∨ operFits (cfgType w) (cfgParams w = 1) job.op = false then .next s
  else if stageStriped b i then
    (if s.stripeWorks m then .next ((s.stripeStep m i job).getD s) else .next s)
  else if s.stageWorks m i = false ∨ job.first = has (s.mill m).items i then .next s
  else match s.roleStep m i job with
    | some t => .next (t.markItem m i job.last)
    | none => .next s

end Sys2Proof.Machine
end

