-- ==== Sys2Proof/Machine/Dispatch.lean ====
section
/-!
DEFINITION. What each command does: one arm per constructor of `Instr`, each one direct call of its meaning.
-/
namespace Sys2Proof.Machine

/-- The effect of a command on everything but the queue. -/
def exec (i : Instr) (s : State) : Host.Outcome State Fault Refusal :=
  match i with
  | .registerWrite a v => Sys2Proof.Machine.execRegisterWrite a v s
  | .w1cWrite a v ev => Sys2Proof.Machine.execW1cWrite a v ev s
  | .w1sWrite a v => Sys2Proof.Machine.execW1sWrite a v s
  | .rcRead a ev => Sys2Proof.Machine.execRcRead a ev s
  | .captureReadLowWord a => Sys2Proof.Machine.execCaptureReadLowWord a s
  | .ledgerFault p held inFlight parked returned reclaimed => Sys2Proof.Machine.execLedgerFault p held inFlight parked returned reclaimed s
  | .lgFaultClear v => Sys2Proof.Machine.execLgFaultClear v s
  | .lgSnapCtrl v => Sys2Proof.Machine.execLgSnapCtrl v s
  | .snapCaptureDone => Sys2Proof.Machine.execSnapCaptureDone s
  | .innerTick => Sys2Proof.Machine.execInnerTick s
  | .conflictLimitExpiry => Sys2Proof.Machine.execConflictLimitExpiry s
  | .acceptanceWindowClose => Sys2Proof.Machine.execAcceptanceWindowClose s
  | .cycleBoundary qp => Sys2Proof.Machine.execCycleBoundary qp s
  | .voteV1 dev => Sys2Proof.Machine.execVoteV1 dev s
  | .voteV2 cycles dev => Sys2Proof.Machine.execVoteV2 cycles dev s
  | .voteV3 assembly iter extract out dev => Sys2Proof.Machine.execVoteV3 assembly iter extract out dev s
  | .voteV4 r dev => Sys2Proof.Machine.execVoteV4 r dev s
  | .torqueLaunch p err => Sys2Proof.Machine.execTorqueLaunch p err s
  | .launchEntryPlace p time ref => Sys2Proof.Machine.execLaunchEntryPlace p time ref s
  | .supplyWarning v => Sys2Proof.Machine.execSupplyWarning v s
  | .supplyRise v => Sys2Proof.Machine.execSupplyRise v s
  | .supplyFall v => Sys2Proof.Machine.execSupplyFall v s
  | .recoveryQualified v lowest below left => Sys2Proof.Machine.execRecoveryQualified v lowest below left s
  | .holdupTakeover v => Sys2Proof.Machine.execHoldupTakeover v s
  | .supplyReset v => Sys2Proof.Machine.execSupplyReset v s
  | .shutdownStoDone lowest below left => Sys2Proof.Machine.execShutdownStoDone lowest below left s
  | .startQualified v cold => Sys2Proof.Machine.execStartQualified v cold s
  | .overVoltageNotice v => Sys2Proof.Machine.execOverVoltageNotice v s
  | .throttleUpdate p fabric motion face => Sys2Proof.Machine.execThrottleUpdate p fabric motion face s
  | .pwCap v => Sys2Proof.Machine.execPwCap v s
  | .thermalThrottle t => Sys2Proof.Machine.execThermalThrottle t s
  | .thermalFabricReset t => Sys2Proof.Machine.execThermalFabricReset t s
  | .thermalShutdown t => Sys2Proof.Machine.execThermalShutdown t s
  | .thermalRelease motion t => Sys2Proof.Machine.execThermalRelease motion t s
  | .srReseed m pass => Sys2Proof.Machine.execSrReseed m pass s
  | .stageItem m st job => Sys2Proof.Machine.execStageItem m st job s
  | .tailraceEmit m st wait => Sys2Proof.Machine.execTailraceEmit m st wait s
  | .weirAdmit w dest wait => Sys2Proof.Machine.execWeirAdmit w dest wait s
  | .routerHop k out input wait => Sys2Proof.Machine.execRouterHop k out input wait s
  | .hopperWrite dest loop m cycles => Sys2Proof.Machine.execHopperWrite dest loop m cycles s
  | .slotFree m q => Sys2Proof.Machine.execSlotFree m q s
  | .creditArrive p w => Sys2Proof.Machine.execCreditArrive p w s
  | .parcelHeaderError => Sys2Proof.Machine.execParcelHeaderError s
  | .coreHeartbeat m => Sys2Proof.Machine.execCoreHeartbeat m s
  | .watchdogExpiry m => Sys2Proof.Machine.execWatchdogExpiry m s
  | .millUncorrectable m => Sys2Proof.Machine.execMillUncorrectable m s
  | .scrubPass code unit addr corrected ue => Sys2Proof.Machine.execScrubPass code unit addr corrected ue s
  | .copyVerify => Sys2Proof.Machine.execCopyVerify s
  | .copyDone => Sys2Proof.Machine.execCopyDone s
  | .verifyDone => Sys2Proof.Machine.execVerifyDone s
  | .load => Sys2Proof.Machine.execLoad s
  | .preload => Sys2Proof.Machine.execPreload s
  | .preloadDone => Sys2Proof.Machine.execPreloadDone s
  | .swap => Sys2Proof.Machine.execSwap s
  | .drainComplete m => Sys2Proof.Machine.execDrainComplete m s
  | .drainTimeout m => Sys2Proof.Machine.execDrainTimeout m s
  | .sectionReplaceApply => Sys2Proof.Machine.execSectionReplaceApply s
  | .discard => Sys2Proof.Machine.execDiscard s
  | .unload => Sys2Proof.Machine.execUnload s
  | .evacuate m => Sys2Proof.Machine.execEvacuate m s
  | .autoEvacuate m => Sys2Proof.Machine.execAutoEvacuate m s
  | .restore m => Sys2Proof.Machine.execRestore m s
  | .stripeStart m st wait => Sys2Proof.Machine.execStripeStart m st wait s
  | .frameBufferStart ingress m st wait => Sys2Proof.Machine.execFrameBufferStart ingress m st wait s
  | .kvWriteStep m st slot seqId layer maxTokens p0 count idx decode fail pages job => Sys2Proof.Machine.execKvWriteStep m st slot seqId layer maxTokens p0 count idx decode fail pages job s
  | .kvReadResume m st slot pos granules idx wait => Sys2Proof.Machine.execKvReadResume m st slot pos granules idx wait s
  | .sequenceClose m st slot => Sys2Proof.Machine.execSequenceClose m st slot s
  | .prefillDispatch m b join => Sys2Proof.Machine.execPrefillDispatch m b join s
  | .attnMergeEmit m st step head wait down job => Sys2Proof.Machine.execAttnMergeEmit m st step head wait down job s
  | .streamStart ctx idx => Sys2Proof.Machine.execStreamStart ctx idx s
  | .streamPause ctx idx => Sys2Proof.Machine.execStreamPause ctx idx s
  | .streamResume ctx idx => Sys2Proof.Machine.execStreamResume ctx idx s
  | .streamReset ctx idx => Sys2Proof.Machine.execStreamReset ctx idx s
  | .streamEnd ctx idx => Sys2Proof.Machine.execStreamEnd ctx idx s
  | .streamExport ctx idx => Sys2Proof.Machine.execStreamExport ctx idx s
  | .streamImport ctx idx => Sys2Proof.Machine.execStreamImport ctx idx s
  | .chunkBoundary stream => Sys2Proof.Machine.execChunkBoundary stream s
  | .chunkEnqueue host ctx idx chunk => Sys2Proof.Machine.execChunkEnqueue host ctx idx chunk s
  | .layerChunkStart stream layer => Sys2Proof.Machine.execLayerChunkStart stream layer s
  | .hoist ctx idx => Sys2Proof.Machine.execHoist ctx idx s
  | .alloc ctx idx first => Sys2Proof.Machine.execAlloc ctx idx first s
  | .free ctx idx => Sys2Proof.Machine.execFree ctx idx s
  | .tierCmdStart ctx idx ch => Sys2Proof.Machine.execTierCmdStart ctx idx ch s
  | .hoistPageDone ch fault miss slot => Sys2Proof.Machine.execHoistPageDone ch fault miss slot s
  | .tierRequest mill stage id cls write hbm pond len => Sys2Proof.Machine.execTierRequest mill stage id cls write hbm pond len s
  | .tierRequestDone mill stage id ue => Sys2Proof.Machine.execTierRequestDone mill stage id ue s
  | .tierLateExpiry mill stage id => Sys2Proof.Machine.execTierLateExpiry mill stage id s
  | .purge ctx => Sys2Proof.Machine.execPurge ctx s
  | .commit => Sys2Proof.Machine.execCommit s
  | .hbmRowRepair station channel bank row pages => Sys2Proof.Machine.execHbmRowRepair station channel bank row pages s
  | .hbmRepairDone => Sys2Proof.Machine.execHbmRepairDone s
  | .batch ctx idx => Sys2Proof.Machine.execBatch ctx idx s
  | .batchStart b => Sys2Proof.Machine.execBatchStart b s
  | .checkingEnd b late => Sys2Proof.Machine.execCheckingEnd b late s
  | .batchDeadline b tested late => Sys2Proof.Machine.execBatchDeadline b tested late s
  | .gridPublish b n stamp => Sys2Proof.Machine.execGridPublish b n stamp s
  | .pyramidBuildDone b failed => Sys2Proof.Machine.execPyramidBuildDone b failed s
  | .pyramidActivate b => Sys2Proof.Machine.execPyramidActivate b s
  | .resultEmit b => Sys2Proof.Machine.execResultEmit b s
  | .clearWatch ctx idx => Sys2Proof.Machine.execClearWatch ctx idx s
  | .repairBatch b addr => Sys2Proof.Machine.execRepairBatch b addr s
  | .enable => Sys2Proof.Machine.execEnable s
  | .hold => Sys2Proof.Machine.execHold s
  | .release => Sys2Proof.Machine.execRelease s
  | .stop => Sys2Proof.Machine.execStop s
  | .clearSto => Sys2Proof.Machine.execClearSto s
  | .readmit l => Sys2Proof.Machine.execReadmit l s
  | .laneResetDone l => Sys2Proof.Machine.execLaneResetDone l s
  | .laneCopyDone l ok => Sys2Proof.Machine.execLaneCopyDone l ok s
  | .shadowPass l => Sys2Proof.Machine.execShadowPass l s
  | .singleLaneTimeout => Sys2Proof.Machine.execSingleLaneTimeout s
  | .govifRecordArrive q cycles => Sys2Proof.Machine.execGovifRecordArrive q cycles s
  | .holdLastExpiry q => Sys2Proof.Machine.execHoldLastExpiry q s
  | .planRecordArrive q cycles => Sys2Proof.Machine.execPlanRecordArrive q cycles s
  | .syncReceive p origin corr cap => Sys2Proof.Machine.execSyncReceive p origin corr cap s
  | .pdelayExchange p t1 t2 t3 t4 r => Sys2Proof.Machine.execPdelayExchange p t1 t2 t3 t4 r s
  | .announceReceive p p1 cls acc var p2 id steps src => Sys2Proof.Machine.execAnnounceReceive p p1 cls acc var p2 id steps src s
  | .referenceTimeout announce => Sys2Proof.Machine.execReferenceTimeout announce s
  | .syncTransmit p cap rate => Sys2Proof.Machine.execSyncTransmit p cap rate s
  | .ppsEdge => Sys2Proof.Machine.execPpsEdge s
  | .ppsTimeout => Sys2Proof.Machine.execPpsTimeout s
  | .holdoverExpired => Sys2Proof.Machine.execHoldoverExpired s
  | .timeSet => Sys2Proof.Machine.execTimeSet s
  | .timeStepApply => Sys2Proof.Machine.execTimeStepApply s
  | .reacquire => Sys2Proof.Machine.execReacquire s
  | .tmTickPhaseWrite v => Sys2Proof.Machine.execTmTickPhaseWrite v s
  | .tmNowCapture pps => Sys2Proof.Machine.execTmNowCapture pps s
  | .timeCopyMismatch da db dc => Sys2Proof.Machine.execTimeCopyMismatch da db dc s
  | .replicaRealign p => Sys2Proof.Machine.execReplicaRealign p s
  | .resetNAssert => Sys2Proof.Machine.execResetNAssert s
  | .hostPortInitReady ms => Sys2Proof.Machine.execHostPortInitReady ms s
  | .hpCtrlService v => Sys2Proof.Machine.execHpCtrlService v s
  | .hostPortDomainReset => Sys2Proof.Machine.execHostPortDomainReset s
  | .modeRegisterWrite ch r v => Sys2Proof.Machine.execModeRegisterWrite ch r v s
  | .modeRegisterRead ch r => Sys2Proof.Machine.execModeRegisterRead ch r s
  | .training kind rate data => Sys2Proof.Machine.execTraining kind rate data s
  | .refresh => Sys2Proof.Machine.execRefresh s
  | .powerDown => Sys2Proof.Machine.execPowerDown s
  | .readBurst row bank ch col => Sys2Proof.Machine.execReadBurst row bank ch col s
  | .writeBurst row bank ch col data mask => Sys2Proof.Machine.execWriteBurst row bank ch col data mask s
  | .hpCtxSqDb ctx v => Sys2Proof.Machine.execHpCtxSqDb ctx v s
  | .entryAccept ctx => Sys2Proof.Machine.execEntryAccept ctx s
  | .sealWaitTimeout ctx => Sys2Proof.Machine.execSealWaitTimeout ctx s
  | .hpCtxCqDb ctx v => Sys2Proof.Machine.execHpCtxCqDb ctx v s
  | .completionWrite => Sys2Proof.Machine.execCompletionWrite s
  | .ctxEnable ctx => Sys2Proof.Machine.execCtxEnable ctx s
  | .ctxDisable ctx => Sys2Proof.Machine.execCtxDisable ctx s
  | .ctxReset ctx => Sys2Proof.Machine.execCtxReset ctx s
  | .chunk ctx idx => Sys2Proof.Machine.execChunk ctx idx s
  | .item ctx idx fmt => Sys2Proof.Machine.execItem ctx idx fmt s
  | .alertHoldoffExpiry => Sys2Proof.Machine.execAlertHoldoffExpiry s
  | .hpMbSqDb v => Sys2Proof.Machine.execHpMbSqDb v s
  | .hpMbCqDb v => Sys2Proof.Machine.execHpMbCqDb v s
  | .pxModuleIdWrite v => Sys2Proof.Machine.execPxModuleIdWrite v s
  | .phirovPortEnable p v => Sys2Proof.Machine.execPhirovPortEnable p v s
  | .pxPeerWrite m v => Sys2Proof.Machine.execPxPeerWrite m v s
  | .linkUp t => Sys2Proof.Machine.execLinkUp t s
  | .helloTimer m => Sys2Proof.Machine.execHelloTimer m s
  | .helloReceive p m dst own echo => Sys2Proof.Machine.execHelloReceive p m dst own echo s
  | .creditReceive p m f => Sys2Proof.Machine.execCreditReceive p m f s
  | .phirovFrameSend m c => Sys2Proof.Machine.execPhirovFrameSend m c s
  | .creditReturnSend m => Sys2Proof.Machine.execCreditReturnSend m s
  | .writeFrameReceive p m f => Sys2Proof.Machine.execWriteFrameReceive p m f s
  | .readFrameReceive p m f => Sys2Proof.Machine.execReadFrameReceive p m f s
  | .responseReceive p m f => Sys2Proof.Machine.execResponseReceive p m f s
  | .collectReceive p m f => Sys2Proof.Machine.execCollectReceive p m f s
  | .pfcReceive p mask => Sys2Proof.Machine.execPfcReceive p mask s
  | .peerLost m cause => Sys2Proof.Machine.execPeerLost m cause s
  | .peerTimeout m => Sys2Proof.Machine.execPeerTimeout m s
  | .linkDownEvent t => Sys2Proof.Machine.execLinkDownEvent t s
  | .collectiveRequest mill stage id g => Sys2Proof.Machine.execCollectiveRequest mill stage id g s
  | .collectiveDone g => Sys2Proof.Machine.execCollectiveDone g s
  | .fragmentReceive l stream format number index offset src bytes first last cap payload => Sys2Proof.Machine.execFragmentReceive l stream format number index offset src bytes first last cap payload s
  | .ingressDeliveryDone stream => Sys2Proof.Machine.execIngressDeliveryDone stream s
  | .ptpMessageReceive p kind domain malformed cap => Sys2Proof.Machine.execPtpMessageReceive p kind domain malformed cap s
  | .ringCopyReturn tick copy port traversal slots => Sys2Proof.Machine.execRingCopyReturn tick copy port traversal slots s
  | .ringReturnDeadline tick => Sys2Proof.Machine.execRingReturnDeadline tick s
  | .mrCfgWrite v => Sys2Proof.Machine.execMrCfgWrite v s
  | .clockCheckFail clock unit => Sys2Proof.Machine.execClockCheckFail clock unit s
  | .referenceAbsent => Sys2Proof.Machine.execReferenceAbsent s
  | .clockRestartAttempt present => Sys2Proof.Machine.execClockRestartAttempt present s
  | .cdcTimeout crossing side => Sys2Proof.Machine.execCdcTimeout crossing side s
  | .domainReset d => Sys2Proof.Machine.execDomainReset d s
  | .fabricGroupReset => Sys2Proof.Machine.execFabricGroupReset s
  | .domainRelease d => Sys2Proof.Machine.execDomainRelease d s
  | .pwResetCmd v => Sys2Proof.Machine.execPwResetCmd v s
  | .bootStageDone bad => Sys2Proof.Machine.execBootStageDone bad s
  | .bootStageOverrun => Sys2Proof.Machine.execBootStageOverrun s
  | .portRetrain t => Sys2Proof.Machine.execPortRetrain t s
  | .portRetrainEnd t up => Sys2Proof.Machine.execPortRetrainEnd t up s
  | .millTest idx passed rows => Sys2Proof.Machine.execMillTest idx passed rows s
  | .evCapture idx => Sys2Proof.Machine.execEvCapture idx s
  | .challenge idx => Sys2Proof.Machine.execChallenge idx s
  | .evClear idx => Sys2Proof.Machine.execEvClear idx s
  | .returnEnter idx => Sys2Proof.Machine.execReturnEnter idx s
  | .liveRecordEnter => Sys2Proof.Machine.execLiveRecordEnter s
  | .recordFlush => Sys2Proof.Machine.execRecordFlush s
  | .coalescedRecord ch => Sys2Proof.Machine.execCoalescedRecord ch s
  | .opSecondsSave => Sys2Proof.Machine.execOpSecondsSave s
  | .evRdSeqHiWrite v => Sys2Proof.Machine.execEvRdSeqHiWrite v s
  | .evCtxSelHiWrite ctx v => Sys2Proof.Machine.execEvCtxSelHiWrite ctx v s
  | .recordLatchDone k => Sys2Proof.Machine.execRecordLatchDone k s
  | .attest idx => Sys2Proof.Machine.execAttest idx s
  | .certRead idx => Sys2Proof.Machine.execCertRead idx s
  | .fwStage idx => Sys2Proof.Machine.execFwStage idx s
  | .fwApply idx => Sys2Proof.Machine.execFwApply idx s
  | .fwUnitDone ok => Sys2Proof.Machine.execFwUnitDone ok s
  | .fwAbort idx => Sys2Proof.Machine.execFwAbort idx s
  | .otpChallenge idx => Sys2Proof.Machine.execOtpChallenge idx s
  | .otpWrite idx => Sys2Proof.Machine.execOtpWrite idx s
  | .otpWriteStart => Sys2Proof.Machine.execOtpWriteStart s
  | .otpWriteDone => Sys2Proof.Machine.execOtpWriteDone s
  | .otpRead idx => Sys2Proof.Machine.execOtpRead idx s
  | .holdupEnd v left => Sys2Proof.Machine.execHoldupEnd v left s
  | .holdupLowChange left => Sys2Proof.Machine.execHoldupLowChange left s
  | .laneWatchdogExpiry l => Sys2Proof.Machine.execLaneWatchdogExpiry l s
  | .asCapableLost p => Sys2Proof.Machine.execAsCapableLost p s
  | .announceTransmit p => Sys2Proof.Machine.execAnnounceTransmit p s
  | .pdelayRequestTransmit p cap => Sys2Proof.Machine.execPdelayRequestTransmit p cap s
  | .powerDownExit => Sys2Proof.Machine.execPowerDownExit s
  | .frameDiscard t => Sys2Proof.Machine.execFrameDiscard t s
  | .phirovPortDisable p v => Sys2Proof.Machine.execPhirovPortDisable p v s
  | .tmCtrlSourceWrite v => Sys2Proof.Machine.execTmCtrlSourceWrite v s
  | .hbmStackFailure station ch stack => Sys2Proof.Machine.execHbmStackFailure station ch stack s

end Sys2Proof.Machine
end

