-- ==== Sys2Proof/Machine/Tick.lean ====
section
/-!
DEFINITION. One edge of the governor clock, which passes when no command waits (DESIGN CHOICE, log entry 1): module time, the
operating seconds, and the token buckets of the weirs.
-/
namespace Sys2Proof.Machine

/-- A time copy advanced by 3.2 ns × (1 + f) (R344): 16 × (2^40 + f) of its units. -/
def advance (f : Int) (c : Nat) : Nat := ((c : Int) + 16 * (2 ^ 40 + f)).toNat

/-- The time base at an edge (R344). -/
def TimeBase.edge (t : TimeBase) : TimeBase := if t.running then { t with copies := t.copies.map (advance t.f) } else t

/-- Edges of the governor clock in one second. -/
def edgesPerSecond : Nat := 312500000

/-- The operating seconds at an edge (R469). -/
def Recorder.edge (r : Recorder) (on : Bool) : Recorder :=
  if on then
    if edgesPerSecond ≤ r.opEdges + 1 then { r with opEdges := 0, opSeconds := r.opSeconds + 1 }
    else { r with opEdges := r.opEdges + 1 }
  else r

/-- The tokens of a weir row, in 1/1,024 parcel, after the four fabric cycles of an edge (R101). -/
def gainTokens (word have' : Nat) : Nat :=
  if rowValid word then min (have' + 4 * rowRate word) (max have' (1024 * rowBurst word)) else have'

/-- The weirs at an edge: their buckets fill while the fabric group is in service (R101). -/
def Leat.edge (l : Leat) (on : Bool) : Leat :=
  if on then { l with tokens := l.tokens.map (fun e => (e.1, gainTokens (Tbl.getD l.rows e.1 0) e.2)) } else l

/-- One edge of the governor clock. -/
def State.edge (s : State) : State :=
  { s with tm := s.tm.edge, ev := s.ev.edge s.pw.motionOn, leat := s.leat.edge (s.pw.fabricOn && !has s.ck.held 4) }

end Sys2Proof.Machine
end

