-- ==== Sys2Proof/Safety.lean ====
section
/-!
DEFINITION. The terms that statements about the module use: what a command does, and what it leaves unchanged.
-/
namespace Sys2Proof.Machine

/-- The parts of the state. -/
inductive Part where
  | regs | hold | mem | ledger | ev | hp | pw | ck | sec | mills | leat | loader | ops
  | streams | tiers | bolters | gov | fus | sol | tm | launch | px | sn | mr | freeN | pending
  deriving DecidableEq, Repr

/-- A part of the state is the same before and after. -/
def State.samePart (s t : State) : Part → Prop
  | .regs => t.regs = s.regs
  | .hold => t.hold = s.hold
  | .mem => t.mem = s.mem
  | .ledger => t.ledger = s.ledger
  | .ev => t.ev = s.ev
  | .hp => t.hp = s.hp
  | .pw => t.pw = s.pw
  | .ck => t.ck = s.ck
  | .sec => t.sec = s.sec
  | .mills => t.mills = s.mills
  | .leat => t.leat = s.leat
  | .loader => t.loader = s.loader
  | .ops => t.ops = s.ops
  | .streams => t.streams = s.streams
  | .tiers => t.tiers = s.tiers
  | .bolters => t.bolters = s.bolters
  | .gov => t.gov = s.gov
  | .fus => t.fus = s.fus
  | .sol => t.sol = s.sol
  | .tm => t.tm = s.tm
  | .launch => t.launch = s.launch
  | .px => t.px = s.px
  | .sn => t.sn = s.sn
  | .mr => t.mr = s.mr
  | .freeN => t.freeN = s.freeN
  | .pending => t.pending = s.pending

/-- Only the listed parts differ. -/
def State.onlyChanges (s t : State) (ps : List Part) : Prop := ∀ p, p ∉ ps → s.samePart t p

/-- Every register but those at the listed addresses keeps its value. -/
def State.regsBut (s t : State) (as : List Nat) : Prop := ∀ a, a ∉ as → t.reg a = s.reg a

/-- The command answers a next state, of which `P` holds. -/
def Does (c : Instr) (s : State) (P : State → Prop) : Prop := ∃ t, exec c s = .next t ∧ P t

/-- The command answers this next state. -/
def Gives (c : Instr) (s t : State) : Prop := exec c s = .next t

/-- A request has completed with a status and a result (R390): it is no longer accepted, and its completion is the newest that
waits to be written. -/
def State.answered (s t : State) (r : Request) (status result : Nat) : Prop :=
  t.hp.requests = s.hp.requests.filter (fun q => !(q.ctx = r.ctx && q.idx = r.idx)) ∧
  ∃ extra time, t.hp.done = s.hp.done ++ [{ req := r, status := status, result := result, extra := extra, time := time }]

/-- `n` bytes at an offset of the mailbox data area (R471). -/
def State.dataAt (s : State) (off n : Nat) : Bytes := s.mem.sram.readBytes (0x08020000 + off) n

/-- The memory of a tier (R48). -/
def Memories.bank (m : Memories) : Tier → Mem
  | .pond => m.pond
  | .host => m.sram
  | .hbm => m.hbm
  | .store => m.store

/-- Every byte of every memory reads as before, but for the `n` bytes of a tier from an address on. -/
def State.memBut (s t : State) (k : Tier) (lo n : Nat) : Prop :=
  ∀ q a, (q ≠ k ∨ a < lo ∨ lo + n ≤ a) → (t.mem.bank q).read a = (s.mem.bank q).read a

/-- The canonical form of the byte memories of the module (R16, R48): addresses rise, and no listed byte equals what an unlisted
address reads as. -/
abbrev State.memOk (s : State) : Prop := s.mem.wf = true

/-- No key-value descriptor stands in the `n` bytes from a local address on (R172). -/
abbrev State.noDescs (s : State) (a n : Nat) : Prop := ∀ e, e ∈ s.ops.seqs → e.1 + 64 ≤ a ∨ a + n ≤ e.1

/-- A frame that port p receives from module m goes on at once: no frame of either waits, its weir admits items, and its row has the
tokens (R102, R413). -/
abbrev State.passesAtOnce (s : State) (p m : Nat) (f : PxFrame) : Prop :=
  (∀ h, h ∈ s.px.rx → h.port ≠ p ∧ h.peer ≠ m) ∧ has s.leat.closing (31 + p) = false ∧
  (s.passWeir (31 + p) f.cls f.ctx (pxParcels f)).1 = pxParcels f

/-- A supply event at an input voltage, in 0.01 V, above the absolute maximum of 80 V (R495). -/
def overRated : Instr → Bool
  | .supplyWarning v | .supplyRise v | .supplyFall v | .recoveryQualified v _ _ _ | .holdupTakeover v | .holdupEnd v _
  | .supplyReset v | .startQualified v _ | .overVoltageNotice v => decide (8000 < v)
  | _ => false

/-- A stage's operation is a recurrent scan, which runs with its stream (R197). -/
def scans : Oper → Bool
  | .scan _ _ => true
  | _ => false

/-- Torque is off: the brake wheel is in STO or STANDBY, or the motion rails are off (R289, R447). -/
def State.torqueOff (s : State) : Prop := s.pw.motionOn = false ∨ s.gov.wheel.state = .sto ∨ s.gov.wheel.state = .standby

end Sys2Proof.Machine
end

