-- ==== Sys2Proof/Certificates/Slice0/Obligations.lean ====
section
/-! DEFINITION. The statements about the model, one `Prop` for each, written from the numbered rules of the
spec. -/

open Sys2Proof Sys2Proof.Machine

/-- With a command at the front of the queue, a step is that command's effect on the state with the queue's rest; on
an empty queue it is one edge of the governor clock, which is the model's choice (log entry 1). (00_scope.md) -/
def Obligations.StepRunsFront : Prop :=
  (∀ (c : Instr) (rest : List Instr) (s : State), step { s with pending := c :: rest } = exec c { s with pending := rest }) ∧
  (∀ s : State, s.pending = [] → step s = .next s.edge)

/-- A write of an RW register that has no rule of its own sets the bits that its field map makes writable and
changes no other register; a write of an address whose register is not RW, or where no register stands, changes
nothing. A write of HP_CTRL, TM_CTRL, TM_TICK_PHASE, PX_MODULE_ID, MR_CFG, PW_CAP or EV_RD_SEQ_HI does what the
command of the table for that register does, and HP_CTX_CFG and HP_CTX_POND are written only while the ring of
their context is DISABLED. No register map of the spec gives a register the access code W1S, so a W1S_WRITE
finds none and changes nothing. (R21; R23; 14_host_port.md; 13_time.md; 15_phirov_and_io.md;
16_clocks_reset_power.md; 17_dependability.md; 00_scope.md) -/
def Obligations.RegisterWrites : Prop :=
  (∀ (a v mask : Nat) (s : State),
    (a, mask) ∈ [(Reg.mpSrcOffset, 0xFFFFFFFF), (Reg.mpSrcLength, 0xFFFFFFFF), (Reg.mpCtrl, 3), (Reg.mtMapIndex, 0x3FFFFF),
      (Reg.tmSetNs, 0xFFFFFFFF), (Reg.tmSetSecLo, 0xFFFFFFFF), (Reg.tmSetSecHi, 0xFFFF), (Reg.tmServo, 0xFFFFFF),
      (Reg.tmStepThreshold, 0xFFFFFFFF), (Reg.tmClockQuality, 0xFFFFFFFF), (Reg.tmPpsDelay, 0xFFFFFFFF),
      (Reg.tmUtcOffset, 0x1FFFF), (Reg.evRdSeqLo, 0xFFFFFFFF)] →
    Does (.registerWrite a v) s (fun t => t.reg a = word v &&& word mask ∧ s.regsBut t [a] ∧ s.onlyChanges t [.regs, .hp])) ∧
  (∀ (a v : Nat) (s : State), accessAt a ≠ some .rw → Gives (.registerWrite a v) s s) ∧
  (∀ (a v : Nat) (c : Instr) (s t : State),
    (a, c) ∈ [(Reg.hpCtrl, .hpCtrlService v), (Reg.tmCtrl, .tmCtrlSourceWrite v), (Reg.tmTickPhase, .tmTickPhaseWrite v),
      (Reg.pxModuleId, .pxModuleIdWrite v), (Reg.mrCfg, .mrCfgWrite v), (Reg.pwCap, .pwCap v), (Reg.evRdSeqHi, .evRdSeqHiWrite v)] →
    exec c s = .next t → Gives (.registerWrite a v) s (s.released t)) ∧
  (∀ (a c v : Nat) (s : State), c < 64 → a = Reg.hpCtxCfg c ∨ a = Reg.hpCtxPond c → (s.ring c).state = .disabled →
    Does (.registerWrite a v) s (fun t => t.reg a = word v &&& 0x1FFFFF ∧ s.regsBut t [a])) ∧
  (∀ (a c v : Nat) (s : State), c < 64 → a = Reg.hpCtxCfg c ∨ a = Reg.hpCtxPond c → (s.ring c).state ≠ .disabled →
    Does (.registerWrite a v) s (fun t => t.regs = s.regs)) ∧
  (∀ (a v : Nat) (s : State), Gives (.w1sWrite a v) s s)

/-- A W1C_WRITE clears the bits written 1 but leaves a bit that an event of the same clock cycle sets; an RC_READ
returns the value from before the events of its cycle, and the register then holds those events, and nothing
else, for the next read. Bits written 0 and all other registers are unchanged. (R22) -/
def Obligations.HardwareEventWins : Prop :=
  (∀ (a v ev : Nat) (s : State), accessAt a = some .w1c →
    Does (.w1cWrite a v ev) s (fun t =>
      t.reg (regAddr a) = (s.reg (regAddr a) &&& ~~~ word v) ||| word ev ∧
      (∀ i : Nat, bitN ev i = true → i < 32 → (t.reg (regAddr a)).getLsbD i = true) ∧
      s.regsBut t [regAddr a] ∧ s.onlyChanges t [.regs, .hp, .ledger, .ck])) ∧
  (∀ (a ev : Nat) (s : State), accessAt a = some .rc →
    Does (.rcRead a ev) s (fun t =>
      t.hp.readData = [s.regValue a] ∧ t.reg (regAddr a) = word ev ∧ s.regsBut t [regAddr a] ∧ s.onlyChanges t [.regs, .hp]))

/-- A read of the low word of a 64-bit pair returns it and captures the high word; the next read of the high word
returns what was captured, whatever the registers hold by then. (R19) -/
def Obligations.LowWordCaptures : Prop :=
  ∀ (a : Nat) (s : State), lowWord (regAddr a) = true →
    Does (.captureReadLowWord a) s (fun t =>
      t.hp.readData = [s.regValue a] ∧ s.onlyChanges t [.hold, .hp] ∧
      ∀ u : State, u.hold = t.hold → (u.readReg (a + 4) 0).1 = s.regValue (a + 4))

/-- When the counts of a pool break R39, the pool is in fault, LG_FAULT shows it, LG_FAULT_POOL names the first such
pool, and the mill of a hopper pool enters FAULT unless it is EVACUATED. A reserved index, a pool in fault and
balanced counts raise nothing. Clearing ledger_fault invalidates LG_FAULT_POOL and takes no pool or mill out of
its fault; a write of LG_SNAP_CTRL while busy is ignored and otherwise starts a capture, which then holds all
counts of the pool at one edge, or zeros for a reserved index. (R39; R41; R460; R42) -/
def Obligations.LedgerFaults : Prop :=
  (∀ (p h f k r c : Nat) (s : State),
    poolReserved p = false → s.poolFault p = false → (s.pool p).size ≠ h + f + k + r + c →
    Does (.ledgerFault p h f k r c) s (fun t =>
      t.poolFault p = true ∧
      (fld (s.reg Reg.lgFault) 0 0 = 0 → t.ledger.faultPool = some p ∧ fld (t.reg Reg.lgFault) 0 0 = 1) ∧
      (fld (s.reg Reg.lgFault) 0 0 = 1 → t.ledger.faultPool = s.ledger.faultPool ∧ fld (t.reg Reg.lgFault) 1 1 = 1) ∧
      (p < 128 → (s.mill (p / 8)).state ≠ .evacuated → (t.mill (p / 8)).state = .fault))) ∧
  (∀ (p h f k r c : Nat) (s : State),
    poolReserved p = true ∨ s.poolFault p = true ∨ (s.pool p).size = h + f + k + r + c → Gives (.ledgerFault p h f k r c) s s) ∧
  (∀ (v : Nat) (s : State), Does (.lgFaultClear v) s (fun t =>
      t.reg Reg.lgFault = s.reg Reg.lgFault &&& ~~~ word v ∧ (bitN v 0 = true → t.ledger.faultPool = none) ∧
      t.ledger.faulted = s.ledger.faulted ∧ t.ledger.pools = s.ledger.pools ∧ s.regsBut t [Reg.lgFault] ∧
      s.onlyChanges t [.regs, .ledger, .hp])) ∧
  (∀ (v : Nat) (s : State), s.ledger.snap.busy = true →
    Does (.lgSnapCtrl v) s (fun t => t.ledger.snap = { s.ledger.snap with ignored := true } ∧ t.ledger.snapReq = s.ledger.snapReq)) ∧
  (∀ (v : Nat) (s : State), s.ledger.snap.busy = false →
    Does (.lgSnapCtrl v) s (fun t => t.ledger.snap.busy = true ∧ t.ledger.snap.valid = false ∧ t.ledger.snapReq = v % 512 ∧
      t.ledger.pools = s.ledger.pools ∧ s.onlyChanges t [.ledger])) ∧
  (∀ s : State, s.ledger.snap.busy = true → Does .snapCaptureDone s (fun t =>
      t.ledger.snap.busy = false ∧ t.ledger.snap.valid = true ∧ t.ledger.snap.pool = s.ledger.snapReq ∧
      t.ledger.snap.counts = (if poolReserved s.ledger.snapReq then {} else s.pool s.ledger.snapReq) ∧ s.onlyChanges t [.ledger]))

/-- HOST_PORT_INIT_READY takes a ready port from OFF to INIT and releases HOST_ALERT_N; HP_CTRL_SERVICE enters
SERVICE from INIT while the line is released, and is discarded while it is asserted; RESET_n takes the port to
OFF; a domain reset that it did not cause takes SERVICE to INIT with the line asserted; the holdoff ends.
Assertion of RESET_n resets the host-port domain: every context ring goes to DISABLED with no credit left with
the host, and the host pond and rings have undefined contents; memories behind the port keep theirs. Every
command of this family answers a next state in every state, and changes only the parts of the state that its
clause lists. (R380; R381; R382; R383; R399) -/
def Obligations.HostPortStates : Prop :=
  (∀ (ms : Nat) (s : State), s.hp.state = .off → 7 ≤ s.pw.stage → has s.ck.held 4 = false →
    Does (.hostPortInitReady ms) s (fun t => t.hp.state = .init ∧ t.hp.holdAlert = false ∧ t.hp.resetN = false)) ∧
  (∀ (v : Nat) (s : State), s.hp.state = .init → s.hp.holdAlert = false → bitN v 0 = true →
    Does (.hpCtrlService v) s (fun t => t.hp.state = .service ∧ (t.ring mb).state = .run ∧ has t.ck.service 7 = true)) ∧
  (∀ (v : Nat) (s : State), s.hp.state = .init → s.hp.holdAlert = true → Does (.hpCtrlService v) s (fun t => t.hp.state = .init)) ∧
  (∀ s : State, Does .resetNAssert s (fun t => t.hp.state = .off ∧ t.hp.resetN = true)) ∧
  (∀ s : State, s.pw.fabricOn = true → has s.ck.held 8 = false → s.hp.state = .service →
    Does .hostPortDomainReset s (fun t => t.hp.state = .init ∧ t.hp.holdAlert = true ∧ t.hp.fsps = s.hp.fsps)) ∧
  (∀ s : State, Does .alertHoldoffExpiry s (fun t => t.hp.holdoff = false ∧ s.onlyChanges t [.hp])) ∧
  (∀ (s : State), s.hp.state ≠ .off → Does .resetNAssert s (fun t =>
      (∀ c, c < 64 → (t.ring c).state = .disabled ∧ t.issued c = 0) ∧
      t.mem.sram = s.mem.sram.lose ∧ t.mem.pond = s.mem.pond ∧ t.mem.hbm = s.mem.hbm ∧ t.mem.store = s.mem.store)) ∧
  (∀ (ms : Nat) (s : State), Does (.hostPortInitReady ms) s (fun t => s.onlyChanges t [.regs, .ledger, .ev, .hp, .pw, .ck, .mills, .tiers])) ∧
  (∀ s : State, Does .resetNAssert s (fun t => s.onlyChanges t [.regs, .hold, .mem, .ledger, .ev, .hp, .ck, .ops, .streams, .tiers, .bolters])) ∧
  (∀ s : State, Does .hostPortDomainReset s (fun t => s.onlyChanges t [.regs, .hold, .mem, .ledger, .ev, .hp, .ck, .mills, .leat, .ops, .streams, .tiers, .bolters, .gov, .tm, .px, .sn, .mr, .freeN])) ∧
  (∀ s : State, Does .alertHoldoffExpiry s (fun t => s.onlyChanges t [.hp]))

/-- A mode register that the host may write holds what it wrote, for its frequency set point; training records its
kind and rate for the operating set point; a refresh changes nothing; in power-down the device takes no command
and keeps its content. Every command of this family answers a next state in every state, and changes only the
parts of the state that its clause lists. (R367; R368; R369; R437) -/
def Obligations.HostPortDevice : Prop :=
  (∀ (ch r v : Nat) (s : State), s.hp.listens = true → mrStored r = true → Does (.modeRegisterWrite ch r v) s (fun t =>
      Tbl.getD t.hp.modeRegs (s.hp.mrKey ch r) 0 = v % 256 ∧ s.onlyChanges t [.hp])) ∧
  (∀ (ch r : Nat) (s : State), s.hp.listens = true → mrStored r = true → r ≠ 26 → Does (.modeRegisterRead ch r) s (fun t =>
      t.hp.readData = [word (Tbl.getD s.hp.modeRegs (s.hp.mrKey ch r) 0)] ∧ s.onlyChanges t [.hp])) ∧
  (∀ (kind rate : Nat) (data : Bytes) (s : State), s.hp.listens = true → (kind = 0 ∨ kind = 1 ∨ kind = 2) →
    Does (.training kind rate data) s (fun t =>
      (Tbl.getD t.hp.fsps s.hp.fsp {}).trained = (Tbl.getD s.hp.fsps s.hp.fsp {}).trained ||| 2 ^ kind ∧
      (Tbl.getD t.hp.fsps s.hp.fsp {}).rate = rate % 16384 ∧ s.onlyChanges t [.hp, .freeN])) ∧
  (∀ s : State, Gives .refresh s s) ∧
  (∀ s : State, s.hp.state ≠ .off → Does .powerDown s (fun t => t.hp.listens = false ∧ s.onlyChanges t [.hp])) ∧
  (∀ s : State, s.hp.state ≠ .off → Does .powerDownExit s (fun t => t.hp.listens = true ∧ s.onlyChanges t [.hp])) ∧
  (∀ (ch r v kind rate : Nat) (data : Bytes) (c : Instr) (s : State), c ∈ [.modeRegisterWrite ch r v, .training kind rate data, .powerDown, .powerDownExit] →
    Does c s (fun t => s.onlyChanges t [.hp])) ∧
  (∀ (ch r : Nat) (s : State), Does (.modeRegisterRead ch r) s (fun t => s.onlyChanges t [.hp, .freeN]))

/-- In SERVICE, a WRITE stores its unmasked bytes at the window address of R370 and leaves every other byte of
memory as it was; a READ of a burst of the host pond that holds no error returns its 32 bytes and changes no
memory. Every command of this family answers a next state in every state, and changes only the parts of the
state that its clause lists. (R370; R374; R376) -/
def Obligations.BurstPond : Prop :=
  (∀ (row bank ch col mask : Nat) (data : Bytes) (s : State), s.memOk → s.hp.state = .service → s.hp.lowPower = false →
    0x40000000 ≤ burstAddr row bank ch col → burstAddr row bank ch col < 0x44000000 → data.length = 32 →
    Does (.writeBurst row bank ch col data mask) s (fun t =>
      (∀ i, i < 32 → t.mem.sram.read (burstAddr row bank ch col + i) =
        if bitN mask i then s.mem.sram.read (burstAddr row bank ch col + i) else nth data i 0) ∧
      (∀ a, a < burstAddr row bank ch col ∨ burstAddr row bank ch col + 32 ≤ a → t.mem.sram.read a = s.mem.sram.read a) ∧
      t.mem.pond = s.mem.pond ∧ t.mem.hbm = s.mem.hbm ∧ t.mem.store = s.mem.store ∧ s.onlyChanges t [.mem, .hp])) ∧
  (∀ (row bank ch col : Nat) (s : State), s.hp.state = .service → s.hp.lowPower = false →
    0x40000000 ≤ burstAddr row bank ch col → burstAddr row bank ch col < 0x44000000 →
    has s.hp.bad (burstAddr row bank ch col) = false →
    Does (.readBurst row bank ch col) s (fun t =>
      t.hp.readData = burstWords (s.mem.sram.readBytes (burstAddr row bank ch col) 32) ∧ t.mem = s.mem)) ∧
  (∀ (row bank ch col : Nat) (s : State), Does (.readBurst row bank ch col) s (fun t => s.onlyChanges t [.regs, .hold, .ev, .hp]))

/-- A producer index that announces something new within the ring depth and the issued credits of a ring in RUN is
announced; one beyond them sends the ring to ERROR with its cause and announces nothing; one that announces
nothing new is ignored. The mailbox doorbell acts alike, with no credits. Every command of this family answers a
next state in every state, and changes only the parts of the state that its clause lists. (R387; R401) -/
def Obligations.DoorbellAnnounces : Prop :=
  (∀ (ctx v : Nat) (s : State), ctx < 64 → (s.ring ctx).state = .run →
    ((s.ring ctx).announced + 65536 - (s.ring ctx).sqCons) % 65536 < (v % 65536 + 65536 - (s.ring ctx).sqCons) % 65536 →
    (v % 65536 + 65536 - (s.ring ctx).sqCons) % 65536 ≤ s.sqDepth ctx →
    (v % 65536 + 65536 - (s.ring ctx).sqCons) % 65536 ≤ s.issued ctx →
    Does (.hpCtxSqDb ctx v) s (fun t => t.ring ctx = { s.ring ctx with announced := v % 65536 } ∧ s.onlyChanges t [.hp])) ∧
  (∀ (ctx v : Nat) (s : State), ctx < 64 → (s.ring ctx).state = .run →
    ((s.ring ctx).announced + 65536 - (s.ring ctx).sqCons) % 65536 < (v % 65536 + 65536 - (s.ring ctx).sqCons) % 65536 →
    s.sqDepth ctx < (v % 65536 + 65536 - (s.ring ctx).sqCons) % 65536 ∨
      s.issued ctx < (v % 65536 + 65536 - (s.ring ctx).sqCons) % 65536 →
    Does (.hpCtxSqDb ctx v) s (fun t => (t.ring ctx).state = .error ∧ (t.ring ctx).announced = (s.ring ctx).announced)) ∧
  (∀ (ctx v : Nat) (s : State), ctx < 64 →
    (v % 65536 + 65536 - (s.ring ctx).sqCons) % 65536 ≤ ((s.ring ctx).announced + 65536 - (s.ring ctx).sqCons) % 65536 →
    Gives (.hpCtxSqDb ctx v) s s) ∧
  (∀ (v : Nat) (s : State), (s.ring mb).state = .run →
    ((s.ring mb).announced + 65536 - (s.ring mb).sqCons) % 65536 < (v % 65536 + 65536 - (s.ring mb).sqCons) % 65536 →
    (v % 65536 + 65536 - (s.ring mb).sqCons) % 65536 ≤ 1024 →
    Does (.hpMbSqDb v) s (fun t => t.ring mb = { s.ring mb with announced := v % 65536 } ∧ s.onlyChanges t [.hp])) ∧
  (∀ (ctx v : Nat) (c : Instr) (s : State), c ∈ [.hpCtxSqDb ctx v, .hpMbSqDb v] →
    Does c s (fun t => s.onlyChanges t [.regs, .hp]))

/-- In SERVICE, a WRITE that leaves every register of its burst partly masked writes none of them; HP_PARTIAL_COUNT
counts one for each address of the burst where a register stands, and HP_EVENTS.partial is set where there is
one. Each stray access increments HP_STRAY_COUNT and sets HP_EVENTS.stray; a stray read returns zeros, a stray
write is discarded, and the first since stray was last cleared is captured in HP_STRAY_ADDR. (R374; R379) -/
def Obligations.PartialAndStray : Prop :=
  (∀ (row bank ch col mask : Nat) (data : Bytes) (s : State), s.hp.state = .service → s.hp.lowPower = false →
    burstAddr row bank ch col < 0x01000000 → (∀ i, i < 8 → maskWord (mask % 2 ^ 32) i ≠ 0 ∧ maskWord (mask % 2 ^ 32) i ≠ 15) →
    Does (.writeBurst row bank ch col data mask) s (fun t =>
      t.regN Reg.hpPartialCount = min (s.regN Reg.hpPartialCount +
        ((List.range 8).filter (fun i => (regRow (regAddr (burstAddr row bank ch col + 4 * i))).isSome)).length) 0xFFFFFFFF ∧
      ((∃ i, i < 8 ∧ (regRow (regAddr (burstAddr row bank ch col + 4 * i))).isSome = true) → bitN (t.regN Reg.hpEvents) 1 = true) ∧
      s.regsBut t [Reg.hpPartialCount, Reg.hpEvents] ∧ s.onlyChanges t [.regs, .hp])) ∧
  (∀ (row bank ch col mask : Nat) (data : Bytes) (s : State), s.hp.state = .service → s.hp.lowPower = false →
    (0x05000000 ≤ burstAddr row bank ch col ∧ burstAddr row bank ch col < 0x08000000 ∨
      0x0C000000 ≤ burstAddr row bank ch col ∧ burstAddr row bank ch col < 0x40000000 ∨ 0x44000000 ≤ burstAddr row bank ch col) →
    Does (.writeBurst row bank ch col data mask) s (fun t =>
      t.regN Reg.hpStrayCount = min (s.regN Reg.hpStrayCount + 1) 0xFFFFFFFF ∧ bitN (t.regN Reg.hpEvents) 0 = true ∧
      (bitN (s.regN Reg.hpEvents) 0 = false → t.regN Reg.hpStrayAddr = burstAddr row bank ch col) ∧
      (bitN (s.regN Reg.hpEvents) 0 = true → t.reg Reg.hpStrayAddr = s.reg Reg.hpStrayAddr) ∧
      t.mem = s.mem ∧ s.onlyChanges t [.regs, .ev, .hp])) ∧
  (∀ (row bank ch col : Nat) (s : State), s.hp.state = .service → s.hp.lowPower = false →
    (0x05000000 ≤ burstAddr row bank ch col ∧ burstAddr row bank ch col < 0x08000000 ∨
      0x0C000000 ≤ burstAddr row bank ch col ∧ burstAddr row bank ch col < 0x40000000 ∨ 0x44000000 ≤ burstAddr row bank ch col) →
    Does (.readBurst row bank ch col) s (fun t =>
      t.hp.readData = zeroBurst ∧ t.regN Reg.hpStrayCount = min (s.regN Reg.hpStrayCount + 1) 0xFFFFFFFF ∧
      bitN (t.regN Reg.hpEvents) 0 = true ∧ t.mem = s.mem))

/-- An announced, sealed entry whose index field is the next index is copied and accepted: the consumer index
advances, its slot is unsealed, and the request is among the accepted ones or, where its layout breaks R384, has
completed as MALFORMED. An entry that holds another index sends the ring to ERROR with cause bad_index and is
not accepted. A wait for a seal beyond 1 ms is an event. An ITEM request that names an entry point of its
context and class, with addresses within its grants, places its parcels at weir 39; one that names another
context or an address outside its grants completes with VIEW_DENIED, and one of an unknown entry point or a zero
length as MALFORMED. Every command of this family answers a next state in every state, and changes only the
parts of the state that its clause lists. (R385; R386; R395; R398) -/
def Obligations.RequestsAccepted : Prop :=
  (∀ (ctx : Nat) (s : State), ctx ≤ mb → (s.ring ctx).state = .run → (s.ring ctx).sqCons ≠ (s.ring ctx).announced →
    s.slotSealed ctx (s.ring ctx).sqCons = true → s.slotFree ctx = true →
    leAt (s.mem.sram.readBytes (s.sqSlot ctx (s.ring ctx).sqCons) 64) 0 2 = (s.ring ctx).sqCons →
    Does (.entryAccept ctx) s (fun t =>
      (t.ring ctx).sqCons = ((s.ring ctx).sqCons + 1) % 65536 ∧
      (t.ring ctx).sealed = remN (remN (s.ring ctx).sealed (s.sqSlot ctx (s.ring ctx).sqCons)) (s.sqSlot ctx (s.ring ctx).sqCons + 32) ∧
      (entryRequest ctx (s.mem.sram.readBytes (s.sqSlot ctx (s.ring ctx).sqCons) 64) ∈ t.hp.requests ∨
        ∃ d, d ∈ t.hp.done ∧ d.req = entryRequest ctx (s.mem.sram.readBytes (s.sqSlot ctx (s.ring ctx).sqCons) 64) ∧
          (d.status = 0x15 ∨ ctx = mb ∧ s.pw.recovery = true ∧ d.status = 0x16)) ∧ s.onlyChanges t [.hp])) ∧
  (∀ (ctx : Nat) (s : State), ctx ≤ mb → (s.ring ctx).state = .run → (s.ring ctx).sqCons ≠ (s.ring ctx).announced →
    s.slotSealed ctx (s.ring ctx).sqCons = true → s.slotFree ctx = true →
    leAt (s.mem.sram.readBytes (s.sqSlot ctx (s.ring ctx).sqCons) 64) 0 2 ≠ (s.ring ctx).sqCons →
    Does (.entryAccept ctx) s (fun t =>
      (t.ring ctx).state = .error ∧ (t.ring ctx).cause = 3 ∧ (t.ring ctx).sqCons = (s.ring ctx).sqCons ∧ t.hp.requests = s.hp.requests)) ∧
  (∀ (ctx : Nat) (s : State), ctx < 64 → s.sealWait ctx = true → Does (.sealWaitTimeout ctx) s (fun t =>
      bitN (t.regN (Reg.hpCtxEvents ctx)) 3 = true ∧ s.regsBut t [Reg.hpCtxEvents ctx] ∧ s.onlyChanges t [.regs])) ∧
  (∀ (ctx idx fmt : Nat) (r : Request) (s : State), s.request ctx idx = some r → r.target = 5 → r.begun = false →
    allZero ((r.body.drop 2).take 2) = true → allZero (r.body.drop 28) = true → leAt r.body 0 1 < leatEntries (s.body 2 0) →
    leAt r.body 1 1 = (leatEntry (s.body 2 0) (leAt r.body 0 1)).cls → 0 < leAt r.body 4 4 →
    (leatEntry (s.body 2 0) (leAt r.body 0 1)).ctx = ctx → s.inGrant ctx (leAt r.body 8 8) (leAt r.body 4 4) = true →
    s.inGrant ctx (leAt r.body 16 8) (leAt r.body 24 4) = true → Does (.item ctx idx fmt) s (fun t =>
      t.waiting 39 = s.waiting 39 ++ itemParcels (leatEntry (s.body 2 0) (leAt r.body 0 1)) idx fmt (s.pondRead (leAt r.body 8 8) (leAt r.body 4 4)) ∧
      { r with begun := true } ∈ t.hp.requests ∧ t.hp.done = s.hp.done ∧ s.onlyChanges t [.hp, .leat])) ∧
  (∀ (ctx idx fmt : Nat) (r : Request) (s : State), s.request ctx idx = some r → r.target = 5 → r.begun = false →
    allZero ((r.body.drop 2).take 2) = true → allZero (r.body.drop 28) = true → leAt r.body 0 1 < leatEntries (s.body 2 0) →
    leAt r.body 1 1 = (leatEntry (s.body 2 0) (leAt r.body 0 1)).cls → 0 < leAt r.body 4 4 →
    ((leatEntry (s.body 2 0) (leAt r.body 0 1)).ctx ≠ ctx ∨ s.inGrant ctx (leAt r.body 8 8) (leAt r.body 4 4) = false) →
    Does (.item ctx idx fmt) s (fun t => s.answered t r 0x0C 0 ∧ s.onlyChanges t [.hp])) ∧
  (∀ (ctx idx fmt : Nat) (r : Request) (s : State), s.request ctx idx = some r → r.target = 5 → r.begun = false →
    leatEntries (s.body 2 0) ≤ leAt r.body 0 1 ∨ leAt r.body 4 4 = 0 →
    Does (.item ctx idx fmt) s (fun t => s.answered t r 0x15 0 ∧ s.onlyChanges t [.hp])) ∧
  (∀ (ctx : Nat) (s : State), Does (.entryAccept ctx) s (fun t => s.onlyChanges t [.regs, .hp])) ∧
  (∀ (ctx : Nat) (s : State), Does (.sealWaitTimeout ctx) s (fun t => s.onlyChanges t [.regs])) ∧
  (∀ (ctx idx fmt : Nat) (s : State), Does (.item ctx idx fmt) s (fun t => s.onlyChanges t [.hp, .leat]))

/-- The request that completed first is written as one entry at the producer index of its ring, which advances; its
context's credit moves from held to returned, and a notifying request raises the completion event of its
context. Nothing else of the host-port memory changes. The mailbox acknowledges alike, with no credits. Every
command of this family answers a next state in every state, and changes only the parts of the state that its
clause lists. (R389; R390; R392; R401) -/
def Obligations.Completions : Prop :=
  (∀ (d : Done) (rest : List Done) (s : State), s.hp.done = d :: rest → d.req.idx < 65536 → d.req.ctx < 64 →
    (s.ring d.req.ctx).resetting = false → d.extra = 0 → 1 ≤ (s.pool (hostPool d.req.ctx)).held →
    Does .completionWrite s (fun t =>
      t.hp.done = rest ∧
      t.mem.sram = s.mem.sram.writeBytes (s.cqSlot d.req.ctx (s.ring d.req.ctx).cqProd)
        (completionBytes (s.cqDepth d.req.ctx) (s.ring d.req.ctx).cqProd d) ∧
      (t.ring d.req.ctx).cqProd = ((s.ring d.req.ctx).cqProd + 1) % 65536 ∧
      (t.pool (hostPool d.req.ctx)).held + 1 = (s.pool (hostPool d.req.ctx)).held ∧
      (t.pool (hostPool d.req.ctx)).returned = (s.pool (hostPool d.req.ctx)).returned + 1 ∧
      (d.req.notify = true → bitN (t.regN (Reg.hpCtxEvents d.req.ctx)) 0 = true) ∧
      s.onlyChanges t [.mem, .hp, .ledger, .regs])) ∧
  (∀ (v : Nat) (s : State), (s.ring mb).state = .run →
    (v % 65536 + 65536 - (s.ring mb).cqAck) % 65536 ≤ ((s.ring mb).cqProd + 65536 - (s.ring mb).cqAck) % 65536 →
    Does (.hpMbCqDb v) s (fun t => (t.ring mb).cqAck = v % 65536 ∧ s.onlyChanges t [.hp])) ∧
  (∀ s : State, Does .completionWrite s (fun t => s.onlyChanges t [.regs, .mem, .ledger, .ev, .hp])) ∧
  (∀ (v : Nat) (s : State), Does (.hpMbCqDb v) s (fun t => s.onlyChanges t [.regs, .ledger, .ev, .hp]))

/-- A write of index Q to HP_CTX_CQ_DB of a ring that is enabled acknowledges every completion up to Q − 1, whose
credits go back to the host; where Q lies beyond HP_CTX_CQ_PROD, the write is ignored and
HP_CTX_EVENTS.cq_overrun is set. Every command of this family answers a next state in every state, and changes
only the parts of the state that its clause lists. (R391) -/
def Obligations.CqDoorbell : Prop :=
  (∀ (ctx v : Nat) (s : State), ctx < 64 → (s.ring ctx).state ≠ .disabled →
    (v % 65536 + 65536 - (s.ring ctx).cqAck) % 65536 ≤ ((s.ring ctx).cqProd + 65536 - (s.ring ctx).cqAck) % 65536 →
    Does (.hpCtxCqDb ctx v) s (fun t =>
      (t.ring ctx).cqAck = v % 65536 ∧ (t.ring ctx).cqProd = (s.ring ctx).cqProd ∧
      ((s.ring ctx).state = .run → t.pool (hostPool ctx) = (s.pool (hostPool ctx)).move .returned .held
          (s.ackCredits ctx (s.ring ctx).cqAck ((v % 65536 + 65536 - (s.ring ctx).cqAck) % 65536)) ∧
        s.onlyChanges t [.hp, .ledger]))) ∧
  (∀ (ctx v : Nat) (s : State), ctx < 64 → (s.ring ctx).state ≠ .disabled →
    ((s.ring ctx).cqProd + 65536 - (s.ring ctx).cqAck) % 65536 < (v % 65536 + 65536 - (s.ring ctx).cqAck) % 65536 →
    Does (.hpCtxCqDb ctx v) s (fun t => bitN (t.regN (Reg.hpCtxEvents ctx)) 2 = true ∧ s.regsBut t [Reg.hpCtxEvents ctx] ∧
      s.onlyChanges t [.regs])) ∧
  (∀ (ctx v : Nat) (s : State), Does (.hpCtxCqDb ctx v) s (fun t => s.onlyChanges t [.regs, .ledger, .ev, .hp]))

/-- ENABLE of a DISABLED ring with a valid configuration and a grant of its own runs it with its credits issued and
its completion ring zeroed; DISABLE of a running ring with nothing outstanding or unacknowledged ends DISABLED
with its pool sized to 0, and with something outstanding drains; RESET takes a ring out of ERROR. Every command
of this family answers a next state in every state, and changes only the parts of the state that its clause
lists. (R390; R392; R394) -/
def Obligations.RingCommands : Prop :=
  (∀ (ctx : Nat) (s : State), ctx < 64 → s.memOk → s.mayEnable ctx = true → s.pool (hostPool ctx) = {} → s.poolFault (hostPool ctx) = false →
    Does (.ctxEnable ctx) s (fun t =>
      (t.ring ctx).state = .run ∧ t.hp.cmdResult = 1 ∧ t.issued ctx = fld (s.reg (Reg.hpCtxCfg ctx)) 20 8 ∧
      (∀ i, i < 32 * s.cqDepth ctx → t.mem.sram.read (s.cqSlot ctx 0 + i) = 0))) ∧
  (∀ (ctx : Nat) (s : State), ctx < 64 → s.mayEnable ctx = false →
    Does (.ctxEnable ctx) s (fun t => t.hp.cmdResult = 2 ∧ t.ring ctx = s.ring ctx ∧ s.onlyChanges t [.hp])) ∧
  (∀ (ctx : Nat) (s : State), ctx < 64 → (s.ring ctx).state = .run → (s.ring ctx).outstanding = 0 → (s.ring ctx).orphans = 0 →
    s.poolFault (hostPool ctx) = false → (s.pool (hostPool ctx)).balanced = true → (s.pool (hostPool ctx)).returned = 0 →
    (s.pool (hostPool ctx)).inFlight = 0 → (s.pool (hostPool ctx)).parked = 0 →
    Does (.ctxDisable ctx) s (fun t => (t.ring ctx).state = .disabled ∧ t.hp.cmdResult = 1 ∧ (t.pool (hostPool ctx)).size = 0)) ∧
  (∀ (ctx : Nat) (s : State), ctx < 64 → (s.ring ctx).state = .run → (s.ring ctx).outstanding ≠ 0 →
    Does (.ctxDisable ctx) s (fun t => (t.ring ctx).state = .draining ∧ t.hp.cmdResult = 1)) ∧
  (∀ (ctx : Nat) (s : State), ctx < 64 → (s.ring ctx).state = .error → (s.ring ctx).outstanding = 0 →
    Does (.ctxReset ctx) s (fun t => (t.ring ctx).state = .disabled ∧ t.hp.cmdResult = 1)) ∧
  (∀ (ctx : Nat) (s : State), Does (.ctxEnable ctx) s (fun t => s.onlyChanges t [.regs, .mem, .ledger, .ev, .hp])) ∧
  (∀ (ctx : Nat) (c : Instr) (s : State), c ∈ [.ctxDisable ctx, .ctxReset ctx] →
    Does c s (fun t => s.onlyChanges t [.regs, .ledger, .ev, .hp]))

/-- Corrected errors are added to the counter that R512 names for the structure. An uncorrectable error of a
millpond or a mill buffer puts the mill into FAULT, one of an HBM line poisons the line, one of lane SRAM or
HyperRAM isolates the lane, and one of host-port SRAM marks the burst so that a host read of it returns zeros.
MILL_TEST of an EVACUATED or EMPTY mill completes with status OK: the mill is EMPTY and may be restored where
every self-test passed and every failing row found a spare, and EVACUATED where not; any other mill completes
with STATE_DENIED. Every command of this family answers a next state in every state, and changes only the parts
of the state that its clause lists. (R457; R512; R464) -/
def Obligations.ErrorsAndMillTest : Prop :=
  (∀ (code unit addr n : Nat) (a : Nat) (s : State), ceCounter code unit = some a →
    Does (.scrubPass code unit addr n false) s (fun t =>
      t.regN a = min (s.regN a + n) 0xFFFFFFFF ∧ s.regsBut t [a] ∧ s.onlyChanges t [.regs])) ∧
  (∀ (code m addr n : Nat) (s : State), code < 2 → m < 16 → (s.mill m).state ≠ .evacuated →
    Does (.scrubPass code m addr n true) s (fun t => (t.mill m).state = .fault)) ∧
  (∀ (unit addr n : Nat) (s : State), tierOf addr = some .hbm →
    Does (.scrubPass 4 unit addr n true) s (fun t => t.tiers.poisoned (addr / 64) = true ∧ t.mem = s.mem)) ∧
  (∀ (code l addr n : Nat) (s : State), code = 11 ∨ code = 12 → l < 3 → (s.lane l).state = .inService →
    Does (.scrubPass code l addr n true) s (fun t =>
      ((t.lane l).state = .isolated ∨ (t.lane l).state = .out) ∧ (t.lane l).cause = if code = 11 then 4 else 3)) ∧
  (∀ (unit addr n : Nat) (s : State), Does (.scrubPass 7 unit addr n true) s (fun t =>
      has t.hp.bad (addr / 32 * 32) = true ∧ t.mem = s.mem)) ∧
  (∀ (idx : Nat) (passed : Bool) (rows : List (Nat × Nat)) (r : Request) (s : State), s.mbRequest idx 0x14 = some r →
    leAt r.body 0 1 < 16 → allZero (r.body.drop 1) = true →
    ((s.mill (leAt r.body 0 1)).state = .evacuated ∨ (s.mill (leAt r.body 0 1)).state = .empty) →
    Does (.millTest idx passed rows) s (fun t =>
      s.request 64 idx = some r ∧ t.request 64 idx = none ∧
      ((t.mill (leAt r.body 0 1)).state = .empty ∧ (t.mill (leAt r.body 0 1)).tested = true ∧ passed = true ∨
       (t.mill (leAt r.body 0 1)).state = .evacuated ∧ (t.mill (leAt r.body 0 1)).tested = false) ∧
      (passed = true → rows = [] → (t.mill (leAt r.body 0 1)).state = .empty))) ∧
  (∀ (idx : Nat) (passed : Bool) (rows : List (Nat × Nat)) (r : Request) (s : State), s.mbRequest idx 0x14 = some r →
    leAt r.body 0 1 < 16 → allZero (r.body.drop 1) = true →
    (s.mill (leAt r.body 0 1)).state ≠ .evacuated → (s.mill (leAt r.body 0 1)).state ≠ .empty →
    Does (.millTest idx passed rows) s (fun t => t = s.finish r 0x16 0 0)) ∧
  (∀ (code unit addr corrected : Nat) (ue : Bool) (s : State), Does (.scrubPass code unit addr corrected ue) s (fun t => s.onlyChanges t [.regs, .hold, .mem, .ledger, .ev, .hp, .pw, .ck, .sec, .mills, .leat, .loader, .ops, .streams, .tiers, .bolters, .gov, .tm, .px, .sn, .mr, .freeN])) ∧
  (∀ (idx : Nat) (passed : Bool) (rows : List (Nat × Nat)) (s : State), Does (.millTest idx passed rows) s (fun t => s.onlyChanges t [.regs, .hold, .ledger, .ev, .hp, .mills, .leat, .tiers]))

/-- A Sync on the slave port of an aligned replica leaves θ as the stamp at the connector less origin, correction,
link delay and asymmetry, and any other Sync changes nothing; a peer-delay exchange sets asCapable and, with an
aligned replica, a link delay D; an Announce is kept for the selection. A message on a disabled port changes
nothing. Every command of this family answers a next state in every state, and changes only the parts of the
state that its clause lists. (R350; R353; R355; R359) -/
def Obligations.ReferenceMessages : Prop :=
  (∀ (p origin : Nat) (corr cap : Int) (s : State), s.tm.slave = some p → s.portOn p = true → s.tmSource = 0 →
    (s.port p).aligned = true → s.tm.fantail ≠ .acquiring → s.tm.fantail ≠ .locked →
    Does (.syncReceive p origin corr cap) s (fun t =>
      t.tm.theta = s.stampIn p cap - (65536 * (origin : Int) + corr + (s.port p).delay + s.asym p) ∧
      t.tm.lastStamp = some (s.stampIn p cap) ∧ t.tm.copies = s.tm.copies ∧ t.tm.f = s.tm.f ∧
      (t.tm.fantail = .acquiring ↔ 3 ≤ s.tm.qual) ∧ s.onlyChanges t [.tm])) ∧
  (∀ (p origin : Nat) (corr cap : Int) (s : State), s.tm.slave ≠ some p ∨ s.portOn p = false ∨ s.tmSource ≠ 0 →
    Gives (.syncReceive p origin corr cap) s s) ∧
  (∀ (p r : Nat) (t1 t2 t3 t4 : Int) (s : State), (p < 8 ∨ p = 24 ∨ p = 25) → s.portOn p = true → (s.port p).linkUp = true →
    Does (.pdelayExchange p t1 t2 t3 t4 r) s (fun t =>
      (t.port p).asCapable = true ∧ (t.port p).pdelayOut = false ∧ t.tm.copies = s.tm.copies ∧
      ((s.port p).aligned = true → 2 ^ 41 * (t.port p).delay ≤
          (s.stampIn p t4 - s.stampOut p t1) * (r : Int) - (t3 - t2) * 2 ^ 40 + 2 ^ 41 ∧
        (s.stampIn p t4 - s.stampOut p t1) * (r : Int) - (t3 - t2) * 2 ^ 40 ≤ 2 ^ 41 * (t.port p).delay + 2 ^ 41) ∧
      ((s.port p).aligned = false → (t.port p).delay = (s.port p).delay) ∧ s.onlyChanges t [.tm, .regs, .ev, .freeN])) ∧
  (∀ (p p1 cls acc var p2 id steps src : Nat) (s : State), p < 8 → s.portOn p = true → (s.port p).linkUp = true →
    Does (.announceReceive p p1 cls acc var p2 id steps src) s (fun t =>
      (t.port p).ann = some { p1 := p1, cls := cls, acc := acc, var := var, p2 := p2, id := id, steps := steps, src := src } ∧
      t.tm.copies = s.tm.copies ∧ s.onlyChanges t [.tm, .regs, .ev, .freeN])) ∧
  (∀ (p origin r p1 cls acc var p2 id steps src : Nat) (corr cap t1 t2 t3 t4 : Int) (c : Instr) (s : State), c ∈ [.syncReceive p origin corr cap, .pdelayExchange p t1 t2 t3 t4 r, .announceReceive p p1 cls acc var p2 id steps src] →
    Does c s (fun t => s.onlyChanges t [.regs, .ev, .tm, .freeN]))

/-- When the reference vanishes in ACQUIRING or LOCKED, by a timeout of Sync or Announce messages on the slave port,
by the loss of asCapable there, or by a missing 1PPS while it is the source, the fantail enters HOLDOVER,
tm_events.holdover is set, and module time keeps its value. Every command of this family answers a next state in
every state, and changes only the parts of the state that its clause lists. (R354; R358; R359; R360) -/
def Obligations.ReferenceLost : Prop :=
  (∀ (announce : Bool) (p : Nat) (s : State), s.tm.slave = some p → (s.tm.fantail = .acquiring ∨ s.tm.fantail = .locked) →
    Does (.referenceTimeout announce) s (fun t => t.tm.fantail = .holdover ∧ bitN (t.regN Reg.tmEvents) 1 = true ∧
      t.tm.copies = s.tm.copies ∧ t.tm.f = clampI (-fLimit) fLimit t.tm.fInt)) ∧
  (∀ (p : Nat) (s : State), p < 26 → s.tm.slave = some p → (s.tm.fantail = .acquiring ∨ s.tm.fantail = .locked) →
    Does (.asCapableLost p) s (fun t => t.tm.fantail = .holdover ∧ (t.port p).asCapable = false ∧ t.tm.copies = s.tm.copies)) ∧
  (∀ s : State, s.tmSource = 1 → (s.tm.fantail = .acquiring ∨ s.tm.fantail = .locked) →
    s.ppsLate = true → Does .ppsTimeout s (fun t => t.tm.fantail = .holdover ∧ t.tm.ppsLast = none ∧ t.tm.copies = s.tm.copies)) ∧
  (∀ s : State, s.tm.fantail = .holdover → s.tm.holdSince + 60000000000 ≤ s.now → Does .holdoverExpired s (fun t => t.tm.expired = true ∧ s.onlyChanges t [.tm])) ∧
  (∀ s : State, s.tm.fantail = .holdover → Does .reacquire s (fun t => t.tm.fantail = .freeRun ∧ t.tm.copies = s.tm.copies ∧
      s.onlyChanges t [.tm])) ∧
  (∀ s : State, s.tm.fantail ≠ .holdover → Does .reacquire s (fun t => t.tm = { s.tm with cmdIgnored := true } ∧ s.onlyChanges t [.tm])) ∧
  (∀ (announce : Bool) (p : Nat) (c : Instr) (s : State), c ∈ [.referenceTimeout announce, .asCapableLost p, .ppsTimeout] →
    Does c s (fun t => s.onlyChanges t [.regs, .ev, .tm, .freeN])) ∧
  (∀ (c : Instr) (s : State), c ∈ [.holdoverExpired, .reacquire] →
    Does c s (fun t => s.onlyChanges t [.tm]))

/-- A master port whose link is up sends a Sync, an Announce, and a port of peer delay a Pdelay request; the
Announce carries the grandmaster that the selection gives, one step further, or the module itself with the
fields of TM_CLOCK_QUALITY. Every command of this family answers a next state in every state, and changes only
the parts of the state that its clause lists. (R349; R352; R353) -/
def Obligations.TimeTransmit : Prop :=
  (∀ (p rate : Nat) (cap : Int) (s : State), p < 26 → s.roleNow p = 1 → (s.port p).linkUp = true →
    s.noSync p = false → s.guarded p = false → Does (.syncTransmit p cap rate) s (fun t =>
      (Tbl.getD t.tm.sent p { kind := 9 }).kind = 0 ∧ (Tbl.getD t.tm.sent p { kind := 9 }).stamp = s.stampOut p cap ∧
      (s.tm.slave = none → 65536 * ((Tbl.getD t.tm.sent p { kind := 9 }).origin : Int) + (Tbl.getD t.tm.sent p { kind := 9 }).correction =
        max (s.stampOut p cap) (s.stampOut p cap % 65536)) ∧ s.onlyChanges t [.tm, .freeN])) ∧
  (∀ (p : Nat) (s : State), p < 26 → s.roleNow p = 1 → (s.port p).linkUp = true → s.guarded p = false → s.selectGm = none →
    Does (.announceTransmit p) s (fun t =>
      (Tbl.getD t.tm.sent p { kind := 9 }).kind = 1 ∧ (Tbl.getD t.tm.sent p { kind := 9 }).identity = Config.clockIdentity ∧
      (Tbl.getD t.tm.sent p { kind := 9 }).quality = s.regN Reg.tmClockQuality ∧ s.onlyChanges t [.tm])) ∧
  (∀ (p : Nat) (cap : Int) (s : State), (p < 8 ∨ p = 24 ∨ p = 25) → s.portOn p = true → (s.port p).linkUp = true →
    s.guarded p = false → Does (.pdelayRequestTransmit p cap) s (fun t =>
      (t.port p).pdelayOut = true ∧ (Tbl.getD t.tm.sent p { kind := 9 }).kind = 2 ∧
      (Tbl.getD t.tm.sent p { kind := 9 }).stamp = s.stampOut p cap ∧ s.onlyChanges t [.tm])) ∧
  (∀ (p rate : Nat) (cap : Int) (s : State), Does (.syncTransmit p cap rate) s (fun t => s.onlyChanges t [.tm, .freeN])) ∧
  (∀ (p : Nat) (cap : Int) (c : Instr) (s : State), c ∈ [.announceTransmit p, .pdelayRequestTransmit p cap] →
    Does c s (fun t => s.onlyChanges t [.tm]))

/-- A 1PPS edge captures module time less TM_PPS_DELAY, sets tm_events.pps, and steers module time only while the
1PPS is the source. TM_TICK_PHASE takes a phase below 250,000 ns in STANDBY alone; a read of TM_NOW_NS or
TM_PPS_CAP_NS returns the nanoseconds of one instant and captures its seconds; SELF_ONLY puts the fantail into
FREE_RUN; a replica realigns while its crossing serves; a message of a type, domain or form that the port does
not take is counted. Every command of this family answers a next state in every state, and changes only the
parts of the state that its clause lists. (R360; R346; R347; R348; R354; R366) -/
def Obligations.TimeRegisters : Prop :=
  (∀ s : State, s.tm.running = true → Does .ppsEdge s (fun t =>
      t.tm.ppsCap = (s.now16 : Int) - 256 * (s.regN Reg.tmPpsDelay : Int) ∧ bitN (t.regN Reg.tmEvents) 4 = true ∧
      (s.tmSource ≠ 1 → t.tm.f = s.tm.f ∧ t.tm.fantail = s.tm.fantail) ∧ t.tm.copies = s.tm.copies)) ∧
  (∀ (v : Nat) (s : State), s.gov.wheel.state = .standby → v < 250000 → Does (.tmTickPhaseWrite v) s (fun t =>
      t.tm.newPhase = some v ∧ t.reg Reg.tmTickPhase = word v ∧ s.regsBut t [Reg.tmTickPhase] ∧ s.onlyChanges t [.tm, .regs])) ∧
  (∀ (v : Nat) (s : State), s.gov.wheel.state ≠ .standby ∨ 250000 ≤ v → Does (.tmTickPhaseWrite v) s (fun t =>
      t.tm = { s.tm with cmdIgnored := true } ∧ s.onlyChanges t [.tm])) ∧
  (∀ s : State, Does (.tmNowCapture false) s (fun t =>
      t.hp.readData = [word (timeNs s.now16)] ∧ Tbl.find t.hold Reg.tmNowSecLo = some (word (timeSec s.now16)) ∧
      Tbl.find t.hold Reg.tmNowFrac = some (word (s.now16 % 65536)) ∧ s.onlyChanges t [.hold, .hp])) ∧
  (∀ (v : Nat) (s : State), v % 4 = 2 → Does (.tmCtrlSourceWrite v) s (fun t =>
      t.tm.fantail = .freeRun ∧ t.tm.f = clampI (-fLimit) fLimit s.tm.fInt ∧ t.tm.slave = none ∧ t.tmSource = 2 ∧
      t.tm.copies = s.tm.copies ∧ s.regsBut t [Reg.tmCtrl])) ∧
  (∀ (p : Nat) (s : State), p < 20 → s.tm.running = true → has s.ck.service (portCrossing p) = true →
    Does (.replicaRealign p) s (fun t => (t.port p).aligned = true ∧ s.onlyChanges t [.tm])) ∧
  (∀ (p kind domain : Nat) (cap : Int) (s : State), p < 26 → s.portOn p = true → Does (.ptpMessageReceive p kind domain true cap) s
    (fun t => t.regN (Reg.tmPortErr p) = min (s.regN (Reg.tmPortErr p) + 1) 0xFFFFFFFF ∧ s.onlyChanges t [.regs])) ∧
  (∀ (p : Nat) (cap : Int) (s : State), p < 8 → s.portOn p = true → Does (.ptpMessageReceive p 2 0 false cap) s (fun t =>
      (Tbl.getD t.tm.sent p { kind := 0 }).stamp = s.stampIn p cap ∧ s.onlyChanges t [.tm])) ∧
  (∀ s : State, Does .ppsEdge s (fun t => s.onlyChanges t [.regs, .ev, .tm, .freeN])) ∧
  (∀ (pps : Bool) (s : State), Does (.tmNowCapture pps) s (fun t => s.onlyChanges t [.hold, .hp])) ∧
  (∀ (p : Nat) (s : State), Does (.replicaRealign p) s (fun t => s.onlyChanges t [.tm])) ∧
  (∀ (p kind domain : Nat) (malformed : Bool) (cap : Int) (s : State), Does (.ptpMessageReceive p kind domain malformed cap) s (fun t => s.onlyChanges t [.regs, .tm]))

/-- When exactly two copies agree at an edge, the third takes their value, TM_COPY_FIX counts it and the voted time
does not move off theirs; when no two agree, the brake wheel enters STO with cause majority. TM_CMD SET is
accepted only in STANDBY and is otherwise ignored with cmd_ignored; at the boundary it sets every copy of module
time to TM_SET, or is dropped where TM_SET_NS exceeds 999,999,999; every bound fusion source returns to ACQUIRE.
Every command of this family answers a next state in every state, and changes only the parts of the state that
its clause lists. (R345; R457; R357) -/
def Obligations.ModuleTime : Prop :=
  (∀ (d : Int) (a : Nat) (s : State), s.tm.running = true → s.tm.copies = [a, a, a] → 0 < d →
    Does (.timeCopyMismatch 0 0 d) s (fun t => t.tm.copies = [a, a, a] ∧
      t.regN Reg.tmCopyFix = min (s.regN Reg.tmCopyFix + 1) 0xFFFFFFFF ∧ t.timeUnits = a ∧
      s.onlyChanges t [.tm, .regs, .ev])) ∧
  (∀ (b c : Int) (a : Nat) (s : State), s.tm.running = true → s.tm.copies = [a, a, a] → 0 < b → 0 < c → b ≠ c →
    Does (.timeCopyMismatch 0 b c) s (fun t => t.gov.wheel.state = .sto ∧ 1 ∈ t.gov.wheel.sto)) ∧
  (∀ s : State, s.gov.wheel.state = .standby → Does .timeSet s (fun t => t.tm.setWait = true ∧ t.tm.cmdIgnored = false ∧
      t.tm.copies = s.tm.copies ∧ s.onlyChanges t [.tm])) ∧
  (∀ s : State, s.gov.wheel.state ≠ .standby → Does .timeSet s (fun t => t.tm = { s.tm with cmdIgnored := true } ∧ s.onlyChanges t [.tm])) ∧
  (∀ s : State, s.tm.setWait = true → s.regN Reg.tmSetNs ≤ 999999999 → s.regN Reg.tmSetSecHi < 65536 →
    Does .timeStepApply s (fun t =>
      t.now = (s.regN Reg.tmSetSecLo + s.regN Reg.tmSetSecHi * 2 ^ 32) * 1000000000 + s.regN Reg.tmSetNs ∧
      t.tm.setWait = false ∧ (∀ e, e ∈ t.fus.tracks → e.2.state = .unbound ∨ e.2.state = .acquire) ∧
      s.onlyChanges t [.tm, .fus, .regs, .ev])) ∧
  (∀ s : State, s.tm.setWait = true → 999999999 < s.regN Reg.tmSetNs →
    Does .timeStepApply s (fun t => t.tm = { s.tm with setWait := false, cmdIgnored := true } ∧ s.onlyChanges t [.tm])) ∧
  (∀ (da db dc : Int) (s : State), Does (.timeCopyMismatch da db dc) s (fun t => s.onlyChanges t [.regs, .ev, .gov, .tm])) ∧
  (∀ s : State, Does .timeSet s (fun t => s.onlyChanges t [.tm])) ∧
  (∀ s : State, Does .timeStepApply s (fun t => s.onlyChanges t [.regs, .ev, .fus, .tm]))

/-- Management entries take at most three of a launch queue's four places in their order of arrival, the others
wait; a port takes the entry with the earliest launch time when its guard band has begun, launches it at that
time with its error, and a cyclic frame is then on the ring; an entry whose time has passed is removed and
counted in TM_LAUNCH_LATE; before the guard band, and with an empty queue, nothing happens. Every command of
this family answers a next state in every state, and changes only the parts of the state that its clause lists.
(R361; R362; R364) -/
def Obligations.LaunchQueue : Prop :=
  (∀ (p time ref : Nat) (e : LaunchEntry) (rest : List LaunchEntry) (s : State), p < 2 → mgmtCount (s.queue p) < 3 →
    Tbl.getD s.launch.waiting p [] ++ [{ time := time, voter := false, ref := ref, frame := [] }] = e :: rest →
    Does (.launchEntryPlace p time ref) s (fun t =>
      t.queue p = s.queue p ++ [e] ∧ Tbl.getD t.launch.waiting p [] = rest ∧ (∀ k, k ≠ p → t.queue k = s.queue k) ∧
      t.launch.last = s.launch.last ∧ s.onlyChanges t [.launch])) ∧
  (∀ (p time ref : Nat) (s : State), p < 2 → 3 ≤ mgmtCount (s.queue p) →
    Does (.launchEntryPlace p time ref) s (fun t => t.launch.queues = s.launch.queues ∧
      Tbl.getD t.launch.waiting p [] = Tbl.getD s.launch.waiting p [] ++ [{ time := time, voter := false, ref := ref, frame := [] }] ∧
      t.launch.last = s.launch.last ∧ s.onlyChanges t [.launch])) ∧
  (∀ (p : Nat) (err : Int) (e : LaunchEntry) (s : State), earliest (s.queue p) = some e → s.now ≤ e.time →
    e.time ≤ s.now + 1300 + s.regN (Reg.tmLatOut (24 + p)) / 256 → Does (.torqueLaunch p err) s (fun t =>
      Tbl.find t.launch.last p = some { entry := e, stamp := 65536 * (e.time : Int) + 256 * err } ∧
      (∀ d, d ∈ s.queue p → e.time ≤ d.time) ∧ t.queue p = (((s.setQueue p (dropEntry e (s.queue p))).admitWaiting p).queue p) ∧
      (Tbl.getD s.launch.waiting p [] = [] → t.queue p = dropEntry e (s.queue p)) ∧ (∀ k, k ≠ p → t.queue k = s.queue k) ∧
      t.mr.launched = (if e.voter then s.mr.launched ++ [(nth e.frame 1 0, p)] else s.mr.launched) ∧
      s.regsBut t [Reg.tmLaunchErrPeak] ∧ s.onlyChanges t [.gov, .launch, .mr, .regs])) ∧
  (∀ (p : Nat) (err : Int) (e : LaunchEntry) (s : State), earliest (s.queue p) = some e → e.time < s.now →
    Does (.torqueLaunch p err) s (fun t =>
      t.launch.last = s.launch.last ∧ t.regN Reg.tmLaunchLate = min (s.regN Reg.tmLaunchLate + 1) 0xFFFFFFFF ∧
      (Tbl.getD s.launch.waiting p [] = [] → t.queue p = dropEntry e (s.queue p)) ∧ bitN (t.regN Reg.tmEvents) 5 = true ∧
      s.onlyChanges t [.ev, .launch, .regs])) ∧
  (∀ (p : Nat) (err : Int) (s : State),
    (s.queue p = [] ∨ ∃ e, earliest (s.queue p) = some e ∧ s.now + 1300 + s.regN (Reg.tmLatOut (24 + p)) / 256 < e.time) →
    Gives (.torqueLaunch p err) s s) ∧
  (∀ (p time ref : Nat) (s : State), Does (.launchEntryPlace p time ref) s (fun t => s.onlyChanges t [.launch])) ∧
  (∀ (p : Nat) (err : Int) (s : State), Does (.torqueLaunch p err) s (fun t => s.onlyChanges t [.regs, .ev, .gov, .launch, .mr]))

/-- The first fragment of a bound stream that begins at index 0 and offset 0 within its limit opens an assembly
where a slot is free and the lane has credit, and the frame is refused where not; a one-fragment frame of
exactly its bytes is admitted and reported to the fusion units; a fragment of an unbound stream or of another
lane is counted and dropped. Every command of this family answers a next state in every state, and changes only
the parts of the state that its clause lists. (R424; R425; R426) -/
def Obligations.SensorFragments : Prop :=
  (∀ (l stream format number index offset src bytes : Nat) (first last : Bool) (cap : Int) (payload : Bytes) (s : State),
    s.binding stream = none →
    Does (.fragmentReceive l stream format number index offset src bytes first last cap payload) s (fun t =>
      t.regN Reg.snUnbound = min (s.regN Reg.snUnbound + 1) 0xFFFFFFFF ∧ s.onlyChanges t [.regs])) ∧
  (∀ (l stream format number src bytes : Nat) (cap : Int) (payload : Bytes) (b : Binding) (s : State),
    s.binding stream = some b → b.lane = l → (s.stream stream).asm = none → bytes ≤ b.frameMax → payload.length < bytes →
    (s.stream stream).slots.length < 8 → s.laneStopped l = false →
    Does (.fragmentReceive l stream format number 0 0 src bytes true false cap payload) s (fun t =>
      (t.stream stream).asm = some
        { number := number, next := 1, offset := payload.length, bytes := bytes, format := format, src := src, data := payload } ∧ (t.stream stream).slots = (s.stream stream).slots ∧ s.onlyChanges t [.sn])) ∧
  (∀ (l stream format number src bytes : Nat) (cap : Int) (payload : Bytes) (b : Binding) (s : State),
    s.binding stream = some b → b.lane = l → (s.stream stream).asm = none → bytes ≤ b.frameMax → payload.length = bytes →
    (s.stream stream).slots.length < 8 → s.laneStopped l = false →
    Does (.fragmentReceive l stream format number 0 0 src bytes true true cap payload) s (fun t =>
      (t.stream stream).shown = number ∧ (t.stream stream).asm = none ∧
      (t.stream stream).slots = (s.stream stream).slots ++
        [{ number := number, src := src, port := s.stampIn (8 + l) cap / 65536, format := format, data := payload }] ∧
      t.fus.inbox.length = s.fus.inbox.length + 1)) ∧
  (∀ (l stream format number src bytes : Nat) (last : Bool) (cap : Int) (payload : Bytes) (b : Binding) (s : State),
    s.binding stream = some b → b.lane = l → (s.stream stream).asm = none → bytes ≤ b.frameMax → 8 ≤ (s.stream stream).slots.length →
    Does (.fragmentReceive l stream format number 0 0 src bytes true last cap payload) s (fun t =>
      t.regN (Reg.snRefused stream) = min (s.regN (Reg.snRefused stream) + 1) 0xFFFFFFFF ∧
      (t.stream stream).slots = (s.stream stream).slots ∧ t.fus = s.fus)) ∧
  (∀ (l stream format number index offset src bytes : Nat) (first last : Bool) (cap : Int) (payload : Bytes) (s : State), Does (.fragmentReceive l stream format number index offset src bytes first last cap payload) s (fun t => s.onlyChanges t [.regs, .leat, .fus, .sn]))

/-- A warning in NORMAL enters DIP, gives the brake wheel cause supply, pauses the fabric and counts the dip; 35.0 V
in DIP enters RECOVERING and a fall below it returns to DIP; a qualified recovery returns to NORMAL, clears the
cause and resumes the fabric. Below 28.0 V the storage feeds the motion domain, and at or above it no longer; a
change of its energy sets PW_HOLDUP and holdup_low below 450 mJ; an input above 62.0 V sets PW_EVENTS.over and
writes a live record; an input above 80 V stops the model. Every command of this family answers a next state in
every state, and changes only the parts of the state that its clause lists. (R443; R444; R445; R289; R446; R449;
R495) -/
def Obligations.SupplyAndHoldUp : Prop :=
  (∀ (v : Nat) (s : State), s.pw.motionOn = true → s.pw.supply = .normal → v < 3300 →
    (s.pw.onHoldup = false ∨ s.pw.holdupLow = false) → Does (.supplyWarning v) s (fun t =>
      t.pw.supply = .dip ∧ t.gov.wheel.supply = true ∧ t.pw.fabricPaused = true ∧ bitN (t.regN Reg.pwEvents) 0 = true ∧
      t.regN Reg.pwDipCount = min (s.regN Reg.pwDipCount + 1) 0xFFFFFFFF ∧
      (∀ m, (s.mill m).state = .run → (t.mill m).state = .paused) ∧
      (s.gov.wheel.state = .run → t.gov.wheel.state ≠ .run) ∧ s.onlyChanges t [.pw, .gov, .mills, .regs, .ev])) ∧
  (∀ (v : Nat) (s : State), s.pw.supply = .dip → 3500 ≤ v → v ≤ 8000 → Does (.supplyRise v) s (fun t =>
      t.pw.supply = .recovering ∧ t.pw.fabricPaused = s.pw.fabricPaused ∧ s.onlyChanges t [.pw, .regs])) ∧
  (∀ (v : Nat) (s : State), s.pw.supply = .recovering → v < 3500 → Does (.supplyFall v) s (fun t =>
      t.pw.supply = .dip ∧ t.pw.fabricPaused = s.pw.fabricPaused ∧ s.onlyChanges t [.pw, .regs])) ∧
  (∀ (v lowest below left : Nat) (s : State), s.pw.supply = .recovering → 3500 ≤ v → v ≤ 8000 →
    Does (.recoveryQualified v lowest below left) s (fun t =>
      t.pw.supply = .normal ∧ t.gov.wheel.supply = false ∧ t.pw.fabricPaused = false ∧ t.pw.holdup = left ∧
      t.pw.lastDipMin = min (min s.pw.dipMin v) lowest ∧ t.pw.lastDipBelow = min below 0xFFFF ∧
      t.ck = s.ck ∧ t.hp = s.hp ∧ t.tm = s.tm)) ∧
  (∀ (v : Nat) (s : State), s.pw.motionOn = true → v < 2800 → s.pw.holdupLow = false → Does (.holdupTakeover v) s (fun t =>
      t.pw.onHoldup = true ∧ t.pw.supply = s.pw.supply ∧ s.onlyChanges t [.pw, .regs])) ∧
  (∀ (v left : Nat) (s : State), s.pw.onHoldup = true → 2800 ≤ v → v ≤ 8000 → Does (.holdupEnd v left) s (fun t =>
      t.pw.onHoldup = false ∧ t.pw.holdup = left ∧ s.onlyChanges t [.pw, .regs])) ∧
  (∀ (left : Nat) (s : State), s.pw.motionOn = true → s.pw.onHoldup = false → Does (.holdupLowChange left) s (fun t =>
      t.pw.holdup = left ∧ (t.pw.holdupLow = true ↔ left < 450) ∧ t.pw.supply = s.pw.supply ∧ s.onlyChanges t [.pw, .regs])) ∧
  (∀ (v : Nat) (s : State), s.pw.motionOn = true → 6200 < v → v ≤ 8000 → Does (.overVoltageNotice v) s (fun t =>
      bitN (t.regN Reg.pwEvents) 2 = true ∧ t.ev.pendingLive.length = s.ev.pendingLive.length + 1 ∧
      s.onlyChanges t [.pw, .regs, .ev])) ∧
  (∀ (v a b c : Nat) (cold : Bool) (s : State) (i : Instr), 8000 < v →
    i ∈ [.supplyWarning v, .supplyRise v, .supplyFall v, .recoveryQualified v a b c, .holdupTakeover v, .holdupEnd v a,
      .supplyReset v, .startQualified v cold, .overVoltageNotice v] → exec i s = .fault .ratingExceeded) ∧
  (∀ (v : Nat) (c : Instr) (s : State), v ≤ 8000 → c ∈ [.supplyWarning v, .holdupTakeover v] →
    Does c s (fun t => s.onlyChanges t [.regs, .hold, .mem, .ledger, .ev, .hp, .pw, .ck, .sec, .mills, .leat, .loader, .ops, .streams, .tiers, .bolters, .gov, .px])) ∧
  (∀ (v left : Nat) (c : Instr) (s : State), v ≤ 8000 → c ∈ [.supplyRise v, .supplyFall v, .holdupEnd v left] →
    Does c s (fun t => s.onlyChanges t [.regs, .pw])) ∧
  (∀ (v lowest below left : Nat) (s : State), v ≤ 8000 → Does (.recoveryQualified v lowest below left) s (fun t => s.onlyChanges t [.regs, .mem, .ledger, .ev, .pw, .mills, .leat, .tiers, .gov, .px, .freeN])) ∧
  (∀ (left : Nat) (s : State), Does (.holdupLowChange left) s (fun t => s.onlyChanges t [.regs, .hold, .mem, .ledger, .ev, .hp, .pw, .ck, .sec, .mills, .leat, .loader, .ops, .streams, .tiers, .bolters, .gov, .px])) ∧
  (∀ (v : Nat) (cold : Bool) (c : Instr) (s : State), v ≤ 8000 → c ∈ [.overVoltageNotice v, .startQualified v cold] →
    Does c s (fun t => s.onlyChanges t [.regs, .ev, .pw]))

/-- A write of MR_CFG in STANDBY with a drive count of 1–64, an apply delay of 20–250 µs and a hop delay of 1–4 sets
the three fields; any other write leaves MR_CFG as it was and sets MR_EVENTS.cfg_ignored. A returned copy of a
launched frame is kept with its valid slots and its traversal, and one of a frame that is not on the ring
changes nothing; at its deadline a tick leaves the ring, each copy that has not returned counts in
MR_RETURN_MISS, and three short ticks in a row make the ring LOST. Every command of this family answers a next
state in every state, and changes only the parts of the state that its clause lists. (R428; R430; R432) -/
def Obligations.MotionRing : Prop :=
  (∀ (v : Nat) (s : State), s.gov.wheel.state = .standby → 1 ≤ fldN v 6 0 → fldN v 6 0 ≤ 64 → 20 ≤ fldN v 15 8 → fldN v 15 8 ≤ 250 →
    1 ≤ fldN v 18 16 → fldN v 18 16 ≤ 4 → Does (.mrCfgWrite v) s (fun t =>
      t.driveCount = fldN v 6 0 ∧ t.applyUs = fldN v 15 8 ∧ fld (t.reg Reg.mrCfg) 18 16 = fldN v 18 16 ∧
      s.regsBut t [Reg.mrCfg] ∧ s.onlyChanges t [.regs])) ∧
  (∀ (v : Nat) (s : State), (s.gov.wheel.state ≠ .standby ∨ fldN v 6 0 = 0 ∨ 64 < fldN v 6 0 ∨ fldN v 15 8 < 20 ∨ 250 < fldN v 15 8 ∨
      fldN v 18 16 = 0 ∨ 4 < fldN v 18 16) → Does (.mrCfgWrite v) s (fun t =>
      t.reg Reg.mrCfg = s.reg Reg.mrCfg ∧ bitN (t.regN Reg.mrEvents) 5 = true ∧ s.regsBut t [Reg.mrEvents] ∧ s.onlyChanges t [.regs])) ∧
  (∀ (tick copy port traversal : Nat) (slots : List (Nat × DriveSlot)) (s : State), (tick, copy) ∈ s.mr.launched → port < 2 →
    s.mr.copies.any (fun c => c.tick = tick && c.copy = copy) = false → traversal ≤ 1000 * s.applyUs + 10000 →
    Does (.ringCopyReturn tick copy port traversal slots) s (fun t =>
      t.mr.copies.length = s.mr.copies.length + 1 ∧
      (∃ c, c ∈ t.mr.copies ∧ c.tick = tick ∧ c.copy = copy ∧ c.port = port ∧ c.traversal = traversal) ∧
      t.mr.launched = s.mr.launched ∧ t.mr.state = s.mr.state ∧ s.onlyChanges t [.mr, .fus, .regs])) ∧
  (∀ (tick copy port traversal : Nat) (slots : List (Nat × DriveSlot)) (s : State), (tick, copy) ∉ s.mr.launched →
    Gives (.ringCopyReturn tick copy port traversal slots) s s) ∧
  (∀ (tick : Nat) (s : State), (∃ c, (tick, c) ∈ s.mr.launched) → Does (.ringReturnDeadline tick) s (fun t =>
      (∀ c, (tick, c) ∉ t.mr.launched) ∧ (∀ c, c ∈ t.mr.copies → c.tick ≠ tick) ∧
      (s.mr.copies.filter (fun c => c.tick = tick) = [] → 0 < s.driveCount → 2 ≤ s.mr.shortRun → t.mr.state = .lost))) ∧
  (∀ (tick copy port traversal : Nat) (slots : List (Nat × DriveSlot)) (s : State), Does (.ringCopyReturn tick copy port traversal slots) s (fun t => s.onlyChanges t [.regs, .fus, .mr])) ∧
  (∀ (tick : Nat) (s : State), Does (.ringReturnDeadline tick) s (fun t => s.onlyChanges t [.regs, .ev, .gov, .mr]))

/-- When the reset qualifies, the brake wheel enters STO with cause supply_reset and the fabric rails go off; so it
is when the motion die reaches 115 °C, and when the hold-up energy is below its reserve while the input is below
28.0 V, a warning in that condition included (log 44). When the STO frames are done the motion rails go off,
with the operating time saved; an input of 36.0 V starts the module again. Every command of this family answers
a next state in every state, and changes only the parts of the state that its clause lists. (R443; R446; R447;
R448; R469; R505) -/
def Obligations.ShutdownEntersSto : Prop :=
  (∀ (v : Nat) (s : State), s.pw.motionOn = true → (s.pw.supply = .dip ∨ s.pw.supply = .recovering) → v < 2800 →
    Does (.supplyReset v) s (fun t =>
      t.pw.supply = .shutdown ∧ t.pw.fabricOn = false ∧ t.gov.wheel.state = .sto ∧ 0 ∈ t.gov.wheel.sto ∧ t.gov.wheel.everReset = true ∧
      t.hp.state = .off ∧ t.mem.store = s.mem.store ∧ t.pw.motionOn = true ∧ t.tm = s.tm)) ∧
  (∀ (v : Nat) (s : State), s.pw.motionOn = true → s.pw.holdupLow = true → (s.pw.supply = .dip ∨ s.pw.supply = .recovering) → v < 2800 →
    Does (.holdupTakeover v) s (fun t => t.pw.supply = .shutdown ∧ t.gov.wheel.state = .sto)) ∧
  (∀ (left : Nat) (s : State), s.pw.motionOn = true → s.pw.onHoldup = true → (s.pw.supply = .dip ∨ s.pw.supply = .recovering) → left < 450 →
    Does (.holdupLowChange left) s (fun t => t.pw.supply = .shutdown ∧ t.gov.wheel.state = .sto)) ∧
  (∀ (x : Int) (s : State), s.pw.motionOn = true → s.pw.supply ≠ .shutdown → 1150 ≤ x → Does (.thermalShutdown x) s (fun t =>
      t.pw.supply = .shutdown ∧ t.pw.motionHot = true ∧ t.gov.wheel.state = .sto ∧ 0 ∈ t.gov.wheel.sto ∧ t.pw.fabricOn = false)) ∧
  (∀ (lowest below left : Nat) (s : State), s.pw.supply = .shutdown → s.pw.motionOn = true →
    (s.gov.sec = none ∨ 24 ≤ s.gov.stoFrames ∨ 8 ≤ s.gov.stoFrames ∧ 2 ≤ s.gov.stoActive) →
    Does (.shutdownStoDone lowest below left) s (fun t =>
      t.pw.motionOn = false ∧ t.pw.wasShutdown = true ∧ t.ev.opSaved = s.ev.opSeconds ∧ t.tm.running = false ∧
      (∃ e, t.pw.log.getLast? = some e ∧ e.event = 2 ∧ e.left = left) ∧ t.mem.store = s.mem.store)) ∧
  (∀ (v : Nat) (cold : Bool) (s : State), s.pw.motionOn = false → s.pw.motionHot = false → 3600 ≤ v → v ≤ 8000 →
    Does (.startQualified v cold) s (fun t =>
      t.pw.motionOn = true ∧ t.pw.stage = 1 ∧ t.ev.powerCycles = s.ev.powerCycles + 1 ∧ s.onlyChanges t [.pw, .ev, .regs])) ∧
  (∀ (v : Nat) (s : State), s.pw.motionOn = true → s.pw.supply = .normal → s.pw.onHoldup = true → s.pw.holdupLow = true → v < 3300 →
    Does (.supplyWarning v) s (fun t => t.pw.supply = .shutdown ∧ t.gov.wheel.state = .sto)) ∧
  (∀ (v : Nat) (s : State), v ≤ 8000 → Does (.supplyReset v) s (fun t => s.onlyChanges t [.regs, .hold, .mem, .ledger, .ev, .hp, .pw, .ck, .sec, .mills, .leat, .loader, .ops, .streams, .tiers, .bolters, .gov, .px])) ∧
  (∀ (t1 : Int) (s : State), Does (.thermalShutdown t1) s (fun t => s.onlyChanges t [.regs, .hold, .mem, .ledger, .ev, .hp, .pw, .ck, .sec, .mills, .leat, .loader, .ops, .streams, .tiers, .bolters, .gov, .px]))

/-- THROTTLE_UPDATE moves the cap level one step up above 180 W under the FIELD power cap, and the thermal level one
step with thermal throttling; at level 15 an excess sets cap_unmet. PW_CAP takes the mode, and FULL throttles
nothing. 100 °C throttles, 110 °C resets and holds the fabric group, and each row is released below its
temperature. Every command of this family answers a next state in every state, and changes only the parts of the
state that its clause lists. (R451; R452; R505) -/
def Obligations.ThrottleAndThermal : Prop :=
  (∀ (p : Nat) (f m c : Int) (s : State), s.pw.motionOn = true → Does (.throttleUpdate p f m c) s (fun t =>
      t.pw.inputP = p ∧ t.pw.fabricT = f ∧ t.pw.motionT = m ∧ t.pw.faceT = c ∧
      (s.capField = true → 1800 < p → t.pw.capLevel = min 15 (s.pw.capLevel + 1) ∧ (t.pw.capUnmet = true ↔ s.pw.capLevel = 15)) ∧
      (s.capField = true → p < 1800 → t.pw.capLevel = s.pw.capLevel - 1) ∧ (s.capField = false → t.pw.capLevel = 0) ∧
      (s.pw.thermal = .normal → t.pw.thermLevel = s.pw.thermLevel - 1) ∧
      (s.pw.thermal ≠ .normal → t.pw.thermLevel = min 15 (s.pw.thermLevel + 1)) ∧ s.onlyChanges t [.pw, .regs, .ev])) ∧
  (∀ (v : Nat) (s : State), Does (.pwCap v) s (fun t =>
      t.regN Reg.pwCap = v % 2 ∧ (v % 2 = 0 → t.pw.capLevel = 0 ∧ t.pw.capUnmet = false) ∧ (v % 2 = 1 → t.pw = s.pw) ∧
      s.regsBut t [Reg.pwCap] ∧ s.onlyChanges t [.pw, .regs])) ∧
  (∀ (x : Int) (s : State), s.pw.motionOn = true → s.pw.thermal = .normal → 1000 ≤ x → Does (.thermalThrottle x) s (fun t =>
      t.pw.thermal = .throttling ∧ t.pw.fabricT = x ∧ bitN (t.regN Reg.pwThermalEvents) 0 = true ∧ s.onlyChanges t [.pw, .regs, .ev])) ∧
  (∀ (x : Int) (s : State), s.pw.motionOn = true → s.pw.thermal ≠ .fabricHeld → 1100 ≤ x → Does (.thermalFabricReset x) s (fun t =>
      t.pw.thermal = .fabricHeld ∧ (∀ d, d ∈ fabricGroup → has s.ck.held 4 = false → has t.ck.held d = true) ∧ t.gov = s.gov)) ∧
  (∀ (x : Int) (s : State), (s.pw.thermal = .throttling ∧ x < 950 ∨ s.pw.thermal = .fabricHeld ∧ x < 900) →
    Does (.thermalRelease false x) s (fun t => t.pw = { s.pw with thermal := .normal, fabricT := x } ∧ s.onlyChanges t [.pw])) ∧
  (∀ (x : Int) (s : State), x < 950 →
    Does (.thermalRelease true x) s (fun t => t.pw = { s.pw with motionHot := false, motionT := x } ∧ s.onlyChanges t [.pw])) ∧
  (∀ (p : Nat) (fabric motion face t1 : Int) (c : Instr) (s : State), c ∈ [.throttleUpdate p fabric motion face, .thermalThrottle t1] →
    Does c s (fun t => s.onlyChanges t [.regs, .ev, .pw])) ∧
  (∀ (t1 : Int) (s : State), Does (.thermalFabricReset t1) s (fun t => s.onlyChanges t [.regs, .hold, .mem, .ledger, .ev, .hp, .pw, .ck, .sec, .mills, .leat, .loader, .ops, .streams, .tiers, .bolters, .tm, .px, .sn, .mr, .freeN])) ∧
  (∀ (motion : Bool) (t1 : Int) (s : State), Does (.thermalRelease motion t1) s (fun t => s.onlyChanges t [.pw]))

/-- An absent reference or a motion PLL failure switches all rails off; a fabric or HBM PLL failure, an HBM stack
failure and a parcel header error reset the fabric group; a SerDes PLL failure of a port or lane resets its
domain; a timeout on crossing 0–2 isolates the lane with cause CDC_TIMEOUT; the module then tries to start from
MOTION_POWER. Every command of this family answers a next state in every state, and changes only the parts of
the state that its clause lists. (R434; R437; R440; R457; R459) -/
def Obligations.ClockFailures : Prop :=
  (∀ (u : Nat) (s : State), s.pw.motionOn = true → Does (.clockCheckFail 0 u) s (fun t =>
      t.pw.motionOn = false ∧ t.pw.clockFailed = true ∧ t.pw.wasClockFailure = true ∧ t.pw.fabricOn = false ∧
      t.ev.opSeconds = s.ev.opSaved ∧ t.mem.store = s.mem.store)) ∧
  (∀ s : State, s.pw.motionOn = true → Does .referenceAbsent s (fun t =>
      t.pw.motionOn = false ∧ t.pw.refAbsent = true ∧ t.pw.wasClockFailure = true)) ∧
  (∀ (p : Bool) (s : State), s.pw.clockFailed = true → s.pw.motionOn = false → s.pw.motionHot = false →
    Does (.clockRestartAttempt p) s (fun t => t.pw.motionOn = true ∧ t.pw.stage = 1 ∧ t.pw.refAbsent = !p ∧ s.onlyChanges t [.pw])) ∧
  (∀ (u : Nat) (s : State), s.pw.motionOn = true → Does (.clockCheckFail 1 u) s (fun t =>
      has t.ck.held 4 = true ∧ t.ck.fabricLock = false ∧ t.gov = s.gov)) ∧
  (∀ (u : Nat) (s : State), s.pw.motionOn = true → u < 6 → Does (.clockCheckFail 2 u) s (fun t =>
      has t.ck.held 4 = true ∧ has t.ck.hbmLock u = false ∧ t.gov = s.gov)) ∧
  (∀ (u : Nat) (s : State), s.pw.motionOn = true → u < 24 → Does (.clockCheckFail 3 u) s (fun t =>
      has t.ck.held (if u < 8 then 32 + u else 40 + u) = true ∧ has t.ck.serdesBad u = true)) ∧
  (∀ (a b c : Nat) (s : State), s.pw.fabricOn = true → has s.ck.held 4 = false → a < 8 → (b < 12 ∨ b = 255) →
    has (stationStacks a) c = true → Does (.hbmStackFailure a b c) s (fun t =>
      (∀ d, d ∈ fabricGroup → has t.ck.held d = true) ∧ t.gov = s.gov)) ∧
  (∀ s : State, s.pw.fabricOn = true → has s.ck.held 4 = false → Does .parcelHeaderError s (fun t =>
      (∀ d, d ∈ fabricGroup → has t.ck.held d = true) ∧ t.gov = s.gov)) ∧
  (∀ (c x : Nat) (s : State), s.pw.motionOn = true → c < 3 → has s.ck.held (c + 1) = false → (s.lane c).state = .inService →
    Does (.cdcTimeout c x) s (fun t =>
      ((t.lane c).state = .isolated ∨ (t.lane c).state = .out) ∧ (t.lane c).cause = 6 ∧
      t.regN Reg.ckCdcTimeouts = min (s.regN Reg.ckCdcTimeouts + 1) 0xFFFFFFFF ∧ bitN (t.regN Reg.ckEvents) 3 = true ∧
      (s.ck.cdcLast = none → t.ck.cdcLast = some (c, x)) ∧ s.onlyChanges t [.ck, .regs, .ev, .gov])) ∧
  (∀ (present : Bool) (s : State), Does (.clockRestartAttempt present) s (fun t => s.onlyChanges t [.pw])) ∧
  (∀ (station ch stack : Nat) (c : Instr) (s : State), c ∈ [.hbmStackFailure station ch stack, .parcelHeaderError] →
    Does c s (fun t => s.onlyChanges t [.regs, .hold, .mem, .ledger, .ev, .hp, .pw, .ck, .sec, .mills, .leat, .loader, .ops, .streams, .tiers, .bolters, .tm, .px, .sn, .mr, .freeN]))

/-- A reset domain is held in reset until it is released; a mill's domain leaves the mill EMPTY while no loader
command runs, and ends the replacement behind whose closed sluice it is reset; a governor lane's isolates the
lane; the reset of the fabric group holds all its domains, loses millpond and HBM contents and leaves the
governor; PW_RESET_CMD accepts what R442 accepts and rejects everything else. Every command of this family
answers a next state in every state, and changes only the parts of the state that its clause lists. (R438; R439;
R440; R441; R140; R442; R25) -/
def Obligations.DomainResets : Prop :=
  (∀ (d : Nat) (s : State), s.pw.motionOn = true → (d = 7 ∨ d = 8 ∨ 16 ≤ d ∧ d < 40 ∨ 48 ≤ d ∧ d < 64) → Does (.domainReset d) s (fun t =>
      has t.ck.held d = true ∧
      (16 ≤ d → d < 32 → has s.ck.held d = false → s.loader.state = .idle → (t.mill (d - 16)).state = .empty))) ∧
  (∀ (l : Nat) (s : State), s.pw.motionOn = true → l < 3 → has s.ck.held (l + 1) = false → (s.lane l).state = .inService →
    Does (.domainReset (l + 1)) s (fun t =>
      ((t.lane l).state = .isolated ∨ (t.lane l).state = .out) ∧ (t.lane l).cause = 5 ∧ s.onlyChanges t [.gov, .regs, .ev])) ∧
  (∀ s : State, s.pw.fabricOn = true → has s.ck.held 4 = false → Does .fabricGroupReset s (fun t =>
      (∀ d, d ∈ fabricGroup → has t.ck.held d = true) ∧ t.pw.fabricResets = min (s.pw.fabricResets + 1) 0xFFFF ∧
      (∀ m, (t.mill m).state = .empty) ∧ t.mem.pond = s.mem.pond.lose ∧ t.mem.hbm = s.mem.hbm.lose ∧ t.loader.loaded = none ∧
      t.gov = s.gov ∧ t.fus = s.fus ∧ t.sol = s.sol ∧ t.launch = s.launch)) ∧
  (∀ (d : Nat) (s : State), d ≠ 4 → d ≠ 127 → has s.ck.held d = true → (has s.ck.held 4 = false ∨ has fabricGroup d = false) →
    Does (.domainRelease d) s (fun t => t.ck.held = remN s.ck.held d ∧ s.onlyChanges t [.ck, .ev, .hp, .ledger, .mills, .pw, .regs, .tiers])) ∧
  (∀ s : State, has s.ck.held 4 = true → s.pw.fabricOn = true → s.pw.thermal ≠ .fabricHeld → Does (.domainRelease 4) s (fun t =>
      (∀ d, d ∈ fabricGroup → has t.ck.held d = false) ∧ t.tiers.hbmReady = true)) ∧
  (∀ (v : Nat) (s : State), s.pw.resetBusy = true → Gives (.pwResetCmd v) s s) ∧
  (∀ (v : Nat) (s : State), s.pw.resetBusy = false → v % 128 ≠ 127 → ¬(16 ≤ v % 128 ∧ v % 128 < 40) → ¬(48 ≤ v % 128 ∧ v % 128 < 64) →
    Does (.pwResetCmd v) s (fun t => t.pw = { s.pw with resetResult := 2, resetDomain := v % 128 } ∧ s.onlyChanges t [.pw])) ∧
  (∀ (v : Nat) (s : State), s.pw.resetBusy = false →
    (32 ≤ v % 128 ∧ v % 128 < 40 ∨ 48 ≤ v % 128 ∧ v % 128 < 60 ∨ 60 ≤ v % 128 ∧ v % 128 < 64 ∧ s.gov.wheel.state = .standby ∨
      16 ≤ v % 128 ∧ v % 128 < 32 ∧ ((s.mill (v % 128 - 16)).state = .empty ∨ (s.mill (v % 128 - 16)).state = .evacuated)) →
    Does (.pwResetCmd v) s (fun t => t.pw.resetBusy = true ∧ t.pw.resetDomain = v % 128 ∧ has t.ck.held (v % 128) = true)) ∧
  (∀ (d : Nat) (s : State), s.pw.motionOn = true → 16 ≤ d → d < 32 → has s.ck.held d = false → s.loader.state = .swapping →
    s.replaces (d - 16) = true → Does (.domainReset d) s (fun t =>
      (t.mill (d - 16)).state = .fault ∧ t.loader.state = .idle ∧ t.loader.staged = none ∧ t.loader.cause = 0x15)) ∧
  (∀ (d : Nat) (s : State), Does (.domainReset d) s (fun t => s.onlyChanges t [.regs, .hold, .mem, .ledger, .ev, .hp, .ck, .mills, .leat, .loader, .ops, .streams, .tiers, .bolters, .gov, .tm, .px, .sn, .mr, .freeN])) ∧
  (∀ s : State, Does .fabricGroupReset s (fun t => s.onlyChanges t [.regs, .hold, .mem, .ledger, .ev, .hp, .pw, .ck, .sec, .mills, .leat, .loader, .ops, .streams, .tiers, .bolters, .tm, .px, .sn, .mr, .freeN])) ∧
  (∀ (d : Nat) (s : State), Does (.domainRelease d) s (fun t => s.onlyChanges t [.regs, .ledger, .ev, .hp, .pw, .ck, .mills, .tiers])) ∧
  (∀ (v : Nat) (s : State), Does (.pwResetCmd v) s (fun t => s.onlyChanges t [.regs, .hold, .mem, .ledger, .ev, .hp, .pw, .ck, .sec, .mills, .leat, .loader, .ops, .streams, .tiers, .bolters, .gov, .tm, .px, .sn, .mr, .freeN]))

/-- A stage that ends gives way to the next, whose line goes out; the motion rails need the reference; OTP switches
the fabric on, ROM notes recovery where an image fails, MOTION_LOAD starts the time base and charges the hold-up
storage. A stage that overruns three times in a row leaves the module there. Every command of this family
answers a next state in every state, and changes only the parts of the state that its clause lists. (R453; R455;
R500) -/
def Obligations.BringUp : Prop :=
  (∀ (bad : Nat) (s : State), s.pw.motionOn = true → s.pw.stuck = false → s.pw.supply ≠ .shutdown → 1 ≤ s.pw.stage → s.pw.stage ≤ 6 →
    (s.pw.stage = 1 → s.pw.refAbsent = false) → Does (.bootStageDone bad) s (fun t =>
      t.pw.stage = s.pw.stage + 1 ∧ t.pw.overruns = 0 ∧ t.pw.uart = s.pw.uart ++ [s.pw.stage + 1] ∧
      (s.pw.stage = 3 → t.pw.fabricOn = true) ∧
      (s.pw.stage = 4 → (t.pw.recovery = true ↔ ∃ k, 1 ≤ k ∧ k ≤ 5 ∧ bitN bad k = true)) ∧
      (s.pw.stage = 5 → t.tm.running = true ∧ t.pw.holdup = 1000) ∧
      (s.pw.stage = 6 → t.tiers.hbmReady = true ∧ t.tiers.mapReady = true) ∧ t.gov.wheel = s.gov.wheel ∧ t.pending = s.pending)) ∧
  (∀ (bad : Nat) (s : State), s.pw.motionOn = true → s.pw.stuck = true → Gives (.bootStageDone bad) s s) ∧
  (∀ s : State, s.pw.motionOn = true → 1 ≤ s.pw.stage → s.pw.stage ≤ 7 → Does .bootStageOverrun s (fun t =>
      t.pw.overruns = s.pw.overruns + 1 ∧ t.pw.stage = s.pw.stage ∧ (s.pw.overruns = 2 → t.pw.stuck = true) ∧ s.onlyChanges t [.pw])) ∧
  (∀ (bad : Nat) (s : State), Does (.bootStageDone bad) s (fun t => s.onlyChanges t [.regs, .ledger, .ev, .hp, .pw, .ck, .sec, .mills, .tiers, .gov, .tm, .freeN])) ∧
  (∀ s : State, Does .bootStageOverrun s (fun t => s.onlyChanges t [.pw]))

/-- The oldest pending live record enters the buffer and the head follows; while the store path runs the oldest
record of the buffer goes to its slot of the ring; a channel that counted untaken records writes one coalesced
record with that count once the buffer has space; a save keeps op_seconds. Every command of this family answers
a next state in every state, and changes only the parts of the state that its clause lists. (R467; R469) -/
def Obligations.RecordsEnter : Prop :=
  (∀ (r : Rec) (rest : List Rec) (s : State), s.ev.pendingLive = r :: rest → Does .liveRecordEnter s (fun t =>
      t.ev.buffer = s.ev.buffer ++ [r] ∧ t.ev.pendingLive = rest ∧ t.ev.head = max s.ev.head r.seq ∧
      bitN (t.regN Reg.evEvents) 0 = true ∧ s.regsBut t [Reg.evEvents] ∧ s.onlyChanges t [.ev, .regs])) ∧
  (∀ (r : Rec) (rest : List Rec) (s : State), s.ev.buffer = r :: rest → s.pw.fabricOn = true → s.pw.fabricPaused = false →
    has s.ck.held 4 = false → s.storeUp = true → Does .recordFlush s (fun t =>
      t.ev.buffer = rest ∧ Tbl.find t.ev.ring r.seq = some r ∧ t.ev.head = s.ev.head ∧ t.ev.next = s.ev.next ∧ s.onlyChanges t [.ev])) ∧
  (∀ s : State, (s.pw.fabricPaused = true ∨ has s.ck.held 4 = true ∨ s.storeUp = false) → Gives .recordFlush s s) ∧
  (∀ (ch n : Nat) (s : State), Tbl.find s.ev.coalesce ch = some n → 0 < n → s.ev.buffer.length < 3840 →
    Does (.coalescedRecord ch) s (fun t =>
      (∃ x, t.ev.buffer = s.ev.buffer ++ [x] ∧ x.channel = ch ∧ x.seq = s.ev.next ∧ x.flags = 4 ∧ x.detail = le 4 n ++ zeros 24) ∧
      t.ev.next = s.ev.next + 1 ∧ Tbl.find t.ev.coalesce ch = none ∧ s.regsBut t [Reg.evEvents] ∧ s.onlyChanges t [.ev, .regs])) ∧
  (∀ s : State, Does .opSecondsSave s (fun t =>
      t.ev.opSaved = s.ev.opSeconds ∧ t.ev.opSeconds = s.ev.opSeconds ∧ s.onlyChanges t [.ev])) ∧
  (∀ (ch : Nat) (c : Instr) (s : State), c ∈ [.liveRecordEnter, .coalescedRecord ch] →
    Does c s (fun t => s.onlyChanges t [.regs, .ev])) ∧
  (∀ (c : Instr) (s : State), c ∈ [.recordFlush, .opSecondsSave] →
    Does c s (fun t => s.onlyChanges t [.ev]))

/-- A write of the high half of a record number latches that record as one copy with the first read status of R470
that applies: in the context view a record of another context or of a live channel is view_denied. A write while
busy is ignored. Every command of this family answers a next state in every state, and changes only the parts of
the state that its clause lists. (R470) -/
def Obligations.RecordWindows : Prop :=
  (∀ (v : Nat) (s : State), (s.latch 64).busy = false → Does (.evRdSeqHiWrite v) s (fun t =>
      (t.latch 64).busy = true ∧ s.regsBut t [Reg.evRdSeqHi] ∧ s.onlyChanges t [.ev, .regs] ∧
      (s.ev.head < s.regN Reg.evRdSeqLo + v % 2 ^ 32 * 2 ^ 32 → (t.latch 64).status = 2 ∧ (t.latch 64).data = zeros 64) ∧
      (∀ x, s.regN Reg.evRdSeqLo + v % 2 ^ 32 * 2 ^ 32 ≤ s.ev.head → s.ev.oldest ≤ s.regN Reg.evRdSeqLo + v % 2 ^ 32 * 2 ^ 32 →
        s.ev.pendingLive.any (fun y => y.seq = s.regN Reg.evRdSeqLo + v % 2 ^ 32 * 2 ^ 32) = false →
        s.ev.find (s.regN Reg.evRdSeqLo + v % 2 ^ 32 * 2 ^ 32) = some x → s.ev.isCleared x = false → x.bad = false →
        (t.latch 64).status = 0 ∧ (t.latch 64).data = x.bytes))) ∧
  (∀ (v : Nat) (s : State), (s.latch 64).busy = true → Gives (.evRdSeqHiWrite v) s s) ∧
  (∀ (ctx v : Nat) (s : State), ctx < 64 → (s.latch ctx).busy = false → Does (.evCtxSelHiWrite ctx v) s (fun t =>
      (t.latch ctx).busy = true ∧ s.regsBut t [Reg.evCtxSelHi ctx] ∧ s.onlyChanges t [.ev, .regs] ∧
      (∀ k, k ≠ ctx → t.latch k = s.latch k) ∧
      (∀ x, s.ev.find (s.regN (Reg.evCtxSelLo ctx) + v % 2 ^ 32 * 2 ^ 32) = some x → (60 ≤ x.channel ∧ x.channel < 64 ∨ x.context ≠ ctx) →
        (t.latch ctx).status ≠ 0 ∧ (t.latch ctx).status ≠ 5 ∧ (t.latch ctx).data = zeros 64))) ∧
  (∀ (k : Nat) (s : State), (s.latch k).busy = true → Does (.recordLatchDone k) s (fun t =>
      (t.latch k).busy = false ∧ (t.latch k).data = (s.latch k).data ∧ (t.latch k).status = (s.latch k).status ∧ s.onlyChanges t [.ev])) ∧
  (∀ (ctx v : Nat) (s : State), Does (.evCtxSelHiWrite ctx v) s (fun t => s.onlyChanges t [.regs, .ev])) ∧
  (∀ (k : Nat) (s : State), Does (.recordLatchDone k) s (fun t => s.onlyChanges t [.ev]))

/-- A capture writes each slot with its record or its placeholder; a challenge is written into the data area and
replaces the earlier one of its purpose; OTP_READ writes the committed generation asked for; CERT_READ writes
the certificate where it fits. Each completes its mailbox request. While no loader command and no firmware phase
runs, ATTEST writes the report of R492 with the signature block into the data area and completes with its
length; otherwise it waits and changes nothing. Every command of this family answers a next state in every
state, and changes only the parts of the state that its clause lists. (R471; R482; R485; R494; R492) -/
def Obligations.CaptureAndAttestation : Prop :=
  (∀ (idx : Nat) (r : Request) (s : State), s.memOk → s.mbRequest idx 0x10 = some r → 1 ≤ leAt r.body 8 4 → leAt r.body 8 4 ≤ 524288 →
    leAt r.body 12 4 % 64 = 0 → leAt r.body 12 4 + 64 * leAt r.body 8 4 ≤ dataBytes → Does (.evCapture idx) s (fun t =>
      (∀ k, k < leAt r.body 8 4 → t.dataAt (leAt r.body 12 4 + 64 * k) 64 = s.ev.slot (leAt r.body 0 8 + k)) ∧
      (∃ bad, bad ≤ leAt r.body 8 4 ∧ s.answered t r 0 (leAt r.body 8 4 - bad + bad * 2 ^ 32)) ∧ s.onlyChanges t [.hp, .mem])) ∧
  (∀ (idx : Nat) (r : Request) (s : State), s.memOk → s.mbRequest idx 0x11 = some r → (leAt r.body 0 1 = 1 ∨ leAt r.body 0 1 = 2) →
    leAt r.body 4 4 + 64 ≤ dataBytes → s.lifecycle ≠ 0 → Does (.challenge idx) s (fun t =>
      (∃ c, t.ev.challenges.filter (fun x => x.purpose = leAt r.body 0 1) = [c] ∧ t.dataAt (leAt r.body 4 4) 64 = c.bytes) ∧
      s.answered t r 0 s.ev.head ∧ s.onlyChanges t [.hp, .mem, .ev, .freeN])) ∧
  (∀ (idx : Nat) (r : Request) (s : State), s.memOk → s.mbRequest idx 0x1B = some r → leAt r.body 0 4 + 64 ≤ dataBytes →
    s.lifecycle ≠ 0 → Does (.otpChallenge idx) s (fun t =>
      (∃ c, t.ev.challenges.filter (fun x => x.purpose = 3) = [c] ∧ t.dataAt (leAt r.body 0 4) 64 = c.bytes) ∧
      s.answered t r 0 s.ev.head ∧ s.onlyChanges t [.hp, .mem, .ev, .freeN])) ∧
  (∀ (idx g gen : Nat) (r : Request) (y : OtpGen) (s : State), s.memOk → s.mbRequest idx 0x1D = some r → g = leAt r.body 0 1 → g < 8 →
    gen = leAt r.body 1 1 → 1 ≤ gen → gen ≤ 4 → leAt r.body 4 4 + otpBytes g ≤ dataBytes → Tbl.find (s.otp g).gens gen = some y →
    y.marker = true → y.crcOk = true → Does (.otpRead idx) s (fun t =>
      t.dataAt (leAt r.body 4 4) (otpBytes g) = padTo (otpBytes g) y.data ∧ s.answered t r 0 (otpBytes g) ∧ s.onlyChanges t [.hp, .mem])) ∧
  (∀ (idx : Nat) (r : Request) (s : State), s.memOk → s.mbRequest idx 0x19 = some r → Does (.certRead idx) s (fun t =>
      (leAt r.body 0 4 + Config.certificate.length ≤ dataBytes →
        t.dataAt (leAt r.body 0 4) Config.certificate.length = Config.certificate ∧ s.answered t r 0 Config.certificate.length) ∧
      (dataBytes < leAt r.body 0 4 + Config.certificate.length → t.mem = s.mem ∧ s.answered t r 0x15 0) ∧ s.onlyChanges t [.hp, .mem])) ∧
  (∀ (idx : Nat) (r : Request) (s : State), s.memOk → s.mbRequest idx 0x18 = some r → s.loader.state = .idle →
    s.sec.update.phase = .idle → leAt r.body 16 4 + (s.report (r.body.take 16)).length + 96 ≤ dataBytes →
    Does (.attest idx) s (fun t =>
      t.dataAt (leAt r.body 16 4) (s.report (r.body.take 16)).length = s.report (r.body.take 16) ∧
      s.answered t r 0 ((s.report (r.body.take 16)).length + 96) ∧ s.onlyChanges t [.hp, .mem])) ∧
  (∀ (idx : Nat) (s : State), (s.loader.state ≠ .idle ∨ s.sec.update.phase ≠ .idle) → Gives (.attest idx) s s) ∧
  (∀ (idx : Nat) (c : Instr) (s : State), c ∈ [.evCapture idx, .otpRead idx, .certRead idx, .attest idx] →
    Does c s (fun t => s.onlyChanges t [.mem, .hp])) ∧
  (∀ (idx : Nat) (c : Instr) (s : State), c ∈ [.challenge idx, .otpChallenge idx] →
    Does c s (fun t => s.onlyChanges t [.mem, .ev, .hp, .freeN]))

/-- In FIELD, a token that does not verify ends the request with SIG_INVALID and counts in SC_TOKEN_REJECT, with
records, OTP groups and queue untouched. A verified clear hides the masked records up to its bound and leaves
one record of itself; a verified return queues the LIFECYCLE write, once its record has gone to the ring; a
verified OTP write whose data match is queued. Every command of this family answers a next state in every state,
and changes only the parts of the state that its clause lists. (R472; R473; R480; R484; R485) -/
def Obligations.TokensDecide : Prop :=
  (∀ (idx : Nat) (r : Request) (s : State), s.mbRequest idx 0x12 = some r → leAt r.body 0 4 + leAt r.body 4 4 ≤ dataBytes →
    s.lifecycle = 1 → Does (.evClear idx) s (fun t =>
      (s.tokenOk 1 (s.dataAt (leAt r.body 0 4) (leAt r.body 4 4)) = false →
        s.answered t r 0x0D 0 ∧ t.ev = s.ev ∧ t.regN Reg.scTokenReject = min (s.regN Reg.scTokenReject + 1) 0xFFFFFFFF) ∧
      (s.tokenOk 1 (s.dataAt (leAt r.body 0 4) (leAt r.body 4 4)) = true →
        leAt (s.dataAt (leAt r.body 0 4) (leAt r.body 4 4)) 0x48 8 ≤ leAt (s.dataAt (leAt r.body 0 4) (leAt r.body 4 4)) 0x20 8 →
        s.answered t r 0 (leAt (s.dataAt (leAt r.body 0 4) (leAt r.body 4 4)) 0x48 8) ∧
        t.ev.cleared.length = s.ev.cleared.length + 1 ∧ t.ev.next = s.ev.next + 1 ∧ t.ev.ring = s.ev.ring) ∧
      s.onlyChanges t [.ev, .hp, .regs])) ∧
  (∀ (idx : Nat) (r : Request) (s : State), s.mbRequest idx 0x13 = some r → r.begun = false →
    leAt r.body 0 4 + leAt r.body 4 4 ≤ dataBytes → s.lifecycle = 1 → (s.otp 1).consumed < 4 → s.gov.wheel.state = .standby →
    s.loader.loaded = none → s.pw.supply = .normal → s.pw.holdupLow = false → Does (.returnEnter idx) s (fun t =>
      (s.tokenOk 2 (s.dataAt (leAt r.body 0 4) (leAt r.body 4 4)) = false →
        s.answered t r 0x0D 0 ∧ t.sec = s.sec ∧ t.ev = s.ev) ∧
      (s.tokenOk 2 (s.dataAt (leAt r.body 0 4) (leAt r.body 4 4)) = true →
        (∃ j, t.sec.otpQueue = s.sec.otpQueue ++ [j] ∧ j.group = 1 ∧ leAt j.data 0 1 = 2 ∧ j.req = some idx) ∧
        t.sec.groups = s.sec.groups ∧ t.ev.buffer = [] ∧ t.hp.done = s.hp.done) ∧ s.onlyChanges t [.ev, .hp, .regs, .sec])) ∧
  (∀ (idx : Nat) (r : Request) (s : State), s.mbRequest idx 0x1C = some r → r.begun = false →
    leAt r.body 0 4 + leAt r.body 4 4 ≤ dataBytes → s.lifecycle = 1 → s.pw.supply = .normal → s.pw.holdupLow = false →
    Does (.otpWrite idx) s (fun t =>
      (s.tokenOk 3 (s.dataAt (leAt r.body 0 4) (leAt r.body 4 4)) = false → s.answered t r 0x0D 0 ∧ t.sec = s.sec) ∧
      t.sec.groups = s.sec.groups ∧
      (t.sec.otpQueue ≠ s.sec.otpQueue → s.tokenOk 3 (s.dataAt (leAt r.body 0 4) (leAt r.body 4 4)) = true ∧
        ∃ j, t.sec.otpQueue = s.sec.otpQueue ++ [j] ∧ (j.group = 4 ∨ j.group = 6) ∧ (s.otp j.group).consumed < 4 ∧ j.req = some idx) ∧
      s.onlyChanges t [.hp, .regs, .sec])) ∧
  (∀ (idx : Nat) (s : State), Does (.evClear idx) s (fun t => s.onlyChanges t [.regs, .ev, .hp])) ∧
  (∀ (idx : Nat) (s : State), Does (.returnEnter idx) s (fun t => s.onlyChanges t [.regs, .ev, .hp, .sec])) ∧
  (∀ (idx : Nat) (s : State), Does (.otpWrite idx) s (fun t => s.onlyChanges t [.regs, .hp, .sec]))

/-- The oldest OTP write starts only with NORMAL supply and no low hold-up energy, and consumes the group's next
generation at once; when it is done the data, CRC and marker stand, that generation is current, and one record
is on channel 17. SAFETY_FLOOR stays pending. Every command of this family answers a next state in every state,
and changes only the parts of the state that its clause lists. (R477; R478; R480) -/
def Obligations.OtpProgramming : Prop :=
  (∀ (j : OtpJob) (q : List OtpJob) (s : State), s.sec.otpQueue = j :: q → s.sec.otpRunning = false → s.pw.supply = .normal →
    s.pw.holdupLow = false → (s.otp j.group).consumed < 4 → Does .otpWriteStart s (fun t =>
      t.sec.otpRunning = true ∧ t.sec.otpQueue = s.sec.otpQueue ∧
      Tbl.find (t.otp j.group).gens ((s.otp j.group).consumed + 1) = some { consumed := true } ∧
      (t.otp j.group).current = (s.otp j.group).current ∧ (t.otp j.group).shadow = (s.otp j.group).shadow ∧
      (∀ g, g ≠ j.group → t.otp g = s.otp g) ∧ s.onlyChanges t [.sec])) ∧
  (∀ s : State, (s.pw.supply ≠ .normal ∨ s.pw.holdupLow = true) → Gives .otpWriteStart s s) ∧
  (∀ (j : OtpJob) (q : List OtpJob) (s : State), s.sec.otpQueue = j :: q → s.sec.otpRunning = true → Does .otpWriteDone s (fun t =>
      t.sec.otpRunning = false ∧ t.sec.otpQueue = q ∧ (t.otp j.group).current = (s.otp j.group).consumed ∧
      (∃ y, Tbl.find (t.otp j.group).gens (s.otp j.group).consumed = some y ∧ y.data = j.data ∧ y.marker = true ∧ y.crcOk = true) ∧
      (j.group ≠ 4 → (t.otp j.group).shadow = j.data) ∧
      (j.group = 4 → (t.otp 4).shadow = (s.otp 4).shadow ∧ (t.otp 4).pending = true) ∧
      bitN (t.regN Reg.scEvents) 0 = true ∧ s.onlyChanges t [.ev, .hp, .regs, .sec, .tiers])) ∧
  (∀ s : State, Does .otpWriteStart s (fun t => s.onlyChanges t [.hp, .sec, .tiers])) ∧
  (∀ s : State, Does .otpWriteDone s (fun t => s.onlyChanges t [.regs, .ev, .hp, .sec, .tiers]))

/-- Staging verifies the image and keeps it where it is accepted; apply starts with the first unit whose turn is not
skipped: a mill closes its sluice, the store restarts; with no unit left, and in recovery, it commits at once,
and recovery then ends in stage ROM. A unit that is done runs the staged build and the next one's turn comes;
after the last the class holds the new build with an epoch that never falls. A first failure repeats the turn; a
second, or an abort, leaves the committed image in force once the units that run the staged one have been
returned one by one. Every command of this family answers a next state in every state, and changes only the
parts of the state that its clause lists. (R486; R487; R488; R490; R491) -/
def Obligations.FirmwareUpdate : Prop :=
  (∀ (idx cls off len : Nat) (r : Request) (s : State), s.fwRequest idx 1 = some r → cls = leAt r.body 1 1 → 1 ≤ cls → cls ≤ 5 →
    off = leAt r.body 4 4 → off % 65536 = 0 → len = leAt r.body 8 4 → 256 ≤ len → len ≤ fwLimit cls → off + len ≤ 0x4000000 →
    s.sec.update.phase = .idle → Does (.fwStage idx) s (fun t =>
      (t.sec.update.staged = true → t.sec.update.cls = cls ∧ t.sec.update.image = s.mem.sram.readBytes (0x40000000 + off) len ∧
        s.imageStatus cls (s.mem.sram.readBytes (0x40000000 + off) len) = 0) ∧
      (s.imageStatus cls (s.mem.sram.readBytes (0x40000000 + off) len) ≠ 0 → t.sec.update = {} ∧
        s.answered t r (s.imageStatus cls (s.mem.sram.readBytes (0x40000000 + off) len))
          (leAt (s.mem.sram.readBytes (0x40000000 + off) len) 6 2)) ∧
      t.sec.classes = s.sec.classes ∧ t.sec.running = s.sec.running ∧ s.onlyChanges t [.ev, .hp, .regs, .sec])) ∧
  (∀ (idx u : Nat) (r : Request) (s : State), s.fwRequest idx 2 = some r → s.sec.update.staged = true → s.sec.update.phase = .idle →
    leAt r.body 1 1 = s.sec.update.cls → s.pw.recovery = false → u = s.fwNext s.sec.update.cls 16 0 → u < fwUnits s.sec.update.cls →
    Does (.fwApply idx) s (fun t =>
      t.sec.update = { s.sec.update with phase := .apply, req := some idx, unit := u } ∧ t.sec.classes = s.sec.classes ∧
      t.hp.done = s.hp.done ∧ (s.sec.update.cls = 2 → s.onlyChanges t [.ev, .hp, .regs, .sec]) ∧
      (s.sec.update.cls = 4 → t.tiers.storeReady = false) ∧
      (s.sec.update.cls = 1 → s.sec.update.rollback = false → (s.mill u).state = .run → (t.mill u).state = .closed) ∧
      (∀ k, k ≠ u → t.mill k = s.mill k))) ∧
  (∀ (idx : Nat) (r : Request) (s : State), s.fwRequest idx 2 = some r → s.sec.update.staged = true → s.sec.update.phase = .idle →
    leAt r.body 1 1 = s.sec.update.cls → (s.pw.recovery = true ∨ fwUnits s.sec.update.cls ≤ s.fwNext s.sec.update.cls 16 0) →
    Does (.fwApply idx) s (fun t =>
      (t.fwClass s.sec.update.cls).build = s.sec.update.build ∧ t.sec.update = {} ∧ bitN (t.regN Reg.scEvents) 1 = true ∧
      (s.pw.recovery = true → t.pw.recovery = false ∧ t.pw.stage = 4) ∧ s.onlyChanges t [.ev, .hp, .pw, .regs, .sec])) ∧
  (∀ s : State, s.sec.update.phase = .apply → s.sec.update.rollback = false → s.pw.fabricPaused = false → s.sec.update.cls ≠ 3 →
    s.fwSkips s.sec.update.cls s.sec.update.unit = false → s.fwReady = true →
    s.sec.update.unit < fwUnits s.sec.update.cls → Does (.fwUnitDone true) s (fun t =>
      t.runningBuild s.sec.update.cls s.sec.update.unit = s.sec.update.build ∧
      (fwUnits s.sec.update.cls ≤ s.fwNext s.sec.update.cls 16 (s.sec.update.unit + 1) →
        (t.fwClass s.sec.update.cls).build = s.sec.update.build ∧ t.sec.update = {} ∧
        (s.fwClass s.sec.update.cls).epoch ≤ (t.fwClass s.sec.update.cls).epoch) ∧
      (s.fwNext s.sec.update.cls 16 (s.sec.update.unit + 1) < fwUnits s.sec.update.cls →
        t.sec.classes = s.sec.classes ∧ t.sec.update.unit = s.fwNext s.sec.update.cls 16 (s.sec.update.unit + 1) ∧
        t.sec.update.done = s.sec.update.done ++ [s.sec.update.unit]))) ∧
  (∀ (ok : Bool) (s : State), s.sec.update.phase = .apply → s.sec.update.rollback = false → s.pw.fabricPaused = false →
    s.fwSkips s.sec.update.cls s.sec.update.unit = true → s.fwNext s.sec.update.cls 16 (s.sec.update.unit + 1) < fwUnits s.sec.update.cls →
    Does (.fwUnitDone ok) s (fun t => t.sec.update.unit = s.fwNext s.sec.update.cls 16 (s.sec.update.unit + 1) ∧
      t.sec.update.skipped = s.sec.update.skipped ++ [s.sec.update.unit] ∧ t.sec.running = s.sec.running ∧ t.sec.classes = s.sec.classes)) ∧
  (∀ s : State, s.sec.update.phase = .apply → s.sec.update.rollback = false → s.pw.fabricPaused = false →
    s.fwSkips s.sec.update.cls s.sec.update.unit = false → Does (.fwUnitDone false) s (fun t =>
      (s.sec.update.repeated = true → s.sec.update.done = [] → t.sec.update = {} ∧ t.sec.classes = s.sec.classes) ∧
      (s.sec.update.repeated = false → t.sec.update = { s.sec.update with repeated := true } ∧ s.onlyChanges t [.sec]))) ∧
  (∀ (ok : Bool) (k : Nat) (rest : List Nat) (s : State), s.sec.update.phase = .apply → s.sec.update.rollback = true →
    s.pw.fabricPaused = false → s.sec.update.done = k :: rest → s.fwReady = true → Does (.fwUnitDone ok) s (fun t =>
      Tbl.find t.sec.running (s.sec.update.cls * 32 + k) = none ∧ t.sec.classes = s.sec.classes ∧
      (rest = [] → t.sec.update = {}) ∧ (rest ≠ [] → t.sec.update = { s.sec.update with done := rest }))) ∧
  (∀ (idx : Nat) (r : Request) (s : State), s.fwRequest idx 3 = some r → (s.sec.update.staged = true ∨ s.sec.update.phase = .apply) →
    Does (.fwAbort idx) s (fun t => t.sec.classes = s.sec.classes ∧ t.sec.running = s.sec.running ∧ t.request 64 idx = none ∧
      (s.sec.update.done = [] → t.sec.update = {} ∧ bitN (t.regN Reg.scEvents) 2 = true) ∧
      (s.sec.update.done ≠ [] → t.sec.update = { s.sec.update with phase := .apply, rollback := true }) ∧
      (s.sec.update.phase = .idle → s.sec.update.done = [] → s.onlyChanges t [.ev, .hp, .regs, .sec]))) ∧
  (∀ (idx : Nat) (s : State), Does (.fwStage idx) s (fun t => s.onlyChanges t [.regs, .ev, .hp, .sec])) ∧
  (∀ (idx : Nat) (s : State), Does (.fwApply idx) s (fun t => s.onlyChanges t [.regs, .mem, .ledger, .ev, .hp, .pw, .sec, .mills, .leat, .tiers, .gov, .tm, .px, .sn, .mr, .freeN])) ∧
  (∀ (ok : Bool) (idx : Nat) (c : Instr) (s : State), c ∈ [.fwUnitDone ok, .fwAbort idx] →
    Does c s (fun t => s.onlyChanges t [.regs, .mem, .ledger, .ev, .hp, .sec, .mills, .leat, .tiers, .gov, .tm, .px, .sn, .mr, .freeN]))

/-- Retraining takes a port's link down, one port of a group at a time, and a ring port only while the other ring
port is up; a port that comes up has its record and its event, and the third failure within 10 minutes leaves it
down. Every command of this family answers a next state in every state, and changes only the parts of the state
that its clause lists. (R463) -/
def Obligations.PortsRetrain : Prop :=
  (∀ (p : Nat) (s : State), p < 24 → has s.ev.portDown p = false → Tbl.find s.ev.retraining (retrainGroup p) = none →
    Does (.portRetrain p) s (fun t =>
      Tbl.find t.ev.retraining (retrainGroup p) = some p ∧ (t.port p).linkUp = false ∧
      (8 ≤ p → has t.sn.linkUp (p - 8) = false))) ∧
  (∀ (p k : Nat) (s : State), p < 24 → has s.ev.portDown p = false → Tbl.find s.ev.retraining (retrainGroup p) = some k → k ≠ p →
    Does (.portRetrain p) s (fun t => t.ev = { s.ev with retrainWait := addN s.ev.retrainWait p } ∧ s.onlyChanges t [.ev])) ∧
  (∀ (p : Nat) (s : State), (p = 24 ∧ s.mr.link1 = false ∨ p = 25 ∧ s.mr.link0 = false) → has s.ev.portDown p = false →
    Tbl.find s.ev.retraining 3 = none → Does (.portRetrain p) s (fun t =>
      bitN (t.regN Reg.evEvents) 4 = true ∧ t.mr = s.mr ∧ t.ev = s.ev ∧ s.onlyChanges t [.regs])) ∧
  (∀ (p : Nat) (s : State), p < 26 → Tbl.find s.ev.retraining (retrainGroup p) = some p → s.ev.retrainWait = [] →
    Does (.portRetrainEnd p true) s (fun t =>
      Tbl.find t.ev.retraining (retrainGroup p) = none ∧ (t.port p).linkUp = true ∧ bitN (t.regN Reg.evEvents) 3 = true)) ∧
  (∀ (p : Nat) (s : State), p < 26 → Tbl.find s.ev.retraining (retrainGroup p) = some p → s.ev.retrainWait = [] →
    2 ≤ ((Tbl.getD s.ev.retrainFails p []).filter (fun x => s.now - x < 600000000000)).length →
    Does (.portRetrainEnd p false) s (fun t => has t.ev.portDown p = true ∧ Tbl.find t.ev.retraining (retrainGroup p) = none)) ∧
  (∀ (t1 : Nat) (s : State), Does (.portRetrain t1) s (fun t => s.onlyChanges t [.regs, .mem, .ledger, .ev, .tiers, .tm, .px, .sn, .mr, .freeN])) ∧
  (∀ (t1 : Nat) (up : Bool) (s : State), Does (.portRetrainEnd t1 up) s (fun t => s.onlyChanges t [.regs, .mem, .ledger, .ev, .ck, .tiers, .tm, .px, .sn, .mr, .freeN]))

/-- PX_MODULE_ID is written only while no port is enabled; enabling a port sizes its pools to its grants; disabling
it, or the loss of its link, leaves no pairing of it UP; a valid pairing joins with a new session when its link
is up; PX_PEER_m takes its route only while DOWN; PFC pauses exactly the classes of its priorities; a discarded
frame counts on its port. Every command of this family answers a next state in every state, and changes only the
parts of the state that its clause lists. (R403; R404; R407; R408; R410; R415) -/
def Obligations.PortsAndPairings : Prop :=
  (∀ (v : Nat) (s : State), (∀ p, p < 8 → s.pxOn p = false) → Does (.pxModuleIdWrite v) s (fun t =>
      t.moduleId = v % 1024 ∧ s.regsBut t [Reg.pxModuleId] ∧ s.onlyChanges t [.regs])) ∧
  (∀ (v p : Nat) (s : State), p < 8 → s.pxOn p = true → Gives (.pxModuleIdWrite v) s s) ∧
  (∀ (p v : Nat) (s : State), p < 8 → v % 2 = 1 → s.pxOn p = false → Does (.phirovPortEnable p v) s (fun t =>
      t.pxOn p = true ∧ 2 ≤ fld (t.reg (Reg.pxPortCfg p)) 23 16 ∧
      (∀ c, c < 4 → s.poolFault (pxPool p c) = false → (s.pool (pxPool p c)).size ≤ s.grant p c →
        (t.pool (pxPool p c)).size = s.grant p c) ∧ s.onlyChanges t [.regs, .ledger, .ev, .px])) ∧
  (∀ (p v : Nat) (s : State), p < 8 → v % 2 = 0 → Does (.phirovPortDisable p v) s (fun t =>
      t.pxOn p = false ∧ ∀ m, (s.peer m).port = p → (t.peer m).state = .down)) ∧
  (∀ (m v : Nat) (s : State), m < 1024 → (s.peer m).state = .down → Does (.pxPeerWrite m v) s (fun t =>
      (t.peer m).port = fldN v 2 0 ∧ (t.peer m).peerPort = fldN v 5 3 ∧ (t.peer m).valid = bitN v 6 ∧
      (bitN v 6 = true → m ≠ s.moduleId → s.pxOn (fldN v 2 0) = true → has s.px.linkUp (fldN v 2 0) = true →
        (t.peer m).state = .joining ∧ (t.peer m).session = ((s.peer m).session + 1) % 65536) ∧
      (∀ k, k ≠ m → t.peer k = s.peer k) ∧ s.onlyChanges t [.px])) ∧
  (∀ (p : Nat) (s : State), p < 26 → Does (.linkUp p) s (fun t =>
      (t.port p).linkUp = true ∧ (p < 8 → has t.px.linkUp p = true) ∧ (8 ≤ p → p < 24 → has t.sn.linkUp (p - 8) = true) ∧
      (p = 24 → t.mr.link0 = true) ∧ (p = 25 → t.mr.link1 = true) ∧ s.onlyChanges t [.ck, .mr, .px, .sn, .tm])) ∧
  (∀ (p : Nat) (s : State), p < 26 → Does (.linkDownEvent p) s (fun t =>
      (t.port p).linkUp = false ∧ (t.port p).asCapable = false ∧
      (p < 8 → has t.px.linkUp p = false ∧ ∀ m, (s.peer m).port = p → (t.peer m).state = .down) ∧
      (8 ≤ p → p < 24 → has t.sn.linkUp (p - 8) = false) ∧ (p = 24 → t.mr.link0 = false) ∧ (p = 25 → t.mr.link1 = false))) ∧
  (∀ (p mask : Nat) (s : State), p < 8 → s.pxOn p = true → bitN (s.regN (Reg.pxPortCfg p)) 2 = true → Does (.pfcReceive p mask) s (fun t =>
      has t.px.pfc (4 * p) = bitN mask 6 ∧ has t.px.pfc (4 * p + 1) = bitN mask 5 ∧ has t.px.pfc (4 * p + 2) = bitN mask 3 ∧
      has t.px.pfc (4 * p + 3) = bitN mask 1 ∧ (∀ k, k / 4 ≠ p → has t.px.pfc k = has s.px.pfc k) ∧ s.onlyChanges t [.px])) ∧
  (∀ (p : Nat) (s : State), p < 8 → Does (.frameDiscard p) s (fun t =>
      t.regN (Reg.pxRxErr p) = min (s.regN (Reg.pxRxErr p) + 1) 0xFFFFFFFF ∧ s.regsBut t [Reg.pxRxErr p] ∧ s.onlyChanges t [.regs])) ∧
  (∀ (p v : Nat) (s : State), Does (.phirovPortEnable p v) s (fun t => s.onlyChanges t [.regs, .ledger, .ev, .px])) ∧
  (∀ (p v : Nat) (s : State), Does (.phirovPortDisable p v) s (fun t => s.onlyChanges t [.regs, .mem, .ledger, .ev, .tiers, .px])) ∧
  (∀ (m v p mask : Nat) (c : Instr) (s : State), c ∈ [.pxPeerWrite m v, .pfcReceive p mask] →
    Does c s (fun t => s.onlyChanges t [.px])) ∧
  (∀ (t1 : Nat) (s : State), Does (.linkUp t1) s (fun t => s.onlyChanges t [.ck, .tm, .px, .sn, .mr])) ∧
  (∀ (t1 : Nat) (s : State), Does (.linkDownEvent t1) s (fun t => s.onlyChanges t [.regs, .mem, .ledger, .ev, .tiers, .tm, .px, .sn, .mr, .freeN])) ∧
  (∀ (t1 : Nat) (s : State), Does (.frameDiscard t1) s (fun t => s.onlyChanges t [.regs]))

/-- A port sends HELLO with its session and the session heard; a pairing becomes UP when a HELLO echoes its session
and its port has room, and then grants its slots; a HELLO of another session, a timeout and a loss end it, with
nothing of it left to send or to await. Freed slots are granted again, and granted slots are counted for their
class. Every command of this family answers a next state in every state, and changes only the parts of the state
that its clause lists. (R407; R410; R411; R415) -/
def Obligations.HellosAndLoss : Prop :=
  (∀ (m : Nat) (s : State), ((s.peer m).state = .joining ∨ (s.peer m).state = .up) → s.pxOn (s.peer m).port = true →
    has s.px.linkUp (s.peer m).port = true → Does (.helloTimer m) s (fun t =>
      (∃ f, Tbl.find t.px.sent (s.peer m).port = some f ∧ f.kind = 7 ∧
        f.payload = le 2 (s.peer m).session ++ le 2 (s.peer m).heard ++ zeros 12) ∧
      t.px.peers = s.px.peers ∧ s.regsBut t [Reg.pxTxFrames (s.peer m).port] ∧ s.onlyChanges t [.px, .regs])) ∧
  (∀ (p m dst own echo : Nat) (s : State), p < 8 → s.pxOn p = true → has s.px.linkUp p = true → fldN dst 9 0 = s.moduleId → (s.peer m).port = p →
    (s.peer m).state = .joining → echo = (s.peer m).session →
    (s.grant p 0 + s.grant p 1 + s.grant p 2 + s.grant p 3) * ((s.peersUp p).length + 2) ≤ 4096 →
    Does (.helloReceive p m dst own echo) s (fun t =>
      (t.peer m).state = .up ∧ (t.peer m).expected = own ∧ (t.peer m).credit = [] ∧ bitN (t.regN Reg.pxEvents) 0 = true ∧
      (∃ f, Tbl.find t.px.sent p = some f ∧ f.kind = 6))) ∧
  (∀ (p m dst own echo : Nat) (s : State), p < 8 → s.pxOn p = true → has s.px.linkUp p = true → fldN dst 9 0 = s.moduleId → (s.peer m).port = p →
    (s.peer m).state = .joining → echo ≠ (s.peer m).session → Does (.helloReceive p m dst own echo) s (fun t =>
      (t.peer m).state = .joining ∧ (t.peer m).heard = own)) ∧
  (∀ (p m dst own echo : Nat) (s : State), p < 8 → s.pxOn p = true → has s.px.linkUp p = true → fldN dst 9 0 = s.moduleId → (s.peer m).port = p →
    (s.peer m).state = .up → own ≠ (s.peer m).expected → Does (.helloReceive p m dst own echo) s (fun t => (t.peer m).state ≠ .up)) ∧
  (∀ (m : Nat) (s : State) (c : Instr), (s.peer m).port < 8 → (s.peer m).state = .up → c ∈ [.peerTimeout m, .peerLost m 1, .peerLost m 2, .peerLost m 3, .peerLost m 4] →
    Does c s (fun t => (t.peer m).state ≠ .up ∧ (∀ e, e ∈ t.px.tx → e.1 ≠ m) ∧ (∀ e, e ∈ t.px.remote → e.2.peer ≠ m) ∧
      t.regN (Reg.pxPeerLoss (s.peer m).port) = min (s.regN (Reg.pxPeerLoss (s.peer m).port) + 1) 0xFFFFFFFF ∧
      bitN (t.regN Reg.pxEvents) 1 = true)) ∧
  (∀ (p m : Nat) (f : PxFrame) (s : State), p < 8 → s.pxOn p = true → has s.px.linkUp p = true → fldN f.dst 9 0 = s.moduleId → (s.peer m).port = p →
    (s.peer m).state = .up → f.session = (s.peer m).expected → Does (.creditReceive p m f) s (fun t =>
      (∀ c, c < 4 → cget (t.peer m).credit c = cget (s.peer m).credit c + leAt f.payload (4 * c) 4 +
        (if fldN f.credit 14 13 = c then fldN f.credit 12 0 else 0)) ∧ s.onlyChanges t [.px, .regs])) ∧
  (∀ (m : Nat) (s : State), (s.peer m).port < 8 → (s.peer m).state = .up → (s.peer m).freed.any (fun e => e.2 ≠ 0) = true → Does (.creditReturnSend m) s (fun t =>
      (∀ c, c < 4 → cget (t.peer m).granted c =
        cget (s.peer m).granted c + min (cget (s.peer m).freed c) (s.pool (pxPool (s.peer m).port c)).returned) ∧
      (∃ f, Tbl.find t.px.sent (s.peer m).port = some f ∧ f.kind = 6) ∧ s.onlyChanges t [.px, .regs, .ledger])) ∧
  (∀ (m : Nat) (s : State), Does (.helloTimer m) s (fun t => s.onlyChanges t [.regs, .px])) ∧
  (∀ (p m dst own echo cause : Nat) (f : PxFrame) (c : Instr) (s : State), c ∈ [.helloReceive p m dst own echo, .peerTimeout m, .peerLost m cause, .creditReceive p m f] →
    Does c s (fun t => s.onlyChanges t [.regs, .mem, .ledger, .ev, .tiers, .px])) ∧
  (∀ (m : Nat) (s : State), Does (.creditReturnSend m) s (fun t => s.onlyChanges t [.regs, .ledger, .px]))

/-- A frame leaves when its peer and credits allow, taking the slots it uses; a WRITE in its session and sequence is
written where its context holds the pages and answered, and a READ is answered with the bytes; a status other
than 0 and a write acknowledgement end the access here. A frame of another session is discarded and counted.
Every command of this family answers a next state in every state, and changes only the parts of the state that
its clause lists. (R405; R406; R412; R413; R414) -/
def Obligations.RemoteAccesses : Prop :=
  (∀ (m c : Nat) (f : PxFrame) (s : State), s.px.tx.find? (fun e => e.1 = m && e.2.cls = c) = some (m, f) → s.canSend m f = true →
    Does (.phirovFrameSend m c) s (fun t =>
      t.px.tx.length + 1 = s.px.tx.length ∧ cget (t.peer m).txSeq c = (cget (s.peer m).txSeq c + 1) % 2 ^ 32 ∧
      (f.kind ≠ 4 → cget (t.peer m).credit c = cget (s.peer m).credit c - f.slots) ∧
      (∃ g, Tbl.find t.px.sent (s.peer m).port = some g ∧ g.seq = cget (s.peer m).txSeq c ∧ g.session = (s.peer m).session ∧
        g.payload = f.payload) ∧ s.onlyChanges t [.px, .ledger, .regs])) ∧
  (∀ (m c : Nat) (s : State), (s.peer m).state ≠ .up → Gives (.phirovFrameSend m c) s s) ∧
  (∀ (p m : Nat) (f : PxFrame) (s : State), s.memOk → p < 8 → s.pxOn p = true → has s.px.linkUp p = true → fldN f.dst 9 0 = s.moduleId →
    (s.peer m).port = p → (s.peer m).state = .up → f.session = (s.peer m).expected → f.seq = cget (s.peer m).rxSeq f.cls →
    s.passesAtOnce p m f → s.noDescs f.address f.length → 1 ≤ f.length → f.length ≤ 8192 → f.payload.length = f.length → s.pw.fabricPaused = false →
    s.remoteStatus f.ctx f.address f.length = 0 → Does (.writeFrameReceive p m f) s (fun t =>
      t.local f.address f.length = f.payload ∧
      (∀ k, tierOf f.address = some k → s.memBut t k f.address f.length) ∧
      (∃ g, t.px.tx = s.px.tx ++ [(m, g)] ∧ g.kind = 4 ∧ g.req = f.req ∧ g.status = 0))) ∧
  (∀ (p m : Nat) (f : PxFrame) (s : State), p < 8 → s.pxOn p = true → has s.px.linkUp p = true → fldN f.dst 9 0 = s.moduleId →
    (s.peer m).port = p → (s.peer m).state = .up → f.session = (s.peer m).expected → f.seq = cget (s.peer m).rxSeq f.cls →
    s.passesAtOnce p m f → 1 ≤ f.length → f.length ≤ 8192 → s.pw.fabricPaused = false → s.remoteStatus f.ctx f.address f.length = 0 →
    s.poisonedIn f.address f.length = false → Does (.readFrameReceive p m f) s (fun t =>
      t.mem = s.mem ∧ (∃ g, t.px.tx = s.px.tx ++ [(m, g)] ∧ g.kind = 4 ∧ g.req = f.req ∧ g.payload = s.local f.address f.length))) ∧
  (∀ (p m : Nat) (f : PxFrame) (r : Remote) (s : State), p < 8 → s.pxOn p = true → has s.px.linkUp p = true → fldN f.dst 9 0 = s.moduleId →
    (s.peer m).port = p → (s.peer m).state = .up → f.session = (s.peer m).expected → f.seq = cget (s.peer m).rxSeq f.cls →
    s.passesAtOnce p m f → f.length ≤ 8192 → s.pw.fabricPaused = false → Tbl.find s.px.remote f.req = some r → (f.status ≠ 0 ∨ r.write = true) →
    Does (.responseReceive p m f) s (fun t => Tbl.find t.px.remote f.req ≠ some r ∧ t.mem = s.mem)) ∧
  (∀ (p m : Nat) (f : PxFrame) (s : State), p < 8 → s.pxOn p = true → has s.px.linkUp p = true → fldN f.dst 9 0 = s.moduleId →
    (s.peer m).port = p → (s.peer m).state = .up → f.session ≠ (s.peer m).expected → f.length ≤ 8192 → 1 ≤ f.length →
    Does (.readFrameReceive p m f) s (fun t =>
      t.regN (Reg.pxStale p) = min (s.regN (Reg.pxStale p) + 1) 0xFFFFFFFF ∧ s.onlyChanges t [.regs])) ∧
  (∀ (m c1 : Nat) (s : State), Does (.phirovFrameSend m c1) s (fun t => s.onlyChanges t [.regs, .ledger, .px])) ∧
  (∀ (p m : Nat) (f : PxFrame) (c : Instr) (s : State), c ∈ [.writeFrameReceive p m f, .readFrameReceive p m f, .responseReceive p m f] →
    Does c s (fun t => s.onlyChanges t [.regs, .mem, .ledger, .ev, .leat, .tiers, .px, .freeN]))

/-- A collective starts on a token of the mill while every other member is UP, and fails at once with LINK_DOWN on
its token where one is not; a COLLECT frame of a collective not yet started waits in the receive buffer, and an
abort ends it; when its parts are here the collective leaves and its token returns. Every command of this family
answers a next state in every state, and changes only the parts of the state that its clause lists. (R418; R419;
R421) -/
def Obligations.Collectives : Prop :=
  (∀ (mill stage id g r : Nat) (s : State), (leatGroup (s.body 2 0) g).rank s.moduleId = some r → g < leatGroups (s.body 2 0) →
    Tbl.find s.px.colls g = none → s.tierReq mill stage id = none → 0 < (s.pool (tokenPool mill)).returned → s.pw.fabricPaused = false →
    s.px.rx = [] → (∀ j, j ∈ (leatGroup (s.body 2 0) g).others r → (s.peer (nth (leatGroup (s.body 2 0) g).members j 0)).state = .up) →
    Does (.collectiveRequest mill stage id g) s (fun t =>
      (Tbl.find t.px.colls g).isSome = true ∧ (t.tierReq mill stage id).isSome = true ∧ t.mem = s.mem)) ∧
  (∀ (mill stage id g r j : Nat) (s : State), (leatGroup (s.body 2 0) g).rank s.moduleId = some r → g < leatGroups (s.body 2 0) →
    Tbl.find s.px.colls g = none → s.tierReq mill stage id = none → 0 < (s.pool (tokenPool mill)).returned → s.pw.fabricPaused = false →
    j ∈ (leatGroup (s.body 2 0) g).others r → (s.peer (nth (leatGroup (s.body 2 0) g).members j 0)).state ≠ .up →
    Does (.collectiveRequest mill stage id g) s (fun t =>
      Tbl.find t.px.colls g = none ∧ t.tierReq mill stage id = none ∧ bitN (t.regN Reg.pxEvents) 2 = true ∧
      (∃ x, x ∈ t.tiers.results ∧ x.mill = mill ∧ x.stage = stage ∧ x.id = id ∧ x.status = 0x12 ∧ x.tag = 255))) ∧
  (∀ (p m : Nat) (f : PxFrame) (s : State), p < 8 → s.pxOn p = true → has s.px.linkUp p = true → fldN f.dst 9 0 = s.moduleId →
    (s.peer m).port = p → (s.peer m).state = .up → f.session = (s.peer m).expected → f.seq = cget (s.peer m).rxSeq f.cls →
    f.length ≤ 8192 → (∀ h, h ∈ s.px.rx → h.port ≠ p) → Tbl.find s.px.colls (fldN f.address 5 0) = none → Does (.collectReceive p m f) s (fun t =>
      (∃ g, t.px.rx = s.px.rx ++ [{ port := p, peer := m, frame := g }] ∧ g.payload = f.payload) ∧ t.mem = s.mem ∧
      s.onlyChanges t [.px, .regs, .ledger])) ∧
  (∀ (p m r q : Nat) (f : PxFrame) (s : State), p < 8 → s.pxOn p = true → has s.px.linkUp p = true → fldN f.dst 9 0 = s.moduleId →
    (s.peer m).port = p → (s.peer m).state = .up → f.session = (s.peer m).expected → f.seq = cget (s.peer m).rxSeq f.cls →
    s.passesAtOnce p m f → f.length = 0 → f.status = 0x12 → s.pw.fabricPaused = false → (Tbl.find s.px.colls (fldN f.address 5 0)).isSome = true →
    (leatGroup (s.body 2 0) (fldN f.address 5 0)).rank s.moduleId = some r → (leatGroup (s.body 2 0) (fldN f.address 5 0)).rank m = some q →
    Does (.collectReceive p m f) s (fun t =>
      Tbl.find t.px.colls (fldN f.address 5 0) = none ∧ bitN (t.regN Reg.pxEvents) 2 = true)) ∧
  (∀ (g : Nat) (k : Coll) (s : State), Tbl.find s.px.colls g = some k → s.collReady g = true → Does (.collectiveDone g) s (fun t =>
      Tbl.find t.px.colls g = none ∧ (∀ q, s.tierReq k.mill k.stage k.id = some q → t.tierReq k.mill k.stage k.id = none ∧
        ∃ x, x ∈ t.tiers.results ∧ x.id = k.id ∧ x.status = k.status))) ∧
  (∀ (mill stage id g : Nat) (s : State), Does (.collectiveRequest mill stage id g) s (fun t => s.onlyChanges t [.regs, .mem, .ledger, .leat, .tiers, .px, .freeN])) ∧
  (∀ (p m : Nat) (f : PxFrame) (s : State), Does (.collectReceive p m f) s (fun t => s.onlyChanges t [.regs, .mem, .ledger, .ev, .leat, .tiers, .px, .freeN])) ∧
  (∀ (g : Nat) (s : State), Does (.collectiveDone g) s (fun t => s.onlyChanges t [.regs, .mem, .ledger, .tiers, .px]))

/-- A tailrace emits a parcel only with a credit for every destination; a weir admits the first parcel that waits
for a destination on a credit and a token of its row; a router hop moves one parcel and no credit; a hopper
takes it into a slot, its item then held; a freed slot goes back on the sideband, or is parked while the mill's
sluice is closed; a credit that arrives is held by its producer, or parked toward a closed sluice. Every command
of this family answers a next state in every state, and changes only the parts of the state that its clause
lists. (R87; R89; R94; R97; R98; R101; R102; R132) -/
def Obligations.ParcelsMove : Prop :=
  (∀ (m i wait d c r : Nat) (x : TailSlot) (s : State), m < 16 → s.millWorks m = true → (s.mill m).toCredit i = some x → x.dests = [(d, c, r)] →
    d < 256 → d % 32 < 16 → d % 32 ≠ m → s.destClosed d = false → s.classFits c d = true → 1 ≤ s.credits (8 * (d % 32) + d / 32) m → Does (.tailraceEmit m i wait) s (fun t =>
      t.credits (8 * (d % 32) + d / 32) m + 1 = s.credits (8 * (d % 32) + d / 32) m ∧
      t.pool (8 * (d % 32) + d / 32) = (s.pool (8 * (d % 32) + d / 32)).move .held .inFlight 1 ∧
      (∃ y, y ∈ (t.mill m).tail ∧ y.parcel = x.parcel ∧ y.dests = x.dests ∧ y.credited = true) ∧
      s.onlyChanges t [.mills, .ledger, .leat, .regs])) ∧
  (∀ (m i wait d c r : Nat) (x : TailSlot) (s : State), (s.mill m).toCredit i = some x → x.dests = [(d, c, r)] →
    (s.hasCredit m d = false ∨ s.classFits c d = false ∨ x.first = true ∧ d % 32 ≠ m ∧ s.destClosed d = true) →
    Does (.tailraceEmit m i wait) s (fun t => s.onlyChanges t [.regs])) ∧
  (∀ (w r wait : Nat) (p : Parcel) (rest : List Parcel) (s : State), 17 ≤ w → w < 42 → (w < 31 ∨ 39 ≤ w) → s.waiting w = p :: rest → s.edgeRow w p = some r →
    has s.leat.shut w = false → (p.off ≠ 0 ∨ has s.leat.closing w = false ∧ s.destClosed p.dest = false) → s.pw.fabricPaused = false →
    s.hasToken w r = true → s.hasCredit w p.dest = true → s.classFits p.cls p.dest = true → s.entryRoom w p.cls = true →
    Does (.weirAdmit w p.dest wait) s (fun t =>
      t.waiting w = rest ∧ t.regN (Reg.wrAdmit w) = min (s.regN (Reg.wrAdmit w) + 1) 0xFFFFFFFF ∧
      Tbl.getD t.leat.tokens (rowKey w r) 0 + 1024 = Tbl.getD s.leat.tokens (rowKey w r) 0 ∧
      t.buf (entryOf w).1 (entryOf w).2 p.cls = s.buf (entryOf w).1 (entryOf w).2 p.cls ++ [{ p with weir := w }] ∧
      s.onlyChanges t [.leat, .ledger, .regs])) ∧
  (∀ (w d c r wait : Nat) (x : TailSlot) (s : State), w < 16 → s.millWorks w = true → has s.leat.shut w = false → (s.mill w).toAdmit d = some x →
    x.dests = [(d, c, r)] → rowFits (s.rowWord w r) { x.parcel with dest := d, cls := c, weir := w } = true → s.hasToken w r = true →
    s.entryRoom w c = true → Does (.weirAdmit w d wait) s (fun t =>
      t.buf w 0 c = s.buf w 0 c ++ [{ x.parcel with dest := d, cls := c, weir := w }] ∧
      (t.mill w).tail.length + 1 = (s.mill w).tail.length ∧ s.onlyChanges t [.leat, .mills, .regs])) ∧
  (∀ (k out input wait c : Nat) (p : Parcel) (rest : List Parcel) (s : State), input < 5 → s.hopClass k out = some c → s.canHop k out input c = true →
    s.buf k input c = p :: rest → Does (.routerHop k out input wait) s (fun t =>
      t.buf k input c = rest ∧
      ((attachOf (p.dest % 32)).1 = k → Tbl.getD t.leat.arrived p.dest [] = Tbl.getD s.leat.arrived p.dest [] ++ [p]) ∧
      (∀ n, (attachOf (p.dest % 32)).1 ≠ k → neighbour k out = some n → t.buf n.1 n.2 c = s.buf n.1 n.2 c ++ [p]) ∧
      s.onlyChanges t [.leat, .regs])) ∧
  (∀ (m cycles d : Nat) (p : Parcel) (rest : List Parcel) (s : State), d < 256 → d % 32 < 16 → Tbl.getD s.leat.arrived d [] = p :: rest → p.dest = d →
    (s.mill (d % 32)).state ≠ .fault → (s.mill (d % 32)).state ≠ .empty → (s.mill (d % 32)).state ≠ .evacuated →
    Does (.hopperWrite d false m cycles) s (fun t =>
      Tbl.getD t.leat.arrived d [] = rest ∧
      Tbl.getD (t.mill (d % 32)).hopper (d / 32) [] = Tbl.getD (s.mill (d % 32)).hopper (d / 32) [] ++ [p] ∧
      t.pool (8 * (d % 32) + d / 32) = (s.pool (8 * (d % 32) + d / 32)).move .inFlight .held 1 ∧
      s.onlyChanges t [.mills, .ledger, .leat, .regs])) ∧
  (∀ (m cycles d : Nat) (p : Parcel) (s : State), d < 256 → d % 32 = m → m < 16 → (s.mill m).loop.find? (fun x => x.dest = d) = some p →
    (s.mill m).state ≠ .fault → (s.mill m).state ≠ .empty → (s.mill m).state ≠ .evacuated →
    Does (.hopperWrite d true m cycles) s (fun t =>
      (t.mill m).loop = dropFirst (fun x => x.dest = d) (s.mill m).loop ∧
      Tbl.getD (t.mill m).hopper (d / 32) [] = Tbl.getD (s.mill m).hopper (d / 32) [] ++ [{ p with weir := m }] ∧
      t.pool (8 * m + d / 32) = (s.pool (8 * m + d / 32)).move .inFlight .held 1 ∧ s.onlyChanges t [.mills, .ledger])) ∧
  (∀ (m q : Nat) (p : Parcel) (rest : List Parcel) (s : State), Tbl.getD (s.mill m).reading q [] = p :: rest → (s.mill m).state ≠ .closed →
    Does (.slotFree m q) s (fun t =>
      Tbl.getD (t.mill m).reading q [] = rest ∧
      t.pool (8 * m + q) = ((s.pool (8 * m + q)).move .held .returned 1).move .returned .inFlight 1 ∧
      Tbl.getD t.leat.returning (creditKey (8 * m + q) p.weir) 0 = Tbl.getD s.leat.returning (creditKey (8 * m + q) p.weir) 0 + 1 ∧
      s.onlyChanges t [.mills, .ledger, .leat])) ∧
  (∀ (m q : Nat) (p : Parcel) (rest : List Parcel) (s : State), Tbl.getD (s.mill m).reading q [] = p :: rest → (s.mill m).state = .closed →
    Does (.slotFree m q) s (fun t =>
      t.pool (8 * m + q) = ((s.pool (8 * m + q)).move .held .returned 1).move .returned .parked 1 ∧
      Tbl.getD t.leat.parked (creditKey (8 * m + q) p.weir) 0 = Tbl.getD s.leat.parked (creditKey (8 * m + q) p.weir) 0 + 1 ∧
      t.leat.returning = s.leat.returning)) ∧
  (∀ (p w : Nat) (s : State), 0 < Tbl.getD s.leat.returning (creditKey p w) 0 → (16 ≤ w ∨ (s.mill w).state ≠ .closed ∨ (s.mill w).spent = false) →
    (s.poolShut p = false ∨ p < 128 ∧ w = p / 8) →
    Does (.creditArrive p w) s (fun t =>
      t.credits p w = s.credits p w + 1 ∧ t.pool p = (s.pool p).move .inFlight .held 1 ∧
      Tbl.getD t.leat.returning (creditKey p w) 0 + 1 = Tbl.getD s.leat.returning (creditKey p w) 0 ∧ s.onlyChanges t [.leat, .ledger])) ∧
  (∀ (p w : Nat) (s : State), 0 < Tbl.getD s.leat.returning (creditKey p w) 0 →
    (w < 16 ∧ (s.mill w).state = .closed ∧ (s.mill w).spent = true ∨
      s.poolShut p = true ∧ (128 ≤ p ∨ w ≠ p / 8) ∧ ∀ v, v < 42 → s.emitting v p = false) →
    Does (.creditArrive p w) s (fun t =>
      t.credits p w = s.credits p w ∧ t.pool p = (s.pool p).move .inFlight .parked 1 ∧
      Tbl.getD t.leat.parked (creditKey p w) 0 = Tbl.getD s.leat.parked (creditKey p w) 0 + 1 ∧ s.onlyChanges t [.leat, .ledger])) ∧
  (∀ (m i wait : Nat) (s : State), Does (.tailraceEmit m i wait) s (fun t => s.onlyChanges t [.regs, .ledger, .mills, .leat])) ∧
  (∀ (w dest wait : Nat) (s : State), Does (.weirAdmit w dest wait) s (fun t => s.onlyChanges t [.regs, .mem, .ledger, .mills, .leat, .tiers, .px, .freeN])) ∧
  (∀ (k out input wait : Nat) (s : State), Does (.routerHop k out input wait) s (fun t => s.onlyChanges t [.regs, .leat])) ∧
  (∀ (dest m cycles : Nat) (loop : Bool) (s : State), Does (.hopperWrite dest loop m cycles) s (fun t => s.onlyChanges t [.regs, .mem, .ledger, .ev, .hp, .mills, .leat])) ∧
  (∀ (m q : Nat) (s : State), Does (.slotFree m q) s (fun t => s.onlyChanges t [.ledger, .mills, .leat])) ∧
  (∀ (p w : Nat) (s : State), Does (.creditArrive p w) s (fun t => s.onlyChanges t [.ledger, .leat]))

/-- A running core counts its heartbeat; a watchdog that expires and an uncorrectable error take the mill to FAULT
with their cause; after 2^24 draws the generator is reseeded, and a failed health test degrades SR until one
passes, each transition recorded. Every command of this family answers a next state in every state, and changes
only the parts of the state that its clause lists. (R65; R90; R109; R457) -/
def Obligations.MillerCores : Prop :=
  (∀ (m : Nat) (s : State), (s.mill m).coreRunning = true → Does (.coreHeartbeat m) s (fun t =>
      t.mill m = { s.mill m with heartbeat := ((s.mill m).heartbeat + 1) % 2 ^ 32 } ∧ s.onlyChanges t [.mills])) ∧
  (∀ (m : Nat) (s : State), m < 16 → s.pw.fabricOn = true → (s.mill m).state ≠ .fault → (s.mill m).state ≠ .evacuated →
    Does (.watchdogExpiry m) s (fun t => (t.mill m).state = .fault ∧ (t.mill m).watchdog = true ∧ (t.mill m).uncorrectable = false ∧
      (∀ k, k ≠ m → t.mill k = s.mill k) ∧ t.loader.loaded = s.loader.loaded ∧ s.onlyChanges t [.ev, .freeN, .ledger, .loader, .mills, .regs])) ∧
  (∀ (m : Nat) (s : State), m < 16 → s.pw.fabricOn = true → (s.mill m).state ≠ .fault → (s.mill m).state ≠ .evacuated →
    Does (.millUncorrectable m) s (fun t => (t.mill m).state = .fault ∧ (t.mill m).uncorrectable = true ∧
      t.regN Reg.evUeCount = min (s.regN Reg.evUeCount + 1) 0xFFFFFFFF ∧ (∀ k, k ≠ m → t.mill k = s.mill k) ∧
      t.loader.loaded = s.loader.loaded ∧ s.onlyChanges t [.ev, .freeN, .ledger, .loader, .mills, .regs])) ∧
  (∀ (m : Nat) (s : State), m < 16 → s.pw.fabricOn = true → ((s.mill m).state = .fault ∨ (s.mill m).state = .evacuated) →
    Does (.millUncorrectable m) s (fun t => t.regN Reg.evUeCount = min (s.regN Reg.evUeCount + 1) 0xFFFFFFFF ∧ t.mills = s.mills)) ∧
  (∀ (m : Nat) (pass : Bool) (s : State), m < 16 → 2 ^ 24 ≤ (s.mill m).srDraws → Does (.srReseed m pass) s (fun t =>
      (t.mill m).srDraws = 0 ∧ (t.mill m).srDegraded = !pass ∧
      t.regN (Reg.mlSrReseedCount m) = (s.regN (Reg.mlSrReseedCount m) + 1) % 2 ^ 32 ∧
      t.regN (Reg.mlSrHealthFail m) = (if pass then s.regN (Reg.mlSrHealthFail m) else min (s.regN (Reg.mlSrHealthFail m) + 1) 0xFFFFFFFF) ∧
      ((s.mill m).srDegraded = !pass → t.ev = s.ev) ∧
      ((s.mill m).srDegraded = pass → ∃ x, x ∈ t.ev.buffer ++ t.ev.pendingLive ∧ x.channel = 3 ∧ x.event = (if pass then 2 else 1)) ∧
      (∀ k, k ≠ m → t.mill k = s.mill k) ∧ s.regsBut t [Reg.mlSrReseedCount m, Reg.mlSrHealthFail m, Reg.evEvents] ∧
      s.onlyChanges t [.mills, .regs, .ev])) ∧
  (∀ (m : Nat) (pass : Bool) (s : State), (s.mill m).srDraws < 2 ^ 24 → Gives (.srReseed m pass) s s) ∧
  (∀ (m : Nat) (s : State), Does (.coreHeartbeat m) s (fun t => s.onlyChanges t [.mills])) ∧
  (∀ (m : Nat) (c : Instr) (s : State), c ∈ [.watchdogExpiry m, .millUncorrectable m] →
    Does c s (fun t => s.onlyChanges t [.regs, .ledger, .ev, .mills, .loader, .freeN])) ∧
  (∀ (m : Nat) (pass : Bool) (s : State), Does (.srReseed m pass) s (fun t => s.onlyChanges t [.regs, .ev, .mills]))

/-- A step of a stage without an attention role takes the front parcel of its queue, whose slot stays held until it
is freed, counts its cycles and stores its blocks; a stripe starts when the watermark has passed its rows; a
frame starts in a buffer its consumers have left; a delivered sensor frame frees its slot. Every command of this
family answers a next state in every state, and changes only the parts of the state that its clause lists. (R87;
R88; R155; R156; R425) -/
def Obligations.StagesAndFrames : Prop :=
  (∀ (m i q : Nat) (a : Nat × Nat × Nat) (job : StageJob) (p : Parcel) (rest : List Parcel) (s : State), s.millWorks m = true →
    s.stageWorks m i = true → job.first ≠ has (s.mill m).items i → cfgValid (stageCfg (s.millBody m) i) = true →
    operFits (cfgType (stageCfg (s.millBody m) i)) (cfgParams (stageCfg (s.millBody m) i) = 1) job.op = true → stageStriped (s.millBody m) i = false →
    s.attn m i = none → (s.stagePlanes m i job).isSome = true → scans job.op = false → job.tokens = [] →
    job.store = some a → job.takes = [q] → Tbl.getD (s.mill m).hopper q [] = p :: rest →
    (hopperCfg (s.millBody m) q).stage = i → Does (.stageItem m i job) s (fun t =>
      Tbl.getD (t.mill m).hopper q [] = rest ∧ Tbl.getD (t.mill m).reading q [] = Tbl.getD (s.mill m).reading q [] ++ [p] ∧
      t.regN (Reg.mlStone0Busy m) = min (s.regN (Reg.mlStone0Busy m) + job.busy0) 0xFFFFFFFF ∧
      s.onlyChanges t [.mills, .tiers, .freeN, .regs, .mem])) ∧
  (∀ (m i wait : Nat) (s : State), m < 16 → stageStriped (s.millBody m) i = true → (s.stripe (8 * m + i)).active = false →
    s.stripeReady (8 * m + i) = true → (s.stripe (8 * m + i)).frameOpen = true → (s.mill m).state = .run →
    has (s.mill m).stopped i = false → Does (.stripeStart m i wait) s (fun t =>
      t.stripe (8 * m + i) = { s.stripe (8 * m + i) with active := true } ∧ s.onlyChanges t [.ops, .regs])) ∧
  (∀ (m i wait : Nat) (s : State), m < 16 → stageStriped (s.millBody m) i = true → (s.stripe (8 * m + i)).frameOpen = false →
    (s.stripe (8 * m + i)).stripe = 0 →
    s.bufFree (s.img (8 * m + i)).outAddr (s.img (8 * m + i)).bufs (s.stripe (8 * m + i)).frame = true →
    Does (.frameBufferStart false m i wait) s (fun t =>
      (t.stripe (8 * m + i)).frameOpen = true ∧
      (t.frameBuf ((s.img (8 * m + i)).outBuf (s.stripe (8 * m + i)).frame)).rows = 0 ∧ s.onlyChanges t [.ops, .regs])) ∧
  (∀ (m i wait : Nat) (b : Binding) (s : State), s.binding i = some b → b.kind = 1 → has s.ops.inOpen i = false →
    s.bufFree (s.img (8 * b.mill + b.stage)).inAddr (s.img (8 * b.mill + b.stage)).bufs (Tbl.getD s.ops.inFrames i 0) = true →
    Does (.frameBufferStart true m i wait) s (fun t => has t.ops.inOpen i = true ∧ s.onlyChanges t [.ops])) ∧
  (∀ (n : Nat) (b : Binding) (f : SnFrame) (rest : List SnFrame) (s : State), s.binding n = some b → (s.stream n).slots = f :: rest →
    (b.kind = 0 ∧ (s.waiting (19 + b.lane)).any (fun p => p.origin = n + 1 && p.seq = f.number) = false ∨ 2 ≤ b.kind) →
    Does (.ingressDeliveryDone n) s (fun t => (t.stream n).slots = rest ∧ s.onlyChanges t [.sn])) ∧
  (∀ (n : Nat) (b : Binding) (f : SnFrame) (rest : List SnFrame) (s : State), s.binding n = some b → (s.stream n).slots = f :: rest →
    b.kind = 1 → has s.ops.inOpen n = true → Does (.ingressDeliveryDone n) s (fun t =>
      (t.stream n).slots = rest ∧ has t.ops.inOpen n = false ∧
      Tbl.getD t.ops.inFrames n 0 = Tbl.getD s.ops.inFrames n 0 + 1 ∧ s.onlyChanges t [.mem, .ops, .sn])) ∧
  (∀ (m i : Nat) (job : StageJob) (s : State), Does (.stageItem m i job) s (fun t => s.onlyChanges t [.regs, .mem, .ledger, .hp, .mills, .ops, .streams, .tiers, .freeN])) ∧
  (∀ (m i wait : Nat) (ingress : Bool) (c : Instr) (s : State), c ∈ [.stripeStart m i wait, .frameBufferStart ingress m i wait] →
    Does c s (fun t => s.onlyChanges t [.regs, .ops])) ∧
  (∀ (stream : Nat) (s : State), Does (.ingressDeliveryDone stream) s (fun t => s.onlyChanges t [.mem, .ops, .tiers, .sn]))

/-- A write step of an open sequence that has the pages it needs writes its positions, which are committed where
none is left out before them; one that passes max_tokens or whose slot is closing writes nothing and completes
with QUOTA_EXCEEDED, and a step waits while reads of the step before are to come; a read proceeds once its
position is committed, else it waits, and of a closing sequence it reads nothing; a closed sequence is released
when no read of it is left; a due prefill batch leaves its bucket; a merge emits once its partials have come.
Every command of this family answers a next state in every state, and changes only the parts of the state that
its clause lists. (R174; R175; R177; R180; R183) -/
def Obligations.Sequences : Prop :=
  (∀ (m i slot seqId layer maxTokens p0 count idx : Nat) (pages : List Nat) (decode : Bool) (job : StageJob) (p : AttnP) (s : State), s.attn m i = some p →
    p.role = 4 → slot < 4096 → s.stageWorks m i = true → 1 ≤ count → 1 ≤ maxTokens → maxTokens ≤ 1048576 →
    s.stillRead (descPlace p slot) = false → operFits 8 true job.op = true → job.takes = [] → job.tokens = [] →
    (s.seq (descPlace p slot)).isOpen = true → (s.seq (descPlace p slot)).closing = false →
    (decode = true → (s.seq (descPlace p slot)).ring = false ∧ bitN p.buckets (bucketOf (p0 + count)) = true) →
    p0 + count ≤ (s.seq (descPlace p slot)).maxTokens → s.newPages p (s.seq (descPlace p slot)) p0 count = [] →
    (s.operate m none job.op).length = (s.seq (descPlace p slot)).rings * count * (s.seq (descPlace p slot)).dim →
    Does (.kvWriteStep m i slot seqId layer maxTokens p0 count idx decode false pages job) s (fun t =>
      (p.modMode ≠ 2 → t.seq (descPlace p slot) = { s.seq (descPlace p slot) with
        written := if p0 ≤ (s.seq (descPlace p slot)).written then max (s.seq (descPlace p slot)).written (p0 + count)
          else (s.seq (descPlace p slot)).written
        committed := max (s.seq (descPlace p slot)).committed (t.seq (descPlace p slot)).written }) ∧
      (s.seq (descPlace p slot)).committed ≤ (t.seq (descPlace p slot)).committed ∧
      (∀ k, k ≠ descPlace p slot → t.seq k = s.seq k) ∧
      Tbl.getD t.ops.readers (descPlace p slot) [] = t.stepReaders p (s.seq (descPlace p slot)) decode (p0 + count - 1) ∧
      s.onlyChanges t [.regs, .mem, .mills, .ops, .tiers, .freeN])) ∧
  (∀ (m i slot seqId layer maxTokens p0 count idx : Nat) (pages : List Nat) (fail : Bool) (job : StageJob) (p : AttnP) (r : Request) (s : State),
    s.attn m i = some p → p.role = 4 → slot < 4096 → s.stageWorks m i = true → 1 ≤ count → 1 ≤ maxTokens → maxTokens ≤ 1048576 →
    s.stillRead (descPlace p slot) = false → operFits 8 true job.op = true → job.takes = [] → job.tokens = [] →
    (s.seq (descPlace p slot)).isOpen = true →
    ((s.seq (descPlace p slot)).closing = true ∨ (s.seq (descPlace p slot)).maxTokens < p0 + count) →
    s.request (((s.mill m).sec.map Section.ctx).getD 0) idx = some r →
    Does (.kvWriteStep m i slot seqId layer maxTokens p0 count idx false fail pages job) s (fun t =>
      s.answered t r 0x0B 0 ∧ t.mem = s.mem ∧ s.onlyChanges t [.hp, .mills, .tiers, .regs, .ops])) ∧
  (∀ (m i slot seqId layer maxTokens p0 count idx : Nat) (pages : List Nat) (decode fail : Bool) (job : StageJob) (p : AttnP) (s : State),
    s.attn m i = some p → s.stillRead (descPlace p slot) = true →
    Gives (.kvWriteStep m i slot seqId layer maxTokens p0 count idx decode fail pages job) s s) ∧
  (∀ (m i slot pos g idx wait : Nat) (p : AttnP) (s : State), s.attn m i = some p → (p.role = 1 ∨ p.role = 3) → s.millWorks m = true →
    (s.seq (descPlace p slot)).isOpen = true → (s.seq (descPlace p slot)).closing = false → Does (.kvReadResume m i slot pos g idx wait) s (fun t =>
      (pos < (s.seq (descPlace p slot)).committed → t.ops.reads = s.ops.reads ++ [{ mill := m, stage := i, slot := descPlace p slot, pos := pos }]) ∧
      (p.modMode ≠ 2 → max (s.seq (descPlace p slot)).committed (s.seq (descPlace p slot)).written ≤ pos → t.ops.reads = s.ops.reads ∧
        ({ mill := m, stage := i, slot := descPlace p slot, pos := pos } : KvWait) ∈ t.ops.waits) ∧
      (∀ k, k ≠ descPlace p slot → t.seq k = s.seq k) ∧ s.onlyChanges t [.regs, .mem, .ops, .tiers, .freeN])) ∧
  (∀ (m i slot pos g idx wait : Nat) (p : AttnP) (r : Request) (s : State), s.attn m i = some p → (p.role = 1 ∨ p.role = 3) → s.millWorks m = true →
    (s.seq (descPlace p slot)).closing = true → s.request (((s.mill m).sec.map Section.ctx).getD 0) idx = some r →
    Does (.kvReadResume m i slot pos g idx wait) s (fun t => s.answered t r 0x0B 0 ∧ t.ops.reads = s.ops.reads)) ∧
  (∀ (m i slot : Nat) (p : AttnP) (s : State), s.attn m i = some p → (s.seq (descPlace p slot)).isOpen = true →
    Does (.sequenceClose m i slot) s (fun t =>
      (s.ops.reads.any (fun r => r.slot = descPlace p slot) = true →
        (t.seq (descPlace p slot)).closing = true ∧ t.tiers.runs = s.tiers.runs ∧ t.ledger = s.ledger) ∧
      (s.ops.reads.any (fun r => r.slot = descPlace p slot) = false → (t.seq (descPlace p slot)).isOpen = false) ∧
      (∀ k, k ≠ descPlace p slot → t.seq k = s.seq k) ∧ s.onlyChanges t [.mem, .ledger, .ops, .tiers])) ∧
  (∀ (m b : Nat) (x : PrefillItem) (rest : List PrefillItem) (s : State), m < 16 → b < 6 → s.millWorks m = true →
    s.prefillOf m b = x :: rest → (batchSize b ≤ rest.length + 1 ∨ x.since + 200000 ≤ s.now) → Does (.prefillDispatch m b []) s (fun t =>
      t.prefillOf m b = (x :: rest).drop (batchSize b) ∧
      (∀ n c, c < 6 → (n ≠ m ∨ c ≠ b) → t.prefillOf n c = s.prefillOf n c) ∧
      t.regN (Reg.mlBucketItems m b) = min (s.regN (Reg.mlBucketItems m b) + min (batchSize b) (rest.length + 1)) 0xFFFFFFFF ∧
      s.onlyChanges t [.ops, .regs])) ∧
  (∀ (m i step head wait : Nat) (a : Nat × Nat × Nat) (job : StageJob) (p : AttnP) (x : Merge) (s : State), m < 16 → s.attn m i = some p →
    p.role = 5 → s.millWorks m = true → (p.modMode = 2 → p.modIndex = 0) →
    s.ops.merges.find? (fun y => y.mill = m && y.stage = i && y.step = step && y.head = head) = some x → p.expected ≤ x.partials.length →
    job.store = some a → Does (.attnMergeEmit m i step head wait false job) s (fun t =>
      t.ops.merges = s.ops.merges.filter (fun y => y ≠ x) ∧ s.onlyChanges t [.regs, .mem, .mills, .ops, .tiers, .freeN])) ∧
  (∀ (m i step head wait : Nat) (job : StageJob) (p : AttnP) (x : Merge) (s : State), s.attn m i = some p →
    s.ops.merges.find? (fun y => y.mill = m && y.stage = i && y.step = step && y.head = head) = some x → x.partials.length < p.expected →
    Gives (.attnMergeEmit m i step head wait false job) s s) ∧
  (∀ (m i slot seqId layer maxTokens p0 count idx : Nat) (decode fail : Bool) (pages : List Nat) (job : StageJob) (s : State), Does (.kvWriteStep m i slot seqId layer maxTokens p0 count idx decode fail pages job) s (fun t => s.onlyChanges t [.regs, .mem, .ledger, .hp, .mills, .ops, .tiers, .freeN])) ∧
  (∀ (m i slot pos granules idx wait : Nat) (s : State), Does (.kvReadResume m i slot pos granules idx wait) s (fun t => s.onlyChanges t [.regs, .mem, .hp, .ops, .tiers, .freeN])) ∧
  (∀ (m i slot : Nat) (s : State), Does (.sequenceClose m i slot) s (fun t => s.onlyChanges t [.mem, .ledger, .ops, .tiers])) ∧
  (∀ (m b : Nat) (join : List (Nat × Nat × Nat)) (s : State), Does (.prefillDispatch m b join) s (fun t => s.onlyChanges t [.regs, .hp, .ops])) ∧
  (∀ (m i step head wait : Nat) (down : Bool) (job : StageJob) (s : State), Does (.attnMergeEmit m i step head wait down job) s (fun t => s.onlyChanges t [.regs, .mem, .hp, .mills, .ops, .tiers, .freeN]))

/-- START takes a free stream with a new generation and zero states; PAUSE and RESUME change only its state; RESET
and END raise the generation and return every queued chunk as stale; END releases the stream at the chunk
boundary; EXPORT raises the generation and writes the package at the boundary; IMPORT takes a package that
verifies and otherwise leaves the stream free. Every command of this family answers a next state in every state,
and changes only the parts of the state that its clause lists. (R204; R205; R206; R209; R210) -/
def Obligations.StreamCommands : Prop :=
  (∀ (ctx idx n : Nat) (r : Request) (c : StreamCfg) (s : State), s.memOk → (∀ l, l ∈ c.layers → s.noDescs (l.slot c n) l.slotBytes) → s.streamAsk ctx idx 1 = some r → streamBad r.body = false →
    n = leAt r.body 2 2 → s.streamSection n = some (ctx, c) → (s.strm n).state = .free →
    Does (.streamStart ctx idx) s (fun t =>
      (t.strm n).state = .active ∧ (t.strm n).gen = ((s.strm n).gen + 1) % 2 ^ 32 ∧ (t.strm n).queue = [] ∧
      (∀ i l, c.layers[i]? = some l → Tbl.find (t.strm n).layers i = some (((s.strm n).gen + 1) % 2 ^ 32) ∧
        t.local (l.slot c n) l.slotBytes = zeros l.slotBytes) ∧
      s.answered t r 0 (streamResult (((s.strm n).gen + 1) % 2 ^ 32) 0) ∧ s.onlyChanges t [.hp, .mem, .streams, .tiers])) ∧
  (∀ (ctx idx n : Nat) (r : Request) (c : StreamCfg) (s : State), s.streamAsk ctx idx 2 = some r → streamBad r.body = false →
    n = leAt r.body 2 2 → s.streamSection n = some (ctx, c) → leAt r.body 4 4 = (s.strm n).gen → (s.strm n).state = .active →
    Does (.streamPause ctx idx) s (fun t =>
      t.strm n = { s.strm n with state := .paused } ∧ s.answered t r 0 (streamResult (s.strm n).gen 0) ∧ s.onlyChanges t [.hp, .streams])) ∧
  (∀ (ctx idx n : Nat) (r : Request) (c : StreamCfg) (s : State), s.streamAsk ctx idx 3 = some r → streamBad r.body = false →
    n = leAt r.body 2 2 → s.streamSection n = some (ctx, c) → leAt r.body 4 4 = (s.strm n).gen → (s.strm n).state = .paused →
    Does (.streamResume ctx idx) s (fun t =>
      t.strm n = { s.strm n with state := .active } ∧ s.answered t r 0 (streamResult (s.strm n).gen 0) ∧ s.onlyChanges t [.hp, .streams])) ∧
  (∀ (ctx idx n : Nat) (r : Request) (c : StreamCfg) (s : State), s.streamAsk ctx idx 4 = some r → streamBad r.body = false →
    n = leAt r.body 2 2 → s.streamSection n = some (ctx, c) → leAt r.body 4 4 = (s.strm n).gen →
    ((s.strm n).state = .active ∨ (s.strm n).state = .paused) →
    Does (.streamReset ctx idx) s (fun t =>
      (t.strm n).gen = ((s.strm n).gen + 1) % 2 ^ 32 ∧ (t.strm n).queue = [] ∧ (t.strm n).state = (s.strm n).state ∧
      t.regN Reg.mpStreamStale = min (s.regN Reg.mpStreamStale + (s.strm n).queue.length) 0xFFFFFFFF ∧
      (∃ d, d ∈ t.hp.done ∧ d.req = r ∧ d.status = 0) ∧ s.onlyChanges t [.hp, .ledger, .regs, .streams])) ∧
  (∀ (ctx idx n : Nat) (r : Request) (c : StreamCfg) (s : State), s.streamAsk ctx idx 5 = some r → streamBad r.body = false →
    n = leAt r.body 2 2 → s.streamSection n = some (ctx, c) → leAt r.body 4 4 = (s.strm n).gen →
    ((s.strm n).state = .active ∨ (s.strm n).state = .paused) → (s.strm n).wait = none →
    Does (.streamEnd ctx idx) s (fun t =>
      (t.strm n).gen = ((s.strm n).gen + 1) % 2 ^ 32 ∧ (t.strm n).queue = [] ∧ (t.strm n).ending = true ∧
      (∃ w, (t.strm n).wait = some w ∧ w.idx = idx ∧ w.isExport = false) ∧ s.onlyChanges t [.hp, .ledger, .regs, .streams])) ∧
  (∀ (ctx idx n : Nat) (r : Request) (c : StreamCfg) (s : State), s.streamAsk ctx idx 6 = some r → streamBad r.body = false →
    n = leAt r.body 2 2 → s.streamSection n = some (ctx, c) → leAt r.body 4 4 = (s.strm n).gen →
    ((s.strm n).state = .active ∨ (s.strm n).state = .paused) → (s.strm n).wait = none →
    s.packageAt ctx (leAt r.body 8 8) (leAt r.body 16 8) = 0 → Does (.streamExport ctx idx) s (fun t =>
      (t.strm n).state = .exporting ∧ (t.strm n).queue = (s.strm n).queue ∧
      (bitN (leAt r.body 1 1) 0 = false → (t.strm n).gen = ((s.strm n).gen + 1) % 2 ^ 32) ∧
      (bitN (leAt r.body 1 1) 0 = true → (t.strm n).gen = (s.strm n).gen) ∧ s.onlyChanges t [.hp, .streams])) ∧
  (∀ (ctx idx n : Nat) (r : Request) (c : StreamCfg) (s : State), s.streamAsk ctx idx 7 = some r → streamBad r.body = false →
    n = leAt r.body 2 2 → s.streamSection n = some (ctx, c) → (s.strm n).state = .free →
    s.packageAt ctx (leAt r.body 8 8) (leAt r.body 16 8) = 0 → moduleOf (leAt r.body 8 8) = s.moduleId → Does (.streamImport ctx idx) s (fun t =>
      ∃ d, t.hp.done = s.hp.done ++ [d] ∧ d.req = r ∧
        (d.status = 0 → (t.strm n).state = .paused ∧ (t.strm n).gen = ((s.strm n).gen + 1) % 2 ^ 32 ∧ (t.strm n).ctx = ctx) ∧
        (d.status ≠ 0 → (t.strm n).state = .free ∧ (t.strm n).gen = (s.strm n).gen ∧ t.mem = s.mem ∧ t.ledger = s.ledger))) ∧
  (∀ (ctx idx : Nat) (s : State), Does (.streamStart ctx idx) s (fun t => s.onlyChanges t [.mem, .hp, .streams, .tiers])) ∧
  (∀ (ctx idx : Nat) (c : Instr) (s : State), c ∈ [.streamPause ctx idx, .streamResume ctx idx, .streamExport ctx idx] →
    Does c s (fun t => s.onlyChanges t [.hp, .streams])) ∧
  (∀ (ctx idx : Nat) (c : Instr) (s : State), c ∈ [.streamReset ctx idx, .streamEnd ctx idx] →
    Does c s (fun t => s.onlyChanges t [.regs, .ledger, .hp, .streams])) ∧
  (∀ (ctx idx : Nat) (s : State), Does (.streamImport ctx idx) s (fun t => s.onlyChanges t [.regs, .mem, .ledger, .hp, .streams, .tiers, .px]))

/-- A well-formed CHUNK of the owner waits for its queue; a chunk of the current generation enters the queue with
the next number and its pages held, and one of another generation returns stale; layer 0 starts the head of the
queue of an active stream; at a boundary a stream that ends is released, and an export leaves its package where
it was asked for. Every command of this family answers a next state in every state, and changes only the parts
of the state that its clause lists. (R195; R196; R197; R205; R206; R209; R397) -/
def Obligations.Chunks : Prop :=
  (∀ (ctx idx : Nat) (r : Request) (c : StreamCfg) (s : State), s.request ctx idx = some r → r.target = 3 → r.begun = false →
    allZero (r.body.drop 12) = true → s.inGrant ctx (leAt r.body 0 8) (leAt r.body 8 4) = true →
    s.streamSection (leAt (s.pondRead (leAt r.body 0 8) (leAt r.body 8 4)) 0 2) = some (ctx, c) →
    chunkBad c (s.pondRead (leAt r.body 0 8) (leAt r.body 8 4)) = false →
    ((s.strm (leAt (s.pondRead (leAt r.body 0 8) (leAt r.body 8 4)) 0 2)).state ≠ .free ∨
      leAt (s.pondRead (leAt r.body 0 8) (leAt r.body 8 4)) 4 4 ≠ (s.strm (leAt (s.pondRead (leAt r.body 0 8) (leAt r.body 8 4)) 0 2)).gen) → Does (.chunk ctx idx) s (fun t =>
      t.request ctx idx = some { r with begun := true } ∧ t.hp.done = s.hp.done ∧ s.onlyChanges t [.hp])) ∧
  (∀ (host : Bool) (ctx idx n : Nat) (chunk b : Bytes) (c : StreamCfg) (s : State),
    (host = false ∧ b = chunk ∨ host = true ∧ (s.streams.flatMap (fun e => e.2.queue ++ e.2.started.map (·.chunk))).any
        (fun k => k.req = some (ctx, idx)) = false ∧
      ∃ r, s.request ctx idx = some r ∧ r.target = 3 ∧ r.begun = true ∧ b = s.pondRead (leAt r.body 0 8) (leAt r.body 8 4)) →
    n = leAt b 0 2 → s.streamSection n = some (ctx, c) → chunkBad c b = false →
    Does (.chunkEnqueue host ctx idx chunk) s (fun t =>
      (leAt b 4 4 = (s.strm n).gen → (s.strm n).state ≠ .free → (s.strm n).state ≠ .importing → s.streamWriting ctx = false →
        (s.strm n).slotted.length < c.depth → c.slotPages ≤ (s.pool (hbmPool ctx)).returned →
        (∃ k, (t.strm n).queue = (s.strm n).queue ++ [k] ∧ k.gen = (s.strm n).gen ∧ k.seq = (s.strm n).nextSeq % 2 ^ 32 ∧
          k.slot = (s.strm n).freeSlot c.depth ∧ k.req = if host then some (ctx, idx) else none) ∧
        (t.strm n).nextSeq = (s.strm n).nextSeq + 1 ∧
        t.pool (hbmPool ctx) = (s.pool (hbmPool ctx)).move .returned .held c.slotPages ∧ t.regs = s.regs ∧ t.hp = s.hp) ∧
      (leAt b 4 4 ≠ (s.strm n).gen → (s.strm n).state ≠ .importing → t.streams = s.streams ∧ t.mem = s.mem ∧ t.ledger = s.ledger ∧
        t.regN Reg.mpStreamStale = min (s.regN Reg.mpStreamStale + 1) 0xFFFFFFFF ∧
        (∀ r, host = true → s.request ctx idx = some r → s.answered t r 0x05 0)) ∧
      ((s.strm n).state = .importing ∨ s.streamWriting ctx = true ∧ leAt b 4 4 = (s.strm n).gen ∨
        leAt b 4 4 = (s.strm n).gen ∧ c.depth ≤ (s.strm n).slotted.length → t = s) ∧
      s.onlyChanges t [.regs, .mem, .ledger, .hp, .streams, .tiers])) ∧
  (∀ (n ctx : Nat) (k : Chunk) (rest : List Chunk) (c : StreamCfg) (s : State), s.streamSection n = some (ctx, c) → s.layerFree n c 0 = true →
    (s.strm n).queue = k :: rest → (s.strm n).state = .active → (s.strm n).ending = false → (s.strm n).wait = none →
    Does (.layerChunkStart n 0) s (fun t =>
      (t.strm n).queue = rest ∧
      (k.gen = Tbl.getD (s.strm n).layers 0 0 → (t.strm n).started = (s.strm n).started ++ [{ chunk := k, layer := 0, running := true }] ∧
        t.mem = s.mem) ∧
      (k.gen < Tbl.getD (s.strm n).layers 0 0 → (t.strm n).started = (s.strm n).started ∧ t.mem = s.mem ∧
        t.regN Reg.mpStreamStale = min (s.regN Reg.mpStreamStale + 1) 0xFFFFFFFF) ∧
      (Tbl.getD (s.strm n).layers 0 0 < k.gen → k.gen ≤ (s.strm n).fresh → Tbl.find (t.strm n).layers 0 = some k.gen ∧
        (t.strm n).started = (s.strm n).started ++ [{ chunk := k, layer := 0, running := true }]) ∧
      s.onlyChanges t [.regs, .mem, .ledger, .hp, .streams, .tiers])) ∧
  (∀ (n ctx layer : Nat) (r : ChunkRun) (c : StreamCfg) (s : State), s.streamSection n = some (ctx, c) → s.layerFree n c layer = true →
    layer ≠ 0 → (s.strm n).started.find? (fun q => q.layer = layer) = some r → Does (.layerChunkStart n layer) s (fun t =>
      (r.chunk.gen = Tbl.getD (s.strm n).layers layer 0 → (t.strm n).started =
        replaceFirst (fun q => q = r) { r with running := true } (s.strm n).started ∧ s.onlyChanges t [.streams]) ∧
      (r.chunk.gen < Tbl.getD (s.strm n).layers layer 0 → (t.strm n).started = (s.strm n).started.filter (fun q => q ≠ r) ∧
        t.mem = s.mem ∧ t.regN Reg.mpStreamStale = min (s.regN Reg.mpStreamStale + 1) 0xFFFFFFFF) ∧
      (t.strm n).queue = (s.strm n).queue)) ∧
  (∀ (n ctx : Nat) (c : StreamCfg) (w : StreamWait) (s : State), s.streamSection n = some (ctx, c) → (s.strm n).started = [] →
    s.streamHeld c = false → (s.strm n).wait = some w → (s.strm n).state ≠ .importing → w.isExport = false → Does (.chunkBoundary n) s (fun t =>
      t.strm n = { gen := (s.strm n).gen } ∧ t.mem = s.mem ∧
      ((s.strm n).queue = [] → ∀ r, s.request w.ctx w.idx = some r → s.answered t r 0 (streamResult (s.strm n).gen 0)) ∧
      s.onlyChanges t [.regs, .ledger, .hp, .streams])) ∧
  (∀ (n ctx : Nat) (c : StreamCfg) (w : StreamWait) (r : Request) (s : State), s.memOk →
    s.noDescs (localOf w.address) (s.package n c false).length → s.streamSection n = some (ctx, c) →
    (s.strm n).started = [] → s.streamHeld c = false → (s.strm n).wait = some w → (s.strm n).state = .exporting → w.isExport = true →
    w.keep = false → w.remotePages = 0 → moduleOf w.address = s.moduleId → tierOf (localOf w.address) = some .hbm →
    (s.package n c false).length ≤ w.length → s.request w.ctx w.idx = some r → Does (.chunkBoundary n) s (fun t =>
      t.strm n = { gen := (s.strm n).gen } ∧ t.local (localOf w.address) (s.package n c false).length = s.package n c false ∧
      s.memBut t .hbm (localOf w.address) (s.package n c false).length ∧ (∃ d, d ∈ t.hp.done ∧ d.req = r ∧ d.status = 0))) ∧
  (∀ (ctx idx : Nat) (s : State), Does (.chunk ctx idx) s (fun t => s.onlyChanges t [.hp])) ∧
  (∀ (host : Bool) (ctx idx : Nat) (chunk : Bytes) (s : State), Does (.chunkEnqueue host ctx idx chunk) s (fun t => s.onlyChanges t [.regs, .mem, .ledger, .hp, .streams, .tiers])) ∧
  (∀ (stream layer : Nat) (s : State), Does (.layerChunkStart stream layer) s (fun t => s.onlyChanges t [.regs, .mem, .ledger, .hp, .mills, .leat, .streams, .tiers])) ∧
  (∀ (stream : Nat) (s : State), Does (.chunkBoundary stream) s (fun t => s.onlyChanges t [.regs, .mem, .ledger, .hp, .streams, .tiers, .px]))

/-- A well-formed HOIST waits for a channel and a malformed one completes MALFORMED; the descriptor whose turn it is
takes a free channel; a page that is in order is copied to its destination, all other memory keeps its bytes,
and the descriptor completes after its last page. Every command of this family answers a next state in every
state, and changes only the parts of the state that its clause lists. (R217; R228; R230; R231; R234) -/
def Obligations.HoistsMovePages : Prop :=
  (∀ (ctx idx : Nat) (r : Request) (s : State), s.tierAsk ctx idx 1 = some r → r.begun = false → s.hoistBad r.body = false →
    Does (.hoist ctx idx) s (fun t =>
      t.tiers = { s.tiers with waiting := s.tiers.waiting ++ [(ctx, idx)] } ∧ (∃ q, t.request ctx idx = some q ∧ q.begun = true ∧ q.body = r.body) ∧
      s.onlyChanges t [.hp, .tiers])) ∧
  (∀ (ctx idx : Nat) (r : Request) (s : State), s.tierAsk ctx idx 1 = some r → r.begun = false → s.hoistBad r.body = true →
    Does (.hoist ctx idx) s (fun t => s.answered t r 0x15 0xFFFFFFFF00000000 ∧ s.onlyChanges t [.hp])) ∧
  (∀ (ctx idx ch : Nat) (r : Request) (a b : Tier) (s : State), s.firstWaiting ctx = some r → r.idx = idx → s.hoistTurn = some ctx → 4 ≤ ch → ch < 32 →
    (s.chan ch).busy = false → s.pw.fabricPaused = false → s.hoistUnmapped (tierCmd r.body) = none →
    s.tierAt (tierCmd r.body).src (unitBytes (tierCmd r.body).unit) = some a →
    s.tierAt (tierCmd r.body).dst (unitBytes (tierCmd r.body).unit) = some b →
    s.hoistHeld ctx (tierCmd r.body).src ((tierCmd r.body).pages * unitBytes (tierCmd r.body).unit) a = true →
    s.hoistHeld ctx (tierCmd r.body).dst ((tierCmd r.body).pages * unitBytes (tierCmd r.body).unit) b = true →
    Does (.tierCmdStart ctx idx ch) s (fun t =>
      (t.chan ch).busy = true ∧ (t.chan ch).ctx = ctx ∧ (t.chan ch).idx = idx ∧ (t.chan ch).src = (tierCmd r.body).src ∧
      (t.chan ch).dst = (tierCmd r.body).dst ∧ (t.chan ch).total = (tierCmd r.body).pages ∧ (t.chan ch).next = 0 ∧
      (ctx, idx) ∉ t.tiers.waiting ∧ t.tiers.lastCtx = ctx ∧ t.mem = s.mem)) ∧
  (∀ (ch line slot : Nat) (s : State), (s.chan ch).busy = true → (s.chan ch).held = false → (s.chan ch).firmware = false →
    (s.chan ch).next < (s.chan ch).total → ((s.hoistPass ch 2048).chan ch).passed < (s.chan ch).unit / 1024 →
    Does (.hoistPageDone ch 0 line slot) s (fun t => t = s.hoistPass ch 2048 ∧ t.mem = s.mem ∧ (t.chan ch).next = (s.chan ch).next ∧
      s.onlyChanges t [.leat, .regs, .tiers])) ∧
  (∀ (ch line slot : Nat) (k : Tier) (s : State), s.memOk → (s.chan ch).busy = true → (s.chan ch).held = false → (s.chan ch).firmware = false →
    (s.chan ch).next < (s.chan ch).total → 1024 ≤ (s.chan ch).unit → (s.chan ch).unit / 1024 ≤ ((s.hoistPass ch 2048).chan ch).passed →
    s.storeWaits ((s.chan ch).src + (s.chan ch).next * (s.chan ch).unit) ((s.chan ch).dst + (s.chan ch).next * (s.chan ch).unit) = false →
    moduleOf ((s.chan ch).src + (s.chan ch).next * (s.chan ch).unit) = s.moduleId →
    moduleOf ((s.chan ch).dst + (s.chan ch).next * (s.chan ch).unit) = s.moduleId →
    tierOf (localOf ((s.chan ch).dst + (s.chan ch).next * (s.chan ch).unit)) = some k → k ≠ .store →
    s.noDescs (localOf ((s.chan ch).dst + (s.chan ch).next * (s.chan ch).unit)) (s.chan ch).unit →
    (s.pageFault (s.chan ch) 0 0 ((s.chan ch).src + (s.chan ch).next * (s.chan ch).unit)
      ((s.chan ch).dst + (s.chan ch).next * (s.chan ch).unit)).1 = 0 →
    Does (.hoistPageDone ch 0 line slot) s (fun t =>
      t.local (localOf ((s.chan ch).dst + (s.chan ch).next * (s.chan ch).unit)) (s.chan ch).unit =
        s.pageBytes ((s.chan ch).src + (s.chan ch).next * (s.chan ch).unit) (s.chan ch).unit ∧
      s.memBut t k (localOf ((s.chan ch).dst + (s.chan ch).next * (s.chan ch).unit)) (s.chan ch).unit ∧
      ((s.chan ch).next + 1 < (s.chan ch).total → (t.chan ch).next = (s.chan ch).next + 1 ∧ (t.chan ch).moved = (s.chan ch).moved + 1) ∧
      ((s.chan ch).total ≤ (s.chan ch).next + 1 → (t.chan ch).busy = false))) ∧
  (∀ (ctx idx : Nat) (s : State), Does (.hoist ctx idx) s (fun t => s.onlyChanges t [.hp, .tiers])) ∧
  (∀ (ctx idx ch : Nat) (s : State), Does (.tierCmdStart ctx idx ch) s (fun t => s.onlyChanges t [.regs, .ledger, .hp, .tiers, .px])) ∧
  (∀ (ch fault line slot : Nat) (s : State), Does (.hoistPageDone ch fault line slot) s (fun t => s.onlyChanges t [.regs, .mem, .ledger, .ev, .hp, .leat, .tiers, .px, .freeN]))

/-- ALLOC holds a free run of its context's quota or answers QUOTA_EXCEEDED with the largest run; FREE releases
pages that the context holds; PURGE frees all store pages of a context only while no millplan is loaded; COMMIT
asks for one REPAIR generation; a row repair takes the lowest spare row, or its pages are retired. Every command
of this family answers a next state in every state, and changes only the parts of the state that its clause
lists. (R224; R227; R232; R240; R241) -/
def Obligations.PagesAllocated : Prop :=
  (∀ (ctx idx first p : Nat) (r : Request) (s : State), s.tierAsk ctx idx 2 = some r → r.begun = false → s.mayStart r = true →
    allocBad r.body = false → (tierCmd r.body).cls = 1 → pickRun s.hbmGaps first (tierCmd r.body).pages = some p →
    Does (.alloc ctx idx first) s (fun t =>
      ((tierCmd r.body).pages ≤ (s.pool (hbmPool ctx)).returned →
        t.tiers.runs = s.tiers.runs ++ [{ first := p, pages := (tierCmd r.body).pages, ctx := ctx, kind := .alloc }] ∧
        t.pool (hbmPool ctx) = (s.pool (hbmPool ctx)).move .returned .held (tierCmd r.body).pages ∧ s.answered t r 0 (hbmBase + p * 65536)) ∧
      ((s.pool (hbmPool ctx)).returned < (tierCmd r.body).pages →
        s.answered t r 0x0B (largestGap s.hbmGaps) ∧ t.tiers = s.tiers ∧ t.ledger = s.ledger) ∧ s.onlyChanges t [.hp, .ledger, .tiers])) ∧
  (∀ (ctx idx : Nat) (r : Request) (s : State), s.tierAsk ctx idx 3 = some r → r.begun = false → s.mayStart r = true → allocBad r.body = false →
    (tierCmd r.body).cls = 1 → tierOf (tierCmd r.body).src = some .hbm → s.freeable ctx (tierCmd r.body).src (tierCmd r.body).pages = true →
    Does (.free ctx idx) s (fun t =>
      (∀ i, i < (tierCmd r.body).pages → t.hbmRun (((tierCmd r.body).src - hbmBase) / 65536 + i) = none) ∧
      t.pool (hbmPool ctx) = (s.pool (hbmPool ctx)).move .held .returned (tierCmd r.body).pages ∧
      s.answered t r 0 (tierCmd r.body).pages ∧ s.onlyChanges t [.hp, .ledger, .tiers])) ∧
  (∀ (ctx idx : Nat) (r : Request) (s : State), s.tierAsk ctx idx 3 = some r → r.begun = false → s.mayStart r = true → allocBad r.body = false →
    (tierCmd r.body).cls = 2 → tierOf (tierCmd r.body).src = some .store → s.freeable ctx (tierCmd r.body).src (tierCmd r.body).pages = true →
    Does (.free ctx idx) s (fun t =>
      (∀ i, i < (tierCmd r.body).pages → (t.mapEntry (storePage (tierCmd r.body).src + i)).state = .free) ∧
      t.pool (storePool ctx) = (s.pool (storePool ctx)).move .held .returned (tierCmd r.body).pages ∧
      s.answered t r 0 (tierCmd r.body).pages ∧ s.onlyChanges t [.freeN, .hp, .ledger, .regs, .tiers])) ∧
  (∀ (ctx idx first p : Nat) (r : Request) (s : State), s.tierAsk ctx idx 2 = some r → r.begun = false → s.mayStart r = true →
    allocBad r.body = false → (tierCmd r.body).cls = 2 → (tierCmd r.body).src = chooseAny →
    pickRun s.storeGaps first (tierCmd r.body).pages = some p → (tierCmd r.body).pages ≤ (s.pool (storePool ctx)).returned →
    Does (.alloc ctx idx first) s (fun t =>
      (∀ i, i < (tierCmd r.body).pages → (t.mapEntry (p + i)).state = .zero ∧ (t.mapEntry (p + i)).ctx = ctx) ∧
      t.pool (storePool ctx) = (s.pool (storePool ctx)).move .returned .held (tierCmd r.body).pages ∧
      s.answered t r 0 (0x800000000000 + p * 0x200000) ∧ s.onlyChanges t [.freeN, .hp, .ledger, .regs, .tiers])) ∧
  (∀ (ctx idx first : Nat) (r : Request) (s : State), s.tierAsk ctx idx 2 = some r → r.begun = false → s.mayStart r = true →
    allocBad r.body = true → Does (.alloc ctx idx first) s (fun t => s.answered t r 0x15 0 ∧ s.onlyChanges t [.hp])) ∧
  (∀ (ctx : Nat) (s : State), s.tiers.cmdBusy = false → s.loader.loaded = none → Does (.purge ctx) s (fun t =>
      (∀ e, e ∈ t.tiers.map → e.2.ctx = ctx → e.2.state = .free) ∧ t.tiers.cmdResult = 1 ∧ s.onlyChanges t [.freeN, .regs, .tiers])) ∧
  (∀ (ctx : Nat) (s : State), s.tiers.cmdBusy = false → s.loader.loaded.isSome = true → Does (.purge ctx) s (fun t =>
      t.tiers = { s.tiers with cmdResult := 2 } ∧ s.onlyChanges t [.tiers])) ∧
  (∀ s : State, s.tiers.cmdBusy = false → (s.otp 2).consumed < 4 → Does .commit s (fun t =>
      t.tiers.cmdBusy = true ∧ (∃ j, t.sec.otpQueue = s.sec.otpQueue ++ [j] ∧ j.group = 2 ∧ j.req = none) ∧
      t.sec.groups = s.sec.groups ∧ s.onlyChanges t [.sec, .tiers])) ∧
  (∀ (st ch bank row : Nat) (pages : List Nat) (s : State), s.tiers.hbmReady = true → s.tiers.rowRepair = none → st < 8 → ch < 12 → bank < 32 →
    (∀ a, a ∈ pages → hbmStation a = st ∧ hbmChannel a = ch) → Does (.hbmRowRepair st ch bank row pages) s (fun t =>
      (∀ k, s.spareRow st ch bank = some k → t.tiers.rowRepair = some { station := st, channel := ch, bank := bank, row := row, spare := k }) ∧
      (s.spareRow st ch bank = none → (∀ a p, a ∈ pages → hbmPage a = some p → has t.tiers.retired p = true) ∧ t.tiers.rowRepair = none) ∧
      s.onlyChanges t [.ev, .regs, .tiers])) ∧
  (∀ (st ch bank row a : Nat) (pages : List Nat) (s : State), a ∈ pages → (hbmStation a ≠ st ∨ hbmChannel a ≠ ch) →
    Gives (.hbmRowRepair st ch bank row pages) s s) ∧
  (∀ (r : RowRepair) (s : State), s.tiers.rowRepair = some r → Does .hbmRepairDone s (fun t =>
      t.tiers.rowRepair = none ∧ (∃ e, t.tiers.repairs = s.tiers.repairs ++ [e] ∧ e.kind = 1 ∧ e.station = r.station ∧ e.channel = r.channel ∧
        e.bank = r.bank ∧ e.row = r.row ∧ e.spare = r.spare) ∧ s.onlyChanges t [.ev, .regs, .tiers])) ∧
  (∀ (ctx idx first : Nat) (c : Instr) (s : State), c ∈ [.alloc ctx idx first, .free ctx idx] →
    Does c s (fun t => s.onlyChanges t [.regs, .ledger, .hp, .tiers, .freeN])) ∧
  (∀ (ctx : Nat) (s : State), Does (.purge ctx) s (fun t => s.onlyChanges t [.regs, .tiers, .freeN])) ∧
  (∀ s : State, Does .commit s (fun t => s.onlyChanges t [.sec, .tiers])) ∧
  (∀ (station channel bank row : Nat) (lines : List Nat) (c : Instr) (s : State), c ∈ [.hbmRowRepair station channel bank row lines, .hbmRepairDone] →
    Does c s (fun t => s.onlyChanges t [.regs, .ev, .tiers]))

/-- A tier request of a working mill takes one token, and ends at once with its status where its range is refused; a
local request moves its bytes between HBM and millpond and its token returns with status 0; a request that is
late ends with TIER_LATE and is counted. Every command of this family answers a next state in every state, and
changes only the parts of the state that its clause lists. (R235; R236; R237; R238) -/
def Obligations.TierRequests : Prop :=
  (∀ (m stage id cls hbm pond len : Nat) (w : Bool) (q : TierReq) (s : State), m < 16 → s.millWorks m = true → s.pw.fabricPaused = false →
    s.tierReq m stage id = none → s.tiers.results.any (fun x => x.mill = m && x.stage = stage && x.id = id) = false →
    0 < (s.pool (tokenPool m)).held + (s.pool (tokenPool m)).returned → (len = 65536 ∨ len = 4096) → s.stageWorks m stage = true →
    moduleOf hbm = s.moduleId → s.stationFull cls (localOf hbm) len = false →
    q = TierReq.mk m stage id cls w (((s.mill m).sec.map Section.ctx).getD 0) hbm pond len none s.now →
    Does (.tierRequest m stage id cls w hbm pond len) s (fun t =>
      (s.tierRefusal q = 0 → t.tierReq m stage id = some { q with hbm := localOf hbm } ∧
        t.pool (tokenPool m) = (s.pool (tokenPool m)).move (if 0 < (s.pool (tokenPool m)).held then .held else .returned) .inFlight 1) ∧
      (s.tierRefusal q ≠ 0 → t.tierReq m stage id = none ∧
        ∃ x, t.tiers.results = s.tiers.results ++ [x] ∧ x.mill = m ∧ x.stage = stage ∧ x.id = id ∧ x.status = s.tierRefusal q) ∧
      s.onlyChanges t [.ledger, .regs, .tiers])) ∧
  (∀ (m stage id : Nat) (r : TierReq) (k : Tier) (s : State), s.memOk → s.tierReq m stage id = some r → r.remote = none → r.write = false →
    s.poisonedIn r.hbm r.len = false → s.noDescs r.pond r.len → tierOf r.hbm ≠ none → tierOf r.pond = some k → Does (.tierRequestDone m stage id none) s (fun t =>
      t.local r.pond r.len = s.local r.hbm r.len ∧ s.memBut t k r.pond r.len ∧ t.tierReq m stage id = none ∧
      (∃ x, t.tiers.results = s.tiers.results ++ [x] ∧ x.mill = m ∧ x.stage = stage ∧ x.id = id ∧ x.status = 0) ∧
      s.onlyChanges t [.mem, .ledger, .regs, .tiers])) ∧
  (∀ (m stage id : Nat) (ue : Option Nat) (r : TierReq) (k : Tier) (s : State), s.memOk → s.tierReq m stage id = some r → r.remote = none → r.write = true →
    s.noDescs r.hbm r.len → tierOf r.pond ≠ none → tierOf r.hbm = some k → Does (.tierRequestDone m stage id ue) s (fun t =>
      t.local r.hbm r.len = s.local r.pond r.len ∧ s.memBut t k r.hbm r.len ∧ t.tierReq m stage id = none ∧
      s.onlyChanges t [.mem, .ledger, .regs, .tiers])) ∧
  (∀ (m stage id l : Nat) (r : TierReq) (s : State), s.tierReq m stage id = some r → r.remote = none → r.write = false →
    Does (.tierRequestDone m stage id (some l)) s (fun t =>
      t.tiers.poisoned (r.hbm / 64 + l % (r.len / 64)) = true ∧ t.tierReq m stage id = none ∧ t.mem = s.mem ∧
      (∃ x, t.tiers.results = s.tiers.results ++ [x] ∧ x.mill = m ∧ x.stage = stage ∧ x.id = id ∧ x.status = 2) ∧
      s.onlyChanges t [.ledger, .regs, .tiers])) ∧
  (∀ (m stage id : Nat) (r : TierReq) (s : State), s.px.colls = [] → s.tierReq m stage id = some r → r.remote = none → r.write = false →
    s.reqLate r = true → s.pw.fabricPaused = false → Does (.tierLateExpiry m stage id) s (fun t =>
      t.tierReq m stage id = none ∧ t.regN Reg.mtLateCount = min (s.regN Reg.mtLateCount + 1) 0xFFFFFFFF ∧
      (∃ x, t.tiers.results = s.tiers.results ++ [x] ∧ x.id = id ∧ x.status = 1) ∧ t.mem = s.mem ∧ s.onlyChanges t [.ledger, .regs, .tiers])) ∧
  (∀ (mill stage id cls hbm pond len : Nat) (write : Bool) (s : State), Does (.tierRequest mill stage id cls write hbm pond len) s (fun t => s.onlyChanges t [.regs, .ledger, .tiers, .px])) ∧
  (∀ (mill stage id : Nat) (ue : Option Nat) (s : State), Does (.tierRequestDone mill stage id ue) s (fun t => s.onlyChanges t [.regs, .mem, .ledger, .tiers])) ∧
  (∀ (mill stage id : Nat) (s : State), Does (.tierLateExpiry mill stage id) s (fun t => s.onlyChanges t [.regs, .mem, .ledger, .tiers, .px]))

/-- A batch that keeps R252 and R253 and lies in its context's regions joins the queue; an idle bolter starts the
next one, and one that starts late or against a stale grid is not checked; checking ends with every candidate, a
deadline with those tested; a result with no governor copy is written and completes its request. Every command
of this family answers a next state in every state, and changes only the parts of the state that its clause
lists. (R250; R252; R254; R258; R260; R262) -/
def Obligations.BatchesChecked : Prop :=
  (∀ (ctx idx b : Nat) (r : Request) (x : Batch) (s : State), s.bolterAsk ctx idx = some r → r.begun = false → leAt r.body 0 1 = 1 → b = leAt r.body 1 1 → b < 2 →
    leAt r.body 2 6 = 0 → leAt r.body 24 8 = 0 → (s.bolter b).sec.isSome = true → (s.bolter b).ctx = ctx → (s.bolter b).stopped = false →
    x = s.batchAt (leAt r.body 8 8) ctx (some idx) (leAt r.body 16 8) → s.inRegion ctx (leAt r.body 8 8) 64 = true →
    s.inRegion ctx (leAt r.body 8 8) x.size = true →
    (leAt r.body 16 8 = 0 ∨ s.inRegion ctx (leAt r.body 16 8) (64 + 32 * x.waypoints) = true) → s.batchOk (s.bolter b).cfg x = true →
    (s.bolter b).queue.length < 8 → Does (.batch ctx idx) s (fun t =>
      (t.bolter b).queue = enqueueBatch x (s.bolter b).queue ∧
      (t.bolter b).queue.length = (s.bolter b).queue.length + 1 ∧ (∃ q, t.request ctx idx = some q ∧ q.begun = true) ∧
      s.onlyChanges t [.bolters, .hp])) ∧
  (∀ (b : Nat) (x : Batch) (rest : List Batch) (s : State), (s.bolter b).queue = x :: rest → (s.bolter b).state = .idle → (s.bolter b).stopped = false →
    (s.bolter b).pendingPyr = none → (s.bolter b).sec.isSome = true → s.bolterPaused = false →
    Does (.batchStart b) s (fun t =>
      (t.bolter b).queue = rest ∧
      (s.now < x.deadline → (∀ p, (s.bolter b).active = some p → (s.now : Int) ≤ p.te + ((s.bolter b).cfg.staleMs : Int) * 1000000) →
        (t.bolter b).state = .checking ∧ (t.bolter b).cur = some x) ∧
      ((x.deadline ≤ s.now ∨ ∃ p, (s.bolter b).active = some p ∧ p.te + ((s.bolter b).cfg.staleMs : Int) * 1000000 < (s.now : Int)) →
        (t.bolter b).state = .waiting ∧ (t.bolter b).cur = none ∧
        ∃ r, (t.bolter b).result = some r ∧ r.batch = x ∧ r.status = 6 ∧ (r.timeout = true ↔ x.deadline ≤ s.now) ∧ r.checked = 0) ∧
      s.onlyChanges t [.bolters])) ∧
  (∀ (b : Nat) (late : List Nat) (x : Batch) (s : State), (s.bolter b).cur = some x → (s.bolter b).state = .checking → s.now < x.deadline → s.bolterPaused = false →
    Does (.checkingEnd b late) s (fun t =>
      (t.bolter b).state = .waiting ∧ (∃ r, (t.bolter b).result = some r ∧ r.batch = x ∧ r.checked = x.candidates ∧ r.timeout = false ∧
        r.kept.length ≤ 4 ∧ (∀ c, c ∈ r.kept → c.hit = false)) ∧ s.onlyChanges t [.bolters])) ∧
  (∀ (b : Nat) (tested late : List Nat) (x : Batch) (s : State), (s.bolter b).cur = some x → (s.bolter b).state = .checking → x.deadline ≤ s.now → s.bolterPaused = false →
    Does (.batchDeadline b tested late) s (fun t =>
      (t.bolter b).state = .waiting ∧ (∃ r, (t.bolter b).result = some r ∧ r.timeout = true ∧
        (∀ c, c ∈ r.kept → has tested c.index = true ∧ c.hit = false)) ∧ s.onlyChanges t [.bolters])) ∧
  (∀ (b idx : Nat) (r : Result) (q : Request) (s : State), b < 2 → s.memOk → s.bolterPaused = false → (s.bolter b).stopped = false →
    (s.bolter b).state = .waiting → (s.bolter b).notices = [] → (s.bolter b).pendingPyr = none → (s.bolter b).result = some r →
    r.batch.toGov = false → r.batch.idx = some idx → s.request r.batch.ctx idx = some q → tierOf r.batch.resultAddr = some .hbm →
    s.noDescs r.batch.resultAddr (s.resultRecord b r).length →
    Does (.resultEmit b) s (fun t =>
      (t.bolter b).state = .idle ∧ (t.bolter b).result = none ∧ t.regN (Reg.blBatches b) = min (s.regN (Reg.blBatches b) + 1) 0xFFFFFFFF ∧
      t.local r.batch.resultAddr (s.resultRecord b r).length = s.resultRecord b r ∧
      s.memBut t .hbm r.batch.resultAddr (s.resultRecord b r).length ∧ (∃ d, t.hp.done = s.hp.done ++ [d] ∧ d.req = q ∧ d.status = r.status))) ∧
  (∀ (ctx idx : Nat) (s : State), Does (.batch ctx idx) s (fun t => s.onlyChanges t [.hp, .bolters])) ∧
  (∀ (b : Nat) (late tested : List Nat) (c : Instr) (s : State), c ∈ [.batchStart b, .checkingEnd b late, .batchDeadline b tested late] →
    Does c s (fun t => s.onlyChanges t [.bolters])) ∧
  (∀ (b : Nat) (s : State), Does (.resultEmit b) s (fun t => s.onlyChanges t [.regs, .mem, .ledger, .hp, .leat, .tiers, .bolters]))

/-- A complete frame that is due builds a pyramid, or is rejected; a built one releases its frame and becomes
active, unless checking runs, when it waits; CLEAR_WATCH drops the active plan; a repair batch that keeps the
plan's front is queued as urgent and takes the signal. Every command of this family answers a next state in
every state, and changes only the parts of the state that its clause lists. (R246; R247; R249; R264; R265) -/
def Obligations.EpochsAndRepair : Prop :=
  (∀ (b n rows : Nat) (stamp : Int) (s : State), b < 2 → (s.bolter b).sec.isSome = true → (s.bolter b).building = none → (s.bolter b).pendingPyr = none →
    (s.bolter b).heldFrame = none → n = (s.bolter b).frame → (s.frameBuf ((s.bolter b).cfg.buffer n)).frame = n →
    s.gridRows (s.bolter b).cfg.grid = some rows → rows ≤ (s.frameBuf ((s.bolter b).cfg.buffer n)).rows → s.bolterPaused = false →
    Does (.gridPublish b n stamp) s (fun t =>
      ((∃ p, (t.bolter b).building = some p ∧ p.epoch = n) ∨
       (t.bolter b).building = none ∧ (t.bolter b).frame = n + 1 ∧
         t.regN (Reg.blEpochReject b) = min (s.regN (Reg.blEpochReject b) + 1) 0xFFFFFFFF) ∧
      (t.bolter b).active = (s.bolter b).active ∧ s.onlyChanges t [.bolters, .ledger, .ev, .regs])) ∧
  (∀ (b : Nat) (failed : List Nat) (p : Pyramid) (s : State), (s.bolter b).building = some p → s.bolterPaused = false →
    (s.bolter b).heldFrame = none → Does (.pyramidBuildDone b failed) s (fun t =>
      (t.bolter b).building = none ∧ (t.bolter b).frame = p.epoch + 1 ∧
      (((s.bolter b).state = .checking ∨ (s.bolter b).state = .rechecking) →
        (t.bolter b).pendingPyr.map (·.epoch) = some p.epoch ∧ (t.bolter b).active = (s.bolter b).active) ∧
      ((s.bolter b).state ≠ .checking → (s.bolter b).state ≠ .rechecking →
        (t.bolter b).pendingPyr = none ∧ (t.bolter b).active.map (·.epoch) = some p.epoch))) ∧
  (∀ (b : Nat) (p : Pyramid) (s : State), (s.bolter b).pendingPyr = some p → (s.bolter b).state ≠ .checking → (s.bolter b).state ≠ .rechecking →
    (s.bolter b).heldFrame = none → Does (.pyramidActivate b) s (fun t =>
      (t.bolter b).active = some p ∧ (t.bolter b).pendingPyr = none ∧ (t.bolter b).gridLost = false ∧
      s.onlyChanges t [.bolters, .ev, .ledger, .regs])) ∧
  (∀ (ctx idx b : Nat) (r : Request) (s : State), s.bolterAsk ctx idx = some r → r.begun = false → leAt r.body 0 1 = 2 → b = leAt r.body 1 1 → b < 2 →
    allZero (r.body.drop 2) = true → (s.bolter b).sec.isSome = true → (s.bolter b).ctx = ctx → Does (.clearWatch ctx idx) s (fun t =>
      t.bolter b = { s.bolter b with plan := none, blocked := false, signal := none, fullReplan := false } ∧ s.answered t r 0 0 ∧
      s.onlyChanges t [.bolters, .hp])) ∧
  (∀ (b addr k : Nat) (x : Batch) (s : State), b < 2 → (s.bolter b).signal = some k → (s.bolter b).sec.isSome = true → (s.bolter b).stopped = false →
    (s.bolter b).queue.length < 8 →
    x = { s.batchAt addr (s.bolter b).ctx none 0 with urgent := true, toGov := true, repair := true } →
    s.inRegion (s.bolter b).ctx addr x.size = true → s.batchOk (s.bolter b).cfg x = true →
    ((s.bolter b).fullReplan = true ∨ s.repairKeeps (s.bolter b) x k = true) → Does (.repairBatch b addr) s (fun t =>
      t.bolter b = { s.bolter b with queue := enqueueBatch x (s.bolter b).queue, signal := none } ∧ s.onlyChanges t [.bolters])) ∧
  (∀ (b n : Nat) (stamp : Int) (failed : List Nat) (c : Instr) (s : State), c ∈ [.gridPublish b n stamp, .pyramidBuildDone b failed, .pyramidActivate b] →
    Does c s (fun t => s.onlyChanges t [.regs, .ledger, .ev, .bolters])) ∧
  (∀ (ctx idx : Nat) (s : State), Does (.clearWatch ctx idx) s (fun t => s.onlyChanges t [.hp, .bolters])) ∧
  (∀ (b addr : Nat) (s : State), Does (.repairBatch b addr) s (fun t => s.onlyChanges t [.bolters]))

/-- ENABLE leaves STANDBY with HOLD cause plan, where a GOVERNOR section and two lanes are in service, and is
otherwise ignored with cmd_ignored; HOLD and RELEASE set and clear cause host; STOP enters STO with cause host
from every state; CLEAR_STO leads to STANDBY with two lanes in service, a majority, agreeing time copies and no
supply_reset since power-up, and is otherwise ignored; a lane that stayed alone for single_lane_ms gives STO
with cause single_lane. Every command of this family answers a next state in every state, and changes only the
parts of the state that its clause lists. (R289; R290; R293; R298) -/
def Obligations.BrakeWheelCommands : Prop :=
  (∀ s : State, s.pw.motionOn = true → s.gov.wheel.state = .standby → s.gov.sec.isSome = true → 2 ≤ s.lanesIn.length →
    Does .enable s (fun t =>
      t.gov.wheel.state = (if s.gov.wheel.sto = [] then .hold else .sto) ∧ 0 ∈ t.gov.wheel.hold ∧ t.gov.cycle = 0 ∧ t.gov.tick = 0 ∧
      t.gov.setPoint = none ∧ t.gov.cmdIgnored = false ∧ t.gov.plan = s.gov.plan ∧ s.onlyChanges t [.ev, .gov, .regs, .sol])) ∧
  (∀ s : State, s.pw.motionOn = true → s.gov.wheel.state ≠ .standby ∨ s.gov.sec = none ∨ s.lanesIn.length < 2 →
    Does .enable s (fun t => t.gov = { s.gov with cmdIgnored := true } ∧ s.onlyChanges t [.gov])) ∧
  (∀ s : State, s.pw.motionOn = true → 4 ∉ s.gov.wheel.hold → Does .hold s (fun t =>
      4 ∈ t.gov.wheel.hold ∧ (s.gov.wheel.state = .run ∨ s.gov.wheel.state = .brake → s.gov.wheel.sto = [] → t.gov.wheel.state = .hold) ∧
      t.gov.wheel.sto = s.gov.wheel.sto ∧ s.onlyChanges t [.ev, .gov, .regs])) ∧
  (∀ s : State, s.pw.motionOn = true → 4 ∈ s.gov.wheel.hold → Does .release s (fun t =>
      (∀ n, n ∈ t.gov.wheel.hold ↔ n ∈ s.gov.wheel.hold ∧ n ≠ 4) ∧
      (s.gov.wheel.state = .hold → s.gov.wheel.hold = [4] → s.gov.wheel.sto = [] → s.gov.wheel.supply = false → t.gov.wheel.state = .run) ∧
      s.onlyChanges t [.ev, .gov, .regs])) ∧
  (∀ s : State, s.pw.motionOn = true → 3 ∉ s.gov.wheel.sto → Does .stop s (fun t =>
      t.gov.wheel.state = .sto ∧ 3 ∈ t.gov.wheel.sto ∧ s.onlyChanges t [.ev, .gov, .regs])) ∧
  (∀ (a b : Nat) (s : State), s.pw.motionOn = true → s.gov.wheel.state = .sto → 2 ≤ s.lanesIn.length → s.gov.noMajority = false →
    s.tm.copies = [a, a, b] → s.gov.wheel.everReset = false → Does .clearSto s (fun t =>
      t.gov.wheel.state = .standby ∧ t.gov.wheel.sto = [] ∧ t.gov.cmdIgnored = false ∧ s.onlyChanges t [.ev, .gov, .regs])) ∧
  (∀ s : State, s.pw.motionOn = true →
    s.gov.wheel.state ≠ .sto ∨ s.lanesIn.length < 2 ∨ s.gov.noMajority = true ∨ s.gov.wheel.everReset = true →
    Does .clearSto s (fun t => t.gov = { s.gov with cmdIgnored := true } ∧ s.onlyChanges t [.gov])) ∧
  (∀ (since : Nat) (s : State), s.gov.singleSince = some since → s.gov.sec.isSome = true → since + 1000000 * singleMs s.govBody ≤ s.now →
    Does .singleLaneTimeout s (fun t => t.gov.wheel.state = .sto ∧ 2 ∈ t.gov.wheel.sto ∧ s.onlyChanges t [.ev, .gov, .regs])) ∧
  (∀ s : State, Does .enable s (fun t => s.onlyChanges t [.regs, .ev, .gov, .sol])) ∧
  (∀ (c : Instr) (s : State), c ∈ [.release, .stop, .clearSto, .singleLaneTimeout] →
    Does c s (fun t => s.onlyChanges t [.regs, .ev, .gov]))

/-- From every state with the brake wheel in STO, a step whose command is not CLEAR_STO, nor a VOTE_V2 at which a
lane strays in the word of the brake wheel, leaves the brake wheel in STO, or leaves the module with its motion
rails off. (R289; R293) -/
def Obligations.StoKept : Prop :=
  ∀ s t : State, s.gov.wheel.state = .sto → s.pending.head? ≠ some .clearSto →
    (∀ c dev, s.pending.head? = some (.voteV2 c dev) → ∀ e, e ∈ dev → ∀ x, e.2 = some x → x.1 ≠ 0x10) → step s = .next t →
    t.gov.wheel.state = .sto ∨ t.pw.motionOn = false

/-- A lane reset leads from ISOLATED to RELOADING only with two lanes in service; a complete copy waits for the next
boundary and a mismatch leads to OUT; eight cycles in SHADOW lead to IN_SERVICE; a watchdog isolates a lane, and
a third isolation within an hour leads to OUT; READMIT leads from OUT to ISOLATED with two lanes in service and
is otherwise ignored. Every command of this family answers a next state in every state, and changes only the
parts of the state that its clause lists. (R294; R295; R297; R298) -/
def Obligations.LaneStates : Prop :=
  (∀ (l : Nat) (s : State), l < 3 → s.pw.motionOn = true → (s.lane l).state = .isolated → 2 ≤ s.lanesIn.length → s.sec.update.phase ≠ .apply →
    Does (.laneResetDone l) s (fun t => (t.lane l).state = .reloading ∧ (t.lane l).copied = false ∧ (t.lane l).copyStart = s.now ∧
      (∀ k, k ≠ l → t.lane k = s.lane k) ∧ t.gov.wheel = s.gov.wheel ∧ s.onlyChanges t [.gov])) ∧
  (∀ (l : Nat) (s : State), s.lanesIn.length < 2 → s.loadsStaged l = false → Gives (.laneResetDone l) s s) ∧
  (∀ (l : Nat) (s : State), l < 3 → s.pw.motionOn = true → (s.lane l).state = .reloading → (s.lane l).copied = false → 2 ≤ s.lanesIn.length →
    Does (.laneCopyDone l true) s (fun t => t.lane l = { s.lane l with copied := true } ∧ (∀ k, k ≠ l → t.lane k = s.lane k) ∧
      (s.memOk → s.loadsStaged l = false → ∀ k ks, s.lanesIn = k :: ks →
        t.mem.ram.readBytes (ramBase l) s.gov.imageBytes = s.mem.ram.readBytes (ramBase k) s.gov.imageBytes) ∧
      t.mem.pond = s.mem.pond ∧ t.mem.hbm = s.mem.hbm ∧ t.mem.store = s.mem.store ∧ t.mem.sram = s.mem.sram ∧
      s.onlyChanges t [.freeN, .gov, .mem])) ∧
  (∀ (l : Nat) (s : State), l < 3 → s.pw.motionOn = true → (s.lane l).state = .reloading → (s.lane l).copied = false → 2 ≤ s.lanesIn.length →
    Does (.laneCopyDone l false) s (fun t => (t.lane l).state = .out ∧ (t.lane l).cause = 7 ∧ (∀ k, k ≠ l → t.lane k = s.lane k) ∧
      bitN (t.regN Reg.gvEvents) 2 = true ∧ s.onlyChanges t [.ev, .gov, .regs])) ∧
  (∀ (l : Nat) (s : State), l < 3 → s.pw.motionOn = true → (s.lane l).state = .shadow → 8 ≤ (s.lane l).shadow →
    Does (.shadowPass l) s (fun t => t.laneIn l = true ∧ (∀ k, k ≠ l → t.lane k = s.lane k) ∧ bitN (t.regN Reg.gvEvents) 1 = true ∧
      (1 ≤ s.lanesIn.length → 3 ∉ t.gov.wheel.hold ∧ t.gov.singleSince = none) ∧ s.onlyChanges t [.ev, .gov, .regs])) ∧
  (∀ (l : Nat) (s : State), (s.lane l).state ≠ .shadow ∨ (s.lane l).shadow < 8 → Gives (.shadowPass l) s s) ∧
  (∀ (l : Nat) (s : State), l < 3 → s.pw.motionOn = true → s.laneIn l = true → Does (.laneWatchdogExpiry l) s (fun t =>
      (t.lane l).state = (if 2 ≤ ((s.lane l).isolations.filter (fun i => s.now - i < 3600000000000)).length then .out else .isolated) ∧
      (t.lane l).cause = 4 ∧ t.laneIn l = false ∧ (∀ k, k ≠ l → t.lane k = s.lane k) ∧
      (s.lanesIn.length = 2 → 3 ∈ t.gov.wheel.hold ∧ t.gov.singleSince.isSome = true) ∧ s.onlyChanges t [.ev, .gov, .regs])) ∧
  (∀ (l : Nat) (s : State), l < 3 → s.pw.motionOn = true → (s.lane l).state = .out → 2 ≤ s.lanesIn.length → Does (.readmit l) s (fun t =>
      (t.lane l).state = .isolated ∧ (∀ k, k ≠ l → t.lane k = s.lane k) ∧ t.gov.cmdIgnored = false ∧ s.onlyChanges t [.gov])) ∧
  (∀ (l : Nat) (s : State), s.pw.motionOn = true → 3 ≤ l ∨ (s.lane l).state ≠ .out ∨ s.lanesIn.length < 2 →
    Does (.readmit l) s (fun t => t.gov = { s.gov with cmdIgnored := true } ∧ s.onlyChanges t [.gov])) ∧
  (∀ (l : Nat) (s : State), Does (.laneResetDone l) s (fun t => s.onlyChanges t [.regs, .ev, .hp, .sec, .gov])) ∧
  (∀ (l : Nat) (ok : Bool) (s : State), Does (.laneCopyDone l ok) s (fun t => s.onlyChanges t [.regs, .mem, .ev, .gov, .freeN])) ∧
  (∀ (l : Nat) (c : Instr) (s : State), c ∈ [.shadowPass l, .laneWatchdogExpiry l] →
    Does c s (fun t => s.onlyChanges t [.regs, .ev, .gov])) ∧
  (∀ (l : Nat) (s : State), Does (.readmit l) s (fun t => s.onlyChanges t [.gov]))

/-- Lanes that agree have a majority: the values are used, no lane is isolated. With three lanes in service a lane
that strays in one word is isolated with cause vote, an absent one with cause absent, and the majority value of
every word is used; two lanes that disagree, or no lane present, have no majority: no lane is isolated, the
previous tick's value stays (the last voted command words in V2, no result in V3, no item in V4), and the second
such point in a row gives STO. V2 places one frame in both launch queues, with the head of the tick and the
command words of the slices, which in STO are those of safe torque-off; V3 certifies a cycle only without
residual, pivot and saturation; V4 hands the parcels of the item of a return route that is due to weir 41. Every
command of this family answers a next state in every state, and changes only the parts of the state that its
clause lists. (R270; R272; R273; R274; R289; R338; R361; R429) -/
def Obligations.VotingPoints : Prop :=
  (∀ (s : State), s.pw.motionOn = true → s.gov.tickFused ≠ [] → s.lanesIn ≠ [] → Does (.voteV1 []) s (fun t =>
      t.gov.fused = s.gov.tickFused ∧ t.gov.tickFused = [] ∧ t.gov.noMajority = false ∧ t.gov.lanes = s.gov.lanes ∧
      t.fus.contacts = nth s.gov.tickFused 20 0 ∧ (5 ∈ t.gov.wheel.hold ↔ bitN (nth s.gov.tickFused 1 0) 0 = false) ∧
      t.gov.wheel.capConflict = bitN (nth s.gov.tickFused 1 0) 1 ∧ t.gov.wheel.sto = s.gov.wheel.sto ∧ s.onlyChanges t [.ev, .fus, .gov, .regs])) ∧
  (∀ (l off v : Nat) (s : State), l < 3 → s.pw.motionOn = true → s.lanesIn = [0, 1, 2] → off % 4 = 0 →
    off < 4 * s.gov.tickFused.length → v % 2 ^ 32 ≠ nth s.gov.tickFused (off / 4) 0 → Does (.voteV1 [(l, some (off, v))]) s (fun t =>
      t.gov.fused = s.gov.tickFused ∧ t.gov.noMajority = false ∧ (t.lane l).cause = 1 ∧ t.laneIn l = false ∧
      (∀ k, k ≠ l → t.lane k = s.lane k) ∧ t.regN Reg.gvVoteMismatch = min (s.regN Reg.gvVoteMismatch + 1) 0xFFFFFFFF ∧
      (5 ∈ t.gov.wheel.hold ↔ bitN (nth s.gov.tickFused 1 0) 0 = false) ∧ t.gov.wheel.capConflict = bitN (nth s.gov.tickFused 1 0) 1 ∧
      s.onlyChanges t [.ev, .fus, .gov, .regs])) ∧
  (∀ (l : Nat) (s : State), l < 3 → s.pw.motionOn = true → s.gov.tickFused ≠ [] → s.lanesIn = [0, 1, 2] → Does (.voteV1 [(l, none)]) s (fun t =>
      t.gov.fused = s.gov.tickFused ∧ t.gov.noMajority = false ∧ (t.lane l).cause = 2 ∧ t.laneIn l = false ∧
      (∀ k, k ≠ l → t.lane k = s.lane k) ∧
      t.regN Reg.gvVoteMismatch = min (s.regN Reg.gvVoteMismatch + s.gov.tickFused.length) 0xFFFFFFFF ∧
      s.onlyChanges t [.ev, .fus, .gov, .regs])) ∧
  (∀ (off v : Nat) (s : State), s.pw.motionOn = true → s.lanesIn = [0, 1] → off % 4 = 0 →
    off < 4 * s.gov.tickFused.length → v % 2 ^ 32 ≠ nth s.gov.tickFused (off / 4) 0 → Does (.voteV1 [(0, some (off, v))]) s (fun t =>
      t.gov.fused = s.gov.fused ∧ t.gov.noMajority = true ∧ t.gov.lanes = s.gov.lanes ∧
      t.regN Reg.gvNoMajority = min (s.regN Reg.gvNoMajority + 1) 0xFFFFFFFF ∧
      (s.gov.noMajority = true → t.gov.wheel.state = .sto ∧ 1 ∈ t.gov.wheel.sto) ∧ s.onlyChanges t [.ev, .fus, .gov, .regs])) ∧
  (∀ (dev : List (Nat × Option (Nat × Nat))) (s : State), s.gov.tickFused = [] → Gives (.voteV1 dev) s s) ∧
  (∀ (cycles : Nat) (u s : State), s.pw.motionOn = true → s.tm.running = true → s.gov.sec.isSome = true → (s.fwClass 3).valid = true →
    s.lanesIn ≠ [] → (s.pw.supply ≠ .shutdown ∨ s.stoDone = false) →
    u = (if s.gov.wheel.state ≠ .standby ∧ s.gov.wheel.state ≠ .sto ∧ s.gov.setPoint = none ∧ s.gov.latch = [] then
      { s with gov := { s.gov with latch := s.votedQ } } else s) →
    Does (.voteV2 cycles []) s (fun t =>
      t.gov.votedFrame = s.frameHead (s.tickNow + launchNs s.govBody) s.gov.wheel.bits ++ (List.range 64).map
        (commandWord s.gov.wheel.state (jointCfgs s.govBody)
          ((u.slices (decide (s.tickIndex s.tickNow % impDivider s.govBody = 0))).map (·.command))) ∧
      t.gov.wheel = s.gov.wheel ∧ t.gov.noMajority = false ∧ t.gov.lanes = s.gov.lanes ∧
      ((s.queue 0).length < 4 → t.queue 0 = s.queue 0 ++
        [{ time := s.tickNow + launchNs s.govBody, voter := true, ref := 0, frame := t.gov.votedFrame }]) ∧
      ((s.queue 1).length < 4 → t.queue 1 = s.queue 1 ++
        [{ time := s.tickNow + launchNs s.govBody, voter := true, ref := 0, frame := setNth t.gov.votedFrame 0 (nth t.gov.votedFrame 0 0 + 256) }]) ∧
      s.onlyChanges t [.gov, .launch, .regs])) ∧
  (∀ (cycles : Nat) (s : State), s.pw.motionOn = true → s.tm.running = true → s.gov.sec.isSome = true → (s.fwClass 3).valid = true →
    s.lanesIn = [0, 1, 2] → s.gov.wheel.state = .sto → s.pw.supply ≠ .shutdown → (s.queue 0).length < 4 → (s.queue 1).length < 4 →
    Does (.voteV2 cycles []) s (fun t =>
      t.gov.votedFrame.drop 8 = List.replicate 64 (2 ^ 17) ∧ nth t.gov.votedFrame 4 0 = s.gov.wheel.bits ∧
      t.queue 0 = s.queue 0 ++ [{ time := s.tickNow + launchNs s.govBody, voter := true, ref := 0, frame := t.gov.votedFrame }] ∧
      t.queue 1 = s.queue 1 ++ [{ time := s.tickNow + launchNs s.govBody, voter := true, ref := 0, frame := setNth t.gov.votedFrame 0 (nth t.gov.votedFrame 0 0 + 256) }] ∧
      s.onlyChanges t [.gov, .launch, .regs])) ∧
  (∀ (cycles : Nat) (dev : List (Nat × Option (Nat × Nat))) (s : State), s.pw.motionOn = true → s.tm.running = true → s.gov.sec.isSome = true → (s.fwClass 3).valid = true →
    s.lanesIn ≠ [] → (∀ l, l ∈ s.lanesIn → Strays.absent dev l = true) → s.gov.votedFrame ≠ [] → Does (.voteV2 cycles dev) s (fun t =>
      t.gov.votedFrame.drop 8 = s.gov.votedFrame.drop 8 ∧ t.gov.lanes = s.gov.lanes ∧ t.gov.noMajority = true ∧
      t.gov.wheel.state = .sto ∧ 1 ∈ t.gov.wheel.sto ∧ s.onlyChanges t [.ev, .gov, .launch, .regs])) ∧
  (∀ (a i e : Nat) (out : Extract) (s : State), s.pw.motionOn = true → s.gov.sec.isSome = true → s.gov.v3Done = false →
    s.sol.stages ≠ [] → s.gov.wheel.state ≠ .standby → s.gov.wheel.state ≠ .sto → s.lanesIn ≠ [] →
    Does (.voteV3 a i e out []) s (fun t =>
      t.gov.v3Done = true ∧ t.gov.mpcOk = (!t.sol.residual && !t.sol.pivot && !t.sol.saturated) ∧
      (t.gov.mpcOk = true → t.gov.nextSet = t.gov.lastSet ∧ t.gov.nextSet.isSome = true ∧ t.gov.failRun = 0) ∧
      (t.gov.mpcOk = false → t.gov.failRun = s.gov.failRun + 1 ∧ t.gov.nextSet = (if s.gov.failRun < 3 then s.gov.fallbacks[s.gov.failRun]? else none)) ∧
      t.gov.noMajority = false ∧ t.gov.lanes = s.gov.lanes ∧ t.sol.warm.isSome = true ∧ s.onlyChanges t [.ev, .freeN, .gov, .regs, .sol])) ∧
  (∀ (a i e : Nat) (out : Extract) (dev : List (Nat × Option (Nat × Nat))) (s : State), s.pw.motionOn = true → s.gov.sec.isSome = true → s.gov.v3Done = false →
    s.sol.stages ≠ [] → s.gov.wheel.state ≠ .standby → s.gov.wheel.state ≠ .sto → s.lanesIn ≠ [] →
    (∀ l, l ∈ s.lanesIn → Strays.absent dev l = true) → Does (.voteV3 a i e out dev) s (fun t =>
      t.gov.v3Done = true ∧ t.gov.noMajority = true ∧ t.gov.lanes = s.gov.lanes ∧ t.gov.lastSet = s.gov.lastSet ∧ t.sol.warm = s.sol.warm ∧
      t.gov.failRun = s.gov.failRun + 1 ∧ t.gov.nextSet = (if s.gov.failRun < 3 then s.gov.fallbacks[s.gov.failRun]? else none) ∧
      s.onlyChanges t [.ev, .freeN, .gov, .regs, .sol])) ∧
  (∀ (a i e : Nat) (out : Extract) (dev : List (Nat × Option (Nat × Nat))) (s : State),
    s.gov.v3Done = true ∨ s.gov.wheel.state = .standby ∨ s.gov.wheel.state = .sto → Gives (.voteV3 a i e out dev) s s) ∧
  (∀ (r : Nat) (s : State), s.pw.motionOn = true → s.gov.sec.isSome = true → r < leAt s.govBody 0x20 1 →
    leAt s.govBody (0x40 + 16 * r + 3) 1 < Tbl.getD s.gov.returns r 0 → s.lanesIn ≠ [] →
    Does (.voteV4 r []) s (fun t =>
      Tbl.getD t.gov.returns r 0 = 0 ∧ t.gov.noMajority = false ∧ t.gov.lanes = s.gov.lanes ∧
      (∀ p, p ∈ s.returnParcels (leAt s.govBody (0x40 + 16 * r + 1) 1) (leAt s.govBody (0x40 + 16 * r + 2) 1) (s.gov.tick % 2 ^ 16)
          (returnWords (jointCfgs s.govBody) (leAt s.govBody (0x40 + 16 * r) 1) (s.returnItem (leAt s.govBody (0x40 + 16 * r) 1))) →
        p ∈ t.waiting 41 ∨ p ∈ t.buf (entryOf 41).1 (entryOf 41).2 p.cls) ∧
      s.onlyChanges t [.gov, .leat, .ledger, .regs])) ∧
  (∀ (r : Nat) (dev : List (Nat × Option (Nat × Nat))) (s : State), s.pw.motionOn = true → s.gov.sec.isSome = true → r < leAt s.govBody 0x20 1 →
    leAt s.govBody (0x40 + 16 * r + 3) 1 < Tbl.getD s.gov.returns r 0 → s.lanesIn ≠ [] →
    (∀ l, l ∈ s.lanesIn → Strays.absent dev l = true) → s.returnItem (leAt s.govBody (0x40 + 16 * r) 1) ≠ [] → Does (.voteV4 r dev) s (fun t =>
      Tbl.getD t.gov.returns r 0 = 0 ∧ t.gov.noMajority = true ∧ t.leat = s.leat ∧ t.gov.lanes = s.gov.lanes ∧
      s.onlyChanges t [.ev, .gov, .regs])) ∧
  (∀ (r : Nat) (dev : List (Nat × Option (Nat × Nat))) (s : State),
    Tbl.getD s.gov.returns r 0 ≤ leAt s.govBody (0x40 + 16 * r + 3) 1 → Gives (.voteV4 r dev) s s) ∧
  (∀ (dev : List (Nat × Option (Nat × Nat))) (s : State), Does (.voteV1 dev) s (fun t => s.onlyChanges t [.regs, .ev, .hp, .sec, .gov, .fus])) ∧
  (∀ (cycles : Nat) (dev : List (Nat × Option (Nat × Nat))) (s : State), Does (.voteV2 cycles dev) s (fun t => s.onlyChanges t [.regs, .ev, .hp, .sec, .gov, .launch])) ∧
  (∀ (assembly iter extract : Nat) (out : Extract) (dev : List (Nat × Option (Nat × Nat))) (s : State), Does (.voteV3 assembly iter extract out dev) s (fun t => s.onlyChanges t [.regs, .ev, .hp, .sec, .gov, .sol, .freeN])) ∧
  (∀ (r : Nat) (dev : List (Nat × Option (Nat × Nat))) (s : State), Does (.voteV4 r dev) s (fun t => s.onlyChanges t [.regs, .ledger, .ev, .hp, .sec, .leat, .gov]))

/-- A tick numbers itself, opens the next window and arms an accepted tick phase, whose first tick comes at least
250,000 ns later; until then no other tick comes; a window closes once, and fixes its frames; a boundary takes a
waiting GOVERNOR section, restarts the copy of a RELOADING lane, adopts the newest plan or skips one that is
past, and drives the next cycle; a record takes slots until its last parcel, a rejected one frees them and
changes no plan, a watch notice withdraws the plan of its bolter; hold_last and the conflict limit act. Every
command of this family answers a next state in every state, and changes only the parts of the state that its
clause lists. (R80; R137; R269; R275; R286; R288; R295; R296; R320; R347) -/
def Obligations.TicksAndRecords : Prop :=
  (∀ s : State, s.pw.motionOn = true → s.tm.running = true → s.gov.sec.isSome = true → s.armedTick = none → Does .innerTick s (fun t =>
      t.gov.tick = s.gov.tick + 1 ∧ t.gov.windowClosed = false ∧ t.tm.phase = s.phaseNow ∧ t.tm.newPhase = none ∧
      t.tm.armed = s.tm.newPhase.map (fun v => (v, s.tickNow + 250000)) ∧
      t.tm.copies = s.tm.copies ∧ s.onlyChanges t [.ev, .fus, .gov, .regs, .tm])) ∧
  (∀ s : State, s.armedTick.isSome = true → Gives .innerTick s s) ∧
  (∀ s : State, s.pw.motionOn = true → s.tm.running = true → s.gov.sec.isSome = true → s.gov.windowClosed = false →
    Does .acceptanceWindowClose s (fun t => t.gov.windowClosed = true ∧ t.fus.inbox = [] ∧
      (∀ q, q < 16 → s.gov.wheel.supply = true → (s.gq q).sec.isSome = true → (s.gq q).cfg.kind = 1 →
        (t.gq q).dropped = true ∧ (t.gq q).slots = (s.gq q).slots) ∧
      s.onlyChanges t [.ev, .fus, .gov, .leat, .ledger, .regs])) ∧
  (∀ s : State, s.gov.windowClosed = true → Gives .acceptanceWindowClose s s) ∧
  (∀ (qp : List QpStage) (x : Section) (s : State), s.pw.motionOn = true → s.tm.running = true → s.gov.nextSec = some x →
    Does (.cycleBoundary qp) s (fun t => t.gov.sec = some x ∧ t.gov.nextSec = none ∧
      (∀ l, (s.lane l).state = .reloading → (t.lane l).state = .reloading ∧ (t.lane l).copied = false ∧ (t.lane l).copyStart = s.now) ∧
      s.onlyChanges t [.ev, .fus, .gov, .leat, .ledger, .regs, .sol])) ∧
  (∀ (qp : List QpStage) (s : State), s.pw.motionOn = true → s.tm.running = true → s.gov.nextSec = none → s.gov.sec.isSome = true →
    Does (.cycleBoundary qp) s (fun t => t.gov.sec = s.gov.sec ∧ t.gov.v3Done = false ∧ t.gov.newPlan = none ∧
      (∀ l, (s.lane l).state = .reloading → (s.lane l).copied = true → (t.lane l).state = .shadow) ∧
      (∀ p, s.gov.newPlan = some p → s.now ≤ p.lastNs → t.gov.plan = some p ∧ 0 ∉ t.gov.wheel.hold) ∧
      (∀ p, s.gov.newPlan = some p → p.lastNs < s.now → t.gov.plan = s.gov.plan ∧
        t.regN Reg.gvPlanSkip = min (s.regN Reg.gvPlanSkip + 1) 0xFFFFFFFF) ∧
      (s.gov.wheel.state = .run → s.gov.v3Done = true → s.gov.newPlan = none →
        t.gov.cycle = (s.gov.cycle + 1) % 2 ^ 64 ∧ t.gov.setPoint = s.gov.nextSet ∧ t.sol.stages.length = qp.length) ∧
      s.onlyChanges t [.ev, .gov, .leat, .ledger, .regs, .sol])) ∧
  (∀ (q cycles : Nat) (p : Parcel) (rest : List Parcel) (s : State), q < 16 → (s.gq q).sec.isSome = true → (s.gq q).cfg.kind = 1 →
    Tbl.getD s.leat.arrived (govDest q) [] = p :: rest → p.cls = 0 → p.last = false → Does (.govifRecordArrive q cycles) s (fun t =>
      (t.gq q).slots = (s.gq q).slots ++ [p] ∧ Tbl.getD t.leat.arrived (govDest q) [] = rest ∧
      s.onlyChanges t [.gov, .leat, .ledger, .regs])) ∧
  (∀ (q cycles : Nat) (p : Parcel) (rest : List Parcel) (s : State), q < 16 → (s.gq q).sec.isSome = true → (s.gq q).cfg.kind = 1 →
    Tbl.getD s.leat.arrived (govDest q) [] = p :: rest → p.cls = 0 → p.last = true →
    badBlocks (s.gq q).cfg.tagLimit (({ s.gq q with slots := (s.gq q).slots ++ [p] } : GovQueue).recordOf p) ≠ 0 →
    Does (.govifRecordArrive q cycles) s (fun t =>
      (t.gq q).slots = (s.gq q).slots.filter (fun x => !sameRecord p x) ∧
      t.regN (Reg.gvTagReject q) = min (s.regN (Reg.gvTagReject q) +
        badBlocks (s.gq q).cfg.tagLimit (({ s.gq q with slots := (s.gq q).slots ++ [p] } : GovQueue).recordOf p)) 0xFFFFFFFF)) ∧
  (∀ (q cycles : Nat) (p : Parcel) (rest ps : List Parcel) (s : State), q < 16 → (s.gq q).sec.isSome = true → (s.gq q).cfg.kind = 0 →
    Tbl.getD s.leat.arrived (govDest q) [] = p :: rest → p.cls = 0 → p.last = true →
    ps = ({ s.gq q with slots := (s.gq q).slots ++ [p] } : GovQueue).recordOf p → badBlocks (s.gq q).cfg.tagLimit ps = 0 →
    leAt (recordBytes ps) 0 1 = 0 → Does (.planRecordArrive q cycles) s (fun t =>
      t.gov.newPlan = some (planOf (recordBytes ps)) ∧ t.gov.plan = s.gov.plan ∧ (t.gq q).slots = (s.gq q).slots ++ [p] ∧
      s.onlyChanges t [.gov, .leat, .ledger, .regs])) ∧
  (∀ (q cycles : Nat) (p : Parcel) (rest ps : List Parcel) (s : State), q < 16 → (s.gq q).sec.isSome = true → (s.gq q).cfg.kind = 0 →
    Tbl.getD s.leat.arrived (govDest q) [] = p :: rest → p.cls = 0 → p.last = true →
    ps = ({ s.gq q with slots := (s.gq q).slots ++ [p] } : GovQueue).recordOf p → watchNotice (s.gq q).cfg.tagLimit (recordBytes ps) ps = true →
    Does (.planRecordArrive q cycles) s (fun t =>
      (∀ c, s.gov.plan = some c → c.bolter = leAt (recordBytes ps) 2 1 → t.gov.plan = none ∧ 0 ∈ t.gov.wheel.hold) ∧
      (∀ c, s.gov.plan = some c → c.bolter ≠ leAt (recordBytes ps) 2 1 → t.gov.plan = some c) ∧
      (t.gq q).slots = (s.gq q).slots.filter (fun x => !sameRecord p x) ∧ s.onlyChanges t [.ev, .gov, .leat, .ledger, .regs])) ∧
  (∀ (q cycles : Nat) (p : Parcel) (rest ps : List Parcel) (s : State), q < 16 → (s.gq q).sec.isSome = true → (s.gq q).cfg.kind = 0 →
    Tbl.getD s.leat.arrived (govDest q) [] = p :: rest → p.cls = 0 → p.last = true →
    ps = ({ s.gq q with slots := (s.gq q).slots ++ [p] } : GovQueue).recordOf p → badBlocks (s.gq q).cfg.tagLimit ps ≠ 0 →
    watchNotice (s.gq q).cfg.tagLimit (recordBytes ps) ps = false → Does (.planRecordArrive q cycles) s (fun t =>
      t.gov.plan = s.gov.plan ∧ t.gov.newPlan = s.gov.newPlan ∧
      t.regN (Reg.gvTagReject q) = min (s.regN (Reg.gvTagReject q) + badBlocks (s.gq q).cfg.tagLimit ps) 0xFFFFFFFF ∧
      (t.gq q).slots = (s.gq q).slots.filter (fun x => !sameRecord p x) ∧ s.onlyChanges t [.gov, .leat, .ledger, .regs])) ∧
  (∀ (q : Nat) (s : State), q < 16 → (s.gq q).sec.isSome = true → (s.gq q).cfg.kind = 1 → s.gov.wheel.supply = false →
    (s.gq q).acting = false → (s.gq q).cfg.holdLast < (s.gq q).missCount → Does (.holdLastExpiry q) s (fun t =>
      (t.gq q).acting = true ∧ (t.gq q).dropped = true ∧ ((s.gq q).cfg.action = 1 → t.gov.wheel.capQueue = true) ∧
      ((s.gq q).cfg.action = 2 → 2 ∈ t.gov.wheel.hold) ∧ s.onlyChanges t [.ev, .gov, .regs])) ∧
  (∀ (g : Nat) (e : Gate) (since : Int) (s : State), (g, e) ∈ s.fus.gates → e.since = some since → s.gov.sec.isSome = true →
    since + 1000000 * (s.fuCfg.limitMs : Int) ≤ (s.now : Int) → Does .conflictLimitExpiry s (fun t =>
      t.fus.usable = false ∧ 5 ∈ t.gov.wheel.hold ∧ s.onlyChanges t [.ev, .fus, .gov, .regs])) ∧
  (∀ s : State, Does .innerTick s (fun t => s.onlyChanges t [.regs, .ev, .gov, .fus, .tm])) ∧
  (∀ s : State, Does .acceptanceWindowClose s (fun t => s.onlyChanges t [.regs, .ledger, .ev, .leat, .gov, .fus])) ∧
  (∀ (qp : List QpStage) (s : State), Does (.cycleBoundary qp) s (fun t => s.onlyChanges t [.regs, .ledger, .ev, .leat, .gov, .fus, .sol])) ∧
  (∀ (q cycles : Nat) (s : State), Does (.govifRecordArrive q cycles) s (fun t => s.onlyChanges t [.regs, .ledger, .leat, .gov])) ∧
  (∀ (q cycles : Nat) (s : State), Does (.planRecordArrive q cycles) s (fun t => s.onlyChanges t [.regs, .ledger, .ev, .leat, .gov])) ∧
  (∀ (q : Nat) (s : State), Does (.holdLastExpiry q) s (fun t => s.onlyChanges t [.regs, .ev, .gov])) ∧
  (∀ s : State, Does .conflictLimitExpiry s (fun t => s.onlyChanges t [.regs, .ev, .gov, .fus]))

/-- A command that meets a running one is ignored; a bad range is rejected without a copy; the copy passes weir 16
and then stands in the staging buffer; a millplan that fails verification changes nothing in the fabric; the
state MANUFACTURE accepts no millplan; LOAD of a staged millplan that fits opens its mills, at once where
nothing is to be preloaded and otherwise when its preload lists have run, and is rejected while a mill is not
EMPTY; PRELOAD starts where its pages fit and is rejected where they do not; PRELOAD_DONE carries it on as far
as weir 16 has tokens; DISCARD drops the staged millplan; UNLOAD closes every sluice and empties every mill.
Every command of this family answers a next state in every state, and changes only the parts of the state that
its clause lists. (R122; R123; R124; R126; R127; R130; R138; R511; R514) -/
def Obligations.MillplanLoaded : Prop :=
  (∀ (c : Instr) (m : Nat) (s : State), c ∈ [.copyVerify, .load, .preload, .swap, .unload, .discard, .restore m] →
    (s.loader.state ≠ .idle ∨ s.mgmtReload = true) → Does c s (fun t => t.loader = { s.loader with ignored := true } ∧ s.onlyChanges t [.loader])) ∧
  (∀ s : State, s.loader.state = .idle → s.mgmtReload = false → s.lifecycle ≠ 0 →
    (s.regN Reg.mpSrcOffset % 4096 ≠ 0 ∨ s.regN Reg.mpSrcLength = 0 ∨
      33554432 < s.regN Reg.mpSrcLength ∨ 67108864 < s.regN Reg.mpSrcOffset + s.regN Reg.mpSrcLength) →
    Does .copyVerify s (fun t => t.loader.state = .idle ∧ t.loader.result = 2 ∧ t.loader.cause = 1 ∧ t.loader.staged = s.loader.staged ∧
      t.loader.loaded = s.loader.loaded ∧ s.onlyChanges t [.ev, .freeN, .loader, .regs])) ∧
  (∀ s : State, s.loader.state = .idle → s.mgmtReload = false → s.lifecycle ≠ 0 → s.regN Reg.mpSrcOffset % 4096 = 0 →
    0 < s.regN Reg.mpSrcLength → s.regN Reg.mpSrcLength ≤ 33554432 →
    s.regN Reg.mpSrcOffset + s.regN Reg.mpSrcLength ≤ 67108864 → Does .copyVerify s (fun t =>
      t.loader.state = .copying ∧ t.loader.srcOffset = s.regN Reg.mpSrcOffset ∧ t.loader.srcLength = s.regN Reg.mpSrcLength ∧
      t.loader.loaded = s.loader.loaded ∧ s.onlyChanges t [.ledger, .loader])) ∧
  (∀ (c : Instr) (s : State), c ∈ [.copyVerify, .load] → s.loader.state = .idle → s.mgmtReload = false → s.lifecycle = 0 → Does c s (fun t =>
      t.loader.state = .idle ∧ t.loader.result = 2 ∧ t.loader.status = 0x16 ∧ t.loader.staged = s.loader.staged ∧
      t.loader.loaded = s.loader.loaded ∧ s.onlyChanges t [.ev, .freeN, .loader, .regs])) ∧
  (∀ s : State, s.memOk → s.loader.state = .copying → s.pw.fabricPaused = false →
    s.loader.srcLength ≤ s.copyPass.loader.passed * 1024 → Does .copyDone s (fun t =>
      t.loader.state = .verifying ∧ t.local stagingBase s.loader.srcLength = s.pondRead s.loader.srcOffset s.loader.srcLength ∧
      s.memBut t .hbm stagingBase s.loader.srcLength ∧ s.onlyChanges t [.leat, .loader, .mem, .regs])) ∧
  (∀ s : State, s.loader.state = .copying → s.pw.fabricPaused = false → s.copyPass.loader.passed * 1024 < s.loader.srcLength →
    Does .copyDone s (fun t => t = s.copyPass ∧ t.loader.state = .copying ∧ s.onlyChanges t [.leat, .loader, .regs])) ∧
  (∀ s : State, s.loader.state = .verifying → Does .verifyDone s (fun t =>
      t.loader.state = .idle ∧ t.loader.loaded = s.loader.loaded ∧
      (s.verify (s.local stagingBase s.loader.srcLength) = none →
        t.loader.result = 1 ∧ t.loader.staged = some (imagePlan (s.local stagingBase s.loader.srcLength)) ∧ s.onlyChanges t [.loader, .regs]) ∧
      (∀ cause sec, s.verify (s.local stagingBase s.loader.srcLength) = some (cause, sec) →
        t.loader.result = 2 ∧ t.loader.cause = cause ∧ t.loader.status = (if 2 ≤ cause ∧ cause ≤ 5 then 0x0D else 0) ∧
        (∀ i, sec = some i → t.loader.failSection = i) ∧ t.loader.staged = s.loader.staged ∧
        s.onlyChanges t [.ev, .freeN, .loader, .regs]))) ∧
  (∀ (x : Plan) (s : State), s.loader.state = .idle → s.mgmtReload = false → s.loader.staged = some x → s.lifecycle = 1 → x.replacement = false →
    s.loader.loaded = none → (∀ m, m < 16 → (s.mill m).state = .empty) → s.loadFits x.sections = true →
    (∀ y, y ∈ x.sections → y.preloads = []) → Does .load s (fun t =>
      t.loader.state = .idle ∧ t.loader.result = 1 ∧ t.loader.loaded = some x ∧ t.loader.staged = none ∧
      (∀ y, y ∈ millSections x.sections → (t.mill y.target).state = s.opened))) ∧
  (∀ (x : Plan) (s : State), s.loader.state = .idle → s.mgmtReload = false → s.loader.staged = some x → s.lifecycle = 1 → x.replacement = false →
    s.loader.loaded = none → (∀ m, m < 16 → (s.mill m).state = .empty) → s.loadFits x.sections = true →
    sumN ((millSections x.sections).map Section.preloadPages) ≠ 0 → Does .load s (fun t =>
      t.loader.state = .loading ∧ t.loader.step = 2 ∧ t.loader.loaded = none ∧ t.loader.staged = some x ∧ t.mills = s.mills ∧ t.mem = s.mem)) ∧
  (∀ (x : Plan) (u s : State), s.loader.state = .loading → s.pw.fabricPaused = false → s.loader.staged = some x →
    u = s.preloadOn (millSections x.sections) → u.preloaded = true → (∀ y, y ∈ x.sections → u.preloadBad y = false) →
    (∀ m, m < 16 → (s.mill m).state ≠ .fault) → Does .preloadDone s (fun t =>
      t.loader.state = .idle ∧ t.loader.result = 1 ∧ t.loader.loaded = some x ∧ t.loader.staged = none ∧
      (∀ y, y ∈ millSections x.sections → (t.mill y.target).state = .run))) ∧
  (∀ (x : Plan) (s : State), s.loader.state = .idle → s.mgmtReload = false → s.loader.staged = some x → s.lifecycle = 1 →
    x.replacement = true ∨ s.loader.loaded.isSome = true ∨ (∃ m, m < 16 ∧ (s.mill m).state ≠ .empty) → Does .load s (fun t =>
      t.loader.result = 2 ∧ t.loader.cause = 0 ∧ t.loader.staged = some x ∧ t.loader.loaded = s.loader.loaded ∧
      s.onlyChanges t [.ev, .freeN, .loader, .regs])) ∧
  (∀ (x : Section) (s : State), s.loader.state = .idle → s.mgmtReload = false → s.stagedSection = some x →
    (x.typ = 1 → (s.mill x.target).state = .run) → (x.typ = 10 → (s.mill x.target).state = .run) → s.loader.ready = false →
    x.preloadPages - Tbl.getD s.loader.charged x.ctx 0 ≤ (s.pool (160 + x.ctx)).returned → Does .preload s (fun t =>
      t.loader.state = .preloading ∧ t.loader.mill = x.target ∧ t.loader.preloadDone = 0 ∧ t.loader.preloadTotal = x.preloadPages ∧
      t.loader.staged = s.loader.staged ∧ t.loader.charged = s.loader.charged ∧ s.onlyChanges t [.loader])) ∧
  (∀ (x : Section) (s : State), s.loader.state = .idle → s.mgmtReload = false → s.stagedSection = some x →
    (x.typ = 1 → (s.mill x.target).state = .run) → (x.typ = 10 → (s.mill x.target).state = .run) → s.loader.ready = false →
    (s.pool (160 + x.ctx)).returned < x.preloadPages - Tbl.getD s.loader.charged x.ctx 0 → Does .preload s (fun t =>
      t.loader.state = .idle ∧ t.loader.result = 2 ∧ t.loader.cause = 0x10 ∧ t.loader.staged = s.loader.staged ∧
      s.onlyChanges t [.ev, .loader, .regs])) ∧
  (∀ (x : Section) (s : State), s.pw.fabricPaused = false → s.loader.state = .preloading → s.stagedSection = some x →
    (s.preloadOn [x]).preloaded = true → fld (s.reg Reg.mpCtrl) 1 1 = 0 → Does .preloadDone s (fun t =>
      t.loader.state = .idle ∧ t.loader.result = 1 ∧ t.loader.ready = true ∧ t.loader.staged = s.loader.staged ∧
      t.loader.loaded = s.loader.loaded ∧ t.mills = s.mills ∧ s.onlyChanges t [.freeN, .leat, .ledger, .loader, .mem, .regs])) ∧
  (∀ (x : Section) (s : State), s.pw.fabricPaused = false → s.loader.state = .preloading → s.stagedSection = some x →
    (s.preloadOn [x]).preloaded = false → Does .preloadDone s (fun t =>
      t = s.preloadOn [x] ∧ t.loader.state = .preloading ∧ t.loader.staged = s.loader.staged ∧ t.mills = s.mills ∧
      s.onlyChanges t [.freeN, .leat, .ledger, .loader, .mem, .regs])) ∧
  (∀ s : State, s.loader.state = .idle → s.mgmtReload = false → Does .discard s (fun t =>
      t.loader.staged = none ∧ t.loader.result = 1 ∧ t.loader.state = .idle ∧ t.loader.loaded = s.loader.loaded ∧
      s.onlyChanges t [.ledger, .loader, .regs])) ∧
  (∀ s : State, s.loader.state = .idle → s.mgmtReload = false → s.loader.loaded.isSome = true → (∀ m, m < 16 → (s.mill m).state = .empty) →
    Does .unload s (fun t => t.loader.state = .idle ∧ t.loader.result = 1 ∧ t.loader.loaded = none ∧ t.tiers.runs = [] ∧ t.bolters = [] ∧
      (∀ m, m < 16 → (t.mill m).state = .empty ∧ (t.mill m).sec = none) ∧ t.mem = s.mem)) ∧
  (∀ s : State, s.loader.state = .idle → s.mgmtReload = false → s.loader.loaded.isSome = true → (∃ m, m < 16 ∧ (s.mill m).state = .run) →
    Does .unload s (fun t => t.loader.state = .unloading ∧ t.loader.loaded = s.loader.loaded ∧
      (∀ m, m < 16 → (s.mill m).state = .run → (t.mill m).state = .closed ∧ (t.mill m).drained = false) ∧
      s.onlyChanges t [.leat, .ledger, .loader, .mills])) ∧
  (∀ s : State, Does .copyVerify s (fun t => s.onlyChanges t [.regs, .ledger, .ev, .loader, .freeN])) ∧
  (∀ s : State, Does .load s (fun t => s.onlyChanges t [.regs, .mem, .ledger, .ev, .hp, .mills, .leat, .loader, .ops, .streams, .tiers, .bolters, .gov, .fus, .sn, .freeN])) ∧
  (∀ (c : Instr) (s : State), c ∈ [.preload, .verifyDone] →
    Does c s (fun t => s.onlyChanges t [.regs, .ev, .loader, .freeN])) ∧
  (∀ s : State, Does .swap s (fun t => s.onlyChanges t [.regs, .ledger, .ev, .mills, .leat, .loader, .gov, .freeN])) ∧
  (∀ s : State, Does .unload s (fun t => s.onlyChanges t [.regs, .hold, .mem, .ledger, .ev, .hp, .mills, .leat, .loader, .ops, .streams, .tiers, .bolters, .gov, .sn])) ∧
  (∀ s : State, Does .discard s (fun t => s.onlyChanges t [.regs, .ledger, .loader])) ∧
  (∀ (m : Nat) (s : State), Does (.restore m) s (fun t => s.onlyChanges t [.regs, .mem, .ledger, .ev, .hp, .mills, .leat, .loader, .ops, .streams, .tiers, .sn, .freeN])) ∧
  (∀ s : State, Does .copyDone s (fun t => s.onlyChanges t [.regs, .mem, .leat, .loader])) ∧
  (∀ s : State, Does .preloadDone s (fun t => s.onlyChanges t [.regs, .hold, .mem, .ledger, .ev, .hp, .mills, .leat, .loader, .ops, .streams, .tiers, .bolters, .gov, .fus, .sn, .freeN]))

/-- SWAP of a READY section closes the sluice of its running mill, and one that is not READY is rejected as
NOT_ALLOWED; a drained mill whose boundaries match takes the new section and runs; a drain that exceeds its
bound reopens the mill with the old section; a GOVERNOR section waits for the cycle boundary and a QUOTA
decrease that does not fit changes nothing; EVACUATE takes a mill in FAULT, and NO_SPARE stops a second one;
RESTORE asks for a mill that has passed MILL_TEST. Every command of this family answers a next state in every
state, and changes only the parts of the state that its clause lists. (R133; R135; R137; R138; R141; R144; R145;
R511; R514) -/
def Obligations.SectionsReplaced : Prop :=
  (∀ (x : Section) (s : State), s.loader.state = .idle → s.mgmtReload = false → s.stagedSection = some x → (x.typ = 1 ∨ x.typ = 10) → s.lifecycle = 1 →
    s.loader.ready = true → (s.mill x.target).state = .run → s.swapFits x = true → Does .swap s (fun t =>
      t.loader.state = .swapping ∧ t.loader.step = 1 ∧ (t.mill x.target).state = .closed ∧ (t.mill x.target).sec = (s.mill x.target).sec ∧
      s.onlyChanges t [.leat, .ledger, .loader, .mills])) ∧
  (∀ (x : Section) (s : State), s.loader.state = .idle → s.mgmtReload = false → s.stagedSection = some x → s.lifecycle = 1 →
    (s.loader.ready = false ∨ (x.typ = 1 ∨ x.typ = 10) ∧ (s.mill x.target).state ≠ .run) → Does .swap s (fun t =>
      t.loader.result = 2 ∧ t.loader.cause = 0x17 ∧ t.loader.staged = s.loader.staged ∧ s.onlyChanges t [.ev, .loader, .regs])) ∧
  (∀ (m : Nat) (x o : Section) (s : State), m < 16 → s.pw.fabricPaused = false → (s.mill m).state = .closed → (s.mill m).drained = false →
    s.millQuiet m = true → s.loader.state = .swapping → s.loader.step = 1 → s.stagedSection = some x → x.target = m → (s.mill m).sec = some o →
    s.loader.reload = false → s.loader.queued = none → (s.drainMill m).parkMismatch o = none → Does (.drainComplete m) s (fun t =>
      (t.mill m).state = .run ∧ (t.mill m).sec = some x ∧ t.loader.state = .idle ∧ t.loader.result = 1 ∧ t.loader.staged = none ∧
      t.loader.loaded = s.loader.loaded.map (fun l => l.replace s.ldPlan x) ∧ t.loader.lastKind = 0)) ∧
  (∀ (m : Nat) (s : State), m < 16 → s.pw.fabricPaused = false → (s.mill m).state = .closed → (s.mill m).drained = false →
    s.loader.state = .swapping → s.loader.step = 1 → s.loader.mill = m → Does (.drainTimeout m) s (fun t =>
      (t.mill m).state = .run ∧ (t.mill m).sec = (s.mill m).sec ∧ t.loader.state = .idle ∧ t.loader.result = 3 ∧ t.loader.cause = 0x12 ∧
      t.loader.staged = s.loader.staged ∧ t.loader.loaded = s.loader.loaded)) ∧
  (∀ (x : Section) (s : State), s.loader.state = .swapping → s.pw.fabricPaused = false → s.stagedSection = some x → x.typ = 7 →
    s.gov.sec.isSome = true → s.loader.queued = none → Does .sectionReplaceApply s (fun t =>
      t.gov.nextSec = some x ∧ t.gov.sec = s.gov.sec ∧ t.loader.state = .idle ∧ t.loader.result = 1 ∧ t.loader.staged = none ∧
      t.mills = s.mills)) ∧
  (∀ (x : Section) (s : State), s.loader.state = .swapping → s.pw.fabricPaused = false → s.stagedSection = some x → x.typ = 4 →
    s.quotaCause x ≠ 0 → Does .sectionReplaceApply s (fun t =>
      t.loader.state = .idle ∧ t.loader.result = 3 ∧ t.loader.cause = s.quotaCause x ∧ t.loader.staged = s.loader.staged ∧
      s.onlyChanges t [.ev, .loader, .regs])) ∧
  (∀ (m : Nat) (s : State), m < 16 → s.loader.state = .idle → s.mgmtReload = false → (s.mill m).state ≠ .fault → Does (.evacuate m) s (fun t =>
      t.loader.result = 2 ∧ t.loader.cause = 0x17 ∧ t.loader.staged = s.loader.staged ∧ s.onlyChanges t [.ev, .loader, .regs])) ∧
  (∀ (c : Instr) (m : Nat) (fb : Section) (s : State), c = .evacuate m ∨ c = .autoEvacuate m ∧ fld (s.reg Reg.mpCtrl) 0 0 = 1 → m < 16 →
    s.loader.state = .idle → (s.mill m).state = .fault → s.loader.placedFor = none → s.loader.queued = none → s.fallback m = some fb →
    sumN ((millSections fb.affected).map Section.preloadPages) ≠ 0 → Does c s (fun t =>
      t.loader.state = .evacuating ∧ t.loader.step = 2 ∧ t.loader.mill = m ∧ (t.mill m).state = .fault ∧ t.mem = s.mem)) ∧
  (∀ (c : Instr) (m f : Nat) (s : State), c = .evacuate m ∨ c = .autoEvacuate m ∧ fld (s.reg Reg.mpCtrl) 0 0 = 1 → m < 16 →
    s.loader.state = .idle → (s.mill m).state = .fault → s.loader.placedFor = some f → s.loader.queued = none → Does c s (fun t =>
      t.loader.state = .idle ∧ t.loader.result = 2 ∧ t.loader.cause = 0x16 ∧ m ∈ t.loader.stopped ∧ (t.mill m).state = .empty)) ∧
  (∀ (m : Nat) (s : State), fld (s.reg Reg.mpCtrl) 0 0 = 0 → Gives (.autoEvacuate m) s s) ∧
  (∀ (m : Nat) (s : State), s.loader.state = .idle → s.mgmtReload = false → (s.mill m).tested = false → Does (.restore m) s (fun t =>
      t.loader.result = 2 ∧ t.loader.cause = 0x0F ∧ t.loader.loaded = s.loader.loaded ∧ s.onlyChanges t [.ev, .loader, .regs])) ∧
  (∀ (m : Nat) (y : Section) (s : State), m < 16 → s.loader.state = .idle → s.mgmtReload = false → ((s.mill m).state = .evacuated ∨ (s.mill m).state = .empty) → (s.mill m).tested = true →
    (s.fallback m).isSome = true → y ∈ (s.loader.loaded.map (·.sections)).getD [] → (y.typ = 1 ∨ y.typ = 10) → y.target = m →
    Does (.restore m) s (fun t => t.loader.mill = m ∧ (t.loader.state = .restoring ∨ t.loader.state = .idle ∧ t.loader.result = 1))) ∧
  (∀ (m : Nat) (c : Instr) (s : State), c ∈ [.drainComplete m, .drainTimeout m, .evacuate m, .autoEvacuate m] →
    Does c s (fun t => s.onlyChanges t [.regs, .hold, .mem, .ledger, .ev, .hp, .mills, .leat, .loader, .ops, .streams, .tiers, .bolters, .gov, .sn, .freeN])) ∧
  (∀ s : State, Does .sectionReplaceApply s (fun t => s.onlyChanges t [.regs, .hold, .mem, .ledger, .ev, .hp, .mills, .leat, .loader, .ops, .streams, .tiers, .bolters, .gov, .fus, .sn, .freeN]))

/-- Right after reset the host port is OFF with RESET_n asserted, every context ring is DISABLED, every mill EMPTY,
the brake wheel in STANDBY, the fantail in FREE_RUN, the loader idle with nothing staged or loaded, the queue of
commands empty; every register has the value of its Reset column and the memories have their canonical form.
What the non-volatile memories hold as shipped is the model's choice (log entries 4 and 5). (R24; R289; R380;
R453) -/
def Obligations.ResetState : Prop :=
  State.reset.memOk ∧ State.reset.pending = [] ∧ State.reset.regs = [] ∧ State.reset.hold = [] ∧
  State.reset.hp.state = .off ∧ State.reset.hp.resetN = true ∧ (∀ c, c < 65 → (State.reset.ring c).state = .disabled) ∧
  State.reset.pw.motionOn = false ∧ State.reset.pw.fabricOn = false ∧ State.reset.pw.stage = 0 ∧
  (∀ m, m < 16 → (State.reset.mill m).state = .empty ∧ (State.reset.mill m).sec = none) ∧
  State.reset.gov.wheel.state = .standby ∧ State.reset.gov.wheel.hold = [] ∧ State.reset.gov.wheel.sto = [] ∧
  State.reset.tm.fantail = .freeRun ∧ State.reset.tm.running = false ∧
  State.reset.loader.state = .idle ∧ State.reset.loader.staged = none ∧ State.reset.loader.loaded = none ∧
  State.reset.torqueOff

/-- From every state whose memories are in canonical form (addresses strictly rising, no byte listed that equals
what an unlisted address reads as), a step leads to a state whose memories are. The canonical form is the
model's way of holding the memories of R16 and R48. Every command answers a next state in every state, with the
queue untouched, but for a supply event whose voltage lies above the absolute maximum of R495, which stops.
(R16; R48; R495) -/
def Obligations.StepKeepsMemory : Prop :=
  (∀ s t : State, s.memOk → step s = .next t → t.memOk) ∧
  (∀ (c : Instr) (s : State), overRated c = false → ∃ t, exec c s = .next t ∧ t.pending = s.pending) ∧
  (∀ (c : Instr) (s : State), overRated c = true → exec c s = .fault .ratingExceeded)
end

