-- ==== Sys2Proof/Laws/State.lean ====
section
/-!
SUPPORT. Each update of the state leaves the other parts of it alone: one lemma per part and update, so that no proof
unfolds a record update.
-/
namespace Sys2Proof.Machine

@[simp] theorem State.setReg_hold (s : State) (a : Nat) (w : Word) : (s.setReg a w).hold = s.hold := rfl
@[simp] theorem State.setReg_mem (s : State) (a : Nat) (w : Word) : (s.setReg a w).mem = s.mem := rfl
@[simp] theorem State.setReg_ledger (s : State) (a : Nat) (w : Word) : (s.setReg a w).ledger = s.ledger := rfl
@[simp] theorem State.setReg_ev (s : State) (a : Nat) (w : Word) : (s.setReg a w).ev = s.ev := rfl
@[simp] theorem State.setReg_hp (s : State) (a : Nat) (w : Word) : (s.setReg a w).hp = s.hp := rfl
@[simp] theorem State.setReg_pw (s : State) (a : Nat) (w : Word) : (s.setReg a w).pw = s.pw := rfl
@[simp] theorem State.setReg_ck (s : State) (a : Nat) (w : Word) : (s.setReg a w).ck = s.ck := rfl
@[simp] theorem State.setReg_sec (s : State) (a : Nat) (w : Word) : (s.setReg a w).sec = s.sec := rfl
@[simp] theorem State.setReg_mills (s : State) (a : Nat) (w : Word) : (s.setReg a w).mills = s.mills := rfl
@[simp] theorem State.setReg_leat (s : State) (a : Nat) (w : Word) : (s.setReg a w).leat = s.leat := rfl
@[simp] theorem State.setReg_loader (s : State) (a : Nat) (w : Word) : (s.setReg a w).loader = s.loader := rfl
@[simp] theorem State.setReg_ops (s : State) (a : Nat) (w : Word) : (s.setReg a w).ops = s.ops := rfl
@[simp] theorem State.setReg_streams (s : State) (a : Nat) (w : Word) : (s.setReg a w).streams = s.streams := rfl
@[simp] theorem State.setReg_tiers (s : State) (a : Nat) (w : Word) : (s.setReg a w).tiers = s.tiers := rfl
@[simp] theorem State.setReg_bolters (s : State) (a : Nat) (w : Word) : (s.setReg a w).bolters = s.bolters := rfl
@[simp] theorem State.setReg_gov (s : State) (a : Nat) (w : Word) : (s.setReg a w).gov = s.gov := rfl
@[simp] theorem State.setReg_fus (s : State) (a : Nat) (w : Word) : (s.setReg a w).fus = s.fus := rfl
@[simp] theorem State.setReg_sol (s : State) (a : Nat) (w : Word) : (s.setReg a w).sol = s.sol := rfl
@[simp] theorem State.setReg_tm (s : State) (a : Nat) (w : Word) : (s.setReg a w).tm = s.tm := rfl
@[simp] theorem State.setReg_launch (s : State) (a : Nat) (w : Word) : (s.setReg a w).launch = s.launch := rfl
@[simp] theorem State.setReg_px (s : State) (a : Nat) (w : Word) : (s.setReg a w).px = s.px := rfl
@[simp] theorem State.setReg_sn (s : State) (a : Nat) (w : Word) : (s.setReg a w).sn = s.sn := rfl
@[simp] theorem State.setReg_mr (s : State) (a : Nat) (w : Word) : (s.setReg a w).mr = s.mr := rfl
@[simp] theorem State.setReg_freeN (s : State) (a : Nat) (w : Word) : (s.setReg a w).freeN = s.freeN := rfl
@[simp] theorem State.setReg_pending (s : State) (a : Nat) (w : Word) : (s.setReg a w).pending = s.pending := rfl

@[simp] theorem State.setMill_regs (s : State) (m : Nat) (x : Mill) : (s.setMill m x).regs = s.regs := rfl
@[simp] theorem State.setMill_hold (s : State) (m : Nat) (x : Mill) : (s.setMill m x).hold = s.hold := rfl
@[simp] theorem State.setMill_mem (s : State) (m : Nat) (x : Mill) : (s.setMill m x).mem = s.mem := rfl
@[simp] theorem State.setMill_ledger (s : State) (m : Nat) (x : Mill) : (s.setMill m x).ledger = s.ledger := rfl
@[simp] theorem State.setMill_ev (s : State) (m : Nat) (x : Mill) : (s.setMill m x).ev = s.ev := rfl
@[simp] theorem State.setMill_hp (s : State) (m : Nat) (x : Mill) : (s.setMill m x).hp = s.hp := rfl
@[simp] theorem State.setMill_pw (s : State) (m : Nat) (x : Mill) : (s.setMill m x).pw = s.pw := rfl
@[simp] theorem State.setMill_ck (s : State) (m : Nat) (x : Mill) : (s.setMill m x).ck = s.ck := rfl
@[simp] theorem State.setMill_sec (s : State) (m : Nat) (x : Mill) : (s.setMill m x).sec = s.sec := rfl
@[simp] theorem State.setMill_leat (s : State) (m : Nat) (x : Mill) : (s.setMill m x).leat = s.leat := rfl
@[simp] theorem State.setMill_loader (s : State) (m : Nat) (x : Mill) : (s.setMill m x).loader = s.loader := rfl
@[simp] theorem State.setMill_ops (s : State) (m : Nat) (x : Mill) : (s.setMill m x).ops = s.ops := rfl
@[simp] theorem State.setMill_streams (s : State) (m : Nat) (x : Mill) : (s.setMill m x).streams = s.streams := rfl
@[simp] theorem State.setMill_tiers (s : State) (m : Nat) (x : Mill) : (s.setMill m x).tiers = s.tiers := rfl
@[simp] theorem State.setMill_bolters (s : State) (m : Nat) (x : Mill) : (s.setMill m x).bolters = s.bolters := rfl
@[simp] theorem State.setMill_gov (s : State) (m : Nat) (x : Mill) : (s.setMill m x).gov = s.gov := rfl
@[simp] theorem State.setMill_fus (s : State) (m : Nat) (x : Mill) : (s.setMill m x).fus = s.fus := rfl
@[simp] theorem State.setMill_sol (s : State) (m : Nat) (x : Mill) : (s.setMill m x).sol = s.sol := rfl
@[simp] theorem State.setMill_tm (s : State) (m : Nat) (x : Mill) : (s.setMill m x).tm = s.tm := rfl
@[simp] theorem State.setMill_launch (s : State) (m : Nat) (x : Mill) : (s.setMill m x).launch = s.launch := rfl
@[simp] theorem State.setMill_px (s : State) (m : Nat) (x : Mill) : (s.setMill m x).px = s.px := rfl
@[simp] theorem State.setMill_sn (s : State) (m : Nat) (x : Mill) : (s.setMill m x).sn = s.sn := rfl
@[simp] theorem State.setMill_mr (s : State) (m : Nat) (x : Mill) : (s.setMill m x).mr = s.mr := rfl
@[simp] theorem State.setMill_freeN (s : State) (m : Nat) (x : Mill) : (s.setMill m x).freeN = s.freeN := rfl
@[simp] theorem State.setMill_pending (s : State) (m : Nat) (x : Mill) : (s.setMill m x).pending = s.pending := rfl

@[simp] theorem State.setLane_regs (s : State) (l : Nat) (x : Lane) : (s.setLane l x).regs = s.regs := rfl
@[simp] theorem State.setLane_hold (s : State) (l : Nat) (x : Lane) : (s.setLane l x).hold = s.hold := rfl
@[simp] theorem State.setLane_mem (s : State) (l : Nat) (x : Lane) : (s.setLane l x).mem = s.mem := rfl
@[simp] theorem State.setLane_ledger (s : State) (l : Nat) (x : Lane) : (s.setLane l x).ledger = s.ledger := rfl
@[simp] theorem State.setLane_ev (s : State) (l : Nat) (x : Lane) : (s.setLane l x).ev = s.ev := rfl
@[simp] theorem State.setLane_hp (s : State) (l : Nat) (x : Lane) : (s.setLane l x).hp = s.hp := rfl
@[simp] theorem State.setLane_pw (s : State) (l : Nat) (x : Lane) : (s.setLane l x).pw = s.pw := rfl
@[simp] theorem State.setLane_ck (s : State) (l : Nat) (x : Lane) : (s.setLane l x).ck = s.ck := rfl
@[simp] theorem State.setLane_sec (s : State) (l : Nat) (x : Lane) : (s.setLane l x).sec = s.sec := rfl
@[simp] theorem State.setLane_mills (s : State) (l : Nat) (x : Lane) : (s.setLane l x).mills = s.mills := rfl
@[simp] theorem State.setLane_leat (s : State) (l : Nat) (x : Lane) : (s.setLane l x).leat = s.leat := rfl
@[simp] theorem State.setLane_loader (s : State) (l : Nat) (x : Lane) : (s.setLane l x).loader = s.loader := rfl
@[simp] theorem State.setLane_ops (s : State) (l : Nat) (x : Lane) : (s.setLane l x).ops = s.ops := rfl
@[simp] theorem State.setLane_streams (s : State) (l : Nat) (x : Lane) : (s.setLane l x).streams = s.streams := rfl
@[simp] theorem State.setLane_tiers (s : State) (l : Nat) (x : Lane) : (s.setLane l x).tiers = s.tiers := rfl
@[simp] theorem State.setLane_bolters (s : State) (l : Nat) (x : Lane) : (s.setLane l x).bolters = s.bolters := rfl
@[simp] theorem State.setLane_fus (s : State) (l : Nat) (x : Lane) : (s.setLane l x).fus = s.fus := rfl
@[simp] theorem State.setLane_sol (s : State) (l : Nat) (x : Lane) : (s.setLane l x).sol = s.sol := rfl
@[simp] theorem State.setLane_tm (s : State) (l : Nat) (x : Lane) : (s.setLane l x).tm = s.tm := rfl
@[simp] theorem State.setLane_launch (s : State) (l : Nat) (x : Lane) : (s.setLane l x).launch = s.launch := rfl
@[simp] theorem State.setLane_px (s : State) (l : Nat) (x : Lane) : (s.setLane l x).px = s.px := rfl
@[simp] theorem State.setLane_sn (s : State) (l : Nat) (x : Lane) : (s.setLane l x).sn = s.sn := rfl
@[simp] theorem State.setLane_mr (s : State) (l : Nat) (x : Lane) : (s.setLane l x).mr = s.mr := rfl
@[simp] theorem State.setLane_freeN (s : State) (l : Nat) (x : Lane) : (s.setLane l x).freeN = s.freeN := rfl
@[simp] theorem State.setLane_pending (s : State) (l : Nat) (x : Lane) : (s.setLane l x).pending = s.pending := rfl

@[simp] theorem State.setPool_regs (s : State) (p : Nat) (x : Pool) : (s.setPool p x).regs = s.regs := rfl
@[simp] theorem State.setPool_hold (s : State) (p : Nat) (x : Pool) : (s.setPool p x).hold = s.hold := rfl
@[simp] theorem State.setPool_mem (s : State) (p : Nat) (x : Pool) : (s.setPool p x).mem = s.mem := rfl
@[simp] theorem State.setPool_ev (s : State) (p : Nat) (x : Pool) : (s.setPool p x).ev = s.ev := rfl
@[simp] theorem State.setPool_hp (s : State) (p : Nat) (x : Pool) : (s.setPool p x).hp = s.hp := rfl
@[simp] theorem State.setPool_pw (s : State) (p : Nat) (x : Pool) : (s.setPool p x).pw = s.pw := rfl
@[simp] theorem State.setPool_ck (s : State) (p : Nat) (x : Pool) : (s.setPool p x).ck = s.ck := rfl
@[simp] theorem State.setPool_sec (s : State) (p : Nat) (x : Pool) : (s.setPool p x).sec = s.sec := rfl
@[simp] theorem State.setPool_mills (s : State) (p : Nat) (x : Pool) : (s.setPool p x).mills = s.mills := rfl
@[simp] theorem State.setPool_leat (s : State) (p : Nat) (x : Pool) : (s.setPool p x).leat = s.leat := rfl
@[simp] theorem State.setPool_loader (s : State) (p : Nat) (x : Pool) : (s.setPool p x).loader = s.loader := rfl
@[simp] theorem State.setPool_ops (s : State) (p : Nat) (x : Pool) : (s.setPool p x).ops = s.ops := rfl
@[simp] theorem State.setPool_streams (s : State) (p : Nat) (x : Pool) : (s.setPool p x).streams = s.streams := rfl
@[simp] theorem State.setPool_tiers (s : State) (p : Nat) (x : Pool) : (s.setPool p x).tiers = s.tiers := rfl
@[simp] theorem State.setPool_bolters (s : State) (p : Nat) (x : Pool) : (s.setPool p x).bolters = s.bolters := rfl
@[simp] theorem State.setPool_gov (s : State) (p : Nat) (x : Pool) : (s.setPool p x).gov = s.gov := rfl
@[simp] theorem State.setPool_fus (s : State) (p : Nat) (x : Pool) : (s.setPool p x).fus = s.fus := rfl
@[simp] theorem State.setPool_sol (s : State) (p : Nat) (x : Pool) : (s.setPool p x).sol = s.sol := rfl
@[simp] theorem State.setPool_tm (s : State) (p : Nat) (x : Pool) : (s.setPool p x).tm = s.tm := rfl
@[simp] theorem State.setPool_launch (s : State) (p : Nat) (x : Pool) : (s.setPool p x).launch = s.launch := rfl
@[simp] theorem State.setPool_px (s : State) (p : Nat) (x : Pool) : (s.setPool p x).px = s.px := rfl
@[simp] theorem State.setPool_sn (s : State) (p : Nat) (x : Pool) : (s.setPool p x).sn = s.sn := rfl
@[simp] theorem State.setPool_mr (s : State) (p : Nat) (x : Pool) : (s.setPool p x).mr = s.mr := rfl
@[simp] theorem State.setPool_freeN (s : State) (p : Nat) (x : Pool) : (s.setPool p x).freeN = s.freeN := rfl
@[simp] theorem State.setPool_pending (s : State) (p : Nat) (x : Pool) : (s.setPool p x).pending = s.pending := rfl

@[simp] theorem State.setLocal_regs (s : State) (a : Nat) (bs : Bytes) : (s.setLocal a bs).regs = s.regs := rfl
@[simp] theorem State.setLocal_hold (s : State) (a : Nat) (bs : Bytes) : (s.setLocal a bs).hold = s.hold := rfl
@[simp] theorem State.setLocal_ledger (s : State) (a : Nat) (bs : Bytes) : (s.setLocal a bs).ledger = s.ledger := rfl
@[simp] theorem State.setLocal_ev (s : State) (a : Nat) (bs : Bytes) : (s.setLocal a bs).ev = s.ev := rfl
@[simp] theorem State.setLocal_hp (s : State) (a : Nat) (bs : Bytes) : (s.setLocal a bs).hp = s.hp := rfl
@[simp] theorem State.setLocal_pw (s : State) (a : Nat) (bs : Bytes) : (s.setLocal a bs).pw = s.pw := rfl
@[simp] theorem State.setLocal_ck (s : State) (a : Nat) (bs : Bytes) : (s.setLocal a bs).ck = s.ck := rfl
@[simp] theorem State.setLocal_sec (s : State) (a : Nat) (bs : Bytes) : (s.setLocal a bs).sec = s.sec := rfl
@[simp] theorem State.setLocal_mills (s : State) (a : Nat) (bs : Bytes) : (s.setLocal a bs).mills = s.mills := rfl
@[simp] theorem State.setLocal_leat (s : State) (a : Nat) (bs : Bytes) : (s.setLocal a bs).leat = s.leat := rfl
@[simp] theorem State.setLocal_loader (s : State) (a : Nat) (bs : Bytes) : (s.setLocal a bs).loader = s.loader := rfl
@[simp] theorem State.setLocal_ops (s : State) (a : Nat) (bs : Bytes) : (s.setLocal a bs).ops = s.ops := rfl
@[simp] theorem State.setLocal_streams (s : State) (a : Nat) (bs : Bytes) : (s.setLocal a bs).streams = s.streams := rfl
@[simp] theorem State.setLocal_tiers (s : State) (a : Nat) (bs : Bytes) : (s.setLocal a bs).tiers = s.tiers := rfl
@[simp] theorem State.setLocal_bolters (s : State) (a : Nat) (bs : Bytes) : (s.setLocal a bs).bolters = s.bolters := rfl
@[simp] theorem State.setLocal_gov (s : State) (a : Nat) (bs : Bytes) : (s.setLocal a bs).gov = s.gov := rfl
@[simp] theorem State.setLocal_fus (s : State) (a : Nat) (bs : Bytes) : (s.setLocal a bs).fus = s.fus := rfl
@[simp] theorem State.setLocal_sol (s : State) (a : Nat) (bs : Bytes) : (s.setLocal a bs).sol = s.sol := rfl
@[simp] theorem State.setLocal_tm (s : State) (a : Nat) (bs : Bytes) : (s.setLocal a bs).tm = s.tm := rfl
@[simp] theorem State.setLocal_launch (s : State) (a : Nat) (bs : Bytes) : (s.setLocal a bs).launch = s.launch := rfl
@[simp] theorem State.setLocal_px (s : State) (a : Nat) (bs : Bytes) : (s.setLocal a bs).px = s.px := rfl
@[simp] theorem State.setLocal_sn (s : State) (a : Nat) (bs : Bytes) : (s.setLocal a bs).sn = s.sn := rfl
@[simp] theorem State.setLocal_mr (s : State) (a : Nat) (bs : Bytes) : (s.setLocal a bs).mr = s.mr := rfl
@[simp] theorem State.setLocal_freeN (s : State) (a : Nat) (bs : Bytes) : (s.setLocal a bs).freeN = s.freeN := rfl
@[simp] theorem State.setLocal_pending (s : State) (a : Nat) (bs : Bytes) : (s.setLocal a bs).pending = s.pending := rfl

@[simp] theorem State.setRing_regs (s : State) (c : Nat) (r : Ring) : (s.setRing c r).regs = s.regs := rfl
@[simp] theorem State.setRing_hold (s : State) (c : Nat) (r : Ring) : (s.setRing c r).hold = s.hold := rfl
@[simp] theorem State.setRing_mem (s : State) (c : Nat) (r : Ring) : (s.setRing c r).mem = s.mem := rfl
@[simp] theorem State.setRing_ledger (s : State) (c : Nat) (r : Ring) : (s.setRing c r).ledger = s.ledger := rfl
@[simp] theorem State.setRing_ev (s : State) (c : Nat) (r : Ring) : (s.setRing c r).ev = s.ev := rfl
@[simp] theorem State.setRing_pw (s : State) (c : Nat) (r : Ring) : (s.setRing c r).pw = s.pw := rfl
@[simp] theorem State.setRing_ck (s : State) (c : Nat) (r : Ring) : (s.setRing c r).ck = s.ck := rfl
@[simp] theorem State.setRing_sec (s : State) (c : Nat) (r : Ring) : (s.setRing c r).sec = s.sec := rfl
@[simp] theorem State.setRing_mills (s : State) (c : Nat) (r : Ring) : (s.setRing c r).mills = s.mills := rfl
@[simp] theorem State.setRing_leat (s : State) (c : Nat) (r : Ring) : (s.setRing c r).leat = s.leat := rfl
@[simp] theorem State.setRing_loader (s : State) (c : Nat) (r : Ring) : (s.setRing c r).loader = s.loader := rfl
@[simp] theorem State.setRing_ops (s : State) (c : Nat) (r : Ring) : (s.setRing c r).ops = s.ops := rfl
@[simp] theorem State.setRing_streams (s : State) (c : Nat) (r : Ring) : (s.setRing c r).streams = s.streams := rfl
@[simp] theorem State.setRing_tiers (s : State) (c : Nat) (r : Ring) : (s.setRing c r).tiers = s.tiers := rfl
@[simp] theorem State.setRing_bolters (s : State) (c : Nat) (r : Ring) : (s.setRing c r).bolters = s.bolters := rfl
@[simp] theorem State.setRing_gov (s : State) (c : Nat) (r : Ring) : (s.setRing c r).gov = s.gov := rfl
@[simp] theorem State.setRing_fus (s : State) (c : Nat) (r : Ring) : (s.setRing c r).fus = s.fus := rfl
@[simp] theorem State.setRing_sol (s : State) (c : Nat) (r : Ring) : (s.setRing c r).sol = s.sol := rfl
@[simp] theorem State.setRing_tm (s : State) (c : Nat) (r : Ring) : (s.setRing c r).tm = s.tm := rfl
@[simp] theorem State.setRing_launch (s : State) (c : Nat) (r : Ring) : (s.setRing c r).launch = s.launch := rfl
@[simp] theorem State.setRing_px (s : State) (c : Nat) (r : Ring) : (s.setRing c r).px = s.px := rfl
@[simp] theorem State.setRing_sn (s : State) (c : Nat) (r : Ring) : (s.setRing c r).sn = s.sn := rfl
@[simp] theorem State.setRing_mr (s : State) (c : Nat) (r : Ring) : (s.setRing c r).mr = s.mr := rfl
@[simp] theorem State.setRing_freeN (s : State) (c : Nat) (r : Ring) : (s.setRing c r).freeN = s.freeN := rfl
@[simp] theorem State.setRing_pending (s : State) (c : Nat) (r : Ring) : (s.setRing c r).pending = s.pending := rfl

@[simp] theorem State.setPort_regs (s : State) (p : Nat) (x : TimePort) : (s.setPort p x).regs = s.regs := rfl
@[simp] theorem State.setPort_hold (s : State) (p : Nat) (x : TimePort) : (s.setPort p x).hold = s.hold := rfl
@[simp] theorem State.setPort_mem (s : State) (p : Nat) (x : TimePort) : (s.setPort p x).mem = s.mem := rfl
@[simp] theorem State.setPort_ledger (s : State) (p : Nat) (x : TimePort) : (s.setPort p x).ledger = s.ledger := rfl
@[simp] theorem State.setPort_ev (s : State) (p : Nat) (x : TimePort) : (s.setPort p x).ev = s.ev := rfl
@[simp] theorem State.setPort_hp (s : State) (p : Nat) (x : TimePort) : (s.setPort p x).hp = s.hp := rfl
@[simp] theorem State.setPort_pw (s : State) (p : Nat) (x : TimePort) : (s.setPort p x).pw = s.pw := rfl
@[simp] theorem State.setPort_ck (s : State) (p : Nat) (x : TimePort) : (s.setPort p x).ck = s.ck := rfl
@[simp] theorem State.setPort_sec (s : State) (p : Nat) (x : TimePort) : (s.setPort p x).sec = s.sec := rfl
@[simp] theorem State.setPort_mills (s : State) (p : Nat) (x : TimePort) : (s.setPort p x).mills = s.mills := rfl
@[simp] theorem State.setPort_leat (s : State) (p : Nat) (x : TimePort) : (s.setPort p x).leat = s.leat := rfl
@[simp] theorem State.setPort_loader (s : State) (p : Nat) (x : TimePort) : (s.setPort p x).loader = s.loader := rfl
@[simp] theorem State.setPort_ops (s : State) (p : Nat) (x : TimePort) : (s.setPort p x).ops = s.ops := rfl
@[simp] theorem State.setPort_streams (s : State) (p : Nat) (x : TimePort) : (s.setPort p x).streams = s.streams := rfl
@[simp] theorem State.setPort_tiers (s : State) (p : Nat) (x : TimePort) : (s.setPort p x).tiers = s.tiers := rfl
@[simp] theorem State.setPort_bolters (s : State) (p : Nat) (x : TimePort) : (s.setPort p x).bolters = s.bolters := rfl
@[simp] theorem State.setPort_gov (s : State) (p : Nat) (x : TimePort) : (s.setPort p x).gov = s.gov := rfl
@[simp] theorem State.setPort_fus (s : State) (p : Nat) (x : TimePort) : (s.setPort p x).fus = s.fus := rfl
@[simp] theorem State.setPort_sol (s : State) (p : Nat) (x : TimePort) : (s.setPort p x).sol = s.sol := rfl
@[simp] theorem State.setPort_launch (s : State) (p : Nat) (x : TimePort) : (s.setPort p x).launch = s.launch := rfl
@[simp] theorem State.setPort_px (s : State) (p : Nat) (x : TimePort) : (s.setPort p x).px = s.px := rfl
@[simp] theorem State.setPort_sn (s : State) (p : Nat) (x : TimePort) : (s.setPort p x).sn = s.sn := rfl
@[simp] theorem State.setPort_mr (s : State) (p : Nat) (x : TimePort) : (s.setPort p x).mr = s.mr := rfl
@[simp] theorem State.setPort_freeN (s : State) (p : Nat) (x : TimePort) : (s.setPort p x).freeN = s.freeN := rfl
@[simp] theorem State.setPort_pending (s : State) (p : Nat) (x : TimePort) : (s.setPort p x).pending = s.pending := rfl

@[simp] theorem State.setQueue_regs (s : State) (p : Nat) (q : List LaunchEntry) : (s.setQueue p q).regs = s.regs := rfl
@[simp] theorem State.setQueue_hold (s : State) (p : Nat) (q : List LaunchEntry) : (s.setQueue p q).hold = s.hold := rfl
@[simp] theorem State.setQueue_mem (s : State) (p : Nat) (q : List LaunchEntry) : (s.setQueue p q).mem = s.mem := rfl
@[simp] theorem State.setQueue_ledger (s : State) (p : Nat) (q : List LaunchEntry) : (s.setQueue p q).ledger = s.ledger := rfl
@[simp] theorem State.setQueue_ev (s : State) (p : Nat) (q : List LaunchEntry) : (s.setQueue p q).ev = s.ev := rfl
@[simp] theorem State.setQueue_hp (s : State) (p : Nat) (q : List LaunchEntry) : (s.setQueue p q).hp = s.hp := rfl
@[simp] theorem State.setQueue_pw (s : State) (p : Nat) (q : List LaunchEntry) : (s.setQueue p q).pw = s.pw := rfl
@[simp] theorem State.setQueue_ck (s : State) (p : Nat) (q : List LaunchEntry) : (s.setQueue p q).ck = s.ck := rfl
@[simp] theorem State.setQueue_sec (s : State) (p : Nat) (q : List LaunchEntry) : (s.setQueue p q).sec = s.sec := rfl
@[simp] theorem State.setQueue_mills (s : State) (p : Nat) (q : List LaunchEntry) : (s.setQueue p q).mills = s.mills := rfl
@[simp] theorem State.setQueue_leat (s : State) (p : Nat) (q : List LaunchEntry) : (s.setQueue p q).leat = s.leat := rfl
@[simp] theorem State.setQueue_loader (s : State) (p : Nat) (q : List LaunchEntry) : (s.setQueue p q).loader = s.loader := rfl
@[simp] theorem State.setQueue_ops (s : State) (p : Nat) (q : List LaunchEntry) : (s.setQueue p q).ops = s.ops := rfl
@[simp] theorem State.setQueue_streams (s : State) (p : Nat) (q : List LaunchEntry) : (s.setQueue p q).streams = s.streams := rfl
@[simp] theorem State.setQueue_tiers (s : State) (p : Nat) (q : List LaunchEntry) : (s.setQueue p q).tiers = s.tiers := rfl
@[simp] theorem State.setQueue_bolters (s : State) (p : Nat) (q : List LaunchEntry) : (s.setQueue p q).bolters = s.bolters := rfl
@[simp] theorem State.setQueue_gov (s : State) (p : Nat) (q : List LaunchEntry) : (s.setQueue p q).gov = s.gov := rfl
@[simp] theorem State.setQueue_fus (s : State) (p : Nat) (q : List LaunchEntry) : (s.setQueue p q).fus = s.fus := rfl
@[simp] theorem State.setQueue_sol (s : State) (p : Nat) (q : List LaunchEntry) : (s.setQueue p q).sol = s.sol := rfl
@[simp] theorem State.setQueue_tm (s : State) (p : Nat) (q : List LaunchEntry) : (s.setQueue p q).tm = s.tm := rfl
@[simp] theorem State.setQueue_px (s : State) (p : Nat) (q : List LaunchEntry) : (s.setQueue p q).px = s.px := rfl
@[simp] theorem State.setQueue_sn (s : State) (p : Nat) (q : List LaunchEntry) : (s.setQueue p q).sn = s.sn := rfl
@[simp] theorem State.setQueue_mr (s : State) (p : Nat) (q : List LaunchEntry) : (s.setQueue p q).mr = s.mr := rfl
@[simp] theorem State.setQueue_freeN (s : State) (p : Nat) (q : List LaunchEntry) : (s.setQueue p q).freeN = s.freeN := rfl
@[simp] theorem State.setQueue_pending (s : State) (p : Nat) (q : List LaunchEntry) : (s.setQueue p q).pending = s.pending := rfl

@[simp] theorem State.setGq_regs (s : State) (q : Nat) (x : GovQueue) : (s.setGq q x).regs = s.regs := rfl
@[simp] theorem State.setGq_hold (s : State) (q : Nat) (x : GovQueue) : (s.setGq q x).hold = s.hold := rfl
@[simp] theorem State.setGq_mem (s : State) (q : Nat) (x : GovQueue) : (s.setGq q x).mem = s.mem := rfl
@[simp] theorem State.setGq_ledger (s : State) (q : Nat) (x : GovQueue) : (s.setGq q x).ledger = s.ledger := rfl
@[simp] theorem State.setGq_ev (s : State) (q : Nat) (x : GovQueue) : (s.setGq q x).ev = s.ev := rfl
@[simp] theorem State.setGq_hp (s : State) (q : Nat) (x : GovQueue) : (s.setGq q x).hp = s.hp := rfl
@[simp] theorem State.setGq_pw (s : State) (q : Nat) (x : GovQueue) : (s.setGq q x).pw = s.pw := rfl
@[simp] theorem State.setGq_ck (s : State) (q : Nat) (x : GovQueue) : (s.setGq q x).ck = s.ck := rfl
@[simp] theorem State.setGq_sec (s : State) (q : Nat) (x : GovQueue) : (s.setGq q x).sec = s.sec := rfl
@[simp] theorem State.setGq_mills (s : State) (q : Nat) (x : GovQueue) : (s.setGq q x).mills = s.mills := rfl
@[simp] theorem State.setGq_leat (s : State) (q : Nat) (x : GovQueue) : (s.setGq q x).leat = s.leat := rfl
@[simp] theorem State.setGq_loader (s : State) (q : Nat) (x : GovQueue) : (s.setGq q x).loader = s.loader := rfl
@[simp] theorem State.setGq_ops (s : State) (q : Nat) (x : GovQueue) : (s.setGq q x).ops = s.ops := rfl
@[simp] theorem State.setGq_streams (s : State) (q : Nat) (x : GovQueue) : (s.setGq q x).streams = s.streams := rfl
@[simp] theorem State.setGq_tiers (s : State) (q : Nat) (x : GovQueue) : (s.setGq q x).tiers = s.tiers := rfl
@[simp] theorem State.setGq_bolters (s : State) (q : Nat) (x : GovQueue) : (s.setGq q x).bolters = s.bolters := rfl
@[simp] theorem State.setGq_fus (s : State) (q : Nat) (x : GovQueue) : (s.setGq q x).fus = s.fus := rfl
@[simp] theorem State.setGq_sol (s : State) (q : Nat) (x : GovQueue) : (s.setGq q x).sol = s.sol := rfl
@[simp] theorem State.setGq_tm (s : State) (q : Nat) (x : GovQueue) : (s.setGq q x).tm = s.tm := rfl
@[simp] theorem State.setGq_launch (s : State) (q : Nat) (x : GovQueue) : (s.setGq q x).launch = s.launch := rfl
@[simp] theorem State.setGq_px (s : State) (q : Nat) (x : GovQueue) : (s.setGq q x).px = s.px := rfl
@[simp] theorem State.setGq_sn (s : State) (q : Nat) (x : GovQueue) : (s.setGq q x).sn = s.sn := rfl
@[simp] theorem State.setGq_mr (s : State) (q : Nat) (x : GovQueue) : (s.setGq q x).mr = s.mr := rfl
@[simp] theorem State.setGq_freeN (s : State) (q : Nat) (x : GovQueue) : (s.setGq q x).freeN = s.freeN := rfl
@[simp] theorem State.setGq_pending (s : State) (q : Nat) (x : GovQueue) : (s.setGq q x).pending = s.pending := rfl

@[simp] theorem State.setTrack_regs (s : State) (n : Nat) (x : Track) : (s.setTrack n x).regs = s.regs := rfl
@[simp] theorem State.setTrack_hold (s : State) (n : Nat) (x : Track) : (s.setTrack n x).hold = s.hold := rfl
@[simp] theorem State.setTrack_mem (s : State) (n : Nat) (x : Track) : (s.setTrack n x).mem = s.mem := rfl
@[simp] theorem State.setTrack_ledger (s : State) (n : Nat) (x : Track) : (s.setTrack n x).ledger = s.ledger := rfl
@[simp] theorem State.setTrack_ev (s : State) (n : Nat) (x : Track) : (s.setTrack n x).ev = s.ev := rfl
@[simp] theorem State.setTrack_hp (s : State) (n : Nat) (x : Track) : (s.setTrack n x).hp = s.hp := rfl
@[simp] theorem State.setTrack_pw (s : State) (n : Nat) (x : Track) : (s.setTrack n x).pw = s.pw := rfl
@[simp] theorem State.setTrack_ck (s : State) (n : Nat) (x : Track) : (s.setTrack n x).ck = s.ck := rfl
@[simp] theorem State.setTrack_sec (s : State) (n : Nat) (x : Track) : (s.setTrack n x).sec = s.sec := rfl
@[simp] theorem State.setTrack_mills (s : State) (n : Nat) (x : Track) : (s.setTrack n x).mills = s.mills := rfl
@[simp] theorem State.setTrack_leat (s : State) (n : Nat) (x : Track) : (s.setTrack n x).leat = s.leat := rfl
@[simp] theorem State.setTrack_loader (s : State) (n : Nat) (x : Track) : (s.setTrack n x).loader = s.loader := rfl
@[simp] theorem State.setTrack_ops (s : State) (n : Nat) (x : Track) : (s.setTrack n x).ops = s.ops := rfl
@[simp] theorem State.setTrack_streams (s : State) (n : Nat) (x : Track) : (s.setTrack n x).streams = s.streams := rfl
@[simp] theorem State.setTrack_tiers (s : State) (n : Nat) (x : Track) : (s.setTrack n x).tiers = s.tiers := rfl
@[simp] theorem State.setTrack_bolters (s : State) (n : Nat) (x : Track) : (s.setTrack n x).bolters = s.bolters := rfl
@[simp] theorem State.setTrack_gov (s : State) (n : Nat) (x : Track) : (s.setTrack n x).gov = s.gov := rfl
@[simp] theorem State.setTrack_sol (s : State) (n : Nat) (x : Track) : (s.setTrack n x).sol = s.sol := rfl
@[simp] theorem State.setTrack_tm (s : State) (n : Nat) (x : Track) : (s.setTrack n x).tm = s.tm := rfl
@[simp] theorem State.setTrack_launch (s : State) (n : Nat) (x : Track) : (s.setTrack n x).launch = s.launch := rfl
@[simp] theorem State.setTrack_px (s : State) (n : Nat) (x : Track) : (s.setTrack n x).px = s.px := rfl
@[simp] theorem State.setTrack_sn (s : State) (n : Nat) (x : Track) : (s.setTrack n x).sn = s.sn := rfl
@[simp] theorem State.setTrack_mr (s : State) (n : Nat) (x : Track) : (s.setTrack n x).mr = s.mr := rfl
@[simp] theorem State.setTrack_freeN (s : State) (n : Nat) (x : Track) : (s.setTrack n x).freeN = s.freeN := rfl
@[simp] theorem State.setTrack_pending (s : State) (n : Nat) (x : Track) : (s.setTrack n x).pending = s.pending := rfl

@[simp] theorem State.setGate_regs (s : State) (i : Nat) (x : Gate) : (s.setGate i x).regs = s.regs := rfl
@[simp] theorem State.setGate_hold (s : State) (i : Nat) (x : Gate) : (s.setGate i x).hold = s.hold := rfl
@[simp] theorem State.setGate_mem (s : State) (i : Nat) (x : Gate) : (s.setGate i x).mem = s.mem := rfl
@[simp] theorem State.setGate_ledger (s : State) (i : Nat) (x : Gate) : (s.setGate i x).ledger = s.ledger := rfl
@[simp] theorem State.setGate_ev (s : State) (i : Nat) (x : Gate) : (s.setGate i x).ev = s.ev := rfl
@[simp] theorem State.setGate_hp (s : State) (i : Nat) (x : Gate) : (s.setGate i x).hp = s.hp := rfl
@[simp] theorem State.setGate_pw (s : State) (i : Nat) (x : Gate) : (s.setGate i x).pw = s.pw := rfl
@[simp] theorem State.setGate_ck (s : State) (i : Nat) (x : Gate) : (s.setGate i x).ck = s.ck := rfl
@[simp] theorem State.setGate_sec (s : State) (i : Nat) (x : Gate) : (s.setGate i x).sec = s.sec := rfl
@[simp] theorem State.setGate_mills (s : State) (i : Nat) (x : Gate) : (s.setGate i x).mills = s.mills := rfl
@[simp] theorem State.setGate_leat (s : State) (i : Nat) (x : Gate) : (s.setGate i x).leat = s.leat := rfl
@[simp] theorem State.setGate_loader (s : State) (i : Nat) (x : Gate) : (s.setGate i x).loader = s.loader := rfl
@[simp] theorem State.setGate_ops (s : State) (i : Nat) (x : Gate) : (s.setGate i x).ops = s.ops := rfl
@[simp] theorem State.setGate_streams (s : State) (i : Nat) (x : Gate) : (s.setGate i x).streams = s.streams := rfl
@[simp] theorem State.setGate_tiers (s : State) (i : Nat) (x : Gate) : (s.setGate i x).tiers = s.tiers := rfl
@[simp] theorem State.setGate_bolters (s : State) (i : Nat) (x : Gate) : (s.setGate i x).bolters = s.bolters := rfl
@[simp] theorem State.setGate_gov (s : State) (i : Nat) (x : Gate) : (s.setGate i x).gov = s.gov := rfl
@[simp] theorem State.setGate_sol (s : State) (i : Nat) (x : Gate) : (s.setGate i x).sol = s.sol := rfl
@[simp] theorem State.setGate_tm (s : State) (i : Nat) (x : Gate) : (s.setGate i x).tm = s.tm := rfl
@[simp] theorem State.setGate_launch (s : State) (i : Nat) (x : Gate) : (s.setGate i x).launch = s.launch := rfl
@[simp] theorem State.setGate_px (s : State) (i : Nat) (x : Gate) : (s.setGate i x).px = s.px := rfl
@[simp] theorem State.setGate_sn (s : State) (i : Nat) (x : Gate) : (s.setGate i x).sn = s.sn := rfl
@[simp] theorem State.setGate_mr (s : State) (i : Nat) (x : Gate) : (s.setGate i x).mr = s.mr := rfl
@[simp] theorem State.setGate_freeN (s : State) (i : Nat) (x : Gate) : (s.setGate i x).freeN = s.freeN := rfl
@[simp] theorem State.setGate_pending (s : State) (i : Nat) (x : Gate) : (s.setGate i x).pending = s.pending := rfl

@[simp] theorem State.setBolter_regs (s : State) (b : Nat) (x : Bolter) : (s.setBolter b x).regs = s.regs := rfl
@[simp] theorem State.setBolter_hold (s : State) (b : Nat) (x : Bolter) : (s.setBolter b x).hold = s.hold := rfl
@[simp] theorem State.setBolter_mem (s : State) (b : Nat) (x : Bolter) : (s.setBolter b x).mem = s.mem := rfl
@[simp] theorem State.setBolter_ledger (s : State) (b : Nat) (x : Bolter) : (s.setBolter b x).ledger = s.ledger := rfl
@[simp] theorem State.setBolter_ev (s : State) (b : Nat) (x : Bolter) : (s.setBolter b x).ev = s.ev := rfl
@[simp] theorem State.setBolter_hp (s : State) (b : Nat) (x : Bolter) : (s.setBolter b x).hp = s.hp := rfl
@[simp] theorem State.setBolter_pw (s : State) (b : Nat) (x : Bolter) : (s.setBolter b x).pw = s.pw := rfl
@[simp] theorem State.setBolter_ck (s : State) (b : Nat) (x : Bolter) : (s.setBolter b x).ck = s.ck := rfl
@[simp] theorem State.setBolter_sec (s : State) (b : Nat) (x : Bolter) : (s.setBolter b x).sec = s.sec := rfl
@[simp] theorem State.setBolter_mills (s : State) (b : Nat) (x : Bolter) : (s.setBolter b x).mills = s.mills := rfl
@[simp] theorem State.setBolter_leat (s : State) (b : Nat) (x : Bolter) : (s.setBolter b x).leat = s.leat := rfl
@[simp] theorem State.setBolter_loader (s : State) (b : Nat) (x : Bolter) : (s.setBolter b x).loader = s.loader := rfl
@[simp] theorem State.setBolter_ops (s : State) (b : Nat) (x : Bolter) : (s.setBolter b x).ops = s.ops := rfl
@[simp] theorem State.setBolter_streams (s : State) (b : Nat) (x : Bolter) : (s.setBolter b x).streams = s.streams := rfl
@[simp] theorem State.setBolter_tiers (s : State) (b : Nat) (x : Bolter) : (s.setBolter b x).tiers = s.tiers := rfl
@[simp] theorem State.setBolter_gov (s : State) (b : Nat) (x : Bolter) : (s.setBolter b x).gov = s.gov := rfl
@[simp] theorem State.setBolter_fus (s : State) (b : Nat) (x : Bolter) : (s.setBolter b x).fus = s.fus := rfl
@[simp] theorem State.setBolter_sol (s : State) (b : Nat) (x : Bolter) : (s.setBolter b x).sol = s.sol := rfl
@[simp] theorem State.setBolter_tm (s : State) (b : Nat) (x : Bolter) : (s.setBolter b x).tm = s.tm := rfl
@[simp] theorem State.setBolter_launch (s : State) (b : Nat) (x : Bolter) : (s.setBolter b x).launch = s.launch := rfl
@[simp] theorem State.setBolter_px (s : State) (b : Nat) (x : Bolter) : (s.setBolter b x).px = s.px := rfl
@[simp] theorem State.setBolter_sn (s : State) (b : Nat) (x : Bolter) : (s.setBolter b x).sn = s.sn := rfl
@[simp] theorem State.setBolter_mr (s : State) (b : Nat) (x : Bolter) : (s.setBolter b x).mr = s.mr := rfl
@[simp] theorem State.setBolter_freeN (s : State) (b : Nat) (x : Bolter) : (s.setBolter b x).freeN = s.freeN := rfl
@[simp] theorem State.setBolter_pending (s : State) (b : Nat) (x : Bolter) : (s.setBolter b x).pending = s.pending := rfl

@[simp] theorem State.setStrm_regs (s : State) (n : Nat) (x : Stream) : (s.setStrm n x).regs = s.regs := rfl
@[simp] theorem State.setStrm_hold (s : State) (n : Nat) (x : Stream) : (s.setStrm n x).hold = s.hold := rfl
@[simp] theorem State.setStrm_mem (s : State) (n : Nat) (x : Stream) : (s.setStrm n x).mem = s.mem := rfl
@[simp] theorem State.setStrm_ledger (s : State) (n : Nat) (x : Stream) : (s.setStrm n x).ledger = s.ledger := rfl
@[simp] theorem State.setStrm_ev (s : State) (n : Nat) (x : Stream) : (s.setStrm n x).ev = s.ev := rfl
@[simp] theorem State.setStrm_hp (s : State) (n : Nat) (x : Stream) : (s.setStrm n x).hp = s.hp := rfl
@[simp] theorem State.setStrm_pw (s : State) (n : Nat) (x : Stream) : (s.setStrm n x).pw = s.pw := rfl
@[simp] theorem State.setStrm_ck (s : State) (n : Nat) (x : Stream) : (s.setStrm n x).ck = s.ck := rfl
@[simp] theorem State.setStrm_sec (s : State) (n : Nat) (x : Stream) : (s.setStrm n x).sec = s.sec := rfl
@[simp] theorem State.setStrm_mills (s : State) (n : Nat) (x : Stream) : (s.setStrm n x).mills = s.mills := rfl
@[simp] theorem State.setStrm_leat (s : State) (n : Nat) (x : Stream) : (s.setStrm n x).leat = s.leat := rfl
@[simp] theorem State.setStrm_loader (s : State) (n : Nat) (x : Stream) : (s.setStrm n x).loader = s.loader := rfl
@[simp] theorem State.setStrm_ops (s : State) (n : Nat) (x : Stream) : (s.setStrm n x).ops = s.ops := rfl
@[simp] theorem State.setStrm_tiers (s : State) (n : Nat) (x : Stream) : (s.setStrm n x).tiers = s.tiers := rfl
@[simp] theorem State.setStrm_bolters (s : State) (n : Nat) (x : Stream) : (s.setStrm n x).bolters = s.bolters := rfl
@[simp] theorem State.setStrm_gov (s : State) (n : Nat) (x : Stream) : (s.setStrm n x).gov = s.gov := rfl
@[simp] theorem State.setStrm_fus (s : State) (n : Nat) (x : Stream) : (s.setStrm n x).fus = s.fus := rfl
@[simp] theorem State.setStrm_sol (s : State) (n : Nat) (x : Stream) : (s.setStrm n x).sol = s.sol := rfl
@[simp] theorem State.setStrm_tm (s : State) (n : Nat) (x : Stream) : (s.setStrm n x).tm = s.tm := rfl
@[simp] theorem State.setStrm_launch (s : State) (n : Nat) (x : Stream) : (s.setStrm n x).launch = s.launch := rfl
@[simp] theorem State.setStrm_px (s : State) (n : Nat) (x : Stream) : (s.setStrm n x).px = s.px := rfl
@[simp] theorem State.setStrm_sn (s : State) (n : Nat) (x : Stream) : (s.setStrm n x).sn = s.sn := rfl
@[simp] theorem State.setStrm_mr (s : State) (n : Nat) (x : Stream) : (s.setStrm n x).mr = s.mr := rfl
@[simp] theorem State.setStrm_freeN (s : State) (n : Nat) (x : Stream) : (s.setStrm n x).freeN = s.freeN := rfl
@[simp] theorem State.setStrm_pending (s : State) (n : Nat) (x : Stream) : (s.setStrm n x).pending = s.pending := rfl

@[simp] theorem State.setPeer_regs (s : State) (m : Nat) (x : Peer) : (s.setPeer m x).regs = s.regs := rfl
@[simp] theorem State.setPeer_hold (s : State) (m : Nat) (x : Peer) : (s.setPeer m x).hold = s.hold := rfl
@[simp] theorem State.setPeer_mem (s : State) (m : Nat) (x : Peer) : (s.setPeer m x).mem = s.mem := rfl
@[simp] theorem State.setPeer_ledger (s : State) (m : Nat) (x : Peer) : (s.setPeer m x).ledger = s.ledger := rfl
@[simp] theorem State.setPeer_ev (s : State) (m : Nat) (x : Peer) : (s.setPeer m x).ev = s.ev := rfl
@[simp] theorem State.setPeer_hp (s : State) (m : Nat) (x : Peer) : (s.setPeer m x).hp = s.hp := rfl
@[simp] theorem State.setPeer_pw (s : State) (m : Nat) (x : Peer) : (s.setPeer m x).pw = s.pw := rfl
@[simp] theorem State.setPeer_ck (s : State) (m : Nat) (x : Peer) : (s.setPeer m x).ck = s.ck := rfl
@[simp] theorem State.setPeer_sec (s : State) (m : Nat) (x : Peer) : (s.setPeer m x).sec = s.sec := rfl
@[simp] theorem State.setPeer_mills (s : State) (m : Nat) (x : Peer) : (s.setPeer m x).mills = s.mills := rfl
@[simp] theorem State.setPeer_leat (s : State) (m : Nat) (x : Peer) : (s.setPeer m x).leat = s.leat := rfl
@[simp] theorem State.setPeer_loader (s : State) (m : Nat) (x : Peer) : (s.setPeer m x).loader = s.loader := rfl
@[simp] theorem State.setPeer_ops (s : State) (m : Nat) (x : Peer) : (s.setPeer m x).ops = s.ops := rfl
@[simp] theorem State.setPeer_streams (s : State) (m : Nat) (x : Peer) : (s.setPeer m x).streams = s.streams := rfl
@[simp] theorem State.setPeer_tiers (s : State) (m : Nat) (x : Peer) : (s.setPeer m x).tiers = s.tiers := rfl
@[simp] theorem State.setPeer_bolters (s : State) (m : Nat) (x : Peer) : (s.setPeer m x).bolters = s.bolters := rfl
@[simp] theorem State.setPeer_gov (s : State) (m : Nat) (x : Peer) : (s.setPeer m x).gov = s.gov := rfl
@[simp] theorem State.setPeer_fus (s : State) (m : Nat) (x : Peer) : (s.setPeer m x).fus = s.fus := rfl
@[simp] theorem State.setPeer_sol (s : State) (m : Nat) (x : Peer) : (s.setPeer m x).sol = s.sol := rfl
@[simp] theorem State.setPeer_tm (s : State) (m : Nat) (x : Peer) : (s.setPeer m x).tm = s.tm := rfl
@[simp] theorem State.setPeer_launch (s : State) (m : Nat) (x : Peer) : (s.setPeer m x).launch = s.launch := rfl
@[simp] theorem State.setPeer_sn (s : State) (m : Nat) (x : Peer) : (s.setPeer m x).sn = s.sn := rfl
@[simp] theorem State.setPeer_mr (s : State) (m : Nat) (x : Peer) : (s.setPeer m x).mr = s.mr := rfl
@[simp] theorem State.setPeer_freeN (s : State) (m : Nat) (x : Peer) : (s.setPeer m x).freeN = s.freeN := rfl
@[simp] theorem State.setPeer_pending (s : State) (m : Nat) (x : Peer) : (s.setPeer m x).pending = s.pending := rfl

@[simp] theorem State.setStream_regs (s : State) (n : Nat) (x : SnStream) : (s.setStream n x).regs = s.regs := rfl
@[simp] theorem State.setStream_hold (s : State) (n : Nat) (x : SnStream) : (s.setStream n x).hold = s.hold := rfl
@[simp] theorem State.setStream_mem (s : State) (n : Nat) (x : SnStream) : (s.setStream n x).mem = s.mem := rfl
@[simp] theorem State.setStream_ledger (s : State) (n : Nat) (x : SnStream) : (s.setStream n x).ledger = s.ledger := rfl
@[simp] theorem State.setStream_ev (s : State) (n : Nat) (x : SnStream) : (s.setStream n x).ev = s.ev := rfl
@[simp] theorem State.setStream_hp (s : State) (n : Nat) (x : SnStream) : (s.setStream n x).hp = s.hp := rfl
@[simp] theorem State.setStream_pw (s : State) (n : Nat) (x : SnStream) : (s.setStream n x).pw = s.pw := rfl
@[simp] theorem State.setStream_ck (s : State) (n : Nat) (x : SnStream) : (s.setStream n x).ck = s.ck := rfl
@[simp] theorem State.setStream_sec (s : State) (n : Nat) (x : SnStream) : (s.setStream n x).sec = s.sec := rfl
@[simp] theorem State.setStream_mills (s : State) (n : Nat) (x : SnStream) : (s.setStream n x).mills = s.mills := rfl
@[simp] theorem State.setStream_leat (s : State) (n : Nat) (x : SnStream) : (s.setStream n x).leat = s.leat := rfl
@[simp] theorem State.setStream_loader (s : State) (n : Nat) (x : SnStream) : (s.setStream n x).loader = s.loader := rfl
@[simp] theorem State.setStream_ops (s : State) (n : Nat) (x : SnStream) : (s.setStream n x).ops = s.ops := rfl
@[simp] theorem State.setStream_streams (s : State) (n : Nat) (x : SnStream) : (s.setStream n x).streams = s.streams := rfl
@[simp] theorem State.setStream_tiers (s : State) (n : Nat) (x : SnStream) : (s.setStream n x).tiers = s.tiers := rfl
@[simp] theorem State.setStream_bolters (s : State) (n : Nat) (x : SnStream) : (s.setStream n x).bolters = s.bolters := rfl
@[simp] theorem State.setStream_gov (s : State) (n : Nat) (x : SnStream) : (s.setStream n x).gov = s.gov := rfl
@[simp] theorem State.setStream_fus (s : State) (n : Nat) (x : SnStream) : (s.setStream n x).fus = s.fus := rfl
@[simp] theorem State.setStream_sol (s : State) (n : Nat) (x : SnStream) : (s.setStream n x).sol = s.sol := rfl
@[simp] theorem State.setStream_tm (s : State) (n : Nat) (x : SnStream) : (s.setStream n x).tm = s.tm := rfl
@[simp] theorem State.setStream_launch (s : State) (n : Nat) (x : SnStream) : (s.setStream n x).launch = s.launch := rfl
@[simp] theorem State.setStream_px (s : State) (n : Nat) (x : SnStream) : (s.setStream n x).px = s.px := rfl
@[simp] theorem State.setStream_mr (s : State) (n : Nat) (x : SnStream) : (s.setStream n x).mr = s.mr := rfl
@[simp] theorem State.setStream_freeN (s : State) (n : Nat) (x : SnStream) : (s.setStream n x).freeN = s.freeN := rfl
@[simp] theorem State.setStream_pending (s : State) (n : Nat) (x : SnStream) : (s.setStream n x).pending = s.pending := rfl

@[simp] theorem State.setOtp_regs (s : State) (g : Nat) (x : OtpGroup) : (s.setOtp g x).regs = s.regs := rfl
@[simp] theorem State.setOtp_hold (s : State) (g : Nat) (x : OtpGroup) : (s.setOtp g x).hold = s.hold := rfl
@[simp] theorem State.setOtp_mem (s : State) (g : Nat) (x : OtpGroup) : (s.setOtp g x).mem = s.mem := rfl
@[simp] theorem State.setOtp_ledger (s : State) (g : Nat) (x : OtpGroup) : (s.setOtp g x).ledger = s.ledger := rfl
@[simp] theorem State.setOtp_ev (s : State) (g : Nat) (x : OtpGroup) : (s.setOtp g x).ev = s.ev := rfl
@[simp] theorem State.setOtp_hp (s : State) (g : Nat) (x : OtpGroup) : (s.setOtp g x).hp = s.hp := rfl
@[simp] theorem State.setOtp_pw (s : State) (g : Nat) (x : OtpGroup) : (s.setOtp g x).pw = s.pw := rfl
@[simp] theorem State.setOtp_ck (s : State) (g : Nat) (x : OtpGroup) : (s.setOtp g x).ck = s.ck := rfl
@[simp] theorem State.setOtp_mills (s : State) (g : Nat) (x : OtpGroup) : (s.setOtp g x).mills = s.mills := rfl
@[simp] theorem State.setOtp_leat (s : State) (g : Nat) (x : OtpGroup) : (s.setOtp g x).leat = s.leat := rfl
@[simp] theorem State.setOtp_loader (s : State) (g : Nat) (x : OtpGroup) : (s.setOtp g x).loader = s.loader := rfl
@[simp] theorem State.setOtp_ops (s : State) (g : Nat) (x : OtpGroup) : (s.setOtp g x).ops = s.ops := rfl
@[simp] theorem State.setOtp_streams (s : State) (g : Nat) (x : OtpGroup) : (s.setOtp g x).streams = s.streams := rfl
@[simp] theorem State.setOtp_tiers (s : State) (g : Nat) (x : OtpGroup) : (s.setOtp g x).tiers = s.tiers := rfl
@[simp] theorem State.setOtp_bolters (s : State) (g : Nat) (x : OtpGroup) : (s.setOtp g x).bolters = s.bolters := rfl
@[simp] theorem State.setOtp_gov (s : State) (g : Nat) (x : OtpGroup) : (s.setOtp g x).gov = s.gov := rfl
@[simp] theorem State.setOtp_fus (s : State) (g : Nat) (x : OtpGroup) : (s.setOtp g x).fus = s.fus := rfl
@[simp] theorem State.setOtp_sol (s : State) (g : Nat) (x : OtpGroup) : (s.setOtp g x).sol = s.sol := rfl
@[simp] theorem State.setOtp_tm (s : State) (g : Nat) (x : OtpGroup) : (s.setOtp g x).tm = s.tm := rfl
@[simp] theorem State.setOtp_launch (s : State) (g : Nat) (x : OtpGroup) : (s.setOtp g x).launch = s.launch := rfl
@[simp] theorem State.setOtp_px (s : State) (g : Nat) (x : OtpGroup) : (s.setOtp g x).px = s.px := rfl
@[simp] theorem State.setOtp_sn (s : State) (g : Nat) (x : OtpGroup) : (s.setOtp g x).sn = s.sn := rfl
@[simp] theorem State.setOtp_mr (s : State) (g : Nat) (x : OtpGroup) : (s.setOtp g x).mr = s.mr := rfl
@[simp] theorem State.setOtp_freeN (s : State) (g : Nat) (x : OtpGroup) : (s.setOtp g x).freeN = s.freeN := rfl
@[simp] theorem State.setOtp_pending (s : State) (g : Nat) (x : OtpGroup) : (s.setOtp g x).pending = s.pending := rfl

@[simp] theorem State.setLatch_regs (s : State) (k : Nat) (x : Latch) : (s.setLatch k x).regs = s.regs := rfl
@[simp] theorem State.setLatch_hold (s : State) (k : Nat) (x : Latch) : (s.setLatch k x).hold = s.hold := rfl
@[simp] theorem State.setLatch_mem (s : State) (k : Nat) (x : Latch) : (s.setLatch k x).mem = s.mem := rfl
@[simp] theorem State.setLatch_ledger (s : State) (k : Nat) (x : Latch) : (s.setLatch k x).ledger = s.ledger := rfl
@[simp] theorem State.setLatch_hp (s : State) (k : Nat) (x : Latch) : (s.setLatch k x).hp = s.hp := rfl
@[simp] theorem State.setLatch_pw (s : State) (k : Nat) (x : Latch) : (s.setLatch k x).pw = s.pw := rfl
@[simp] theorem State.setLatch_ck (s : State) (k : Nat) (x : Latch) : (s.setLatch k x).ck = s.ck := rfl
@[simp] theorem State.setLatch_sec (s : State) (k : Nat) (x : Latch) : (s.setLatch k x).sec = s.sec := rfl
@[simp] theorem State.setLatch_mills (s : State) (k : Nat) (x : Latch) : (s.setLatch k x).mills = s.mills := rfl
@[simp] theorem State.setLatch_leat (s : State) (k : Nat) (x : Latch) : (s.setLatch k x).leat = s.leat := rfl
@[simp] theorem State.setLatch_loader (s : State) (k : Nat) (x : Latch) : (s.setLatch k x).loader = s.loader := rfl
@[simp] theorem State.setLatch_ops (s : State) (k : Nat) (x : Latch) : (s.setLatch k x).ops = s.ops := rfl
@[simp] theorem State.setLatch_streams (s : State) (k : Nat) (x : Latch) : (s.setLatch k x).streams = s.streams := rfl
@[simp] theorem State.setLatch_tiers (s : State) (k : Nat) (x : Latch) : (s.setLatch k x).tiers = s.tiers := rfl
@[simp] theorem State.setLatch_bolters (s : State) (k : Nat) (x : Latch) : (s.setLatch k x).bolters = s.bolters := rfl
@[simp] theorem State.setLatch_gov (s : State) (k : Nat) (x : Latch) : (s.setLatch k x).gov = s.gov := rfl
@[simp] theorem State.setLatch_fus (s : State) (k : Nat) (x : Latch) : (s.setLatch k x).fus = s.fus := rfl
@[simp] theorem State.setLatch_sol (s : State) (k : Nat) (x : Latch) : (s.setLatch k x).sol = s.sol := rfl
@[simp] theorem State.setLatch_tm (s : State) (k : Nat) (x : Latch) : (s.setLatch k x).tm = s.tm := rfl
@[simp] theorem State.setLatch_launch (s : State) (k : Nat) (x : Latch) : (s.setLatch k x).launch = s.launch := rfl
@[simp] theorem State.setLatch_px (s : State) (k : Nat) (x : Latch) : (s.setLatch k x).px = s.px := rfl
@[simp] theorem State.setLatch_sn (s : State) (k : Nat) (x : Latch) : (s.setLatch k x).sn = s.sn := rfl
@[simp] theorem State.setLatch_mr (s : State) (k : Nat) (x : Latch) : (s.setLatch k x).mr = s.mr := rfl
@[simp] theorem State.setLatch_freeN (s : State) (k : Nat) (x : Latch) : (s.setLatch k x).freeN = s.freeN := rfl
@[simp] theorem State.setLatch_pending (s : State) (k : Nat) (x : Latch) : (s.setLatch k x).pending = s.pending := rfl

@[simp] theorem State.setFw_regs (s : State) (u : FwUpdate) : (s.setFw u).regs = s.regs := rfl
@[simp] theorem State.setFw_hold (s : State) (u : FwUpdate) : (s.setFw u).hold = s.hold := rfl
@[simp] theorem State.setFw_mem (s : State) (u : FwUpdate) : (s.setFw u).mem = s.mem := rfl
@[simp] theorem State.setFw_ledger (s : State) (u : FwUpdate) : (s.setFw u).ledger = s.ledger := rfl
@[simp] theorem State.setFw_ev (s : State) (u : FwUpdate) : (s.setFw u).ev = s.ev := rfl
@[simp] theorem State.setFw_hp (s : State) (u : FwUpdate) : (s.setFw u).hp = s.hp := rfl
@[simp] theorem State.setFw_pw (s : State) (u : FwUpdate) : (s.setFw u).pw = s.pw := rfl
@[simp] theorem State.setFw_ck (s : State) (u : FwUpdate) : (s.setFw u).ck = s.ck := rfl
@[simp] theorem State.setFw_mills (s : State) (u : FwUpdate) : (s.setFw u).mills = s.mills := rfl
@[simp] theorem State.setFw_leat (s : State) (u : FwUpdate) : (s.setFw u).leat = s.leat := rfl
@[simp] theorem State.setFw_loader (s : State) (u : FwUpdate) : (s.setFw u).loader = s.loader := rfl
@[simp] theorem State.setFw_ops (s : State) (u : FwUpdate) : (s.setFw u).ops = s.ops := rfl
@[simp] theorem State.setFw_streams (s : State) (u : FwUpdate) : (s.setFw u).streams = s.streams := rfl
@[simp] theorem State.setFw_tiers (s : State) (u : FwUpdate) : (s.setFw u).tiers = s.tiers := rfl
@[simp] theorem State.setFw_bolters (s : State) (u : FwUpdate) : (s.setFw u).bolters = s.bolters := rfl
@[simp] theorem State.setFw_gov (s : State) (u : FwUpdate) : (s.setFw u).gov = s.gov := rfl
@[simp] theorem State.setFw_fus (s : State) (u : FwUpdate) : (s.setFw u).fus = s.fus := rfl
@[simp] theorem State.setFw_sol (s : State) (u : FwUpdate) : (s.setFw u).sol = s.sol := rfl
@[simp] theorem State.setFw_tm (s : State) (u : FwUpdate) : (s.setFw u).tm = s.tm := rfl
@[simp] theorem State.setFw_launch (s : State) (u : FwUpdate) : (s.setFw u).launch = s.launch := rfl
@[simp] theorem State.setFw_px (s : State) (u : FwUpdate) : (s.setFw u).px = s.px := rfl
@[simp] theorem State.setFw_sn (s : State) (u : FwUpdate) : (s.setFw u).sn = s.sn := rfl
@[simp] theorem State.setFw_mr (s : State) (u : FwUpdate) : (s.setFw u).mr = s.mr := rfl
@[simp] theorem State.setFw_freeN (s : State) (u : FwUpdate) : (s.setFw u).freeN = s.freeN := rfl
@[simp] theorem State.setFw_pending (s : State) (u : FwUpdate) : (s.setFw u).pending = s.pending := rfl

@[simp] theorem State.setChan_regs (s : State) (n : Nat) (x : Chan) : (s.setChan n x).regs = s.regs := rfl
@[simp] theorem State.setChan_hold (s : State) (n : Nat) (x : Chan) : (s.setChan n x).hold = s.hold := rfl
@[simp] theorem State.setChan_mem (s : State) (n : Nat) (x : Chan) : (s.setChan n x).mem = s.mem := rfl
@[simp] theorem State.setChan_ledger (s : State) (n : Nat) (x : Chan) : (s.setChan n x).ledger = s.ledger := rfl
@[simp] theorem State.setChan_ev (s : State) (n : Nat) (x : Chan) : (s.setChan n x).ev = s.ev := rfl
@[simp] theorem State.setChan_hp (s : State) (n : Nat) (x : Chan) : (s.setChan n x).hp = s.hp := rfl
@[simp] theorem State.setChan_pw (s : State) (n : Nat) (x : Chan) : (s.setChan n x).pw = s.pw := rfl
@[simp] theorem State.setChan_ck (s : State) (n : Nat) (x : Chan) : (s.setChan n x).ck = s.ck := rfl
@[simp] theorem State.setChan_sec (s : State) (n : Nat) (x : Chan) : (s.setChan n x).sec = s.sec := rfl
@[simp] theorem State.setChan_mills (s : State) (n : Nat) (x : Chan) : (s.setChan n x).mills = s.mills := rfl
@[simp] theorem State.setChan_leat (s : State) (n : Nat) (x : Chan) : (s.setChan n x).leat = s.leat := rfl
@[simp] theorem State.setChan_loader (s : State) (n : Nat) (x : Chan) : (s.setChan n x).loader = s.loader := rfl
@[simp] theorem State.setChan_ops (s : State) (n : Nat) (x : Chan) : (s.setChan n x).ops = s.ops := rfl
@[simp] theorem State.setChan_streams (s : State) (n : Nat) (x : Chan) : (s.setChan n x).streams = s.streams := rfl
@[simp] theorem State.setChan_bolters (s : State) (n : Nat) (x : Chan) : (s.setChan n x).bolters = s.bolters := rfl
@[simp] theorem State.setChan_gov (s : State) (n : Nat) (x : Chan) : (s.setChan n x).gov = s.gov := rfl
@[simp] theorem State.setChan_fus (s : State) (n : Nat) (x : Chan) : (s.setChan n x).fus = s.fus := rfl
@[simp] theorem State.setChan_sol (s : State) (n : Nat) (x : Chan) : (s.setChan n x).sol = s.sol := rfl
@[simp] theorem State.setChan_tm (s : State) (n : Nat) (x : Chan) : (s.setChan n x).tm = s.tm := rfl
@[simp] theorem State.setChan_launch (s : State) (n : Nat) (x : Chan) : (s.setChan n x).launch = s.launch := rfl
@[simp] theorem State.setChan_px (s : State) (n : Nat) (x : Chan) : (s.setChan n x).px = s.px := rfl
@[simp] theorem State.setChan_sn (s : State) (n : Nat) (x : Chan) : (s.setChan n x).sn = s.sn := rfl
@[simp] theorem State.setChan_mr (s : State) (n : Nat) (x : Chan) : (s.setChan n x).mr = s.mr := rfl
@[simp] theorem State.setChan_freeN (s : State) (n : Nat) (x : Chan) : (s.setChan n x).freeN = s.freeN := rfl
@[simp] theorem State.setChan_pending (s : State) (n : Nat) (x : Chan) : (s.setChan n x).pending = s.pending := rfl

@[simp] theorem State.setCredits_regs (s : State) (p w n : Nat) : (s.setCredits p w n).regs = s.regs := rfl
@[simp] theorem State.setCredits_hold (s : State) (p w n : Nat) : (s.setCredits p w n).hold = s.hold := rfl
@[simp] theorem State.setCredits_mem (s : State) (p w n : Nat) : (s.setCredits p w n).mem = s.mem := rfl
@[simp] theorem State.setCredits_ledger (s : State) (p w n : Nat) : (s.setCredits p w n).ledger = s.ledger := rfl
@[simp] theorem State.setCredits_ev (s : State) (p w n : Nat) : (s.setCredits p w n).ev = s.ev := rfl
@[simp] theorem State.setCredits_hp (s : State) (p w n : Nat) : (s.setCredits p w n).hp = s.hp := rfl
@[simp] theorem State.setCredits_pw (s : State) (p w n : Nat) : (s.setCredits p w n).pw = s.pw := rfl
@[simp] theorem State.setCredits_ck (s : State) (p w n : Nat) : (s.setCredits p w n).ck = s.ck := rfl
@[simp] theorem State.setCredits_sec (s : State) (p w n : Nat) : (s.setCredits p w n).sec = s.sec := rfl
@[simp] theorem State.setCredits_mills (s : State) (p w n : Nat) : (s.setCredits p w n).mills = s.mills := rfl
@[simp] theorem State.setCredits_loader (s : State) (p w n : Nat) : (s.setCredits p w n).loader = s.loader := rfl
@[simp] theorem State.setCredits_ops (s : State) (p w n : Nat) : (s.setCredits p w n).ops = s.ops := rfl
@[simp] theorem State.setCredits_streams (s : State) (p w n : Nat) : (s.setCredits p w n).streams = s.streams := rfl
@[simp] theorem State.setCredits_tiers (s : State) (p w n : Nat) : (s.setCredits p w n).tiers = s.tiers := rfl
@[simp] theorem State.setCredits_bolters (s : State) (p w n : Nat) : (s.setCredits p w n).bolters = s.bolters := rfl
@[simp] theorem State.setCredits_gov (s : State) (p w n : Nat) : (s.setCredits p w n).gov = s.gov := rfl
@[simp] theorem State.setCredits_fus (s : State) (p w n : Nat) : (s.setCredits p w n).fus = s.fus := rfl
@[simp] theorem State.setCredits_sol (s : State) (p w n : Nat) : (s.setCredits p w n).sol = s.sol := rfl
@[simp] theorem State.setCredits_tm (s : State) (p w n : Nat) : (s.setCredits p w n).tm = s.tm := rfl
@[simp] theorem State.setCredits_launch (s : State) (p w n : Nat) : (s.setCredits p w n).launch = s.launch := rfl
@[simp] theorem State.setCredits_px (s : State) (p w n : Nat) : (s.setCredits p w n).px = s.px := rfl
@[simp] theorem State.setCredits_sn (s : State) (p w n : Nat) : (s.setCredits p w n).sn = s.sn := rfl
@[simp] theorem State.setCredits_mr (s : State) (p w n : Nat) : (s.setCredits p w n).mr = s.mr := rfl
@[simp] theorem State.setCredits_freeN (s : State) (p w n : Nat) : (s.setCredits p w n).freeN = s.freeN := rfl
@[simp] theorem State.setCredits_pending (s : State) (p w n : Nat) : (s.setCredits p w n).pending = s.pending := rfl

@[simp] theorem State.setBuf_regs (s : State) (k input c : Nat) (l : List Parcel) : (s.setBuf k input c l).regs = s.regs := rfl
@[simp] theorem State.setBuf_hold (s : State) (k input c : Nat) (l : List Parcel) : (s.setBuf k input c l).hold = s.hold := rfl
@[simp] theorem State.setBuf_mem (s : State) (k input c : Nat) (l : List Parcel) : (s.setBuf k input c l).mem = s.mem := rfl
@[simp] theorem State.setBuf_ledger (s : State) (k input c : Nat) (l : List Parcel) : (s.setBuf k input c l).ledger = s.ledger := rfl
@[simp] theorem State.setBuf_ev (s : State) (k input c : Nat) (l : List Parcel) : (s.setBuf k input c l).ev = s.ev := rfl
@[simp] theorem State.setBuf_hp (s : State) (k input c : Nat) (l : List Parcel) : (s.setBuf k input c l).hp = s.hp := rfl
@[simp] theorem State.setBuf_pw (s : State) (k input c : Nat) (l : List Parcel) : (s.setBuf k input c l).pw = s.pw := rfl
@[simp] theorem State.setBuf_ck (s : State) (k input c : Nat) (l : List Parcel) : (s.setBuf k input c l).ck = s.ck := rfl
@[simp] theorem State.setBuf_sec (s : State) (k input c : Nat) (l : List Parcel) : (s.setBuf k input c l).sec = s.sec := rfl
@[simp] theorem State.setBuf_mills (s : State) (k input c : Nat) (l : List Parcel) : (s.setBuf k input c l).mills = s.mills := rfl
@[simp] theorem State.setBuf_loader (s : State) (k input c : Nat) (l : List Parcel) : (s.setBuf k input c l).loader = s.loader := rfl
@[simp] theorem State.setBuf_ops (s : State) (k input c : Nat) (l : List Parcel) : (s.setBuf k input c l).ops = s.ops := rfl
@[simp] theorem State.setBuf_streams (s : State) (k input c : Nat) (l : List Parcel) : (s.setBuf k input c l).streams = s.streams := rfl
@[simp] theorem State.setBuf_tiers (s : State) (k input c : Nat) (l : List Parcel) : (s.setBuf k input c l).tiers = s.tiers := rfl
@[simp] theorem State.setBuf_bolters (s : State) (k input c : Nat) (l : List Parcel) : (s.setBuf k input c l).bolters = s.bolters := rfl
@[simp] theorem State.setBuf_gov (s : State) (k input c : Nat) (l : List Parcel) : (s.setBuf k input c l).gov = s.gov := rfl
@[simp] theorem State.setBuf_fus (s : State) (k input c : Nat) (l : List Parcel) : (s.setBuf k input c l).fus = s.fus := rfl
@[simp] theorem State.setBuf_sol (s : State) (k input c : Nat) (l : List Parcel) : (s.setBuf k input c l).sol = s.sol := rfl
@[simp] theorem State.setBuf_tm (s : State) (k input c : Nat) (l : List Parcel) : (s.setBuf k input c l).tm = s.tm := rfl
@[simp] theorem State.setBuf_launch (s : State) (k input c : Nat) (l : List Parcel) : (s.setBuf k input c l).launch = s.launch := rfl
@[simp] theorem State.setBuf_px (s : State) (k input c : Nat) (l : List Parcel) : (s.setBuf k input c l).px = s.px := rfl
@[simp] theorem State.setBuf_sn (s : State) (k input c : Nat) (l : List Parcel) : (s.setBuf k input c l).sn = s.sn := rfl
@[simp] theorem State.setBuf_mr (s : State) (k input c : Nat) (l : List Parcel) : (s.setBuf k input c l).mr = s.mr := rfl
@[simp] theorem State.setBuf_freeN (s : State) (k input c : Nat) (l : List Parcel) : (s.setBuf k input c l).freeN = s.freeN := rfl
@[simp] theorem State.setBuf_pending (s : State) (k input c : Nat) (l : List Parcel) : (s.setBuf k input c l).pending = s.pending := rfl

@[simp] theorem State.setWaiting_regs (s : State) (w : Nat) (l : List Parcel) : (s.setWaiting w l).regs = s.regs := rfl
@[simp] theorem State.setWaiting_hold (s : State) (w : Nat) (l : List Parcel) : (s.setWaiting w l).hold = s.hold := rfl
@[simp] theorem State.setWaiting_mem (s : State) (w : Nat) (l : List Parcel) : (s.setWaiting w l).mem = s.mem := rfl
@[simp] theorem State.setWaiting_ledger (s : State) (w : Nat) (l : List Parcel) : (s.setWaiting w l).ledger = s.ledger := rfl
@[simp] theorem State.setWaiting_ev (s : State) (w : Nat) (l : List Parcel) : (s.setWaiting w l).ev = s.ev := rfl
@[simp] theorem State.setWaiting_hp (s : State) (w : Nat) (l : List Parcel) : (s.setWaiting w l).hp = s.hp := rfl
@[simp] theorem State.setWaiting_pw (s : State) (w : Nat) (l : List Parcel) : (s.setWaiting w l).pw = s.pw := rfl
@[simp] theorem State.setWaiting_ck (s : State) (w : Nat) (l : List Parcel) : (s.setWaiting w l).ck = s.ck := rfl
@[simp] theorem State.setWaiting_sec (s : State) (w : Nat) (l : List Parcel) : (s.setWaiting w l).sec = s.sec := rfl
@[simp] theorem State.setWaiting_mills (s : State) (w : Nat) (l : List Parcel) : (s.setWaiting w l).mills = s.mills := rfl
@[simp] theorem State.setWaiting_loader (s : State) (w : Nat) (l : List Parcel) : (s.setWaiting w l).loader = s.loader := rfl
@[simp] theorem State.setWaiting_ops (s : State) (w : Nat) (l : List Parcel) : (s.setWaiting w l).ops = s.ops := rfl
@[simp] theorem State.setWaiting_streams (s : State) (w : Nat) (l : List Parcel) : (s.setWaiting w l).streams = s.streams := rfl
@[simp] theorem State.setWaiting_tiers (s : State) (w : Nat) (l : List Parcel) : (s.setWaiting w l).tiers = s.tiers := rfl
@[simp] theorem State.setWaiting_bolters (s : State) (w : Nat) (l : List Parcel) : (s.setWaiting w l).bolters = s.bolters := rfl
@[simp] theorem State.setWaiting_gov (s : State) (w : Nat) (l : List Parcel) : (s.setWaiting w l).gov = s.gov := rfl
@[simp] theorem State.setWaiting_fus (s : State) (w : Nat) (l : List Parcel) : (s.setWaiting w l).fus = s.fus := rfl
@[simp] theorem State.setWaiting_sol (s : State) (w : Nat) (l : List Parcel) : (s.setWaiting w l).sol = s.sol := rfl
@[simp] theorem State.setWaiting_tm (s : State) (w : Nat) (l : List Parcel) : (s.setWaiting w l).tm = s.tm := rfl
@[simp] theorem State.setWaiting_launch (s : State) (w : Nat) (l : List Parcel) : (s.setWaiting w l).launch = s.launch := rfl
@[simp] theorem State.setWaiting_px (s : State) (w : Nat) (l : List Parcel) : (s.setWaiting w l).px = s.px := rfl
@[simp] theorem State.setWaiting_sn (s : State) (w : Nat) (l : List Parcel) : (s.setWaiting w l).sn = s.sn := rfl
@[simp] theorem State.setWaiting_mr (s : State) (w : Nat) (l : List Parcel) : (s.setWaiting w l).mr = s.mr := rfl
@[simp] theorem State.setWaiting_freeN (s : State) (w : Nat) (l : List Parcel) : (s.setWaiting w l).freeN = s.freeN := rfl
@[simp] theorem State.setWaiting_pending (s : State) (w : Nat) (l : List Parcel) : (s.setWaiting w l).pending = s.pending := rfl

@[simp] theorem State.setStripe_regs (s : State) (n : Node) (x : StripePos) : (s.setStripe n x).regs = s.regs := rfl
@[simp] theorem State.setStripe_hold (s : State) (n : Node) (x : StripePos) : (s.setStripe n x).hold = s.hold := rfl
@[simp] theorem State.setStripe_mem (s : State) (n : Node) (x : StripePos) : (s.setStripe n x).mem = s.mem := rfl
@[simp] theorem State.setStripe_ledger (s : State) (n : Node) (x : StripePos) : (s.setStripe n x).ledger = s.ledger := rfl
@[simp] theorem State.setStripe_ev (s : State) (n : Node) (x : StripePos) : (s.setStripe n x).ev = s.ev := rfl
@[simp] theorem State.setStripe_hp (s : State) (n : Node) (x : StripePos) : (s.setStripe n x).hp = s.hp := rfl
@[simp] theorem State.setStripe_pw (s : State) (n : Node) (x : StripePos) : (s.setStripe n x).pw = s.pw := rfl
@[simp] theorem State.setStripe_ck (s : State) (n : Node) (x : StripePos) : (s.setStripe n x).ck = s.ck := rfl
@[simp] theorem State.setStripe_sec (s : State) (n : Node) (x : StripePos) : (s.setStripe n x).sec = s.sec := rfl
@[simp] theorem State.setStripe_mills (s : State) (n : Node) (x : StripePos) : (s.setStripe n x).mills = s.mills := rfl
@[simp] theorem State.setStripe_leat (s : State) (n : Node) (x : StripePos) : (s.setStripe n x).leat = s.leat := rfl
@[simp] theorem State.setStripe_loader (s : State) (n : Node) (x : StripePos) : (s.setStripe n x).loader = s.loader := rfl
@[simp] theorem State.setStripe_streams (s : State) (n : Node) (x : StripePos) : (s.setStripe n x).streams = s.streams := rfl
@[simp] theorem State.setStripe_tiers (s : State) (n : Node) (x : StripePos) : (s.setStripe n x).tiers = s.tiers := rfl
@[simp] theorem State.setStripe_bolters (s : State) (n : Node) (x : StripePos) : (s.setStripe n x).bolters = s.bolters := rfl
@[simp] theorem State.setStripe_gov (s : State) (n : Node) (x : StripePos) : (s.setStripe n x).gov = s.gov := rfl
@[simp] theorem State.setStripe_fus (s : State) (n : Node) (x : StripePos) : (s.setStripe n x).fus = s.fus := rfl
@[simp] theorem State.setStripe_sol (s : State) (n : Node) (x : StripePos) : (s.setStripe n x).sol = s.sol := rfl
@[simp] theorem State.setStripe_tm (s : State) (n : Node) (x : StripePos) : (s.setStripe n x).tm = s.tm := rfl
@[simp] theorem State.setStripe_launch (s : State) (n : Node) (x : StripePos) : (s.setStripe n x).launch = s.launch := rfl
@[simp] theorem State.setStripe_px (s : State) (n : Node) (x : StripePos) : (s.setStripe n x).px = s.px := rfl
@[simp] theorem State.setStripe_sn (s : State) (n : Node) (x : StripePos) : (s.setStripe n x).sn = s.sn := rfl
@[simp] theorem State.setStripe_mr (s : State) (n : Node) (x : StripePos) : (s.setStripe n x).mr = s.mr := rfl
@[simp] theorem State.setStripe_freeN (s : State) (n : Node) (x : StripePos) : (s.setStripe n x).freeN = s.freeN := rfl
@[simp] theorem State.setStripe_pending (s : State) (n : Node) (x : StripePos) : (s.setStripe n x).pending = s.pending := rfl

@[simp] theorem State.setFrameBuf_regs (s : State) (a : Nat) (x : FrameBuf) : (s.setFrameBuf a x).regs = s.regs := rfl
@[simp] theorem State.setFrameBuf_hold (s : State) (a : Nat) (x : FrameBuf) : (s.setFrameBuf a x).hold = s.hold := rfl
@[simp] theorem State.setFrameBuf_mem (s : State) (a : Nat) (x : FrameBuf) : (s.setFrameBuf a x).mem = s.mem := rfl
@[simp] theorem State.setFrameBuf_ledger (s : State) (a : Nat) (x : FrameBuf) : (s.setFrameBuf a x).ledger = s.ledger := rfl
@[simp] theorem State.setFrameBuf_ev (s : State) (a : Nat) (x : FrameBuf) : (s.setFrameBuf a x).ev = s.ev := rfl
@[simp] theorem State.setFrameBuf_hp (s : State) (a : Nat) (x : FrameBuf) : (s.setFrameBuf a x).hp = s.hp := rfl
@[simp] theorem State.setFrameBuf_pw (s : State) (a : Nat) (x : FrameBuf) : (s.setFrameBuf a x).pw = s.pw := rfl
@[simp] theorem State.setFrameBuf_ck (s : State) (a : Nat) (x : FrameBuf) : (s.setFrameBuf a x).ck = s.ck := rfl
@[simp] theorem State.setFrameBuf_sec (s : State) (a : Nat) (x : FrameBuf) : (s.setFrameBuf a x).sec = s.sec := rfl
@[simp] theorem State.setFrameBuf_mills (s : State) (a : Nat) (x : FrameBuf) : (s.setFrameBuf a x).mills = s.mills := rfl
@[simp] theorem State.setFrameBuf_leat (s : State) (a : Nat) (x : FrameBuf) : (s.setFrameBuf a x).leat = s.leat := rfl
@[simp] theorem State.setFrameBuf_loader (s : State) (a : Nat) (x : FrameBuf) : (s.setFrameBuf a x).loader = s.loader := rfl
@[simp] theorem State.setFrameBuf_streams (s : State) (a : Nat) (x : FrameBuf) : (s.setFrameBuf a x).streams = s.streams := rfl
@[simp] theorem State.setFrameBuf_tiers (s : State) (a : Nat) (x : FrameBuf) : (s.setFrameBuf a x).tiers = s.tiers := rfl
@[simp] theorem State.setFrameBuf_bolters (s : State) (a : Nat) (x : FrameBuf) : (s.setFrameBuf a x).bolters = s.bolters := rfl
@[simp] theorem State.setFrameBuf_gov (s : State) (a : Nat) (x : FrameBuf) : (s.setFrameBuf a x).gov = s.gov := rfl
@[simp] theorem State.setFrameBuf_fus (s : State) (a : Nat) (x : FrameBuf) : (s.setFrameBuf a x).fus = s.fus := rfl
@[simp] theorem State.setFrameBuf_sol (s : State) (a : Nat) (x : FrameBuf) : (s.setFrameBuf a x).sol = s.sol := rfl
@[simp] theorem State.setFrameBuf_tm (s : State) (a : Nat) (x : FrameBuf) : (s.setFrameBuf a x).tm = s.tm := rfl
@[simp] theorem State.setFrameBuf_launch (s : State) (a : Nat) (x : FrameBuf) : (s.setFrameBuf a x).launch = s.launch := rfl
@[simp] theorem State.setFrameBuf_px (s : State) (a : Nat) (x : FrameBuf) : (s.setFrameBuf a x).px = s.px := rfl
@[simp] theorem State.setFrameBuf_sn (s : State) (a : Nat) (x : FrameBuf) : (s.setFrameBuf a x).sn = s.sn := rfl
@[simp] theorem State.setFrameBuf_mr (s : State) (a : Nat) (x : FrameBuf) : (s.setFrameBuf a x).mr = s.mr := rfl
@[simp] theorem State.setFrameBuf_freeN (s : State) (a : Nat) (x : FrameBuf) : (s.setFrameBuf a x).freeN = s.freeN := rfl
@[simp] theorem State.setFrameBuf_pending (s : State) (a : Nat) (x : FrameBuf) : (s.setFrameBuf a x).pending = s.pending := rfl

@[simp] theorem State.clearRegs_mem (s : State) (lo hi : Nat) : (s.clearRegs lo hi).mem = s.mem := rfl
@[simp] theorem State.clearRegs_ledger (s : State) (lo hi : Nat) : (s.clearRegs lo hi).ledger = s.ledger := rfl
@[simp] theorem State.clearRegs_ev (s : State) (lo hi : Nat) : (s.clearRegs lo hi).ev = s.ev := rfl
@[simp] theorem State.clearRegs_hp (s : State) (lo hi : Nat) : (s.clearRegs lo hi).hp = s.hp := rfl
@[simp] theorem State.clearRegs_pw (s : State) (lo hi : Nat) : (s.clearRegs lo hi).pw = s.pw := rfl
@[simp] theorem State.clearRegs_ck (s : State) (lo hi : Nat) : (s.clearRegs lo hi).ck = s.ck := rfl
@[simp] theorem State.clearRegs_sec (s : State) (lo hi : Nat) : (s.clearRegs lo hi).sec = s.sec := rfl
@[simp] theorem State.clearRegs_mills (s : State) (lo hi : Nat) : (s.clearRegs lo hi).mills = s.mills := rfl
@[simp] theorem State.clearRegs_leat (s : State) (lo hi : Nat) : (s.clearRegs lo hi).leat = s.leat := rfl
@[simp] theorem State.clearRegs_loader (s : State) (lo hi : Nat) : (s.clearRegs lo hi).loader = s.loader := rfl
@[simp] theorem State.clearRegs_ops (s : State) (lo hi : Nat) : (s.clearRegs lo hi).ops = s.ops := rfl
@[simp] theorem State.clearRegs_streams (s : State) (lo hi : Nat) : (s.clearRegs lo hi).streams = s.streams := rfl
@[simp] theorem State.clearRegs_tiers (s : State) (lo hi : Nat) : (s.clearRegs lo hi).tiers = s.tiers := rfl
@[simp] theorem State.clearRegs_bolters (s : State) (lo hi : Nat) : (s.clearRegs lo hi).bolters = s.bolters := rfl
@[simp] theorem State.clearRegs_gov (s : State) (lo hi : Nat) : (s.clearRegs lo hi).gov = s.gov := rfl
@[simp] theorem State.clearRegs_fus (s : State) (lo hi : Nat) : (s.clearRegs lo hi).fus = s.fus := rfl
@[simp] theorem State.clearRegs_sol (s : State) (lo hi : Nat) : (s.clearRegs lo hi).sol = s.sol := rfl
@[simp] theorem State.clearRegs_tm (s : State) (lo hi : Nat) : (s.clearRegs lo hi).tm = s.tm := rfl
@[simp] theorem State.clearRegs_launch (s : State) (lo hi : Nat) : (s.clearRegs lo hi).launch = s.launch := rfl
@[simp] theorem State.clearRegs_px (s : State) (lo hi : Nat) : (s.clearRegs lo hi).px = s.px := rfl
@[simp] theorem State.clearRegs_sn (s : State) (lo hi : Nat) : (s.clearRegs lo hi).sn = s.sn := rfl
@[simp] theorem State.clearRegs_mr (s : State) (lo hi : Nat) : (s.clearRegs lo hi).mr = s.mr := rfl
@[simp] theorem State.clearRegs_freeN (s : State) (lo hi : Nat) : (s.clearRegs lo hi).freeN = s.freeN := rfl
@[simp] theorem State.clearRegs_pending (s : State) (lo hi : Nat) : (s.clearRegs lo hi).pending = s.pending := rfl

@[simp] theorem State.drew_regs (s : State) (n : Nat) : (s.drew n).regs = s.regs := rfl
@[simp] theorem State.drew_hold (s : State) (n : Nat) : (s.drew n).hold = s.hold := rfl
@[simp] theorem State.drew_mem (s : State) (n : Nat) : (s.drew n).mem = s.mem := rfl
@[simp] theorem State.drew_ledger (s : State) (n : Nat) : (s.drew n).ledger = s.ledger := rfl
@[simp] theorem State.drew_ev (s : State) (n : Nat) : (s.drew n).ev = s.ev := rfl
@[simp] theorem State.drew_hp (s : State) (n : Nat) : (s.drew n).hp = s.hp := rfl
@[simp] theorem State.drew_pw (s : State) (n : Nat) : (s.drew n).pw = s.pw := rfl
@[simp] theorem State.drew_ck (s : State) (n : Nat) : (s.drew n).ck = s.ck := rfl
@[simp] theorem State.drew_sec (s : State) (n : Nat) : (s.drew n).sec = s.sec := rfl
@[simp] theorem State.drew_mills (s : State) (n : Nat) : (s.drew n).mills = s.mills := rfl
@[simp] theorem State.drew_leat (s : State) (n : Nat) : (s.drew n).leat = s.leat := rfl
@[simp] theorem State.drew_loader (s : State) (n : Nat) : (s.drew n).loader = s.loader := rfl
@[simp] theorem State.drew_ops (s : State) (n : Nat) : (s.drew n).ops = s.ops := rfl
@[simp] theorem State.drew_streams (s : State) (n : Nat) : (s.drew n).streams = s.streams := rfl
@[simp] theorem State.drew_tiers (s : State) (n : Nat) : (s.drew n).tiers = s.tiers := rfl
@[simp] theorem State.drew_bolters (s : State) (n : Nat) : (s.drew n).bolters = s.bolters := rfl
@[simp] theorem State.drew_gov (s : State) (n : Nat) : (s.drew n).gov = s.gov := rfl
@[simp] theorem State.drew_fus (s : State) (n : Nat) : (s.drew n).fus = s.fus := rfl
@[simp] theorem State.drew_sol (s : State) (n : Nat) : (s.drew n).sol = s.sol := rfl
@[simp] theorem State.drew_tm (s : State) (n : Nat) : (s.drew n).tm = s.tm := rfl
@[simp] theorem State.drew_launch (s : State) (n : Nat) : (s.drew n).launch = s.launch := rfl
@[simp] theorem State.drew_px (s : State) (n : Nat) : (s.drew n).px = s.px := rfl
@[simp] theorem State.drew_sn (s : State) (n : Nat) : (s.drew n).sn = s.sn := rfl
@[simp] theorem State.drew_mr (s : State) (n : Nat) : (s.drew n).mr = s.mr := rfl
@[simp] theorem State.drew_pending (s : State) (n : Nat) : (s.drew n).pending = s.pending := rfl

@[simp] theorem State.begin_regs (s : State) (r : Request) : (s.begin r).regs = s.regs := rfl
@[simp] theorem State.begin_hold (s : State) (r : Request) : (s.begin r).hold = s.hold := rfl
@[simp] theorem State.begin_mem (s : State) (r : Request) : (s.begin r).mem = s.mem := rfl
@[simp] theorem State.begin_ledger (s : State) (r : Request) : (s.begin r).ledger = s.ledger := rfl
@[simp] theorem State.begin_ev (s : State) (r : Request) : (s.begin r).ev = s.ev := rfl
@[simp] theorem State.begin_pw (s : State) (r : Request) : (s.begin r).pw = s.pw := rfl
@[simp] theorem State.begin_ck (s : State) (r : Request) : (s.begin r).ck = s.ck := rfl
@[simp] theorem State.begin_sec (s : State) (r : Request) : (s.begin r).sec = s.sec := rfl
@[simp] theorem State.begin_mills (s : State) (r : Request) : (s.begin r).mills = s.mills := rfl
@[simp] theorem State.begin_leat (s : State) (r : Request) : (s.begin r).leat = s.leat := rfl
@[simp] theorem State.begin_loader (s : State) (r : Request) : (s.begin r).loader = s.loader := rfl
@[simp] theorem State.begin_ops (s : State) (r : Request) : (s.begin r).ops = s.ops := rfl
@[simp] theorem State.begin_streams (s : State) (r : Request) : (s.begin r).streams = s.streams := rfl
@[simp] theorem State.begin_tiers (s : State) (r : Request) : (s.begin r).tiers = s.tiers := rfl
@[simp] theorem State.begin_bolters (s : State) (r : Request) : (s.begin r).bolters = s.bolters := rfl
@[simp] theorem State.begin_gov (s : State) (r : Request) : (s.begin r).gov = s.gov := rfl
@[simp] theorem State.begin_fus (s : State) (r : Request) : (s.begin r).fus = s.fus := rfl
@[simp] theorem State.begin_sol (s : State) (r : Request) : (s.begin r).sol = s.sol := rfl
@[simp] theorem State.begin_tm (s : State) (r : Request) : (s.begin r).tm = s.tm := rfl
@[simp] theorem State.begin_launch (s : State) (r : Request) : (s.begin r).launch = s.launch := rfl
@[simp] theorem State.begin_px (s : State) (r : Request) : (s.begin r).px = s.px := rfl
@[simp] theorem State.begin_sn (s : State) (r : Request) : (s.begin r).sn = s.sn := rfl
@[simp] theorem State.begin_mr (s : State) (r : Request) : (s.begin r).mr = s.mr := rfl
@[simp] theorem State.begin_freeN (s : State) (r : Request) : (s.begin r).freeN = s.freeN := rfl
@[simp] theorem State.begin_pending (s : State) (r : Request) : (s.begin r).pending = s.pending := rfl

@[simp] theorem State.finish_regs (s : State) (r : Request) (status result extra : Nat) : (s.finish r status result extra).regs = s.regs := rfl
@[simp] theorem State.finish_hold (s : State) (r : Request) (status result extra : Nat) : (s.finish r status result extra).hold = s.hold := rfl
@[simp] theorem State.finish_mem (s : State) (r : Request) (status result extra : Nat) : (s.finish r status result extra).mem = s.mem := rfl
@[simp] theorem State.finish_ledger (s : State) (r : Request) (status result extra : Nat) : (s.finish r status result extra).ledger = s.ledger := rfl
@[simp] theorem State.finish_ev (s : State) (r : Request) (status result extra : Nat) : (s.finish r status result extra).ev = s.ev := rfl
@[simp] theorem State.finish_pw (s : State) (r : Request) (status result extra : Nat) : (s.finish r status result extra).pw = s.pw := rfl
@[simp] theorem State.finish_ck (s : State) (r : Request) (status result extra : Nat) : (s.finish r status result extra).ck = s.ck := rfl
@[simp] theorem State.finish_sec (s : State) (r : Request) (status result extra : Nat) : (s.finish r status result extra).sec = s.sec := rfl
@[simp] theorem State.finish_mills (s : State) (r : Request) (status result extra : Nat) : (s.finish r status result extra).mills = s.mills := rfl
@[simp] theorem State.finish_leat (s : State) (r : Request) (status result extra : Nat) : (s.finish r status result extra).leat = s.leat := rfl
@[simp] theorem State.finish_loader (s : State) (r : Request) (status result extra : Nat) : (s.finish r status result extra).loader = s.loader := rfl
@[simp] theorem State.finish_ops (s : State) (r : Request) (status result extra : Nat) : (s.finish r status result extra).ops = s.ops := rfl
@[simp] theorem State.finish_streams (s : State) (r : Request) (status result extra : Nat) : (s.finish r status result extra).streams = s.streams := rfl
@[simp] theorem State.finish_tiers (s : State) (r : Request) (status result extra : Nat) : (s.finish r status result extra).tiers = s.tiers := rfl
@[simp] theorem State.finish_bolters (s : State) (r : Request) (status result extra : Nat) : (s.finish r status result extra).bolters = s.bolters := rfl
@[simp] theorem State.finish_gov (s : State) (r : Request) (status result extra : Nat) : (s.finish r status result extra).gov = s.gov := rfl
@[simp] theorem State.finish_fus (s : State) (r : Request) (status result extra : Nat) : (s.finish r status result extra).fus = s.fus := rfl
@[simp] theorem State.finish_sol (s : State) (r : Request) (status result extra : Nat) : (s.finish r status result extra).sol = s.sol := rfl
@[simp] theorem State.finish_tm (s : State) (r : Request) (status result extra : Nat) : (s.finish r status result extra).tm = s.tm := rfl
@[simp] theorem State.finish_launch (s : State) (r : Request) (status result extra : Nat) : (s.finish r status result extra).launch = s.launch := rfl
@[simp] theorem State.finish_px (s : State) (r : Request) (status result extra : Nat) : (s.finish r status result extra).px = s.px := rfl
@[simp] theorem State.finish_sn (s : State) (r : Request) (status result extra : Nat) : (s.finish r status result extra).sn = s.sn := rfl
@[simp] theorem State.finish_mr (s : State) (r : Request) (status result extra : Nat) : (s.finish r status result extra).mr = s.mr := rfl
@[simp] theorem State.finish_freeN (s : State) (r : Request) (status result extra : Nat) : (s.finish r status result extra).freeN = s.freeN := rfl
@[simp] theorem State.finish_pending (s : State) (r : Request) (status result extra : Nat) : (s.finish r status result extra).pending = s.pending := rfl

@[simp] theorem State.enterRec_regs (s : State) (r : Rec) : (s.enterRec r).regs = s.regs := rfl
@[simp] theorem State.enterRec_hold (s : State) (r : Rec) : (s.enterRec r).hold = s.hold := rfl
@[simp] theorem State.enterRec_mem (s : State) (r : Rec) : (s.enterRec r).mem = s.mem := rfl
@[simp] theorem State.enterRec_ledger (s : State) (r : Rec) : (s.enterRec r).ledger = s.ledger := rfl
@[simp] theorem State.enterRec_hp (s : State) (r : Rec) : (s.enterRec r).hp = s.hp := rfl
@[simp] theorem State.enterRec_pw (s : State) (r : Rec) : (s.enterRec r).pw = s.pw := rfl
@[simp] theorem State.enterRec_ck (s : State) (r : Rec) : (s.enterRec r).ck = s.ck := rfl
@[simp] theorem State.enterRec_sec (s : State) (r : Rec) : (s.enterRec r).sec = s.sec := rfl
@[simp] theorem State.enterRec_mills (s : State) (r : Rec) : (s.enterRec r).mills = s.mills := rfl
@[simp] theorem State.enterRec_leat (s : State) (r : Rec) : (s.enterRec r).leat = s.leat := rfl
@[simp] theorem State.enterRec_loader (s : State) (r : Rec) : (s.enterRec r).loader = s.loader := rfl
@[simp] theorem State.enterRec_ops (s : State) (r : Rec) : (s.enterRec r).ops = s.ops := rfl
@[simp] theorem State.enterRec_streams (s : State) (r : Rec) : (s.enterRec r).streams = s.streams := rfl
@[simp] theorem State.enterRec_tiers (s : State) (r : Rec) : (s.enterRec r).tiers = s.tiers := rfl
@[simp] theorem State.enterRec_bolters (s : State) (r : Rec) : (s.enterRec r).bolters = s.bolters := rfl
@[simp] theorem State.enterRec_gov (s : State) (r : Rec) : (s.enterRec r).gov = s.gov := rfl
@[simp] theorem State.enterRec_fus (s : State) (r : Rec) : (s.enterRec r).fus = s.fus := rfl
@[simp] theorem State.enterRec_sol (s : State) (r : Rec) : (s.enterRec r).sol = s.sol := rfl
@[simp] theorem State.enterRec_tm (s : State) (r : Rec) : (s.enterRec r).tm = s.tm := rfl
@[simp] theorem State.enterRec_launch (s : State) (r : Rec) : (s.enterRec r).launch = s.launch := rfl
@[simp] theorem State.enterRec_px (s : State) (r : Rec) : (s.enterRec r).px = s.px := rfl
@[simp] theorem State.enterRec_sn (s : State) (r : Rec) : (s.enterRec r).sn = s.sn := rfl
@[simp] theorem State.enterRec_mr (s : State) (r : Rec) : (s.enterRec r).mr = s.mr := rfl
@[simp] theorem State.enterRec_freeN (s : State) (r : Rec) : (s.enterRec r).freeN = s.freeN := rfl
@[simp] theorem State.enterRec_pending (s : State) (r : Rec) : (s.enterRec r).pending = s.pending := rfl

@[simp] theorem State.fusionAcquire_regs (s : State) : (s.fusionAcquire).regs = s.regs := rfl
@[simp] theorem State.fusionAcquire_hold (s : State) : (s.fusionAcquire).hold = s.hold := rfl
@[simp] theorem State.fusionAcquire_mem (s : State) : (s.fusionAcquire).mem = s.mem := rfl
@[simp] theorem State.fusionAcquire_ledger (s : State) : (s.fusionAcquire).ledger = s.ledger := rfl
@[simp] theorem State.fusionAcquire_ev (s : State) : (s.fusionAcquire).ev = s.ev := rfl
@[simp] theorem State.fusionAcquire_hp (s : State) : (s.fusionAcquire).hp = s.hp := rfl
@[simp] theorem State.fusionAcquire_pw (s : State) : (s.fusionAcquire).pw = s.pw := rfl
@[simp] theorem State.fusionAcquire_ck (s : State) : (s.fusionAcquire).ck = s.ck := rfl
@[simp] theorem State.fusionAcquire_sec (s : State) : (s.fusionAcquire).sec = s.sec := rfl
@[simp] theorem State.fusionAcquire_mills (s : State) : (s.fusionAcquire).mills = s.mills := rfl
@[simp] theorem State.fusionAcquire_leat (s : State) : (s.fusionAcquire).leat = s.leat := rfl
@[simp] theorem State.fusionAcquire_loader (s : State) : (s.fusionAcquire).loader = s.loader := rfl
@[simp] theorem State.fusionAcquire_ops (s : State) : (s.fusionAcquire).ops = s.ops := rfl
@[simp] theorem State.fusionAcquire_streams (s : State) : (s.fusionAcquire).streams = s.streams := rfl
@[simp] theorem State.fusionAcquire_tiers (s : State) : (s.fusionAcquire).tiers = s.tiers := rfl
@[simp] theorem State.fusionAcquire_bolters (s : State) : (s.fusionAcquire).bolters = s.bolters := rfl
@[simp] theorem State.fusionAcquire_gov (s : State) : (s.fusionAcquire).gov = s.gov := rfl
@[simp] theorem State.fusionAcquire_sol (s : State) : (s.fusionAcquire).sol = s.sol := rfl
@[simp] theorem State.fusionAcquire_tm (s : State) : (s.fusionAcquire).tm = s.tm := rfl
@[simp] theorem State.fusionAcquire_launch (s : State) : (s.fusionAcquire).launch = s.launch := rfl
@[simp] theorem State.fusionAcquire_px (s : State) : (s.fusionAcquire).px = s.px := rfl
@[simp] theorem State.fusionAcquire_sn (s : State) : (s.fusionAcquire).sn = s.sn := rfl
@[simp] theorem State.fusionAcquire_mr (s : State) : (s.fusionAcquire).mr = s.mr := rfl
@[simp] theorem State.fusionAcquire_freeN (s : State) : (s.fusionAcquire).freeN = s.freeN := rfl
@[simp] theorem State.fusionAcquire_pending (s : State) : (s.fusionAcquire).pending = s.pending := rfl

@[simp] theorem State.answer_regs (s : State) (ws : List Word) : (s.answer ws).regs = s.regs := rfl
@[simp] theorem State.answer_hold (s : State) (ws : List Word) : (s.answer ws).hold = s.hold := rfl
@[simp] theorem State.answer_mem (s : State) (ws : List Word) : (s.answer ws).mem = s.mem := rfl
@[simp] theorem State.answer_ledger (s : State) (ws : List Word) : (s.answer ws).ledger = s.ledger := rfl
@[simp] theorem State.answer_ev (s : State) (ws : List Word) : (s.answer ws).ev = s.ev := rfl
@[simp] theorem State.answer_pw (s : State) (ws : List Word) : (s.answer ws).pw = s.pw := rfl
@[simp] theorem State.answer_ck (s : State) (ws : List Word) : (s.answer ws).ck = s.ck := rfl
@[simp] theorem State.answer_sec (s : State) (ws : List Word) : (s.answer ws).sec = s.sec := rfl
@[simp] theorem State.answer_mills (s : State) (ws : List Word) : (s.answer ws).mills = s.mills := rfl
@[simp] theorem State.answer_leat (s : State) (ws : List Word) : (s.answer ws).leat = s.leat := rfl
@[simp] theorem State.answer_loader (s : State) (ws : List Word) : (s.answer ws).loader = s.loader := rfl
@[simp] theorem State.answer_ops (s : State) (ws : List Word) : (s.answer ws).ops = s.ops := rfl
@[simp] theorem State.answer_streams (s : State) (ws : List Word) : (s.answer ws).streams = s.streams := rfl
@[simp] theorem State.answer_tiers (s : State) (ws : List Word) : (s.answer ws).tiers = s.tiers := rfl
@[simp] theorem State.answer_bolters (s : State) (ws : List Word) : (s.answer ws).bolters = s.bolters := rfl
@[simp] theorem State.answer_gov (s : State) (ws : List Word) : (s.answer ws).gov = s.gov := rfl
@[simp] theorem State.answer_fus (s : State) (ws : List Word) : (s.answer ws).fus = s.fus := rfl
@[simp] theorem State.answer_sol (s : State) (ws : List Word) : (s.answer ws).sol = s.sol := rfl
@[simp] theorem State.answer_tm (s : State) (ws : List Word) : (s.answer ws).tm = s.tm := rfl
@[simp] theorem State.answer_launch (s : State) (ws : List Word) : (s.answer ws).launch = s.launch := rfl
@[simp] theorem State.answer_px (s : State) (ws : List Word) : (s.answer ws).px = s.px := rfl
@[simp] theorem State.answer_sn (s : State) (ws : List Word) : (s.answer ws).sn = s.sn := rfl
@[simp] theorem State.answer_mr (s : State) (ws : List Word) : (s.answer ws).mr = s.mr := rfl
@[simp] theorem State.answer_freeN (s : State) (ws : List Word) : (s.answer ws).freeN = s.freeN := rfl
@[simp] theorem State.answer_pending (s : State) (ws : List Word) : (s.answer ws).pending = s.pending := rfl

@[simp] theorem State.setPrefill_regs (s : State) (m b : Nat) (l : List PrefillItem) : (s.setPrefill m b l).regs = s.regs := rfl
@[simp] theorem State.setPrefill_hold (s : State) (m b : Nat) (l : List PrefillItem) : (s.setPrefill m b l).hold = s.hold := rfl
@[simp] theorem State.setPrefill_mem (s : State) (m b : Nat) (l : List PrefillItem) : (s.setPrefill m b l).mem = s.mem := rfl
@[simp] theorem State.setPrefill_ledger (s : State) (m b : Nat) (l : List PrefillItem) : (s.setPrefill m b l).ledger = s.ledger := rfl
@[simp] theorem State.setPrefill_ev (s : State) (m b : Nat) (l : List PrefillItem) : (s.setPrefill m b l).ev = s.ev := rfl
@[simp] theorem State.setPrefill_hp (s : State) (m b : Nat) (l : List PrefillItem) : (s.setPrefill m b l).hp = s.hp := rfl
@[simp] theorem State.setPrefill_pw (s : State) (m b : Nat) (l : List PrefillItem) : (s.setPrefill m b l).pw = s.pw := rfl
@[simp] theorem State.setPrefill_ck (s : State) (m b : Nat) (l : List PrefillItem) : (s.setPrefill m b l).ck = s.ck := rfl
@[simp] theorem State.setPrefill_sec (s : State) (m b : Nat) (l : List PrefillItem) : (s.setPrefill m b l).sec = s.sec := rfl
@[simp] theorem State.setPrefill_mills (s : State) (m b : Nat) (l : List PrefillItem) : (s.setPrefill m b l).mills = s.mills := rfl
@[simp] theorem State.setPrefill_leat (s : State) (m b : Nat) (l : List PrefillItem) : (s.setPrefill m b l).leat = s.leat := rfl
@[simp] theorem State.setPrefill_loader (s : State) (m b : Nat) (l : List PrefillItem) : (s.setPrefill m b l).loader = s.loader := rfl
@[simp] theorem State.setPrefill_streams (s : State) (m b : Nat) (l : List PrefillItem) : (s.setPrefill m b l).streams = s.streams := rfl
@[simp] theorem State.setPrefill_tiers (s : State) (m b : Nat) (l : List PrefillItem) : (s.setPrefill m b l).tiers = s.tiers := rfl
@[simp] theorem State.setPrefill_bolters (s : State) (m b : Nat) (l : List PrefillItem) : (s.setPrefill m b l).bolters = s.bolters := rfl
@[simp] theorem State.setPrefill_gov (s : State) (m b : Nat) (l : List PrefillItem) : (s.setPrefill m b l).gov = s.gov := rfl
@[simp] theorem State.setPrefill_fus (s : State) (m b : Nat) (l : List PrefillItem) : (s.setPrefill m b l).fus = s.fus := rfl
@[simp] theorem State.setPrefill_sol (s : State) (m b : Nat) (l : List PrefillItem) : (s.setPrefill m b l).sol = s.sol := rfl
@[simp] theorem State.setPrefill_tm (s : State) (m b : Nat) (l : List PrefillItem) : (s.setPrefill m b l).tm = s.tm := rfl
@[simp] theorem State.setPrefill_launch (s : State) (m b : Nat) (l : List PrefillItem) : (s.setPrefill m b l).launch = s.launch := rfl
@[simp] theorem State.setPrefill_px (s : State) (m b : Nat) (l : List PrefillItem) : (s.setPrefill m b l).px = s.px := rfl
@[simp] theorem State.setPrefill_sn (s : State) (m b : Nat) (l : List PrefillItem) : (s.setPrefill m b l).sn = s.sn := rfl
@[simp] theorem State.setPrefill_mr (s : State) (m b : Nat) (l : List PrefillItem) : (s.setPrefill m b l).mr = s.mr := rfl
@[simp] theorem State.setPrefill_freeN (s : State) (m b : Nat) (l : List PrefillItem) : (s.setPrefill m b l).freeN = s.freeN := rfl
@[simp] theorem State.setPrefill_pending (s : State) (m b : Nat) (l : List PrefillItem) : (s.setPrefill m b l).pending = s.pending := rfl

@[simp] theorem State.arrive_regs (s : State) (p : Parcel) : (s.arrive p).regs = s.regs := rfl
@[simp] theorem State.arrive_hold (s : State) (p : Parcel) : (s.arrive p).hold = s.hold := rfl
@[simp] theorem State.arrive_mem (s : State) (p : Parcel) : (s.arrive p).mem = s.mem := rfl
@[simp] theorem State.arrive_ledger (s : State) (p : Parcel) : (s.arrive p).ledger = s.ledger := rfl
@[simp] theorem State.arrive_ev (s : State) (p : Parcel) : (s.arrive p).ev = s.ev := rfl
@[simp] theorem State.arrive_hp (s : State) (p : Parcel) : (s.arrive p).hp = s.hp := rfl
@[simp] theorem State.arrive_pw (s : State) (p : Parcel) : (s.arrive p).pw = s.pw := rfl
@[simp] theorem State.arrive_ck (s : State) (p : Parcel) : (s.arrive p).ck = s.ck := rfl
@[simp] theorem State.arrive_sec (s : State) (p : Parcel) : (s.arrive p).sec = s.sec := rfl
@[simp] theorem State.arrive_mills (s : State) (p : Parcel) : (s.arrive p).mills = s.mills := rfl
@[simp] theorem State.arrive_loader (s : State) (p : Parcel) : (s.arrive p).loader = s.loader := rfl
@[simp] theorem State.arrive_ops (s : State) (p : Parcel) : (s.arrive p).ops = s.ops := rfl
@[simp] theorem State.arrive_streams (s : State) (p : Parcel) : (s.arrive p).streams = s.streams := rfl
@[simp] theorem State.arrive_tiers (s : State) (p : Parcel) : (s.arrive p).tiers = s.tiers := rfl
@[simp] theorem State.arrive_bolters (s : State) (p : Parcel) : (s.arrive p).bolters = s.bolters := rfl
@[simp] theorem State.arrive_gov (s : State) (p : Parcel) : (s.arrive p).gov = s.gov := rfl
@[simp] theorem State.arrive_fus (s : State) (p : Parcel) : (s.arrive p).fus = s.fus := rfl
@[simp] theorem State.arrive_sol (s : State) (p : Parcel) : (s.arrive p).sol = s.sol := rfl
@[simp] theorem State.arrive_tm (s : State) (p : Parcel) : (s.arrive p).tm = s.tm := rfl
@[simp] theorem State.arrive_launch (s : State) (p : Parcel) : (s.arrive p).launch = s.launch := rfl
@[simp] theorem State.arrive_px (s : State) (p : Parcel) : (s.arrive p).px = s.px := rfl
@[simp] theorem State.arrive_sn (s : State) (p : Parcel) : (s.arrive p).sn = s.sn := rfl
@[simp] theorem State.arrive_mr (s : State) (p : Parcel) : (s.arrive p).mr = s.mr := rfl
@[simp] theorem State.arrive_freeN (s : State) (p : Parcel) : (s.arrive p).freeN = s.freeN := rfl
@[simp] theorem State.arrive_pending (s : State) (p : Parcel) : (s.arrive p).pending = s.pending := rfl

@[simp] theorem State.passTick_regs (s : State) (t : Nat) : (s.passTick t).regs = s.regs := rfl
@[simp] theorem State.passTick_hold (s : State) (t : Nat) : (s.passTick t).hold = s.hold := rfl
@[simp] theorem State.passTick_mem (s : State) (t : Nat) : (s.passTick t).mem = s.mem := rfl
@[simp] theorem State.passTick_ledger (s : State) (t : Nat) : (s.passTick t).ledger = s.ledger := rfl
@[simp] theorem State.passTick_ev (s : State) (t : Nat) : (s.passTick t).ev = s.ev := rfl
@[simp] theorem State.passTick_hp (s : State) (t : Nat) : (s.passTick t).hp = s.hp := rfl
@[simp] theorem State.passTick_pw (s : State) (t : Nat) : (s.passTick t).pw = s.pw := rfl
@[simp] theorem State.passTick_ck (s : State) (t : Nat) : (s.passTick t).ck = s.ck := rfl
@[simp] theorem State.passTick_sec (s : State) (t : Nat) : (s.passTick t).sec = s.sec := rfl
@[simp] theorem State.passTick_mills (s : State) (t : Nat) : (s.passTick t).mills = s.mills := rfl
@[simp] theorem State.passTick_leat (s : State) (t : Nat) : (s.passTick t).leat = s.leat := rfl
@[simp] theorem State.passTick_loader (s : State) (t : Nat) : (s.passTick t).loader = s.loader := rfl
@[simp] theorem State.passTick_ops (s : State) (t : Nat) : (s.passTick t).ops = s.ops := rfl
@[simp] theorem State.passTick_streams (s : State) (t : Nat) : (s.passTick t).streams = s.streams := rfl
@[simp] theorem State.passTick_tiers (s : State) (t : Nat) : (s.passTick t).tiers = s.tiers := rfl
@[simp] theorem State.passTick_bolters (s : State) (t : Nat) : (s.passTick t).bolters = s.bolters := rfl
@[simp] theorem State.passTick_gov (s : State) (t : Nat) : (s.passTick t).gov = s.gov := rfl
@[simp] theorem State.passTick_fus (s : State) (t : Nat) : (s.passTick t).fus = s.fus := rfl
@[simp] theorem State.passTick_sol (s : State) (t : Nat) : (s.passTick t).sol = s.sol := rfl
@[simp] theorem State.passTick_launch (s : State) (t : Nat) : (s.passTick t).launch = s.launch := rfl
@[simp] theorem State.passTick_px (s : State) (t : Nat) : (s.passTick t).px = s.px := rfl
@[simp] theorem State.passTick_sn (s : State) (t : Nat) : (s.passTick t).sn = s.sn := rfl
@[simp] theorem State.passTick_mr (s : State) (t : Nat) : (s.passTick t).mr = s.mr := rfl
@[simp] theorem State.passTick_freeN (s : State) (t : Nat) : (s.passTick t).freeN = s.freeN := rfl
@[simp] theorem State.passTick_pending (s : State) (t : Nat) : (s.passTick t).pending = s.pending := rfl

@[simp] theorem State.orphanRequests_regs (s : State) : (s.orphanRequests).regs = s.regs := rfl
@[simp] theorem State.orphanRequests_hold (s : State) : (s.orphanRequests).hold = s.hold := rfl
@[simp] theorem State.orphanRequests_mem (s : State) : (s.orphanRequests).mem = s.mem := rfl
@[simp] theorem State.orphanRequests_ledger (s : State) : (s.orphanRequests).ledger = s.ledger := rfl
@[simp] theorem State.orphanRequests_ev (s : State) : (s.orphanRequests).ev = s.ev := rfl
@[simp] theorem State.orphanRequests_pw (s : State) : (s.orphanRequests).pw = s.pw := rfl
@[simp] theorem State.orphanRequests_ck (s : State) : (s.orphanRequests).ck = s.ck := rfl
@[simp] theorem State.orphanRequests_sec (s : State) : (s.orphanRequests).sec = s.sec := rfl
@[simp] theorem State.orphanRequests_mills (s : State) : (s.orphanRequests).mills = s.mills := rfl
@[simp] theorem State.orphanRequests_leat (s : State) : (s.orphanRequests).leat = s.leat := rfl
@[simp] theorem State.orphanRequests_loader (s : State) : (s.orphanRequests).loader = s.loader := rfl
@[simp] theorem State.orphanRequests_gov (s : State) : (s.orphanRequests).gov = s.gov := rfl
@[simp] theorem State.orphanRequests_fus (s : State) : (s.orphanRequests).fus = s.fus := rfl
@[simp] theorem State.orphanRequests_sol (s : State) : (s.orphanRequests).sol = s.sol := rfl
@[simp] theorem State.orphanRequests_tm (s : State) : (s.orphanRequests).tm = s.tm := rfl
@[simp] theorem State.orphanRequests_launch (s : State) : (s.orphanRequests).launch = s.launch := rfl
@[simp] theorem State.orphanRequests_px (s : State) : (s.orphanRequests).px = s.px := rfl
@[simp] theorem State.orphanRequests_sn (s : State) : (s.orphanRequests).sn = s.sn := rfl
@[simp] theorem State.orphanRequests_mr (s : State) : (s.orphanRequests).mr = s.mr := rfl
@[simp] theorem State.orphanRequests_freeN (s : State) : (s.orphanRequests).freeN = s.freeN := rfl
@[simp] theorem State.orphanRequests_pending (s : State) : (s.orphanRequests).pending = s.pending := rfl

@[simp] theorem State.preloadFrom_regs (s : State) (n : Nat) : (s.preloadFrom n).regs = s.regs := rfl
@[simp] theorem State.preloadFrom_hold (s : State) (n : Nat) : (s.preloadFrom n).hold = s.hold := rfl
@[simp] theorem State.preloadFrom_mem (s : State) (n : Nat) : (s.preloadFrom n).mem = s.mem := rfl
@[simp] theorem State.preloadFrom_ledger (s : State) (n : Nat) : (s.preloadFrom n).ledger = s.ledger := rfl
@[simp] theorem State.preloadFrom_ev (s : State) (n : Nat) : (s.preloadFrom n).ev = s.ev := rfl
@[simp] theorem State.preloadFrom_hp (s : State) (n : Nat) : (s.preloadFrom n).hp = s.hp := rfl
@[simp] theorem State.preloadFrom_pw (s : State) (n : Nat) : (s.preloadFrom n).pw = s.pw := rfl
@[simp] theorem State.preloadFrom_ck (s : State) (n : Nat) : (s.preloadFrom n).ck = s.ck := rfl
@[simp] theorem State.preloadFrom_sec (s : State) (n : Nat) : (s.preloadFrom n).sec = s.sec := rfl
@[simp] theorem State.preloadFrom_mills (s : State) (n : Nat) : (s.preloadFrom n).mills = s.mills := rfl
@[simp] theorem State.preloadFrom_leat (s : State) (n : Nat) : (s.preloadFrom n).leat = s.leat := rfl
@[simp] theorem State.preloadFrom_ops (s : State) (n : Nat) : (s.preloadFrom n).ops = s.ops := rfl
@[simp] theorem State.preloadFrom_streams (s : State) (n : Nat) : (s.preloadFrom n).streams = s.streams := rfl
@[simp] theorem State.preloadFrom_tiers (s : State) (n : Nat) : (s.preloadFrom n).tiers = s.tiers := rfl
@[simp] theorem State.preloadFrom_bolters (s : State) (n : Nat) : (s.preloadFrom n).bolters = s.bolters := rfl
@[simp] theorem State.preloadFrom_gov (s : State) (n : Nat) : (s.preloadFrom n).gov = s.gov := rfl
@[simp] theorem State.preloadFrom_fus (s : State) (n : Nat) : (s.preloadFrom n).fus = s.fus := rfl
@[simp] theorem State.preloadFrom_sol (s : State) (n : Nat) : (s.preloadFrom n).sol = s.sol := rfl
@[simp] theorem State.preloadFrom_tm (s : State) (n : Nat) : (s.preloadFrom n).tm = s.tm := rfl
@[simp] theorem State.preloadFrom_launch (s : State) (n : Nat) : (s.preloadFrom n).launch = s.launch := rfl
@[simp] theorem State.preloadFrom_px (s : State) (n : Nat) : (s.preloadFrom n).px = s.px := rfl
@[simp] theorem State.preloadFrom_sn (s : State) (n : Nat) : (s.preloadFrom n).sn = s.sn := rfl
@[simp] theorem State.preloadFrom_mr (s : State) (n : Nat) : (s.preloadFrom n).mr = s.mr := rfl
@[simp] theorem State.preloadFrom_freeN (s : State) (n : Nat) : (s.preloadFrom n).freeN = s.freeN := rfl
@[simp] theorem State.preloadFrom_pending (s : State) (n : Nat) : (s.preloadFrom n).pending = s.pending := rfl

@[simp] theorem State.openEdge_regs (s : State) : (s.openEdge).regs = s.regs := rfl
@[simp] theorem State.openEdge_hold (s : State) : (s.openEdge).hold = s.hold := rfl
@[simp] theorem State.openEdge_mem (s : State) : (s.openEdge).mem = s.mem := rfl
@[simp] theorem State.openEdge_ledger (s : State) : (s.openEdge).ledger = s.ledger := rfl
@[simp] theorem State.openEdge_ev (s : State) : (s.openEdge).ev = s.ev := rfl
@[simp] theorem State.openEdge_hp (s : State) : (s.openEdge).hp = s.hp := rfl
@[simp] theorem State.openEdge_pw (s : State) : (s.openEdge).pw = s.pw := rfl
@[simp] theorem State.openEdge_ck (s : State) : (s.openEdge).ck = s.ck := rfl
@[simp] theorem State.openEdge_sec (s : State) : (s.openEdge).sec = s.sec := rfl
@[simp] theorem State.openEdge_mills (s : State) : (s.openEdge).mills = s.mills := rfl
@[simp] theorem State.openEdge_loader (s : State) : (s.openEdge).loader = s.loader := rfl
@[simp] theorem State.openEdge_ops (s : State) : (s.openEdge).ops = s.ops := rfl
@[simp] theorem State.openEdge_streams (s : State) : (s.openEdge).streams = s.streams := rfl
@[simp] theorem State.openEdge_tiers (s : State) : (s.openEdge).tiers = s.tiers := rfl
@[simp] theorem State.openEdge_bolters (s : State) : (s.openEdge).bolters = s.bolters := rfl
@[simp] theorem State.openEdge_gov (s : State) : (s.openEdge).gov = s.gov := rfl
@[simp] theorem State.openEdge_fus (s : State) : (s.openEdge).fus = s.fus := rfl
@[simp] theorem State.openEdge_sol (s : State) : (s.openEdge).sol = s.sol := rfl
@[simp] theorem State.openEdge_tm (s : State) : (s.openEdge).tm = s.tm := rfl
@[simp] theorem State.openEdge_launch (s : State) : (s.openEdge).launch = s.launch := rfl
@[simp] theorem State.openEdge_px (s : State) : (s.openEdge).px = s.px := rfl
@[simp] theorem State.openEdge_sn (s : State) : (s.openEdge).sn = s.sn := rfl
@[simp] theorem State.openEdge_mr (s : State) : (s.openEdge).mr = s.mr := rfl
@[simp] theorem State.openEdge_freeN (s : State) : (s.openEdge).freeN = s.freeN := rfl
@[simp] theorem State.openEdge_pending (s : State) : (s.openEdge).pending = s.pending := rfl

@[simp] theorem State.ldTimed_regs (s : State) (kind : Nat) : (s.ldTimed kind).regs = s.regs := rfl
@[simp] theorem State.ldTimed_hold (s : State) (kind : Nat) : (s.ldTimed kind).hold = s.hold := rfl
@[simp] theorem State.ldTimed_mem (s : State) (kind : Nat) : (s.ldTimed kind).mem = s.mem := rfl
@[simp] theorem State.ldTimed_ledger (s : State) (kind : Nat) : (s.ldTimed kind).ledger = s.ledger := rfl
@[simp] theorem State.ldTimed_ev (s : State) (kind : Nat) : (s.ldTimed kind).ev = s.ev := rfl
@[simp] theorem State.ldTimed_hp (s : State) (kind : Nat) : (s.ldTimed kind).hp = s.hp := rfl
@[simp] theorem State.ldTimed_pw (s : State) (kind : Nat) : (s.ldTimed kind).pw = s.pw := rfl
@[simp] theorem State.ldTimed_ck (s : State) (kind : Nat) : (s.ldTimed kind).ck = s.ck := rfl
@[simp] theorem State.ldTimed_sec (s : State) (kind : Nat) : (s.ldTimed kind).sec = s.sec := rfl
@[simp] theorem State.ldTimed_mills (s : State) (kind : Nat) : (s.ldTimed kind).mills = s.mills := rfl
@[simp] theorem State.ldTimed_leat (s : State) (kind : Nat) : (s.ldTimed kind).leat = s.leat := rfl
@[simp] theorem State.ldTimed_ops (s : State) (kind : Nat) : (s.ldTimed kind).ops = s.ops := rfl
@[simp] theorem State.ldTimed_streams (s : State) (kind : Nat) : (s.ldTimed kind).streams = s.streams := rfl
@[simp] theorem State.ldTimed_tiers (s : State) (kind : Nat) : (s.ldTimed kind).tiers = s.tiers := rfl
@[simp] theorem State.ldTimed_bolters (s : State) (kind : Nat) : (s.ldTimed kind).bolters = s.bolters := rfl
@[simp] theorem State.ldTimed_gov (s : State) (kind : Nat) : (s.ldTimed kind).gov = s.gov := rfl
@[simp] theorem State.ldTimed_fus (s : State) (kind : Nat) : (s.ldTimed kind).fus = s.fus := rfl
@[simp] theorem State.ldTimed_sol (s : State) (kind : Nat) : (s.ldTimed kind).sol = s.sol := rfl
@[simp] theorem State.ldTimed_tm (s : State) (kind : Nat) : (s.ldTimed kind).tm = s.tm := rfl
@[simp] theorem State.ldTimed_launch (s : State) (kind : Nat) : (s.ldTimed kind).launch = s.launch := rfl
@[simp] theorem State.ldTimed_px (s : State) (kind : Nat) : (s.ldTimed kind).px = s.px := rfl
@[simp] theorem State.ldTimed_sn (s : State) (kind : Nat) : (s.ldTimed kind).sn = s.sn := rfl
@[simp] theorem State.ldTimed_mr (s : State) (kind : Nat) : (s.ldTimed kind).mr = s.mr := rfl
@[simp] theorem State.ldTimed_freeN (s : State) (kind : Nat) : (s.ldTimed kind).freeN = s.freeN := rfl
@[simp] theorem State.ldTimed_pending (s : State) (kind : Nat) : (s.ldTimed kind).pending = s.pending := rfl

@[simp] theorem State.ldRun_regs (s : State) (st : LoaderState) (step m : Nat) : (s.ldRun st step m).regs = s.regs := rfl
@[simp] theorem State.ldRun_hold (s : State) (st : LoaderState) (step m : Nat) : (s.ldRun st step m).hold = s.hold := rfl
@[simp] theorem State.ldRun_mem (s : State) (st : LoaderState) (step m : Nat) : (s.ldRun st step m).mem = s.mem := rfl
@[simp] theorem State.ldRun_ledger (s : State) (st : LoaderState) (step m : Nat) : (s.ldRun st step m).ledger = s.ledger := rfl
@[simp] theorem State.ldRun_ev (s : State) (st : LoaderState) (step m : Nat) : (s.ldRun st step m).ev = s.ev := rfl
@[simp] theorem State.ldRun_hp (s : State) (st : LoaderState) (step m : Nat) : (s.ldRun st step m).hp = s.hp := rfl
@[simp] theorem State.ldRun_pw (s : State) (st : LoaderState) (step m : Nat) : (s.ldRun st step m).pw = s.pw := rfl
@[simp] theorem State.ldRun_ck (s : State) (st : LoaderState) (step m : Nat) : (s.ldRun st step m).ck = s.ck := rfl
@[simp] theorem State.ldRun_sec (s : State) (st : LoaderState) (step m : Nat) : (s.ldRun st step m).sec = s.sec := rfl
@[simp] theorem State.ldRun_mills (s : State) (st : LoaderState) (step m : Nat) : (s.ldRun st step m).mills = s.mills := rfl
@[simp] theorem State.ldRun_leat (s : State) (st : LoaderState) (step m : Nat) : (s.ldRun st step m).leat = s.leat := rfl
@[simp] theorem State.ldRun_ops (s : State) (st : LoaderState) (step m : Nat) : (s.ldRun st step m).ops = s.ops := rfl
@[simp] theorem State.ldRun_streams (s : State) (st : LoaderState) (step m : Nat) : (s.ldRun st step m).streams = s.streams := rfl
@[simp] theorem State.ldRun_tiers (s : State) (st : LoaderState) (step m : Nat) : (s.ldRun st step m).tiers = s.tiers := rfl
@[simp] theorem State.ldRun_bolters (s : State) (st : LoaderState) (step m : Nat) : (s.ldRun st step m).bolters = s.bolters := rfl
@[simp] theorem State.ldRun_gov (s : State) (st : LoaderState) (step m : Nat) : (s.ldRun st step m).gov = s.gov := rfl
@[simp] theorem State.ldRun_fus (s : State) (st : LoaderState) (step m : Nat) : (s.ldRun st step m).fus = s.fus := rfl
@[simp] theorem State.ldRun_sol (s : State) (st : LoaderState) (step m : Nat) : (s.ldRun st step m).sol = s.sol := rfl
@[simp] theorem State.ldRun_tm (s : State) (st : LoaderState) (step m : Nat) : (s.ldRun st step m).tm = s.tm := rfl
@[simp] theorem State.ldRun_launch (s : State) (st : LoaderState) (step m : Nat) : (s.ldRun st step m).launch = s.launch := rfl
@[simp] theorem State.ldRun_px (s : State) (st : LoaderState) (step m : Nat) : (s.ldRun st step m).px = s.px := rfl
@[simp] theorem State.ldRun_sn (s : State) (st : LoaderState) (step m : Nat) : (s.ldRun st step m).sn = s.sn := rfl
@[simp] theorem State.ldRun_mr (s : State) (st : LoaderState) (step m : Nat) : (s.ldRun st step m).mr = s.mr := rfl
@[simp] theorem State.ldRun_freeN (s : State) (st : LoaderState) (step m : Nat) : (s.ldRun st step m).freeN = s.freeN := rfl
@[simp] theorem State.ldRun_pending (s : State) (st : LoaderState) (step m : Nat) : (s.ldRun st step m).pending = s.pending := rfl

@[simp] theorem State.adopted_regs (s : State) (x : Section) : (s.adopted x).regs = s.regs := rfl
@[simp] theorem State.adopted_hold (s : State) (x : Section) : (s.adopted x).hold = s.hold := rfl
@[simp] theorem State.adopted_mem (s : State) (x : Section) : (s.adopted x).mem = s.mem := rfl
@[simp] theorem State.adopted_ledger (s : State) (x : Section) : (s.adopted x).ledger = s.ledger := rfl
@[simp] theorem State.adopted_ev (s : State) (x : Section) : (s.adopted x).ev = s.ev := rfl
@[simp] theorem State.adopted_hp (s : State) (x : Section) : (s.adopted x).hp = s.hp := rfl
@[simp] theorem State.adopted_pw (s : State) (x : Section) : (s.adopted x).pw = s.pw := rfl
@[simp] theorem State.adopted_ck (s : State) (x : Section) : (s.adopted x).ck = s.ck := rfl
@[simp] theorem State.adopted_sec (s : State) (x : Section) : (s.adopted x).sec = s.sec := rfl
@[simp] theorem State.adopted_mills (s : State) (x : Section) : (s.adopted x).mills = s.mills := rfl
@[simp] theorem State.adopted_leat (s : State) (x : Section) : (s.adopted x).leat = s.leat := rfl
@[simp] theorem State.adopted_ops (s : State) (x : Section) : (s.adopted x).ops = s.ops := rfl
@[simp] theorem State.adopted_streams (s : State) (x : Section) : (s.adopted x).streams = s.streams := rfl
@[simp] theorem State.adopted_tiers (s : State) (x : Section) : (s.adopted x).tiers = s.tiers := rfl
@[simp] theorem State.adopted_bolters (s : State) (x : Section) : (s.adopted x).bolters = s.bolters := rfl
@[simp] theorem State.adopted_gov (s : State) (x : Section) : (s.adopted x).gov = s.gov := rfl
@[simp] theorem State.adopted_fus (s : State) (x : Section) : (s.adopted x).fus = s.fus := rfl
@[simp] theorem State.adopted_sol (s : State) (x : Section) : (s.adopted x).sol = s.sol := rfl
@[simp] theorem State.adopted_tm (s : State) (x : Section) : (s.adopted x).tm = s.tm := rfl
@[simp] theorem State.adopted_launch (s : State) (x : Section) : (s.adopted x).launch = s.launch := rfl
@[simp] theorem State.adopted_px (s : State) (x : Section) : (s.adopted x).px = s.px := rfl
@[simp] theorem State.adopted_sn (s : State) (x : Section) : (s.adopted x).sn = s.sn := rfl
@[simp] theorem State.adopted_mr (s : State) (x : Section) : (s.adopted x).mr = s.mr := rfl
@[simp] theorem State.adopted_freeN (s : State) (x : Section) : (s.adopted x).freeN = s.freeN := rfl
@[simp] theorem State.adopted_pending (s : State) (x : Section) : (s.adopted x).pending = s.pending := rfl

@[simp] theorem State.ldDone_hold (s : State) : (s.ldDone).hold = s.hold := rfl
@[simp] theorem State.ldDone_mem (s : State) : (s.ldDone).mem = s.mem := rfl
@[simp] theorem State.ldDone_ledger (s : State) : (s.ldDone).ledger = s.ledger := rfl
@[simp] theorem State.ldDone_ev (s : State) : (s.ldDone).ev = s.ev := rfl
@[simp] theorem State.ldDone_hp (s : State) : (s.ldDone).hp = s.hp := rfl
@[simp] theorem State.ldDone_pw (s : State) : (s.ldDone).pw = s.pw := rfl
@[simp] theorem State.ldDone_ck (s : State) : (s.ldDone).ck = s.ck := rfl
@[simp] theorem State.ldDone_sec (s : State) : (s.ldDone).sec = s.sec := rfl
@[simp] theorem State.ldDone_mills (s : State) : (s.ldDone).mills = s.mills := rfl
@[simp] theorem State.ldDone_leat (s : State) : (s.ldDone).leat = s.leat := rfl
@[simp] theorem State.ldDone_ops (s : State) : (s.ldDone).ops = s.ops := rfl
@[simp] theorem State.ldDone_streams (s : State) : (s.ldDone).streams = s.streams := rfl
@[simp] theorem State.ldDone_tiers (s : State) : (s.ldDone).tiers = s.tiers := rfl
@[simp] theorem State.ldDone_bolters (s : State) : (s.ldDone).bolters = s.bolters := rfl
@[simp] theorem State.ldDone_gov (s : State) : (s.ldDone).gov = s.gov := rfl
@[simp] theorem State.ldDone_fus (s : State) : (s.ldDone).fus = s.fus := rfl
@[simp] theorem State.ldDone_sol (s : State) : (s.ldDone).sol = s.sol := rfl
@[simp] theorem State.ldDone_tm (s : State) : (s.ldDone).tm = s.tm := rfl
@[simp] theorem State.ldDone_launch (s : State) : (s.ldDone).launch = s.launch := rfl
@[simp] theorem State.ldDone_px (s : State) : (s.ldDone).px = s.px := rfl
@[simp] theorem State.ldDone_sn (s : State) : (s.ldDone).sn = s.sn := rfl
@[simp] theorem State.ldDone_mr (s : State) : (s.ldDone).mr = s.mr := rfl
@[simp] theorem State.ldDone_freeN (s : State) : (s.ldDone).freeN = s.freeN := rfl
@[simp] theorem State.ldDone_pending (s : State) : (s.ldDone).pending = s.pending := rfl

@[simp] theorem State.enqueue_regs (s : State) (m : Nat) (f : PxFrame) : (s.enqueue m f).regs = s.regs := rfl
@[simp] theorem State.enqueue_hold (s : State) (m : Nat) (f : PxFrame) : (s.enqueue m f).hold = s.hold := rfl
@[simp] theorem State.enqueue_mem (s : State) (m : Nat) (f : PxFrame) : (s.enqueue m f).mem = s.mem := rfl
@[simp] theorem State.enqueue_ledger (s : State) (m : Nat) (f : PxFrame) : (s.enqueue m f).ledger = s.ledger := rfl
@[simp] theorem State.enqueue_ev (s : State) (m : Nat) (f : PxFrame) : (s.enqueue m f).ev = s.ev := rfl
@[simp] theorem State.enqueue_hp (s : State) (m : Nat) (f : PxFrame) : (s.enqueue m f).hp = s.hp := rfl
@[simp] theorem State.enqueue_pw (s : State) (m : Nat) (f : PxFrame) : (s.enqueue m f).pw = s.pw := rfl
@[simp] theorem State.enqueue_ck (s : State) (m : Nat) (f : PxFrame) : (s.enqueue m f).ck = s.ck := rfl
@[simp] theorem State.enqueue_sec (s : State) (m : Nat) (f : PxFrame) : (s.enqueue m f).sec = s.sec := rfl
@[simp] theorem State.enqueue_mills (s : State) (m : Nat) (f : PxFrame) : (s.enqueue m f).mills = s.mills := rfl
@[simp] theorem State.enqueue_leat (s : State) (m : Nat) (f : PxFrame) : (s.enqueue m f).leat = s.leat := rfl
@[simp] theorem State.enqueue_loader (s : State) (m : Nat) (f : PxFrame) : (s.enqueue m f).loader = s.loader := rfl
@[simp] theorem State.enqueue_ops (s : State) (m : Nat) (f : PxFrame) : (s.enqueue m f).ops = s.ops := rfl
@[simp] theorem State.enqueue_streams (s : State) (m : Nat) (f : PxFrame) : (s.enqueue m f).streams = s.streams := rfl
@[simp] theorem State.enqueue_tiers (s : State) (m : Nat) (f : PxFrame) : (s.enqueue m f).tiers = s.tiers := rfl
@[simp] theorem State.enqueue_bolters (s : State) (m : Nat) (f : PxFrame) : (s.enqueue m f).bolters = s.bolters := rfl
@[simp] theorem State.enqueue_gov (s : State) (m : Nat) (f : PxFrame) : (s.enqueue m f).gov = s.gov := rfl
@[simp] theorem State.enqueue_fus (s : State) (m : Nat) (f : PxFrame) : (s.enqueue m f).fus = s.fus := rfl
@[simp] theorem State.enqueue_sol (s : State) (m : Nat) (f : PxFrame) : (s.enqueue m f).sol = s.sol := rfl
@[simp] theorem State.enqueue_tm (s : State) (m : Nat) (f : PxFrame) : (s.enqueue m f).tm = s.tm := rfl
@[simp] theorem State.enqueue_launch (s : State) (m : Nat) (f : PxFrame) : (s.enqueue m f).launch = s.launch := rfl
@[simp] theorem State.enqueue_sn (s : State) (m : Nat) (f : PxFrame) : (s.enqueue m f).sn = s.sn := rfl
@[simp] theorem State.enqueue_mr (s : State) (m : Nat) (f : PxFrame) : (s.enqueue m f).mr = s.mr := rfl
@[simp] theorem State.enqueue_freeN (s : State) (m : Nat) (f : PxFrame) : (s.enqueue m f).freeN = s.freeN := rfl
@[simp] theorem State.enqueue_pending (s : State) (m : Nat) (f : PxFrame) : (s.enqueue m f).pending = s.pending := rfl

@[simp] theorem State.holdDomain_regs (s : State) (d : Nat) : (s.holdDomain d).regs = s.regs := rfl
@[simp] theorem State.holdDomain_hold (s : State) (d : Nat) : (s.holdDomain d).hold = s.hold := rfl
@[simp] theorem State.holdDomain_mem (s : State) (d : Nat) : (s.holdDomain d).mem = s.mem := rfl
@[simp] theorem State.holdDomain_ledger (s : State) (d : Nat) : (s.holdDomain d).ledger = s.ledger := rfl
@[simp] theorem State.holdDomain_ev (s : State) (d : Nat) : (s.holdDomain d).ev = s.ev := rfl
@[simp] theorem State.holdDomain_hp (s : State) (d : Nat) : (s.holdDomain d).hp = s.hp := rfl
@[simp] theorem State.holdDomain_pw (s : State) (d : Nat) : (s.holdDomain d).pw = s.pw := rfl
@[simp] theorem State.holdDomain_sec (s : State) (d : Nat) : (s.holdDomain d).sec = s.sec := rfl
@[simp] theorem State.holdDomain_mills (s : State) (d : Nat) : (s.holdDomain d).mills = s.mills := rfl
@[simp] theorem State.holdDomain_leat (s : State) (d : Nat) : (s.holdDomain d).leat = s.leat := rfl
@[simp] theorem State.holdDomain_loader (s : State) (d : Nat) : (s.holdDomain d).loader = s.loader := rfl
@[simp] theorem State.holdDomain_ops (s : State) (d : Nat) : (s.holdDomain d).ops = s.ops := rfl
@[simp] theorem State.holdDomain_streams (s : State) (d : Nat) : (s.holdDomain d).streams = s.streams := rfl
@[simp] theorem State.holdDomain_tiers (s : State) (d : Nat) : (s.holdDomain d).tiers = s.tiers := rfl
@[simp] theorem State.holdDomain_bolters (s : State) (d : Nat) : (s.holdDomain d).bolters = s.bolters := rfl
@[simp] theorem State.holdDomain_gov (s : State) (d : Nat) : (s.holdDomain d).gov = s.gov := rfl
@[simp] theorem State.holdDomain_fus (s : State) (d : Nat) : (s.holdDomain d).fus = s.fus := rfl
@[simp] theorem State.holdDomain_sol (s : State) (d : Nat) : (s.holdDomain d).sol = s.sol := rfl
@[simp] theorem State.holdDomain_tm (s : State) (d : Nat) : (s.holdDomain d).tm = s.tm := rfl
@[simp] theorem State.holdDomain_launch (s : State) (d : Nat) : (s.holdDomain d).launch = s.launch := rfl
@[simp] theorem State.holdDomain_px (s : State) (d : Nat) : (s.holdDomain d).px = s.px := rfl
@[simp] theorem State.holdDomain_sn (s : State) (d : Nat) : (s.holdDomain d).sn = s.sn := rfl
@[simp] theorem State.holdDomain_mr (s : State) (d : Nat) : (s.holdDomain d).mr = s.mr := rfl
@[simp] theorem State.holdDomain_freeN (s : State) (d : Nat) : (s.holdDomain d).freeN = s.freeN := rfl
@[simp] theorem State.holdDomain_pending (s : State) (d : Nat) : (s.holdDomain d).pending = s.pending := rfl

@[simp] theorem State.enterStage_regs (s : State) (k : Nat) : (s.enterStage k).regs = s.regs := rfl
@[simp] theorem State.enterStage_hold (s : State) (k : Nat) : (s.enterStage k).hold = s.hold := rfl
@[simp] theorem State.enterStage_mem (s : State) (k : Nat) : (s.enterStage k).mem = s.mem := rfl
@[simp] theorem State.enterStage_ledger (s : State) (k : Nat) : (s.enterStage k).ledger = s.ledger := rfl
@[simp] theorem State.enterStage_ev (s : State) (k : Nat) : (s.enterStage k).ev = s.ev := rfl
@[simp] theorem State.enterStage_hp (s : State) (k : Nat) : (s.enterStage k).hp = s.hp := rfl
@[simp] theorem State.enterStage_ck (s : State) (k : Nat) : (s.enterStage k).ck = s.ck := rfl
@[simp] theorem State.enterStage_sec (s : State) (k : Nat) : (s.enterStage k).sec = s.sec := rfl
@[simp] theorem State.enterStage_mills (s : State) (k : Nat) : (s.enterStage k).mills = s.mills := rfl
@[simp] theorem State.enterStage_leat (s : State) (k : Nat) : (s.enterStage k).leat = s.leat := rfl
@[simp] theorem State.enterStage_loader (s : State) (k : Nat) : (s.enterStage k).loader = s.loader := rfl
@[simp] theorem State.enterStage_ops (s : State) (k : Nat) : (s.enterStage k).ops = s.ops := rfl
@[simp] theorem State.enterStage_streams (s : State) (k : Nat) : (s.enterStage k).streams = s.streams := rfl
@[simp] theorem State.enterStage_tiers (s : State) (k : Nat) : (s.enterStage k).tiers = s.tiers := rfl
@[simp] theorem State.enterStage_bolters (s : State) (k : Nat) : (s.enterStage k).bolters = s.bolters := rfl
@[simp] theorem State.enterStage_gov (s : State) (k : Nat) : (s.enterStage k).gov = s.gov := rfl
@[simp] theorem State.enterStage_fus (s : State) (k : Nat) : (s.enterStage k).fus = s.fus := rfl
@[simp] theorem State.enterStage_sol (s : State) (k : Nat) : (s.enterStage k).sol = s.sol := rfl
@[simp] theorem State.enterStage_tm (s : State) (k : Nat) : (s.enterStage k).tm = s.tm := rfl
@[simp] theorem State.enterStage_launch (s : State) (k : Nat) : (s.enterStage k).launch = s.launch := rfl
@[simp] theorem State.enterStage_px (s : State) (k : Nat) : (s.enterStage k).px = s.px := rfl
@[simp] theorem State.enterStage_sn (s : State) (k : Nat) : (s.enterStage k).sn = s.sn := rfl
@[simp] theorem State.enterStage_mr (s : State) (k : Nat) : (s.enterStage k).mr = s.mr := rfl
@[simp] theorem State.enterStage_freeN (s : State) (k : Nat) : (s.enterStage k).freeN = s.freeN := rfl
@[simp] theorem State.enterStage_pending (s : State) (k : Nat) : (s.enterStage k).pending = s.pending := rfl

@[simp] theorem State.packageClear_regs (s : State) (n : Nat) : (s.packageClear n).regs = s.regs := rfl
@[simp] theorem State.packageClear_hold (s : State) (n : Nat) : (s.packageClear n).hold = s.hold := rfl
@[simp] theorem State.packageClear_mem (s : State) (n : Nat) : (s.packageClear n).mem = s.mem := rfl
@[simp] theorem State.packageClear_ledger (s : State) (n : Nat) : (s.packageClear n).ledger = s.ledger := rfl
@[simp] theorem State.packageClear_ev (s : State) (n : Nat) : (s.packageClear n).ev = s.ev := rfl
@[simp] theorem State.packageClear_hp (s : State) (n : Nat) : (s.packageClear n).hp = s.hp := rfl
@[simp] theorem State.packageClear_pw (s : State) (n : Nat) : (s.packageClear n).pw = s.pw := rfl
@[simp] theorem State.packageClear_ck (s : State) (n : Nat) : (s.packageClear n).ck = s.ck := rfl
@[simp] theorem State.packageClear_sec (s : State) (n : Nat) : (s.packageClear n).sec = s.sec := rfl
@[simp] theorem State.packageClear_mills (s : State) (n : Nat) : (s.packageClear n).mills = s.mills := rfl
@[simp] theorem State.packageClear_leat (s : State) (n : Nat) : (s.packageClear n).leat = s.leat := rfl
@[simp] theorem State.packageClear_loader (s : State) (n : Nat) : (s.packageClear n).loader = s.loader := rfl
@[simp] theorem State.packageClear_ops (s : State) (n : Nat) : (s.packageClear n).ops = s.ops := rfl
@[simp] theorem State.packageClear_streams (s : State) (n : Nat) : (s.packageClear n).streams = s.streams := rfl
@[simp] theorem State.packageClear_bolters (s : State) (n : Nat) : (s.packageClear n).bolters = s.bolters := rfl
@[simp] theorem State.packageClear_gov (s : State) (n : Nat) : (s.packageClear n).gov = s.gov := rfl
@[simp] theorem State.packageClear_fus (s : State) (n : Nat) : (s.packageClear n).fus = s.fus := rfl
@[simp] theorem State.packageClear_sol (s : State) (n : Nat) : (s.packageClear n).sol = s.sol := rfl
@[simp] theorem State.packageClear_tm (s : State) (n : Nat) : (s.packageClear n).tm = s.tm := rfl
@[simp] theorem State.packageClear_launch (s : State) (n : Nat) : (s.packageClear n).launch = s.launch := rfl
@[simp] theorem State.packageClear_px (s : State) (n : Nat) : (s.packageClear n).px = s.px := rfl
@[simp] theorem State.packageClear_sn (s : State) (n : Nat) : (s.packageClear n).sn = s.sn := rfl
@[simp] theorem State.packageClear_mr (s : State) (n : Nat) : (s.packageClear n).mr = s.mr := rfl
@[simp] theorem State.packageClear_freeN (s : State) (n : Nat) : (s.packageClear n).freeN = s.freeN := rfl
@[simp] theorem State.packageClear_pending (s : State) (n : Nat) : (s.packageClear n).pending = s.pending := rfl

@[simp] theorem State.pauseFabric_regs (s : State) : (s.pauseFabric).regs = s.regs := rfl
@[simp] theorem State.pauseFabric_hold (s : State) : (s.pauseFabric).hold = s.hold := rfl
@[simp] theorem State.pauseFabric_mem (s : State) : (s.pauseFabric).mem = s.mem := rfl
@[simp] theorem State.pauseFabric_ledger (s : State) : (s.pauseFabric).ledger = s.ledger := rfl
@[simp] theorem State.pauseFabric_ev (s : State) : (s.pauseFabric).ev = s.ev := rfl
@[simp] theorem State.pauseFabric_hp (s : State) : (s.pauseFabric).hp = s.hp := rfl
@[simp] theorem State.pauseFabric_ck (s : State) : (s.pauseFabric).ck = s.ck := rfl
@[simp] theorem State.pauseFabric_sec (s : State) : (s.pauseFabric).sec = s.sec := rfl
@[simp] theorem State.pauseFabric_leat (s : State) : (s.pauseFabric).leat = s.leat := rfl
@[simp] theorem State.pauseFabric_loader (s : State) : (s.pauseFabric).loader = s.loader := rfl
@[simp] theorem State.pauseFabric_ops (s : State) : (s.pauseFabric).ops = s.ops := rfl
@[simp] theorem State.pauseFabric_streams (s : State) : (s.pauseFabric).streams = s.streams := rfl
@[simp] theorem State.pauseFabric_tiers (s : State) : (s.pauseFabric).tiers = s.tiers := rfl
@[simp] theorem State.pauseFabric_bolters (s : State) : (s.pauseFabric).bolters = s.bolters := rfl
@[simp] theorem State.pauseFabric_gov (s : State) : (s.pauseFabric).gov = s.gov := rfl
@[simp] theorem State.pauseFabric_fus (s : State) : (s.pauseFabric).fus = s.fus := rfl
@[simp] theorem State.pauseFabric_sol (s : State) : (s.pauseFabric).sol = s.sol := rfl
@[simp] theorem State.pauseFabric_tm (s : State) : (s.pauseFabric).tm = s.tm := rfl
@[simp] theorem State.pauseFabric_launch (s : State) : (s.pauseFabric).launch = s.launch := rfl
@[simp] theorem State.pauseFabric_px (s : State) : (s.pauseFabric).px = s.px := rfl
@[simp] theorem State.pauseFabric_sn (s : State) : (s.pauseFabric).sn = s.sn := rfl
@[simp] theorem State.pauseFabric_mr (s : State) : (s.pauseFabric).mr = s.mr := rfl
@[simp] theorem State.pauseFabric_freeN (s : State) : (s.pauseFabric).freeN = s.freeN := rfl
@[simp] theorem State.pauseFabric_pending (s : State) : (s.pauseFabric).pending = s.pending := rfl

@[simp] theorem State.edge_regs (s : State) : (s.edge).regs = s.regs := rfl
@[simp] theorem State.edge_hold (s : State) : (s.edge).hold = s.hold := rfl
@[simp] theorem State.edge_mem (s : State) : (s.edge).mem = s.mem := rfl
@[simp] theorem State.edge_ledger (s : State) : (s.edge).ledger = s.ledger := rfl
@[simp] theorem State.edge_hp (s : State) : (s.edge).hp = s.hp := rfl
@[simp] theorem State.edge_pw (s : State) : (s.edge).pw = s.pw := rfl
@[simp] theorem State.edge_ck (s : State) : (s.edge).ck = s.ck := rfl
@[simp] theorem State.edge_sec (s : State) : (s.edge).sec = s.sec := rfl
@[simp] theorem State.edge_mills (s : State) : (s.edge).mills = s.mills := rfl
@[simp] theorem State.edge_loader (s : State) : (s.edge).loader = s.loader := rfl
@[simp] theorem State.edge_ops (s : State) : (s.edge).ops = s.ops := rfl
@[simp] theorem State.edge_streams (s : State) : (s.edge).streams = s.streams := rfl
@[simp] theorem State.edge_tiers (s : State) : (s.edge).tiers = s.tiers := rfl
@[simp] theorem State.edge_bolters (s : State) : (s.edge).bolters = s.bolters := rfl
@[simp] theorem State.edge_gov (s : State) : (s.edge).gov = s.gov := rfl
@[simp] theorem State.edge_fus (s : State) : (s.edge).fus = s.fus := rfl
@[simp] theorem State.edge_sol (s : State) : (s.edge).sol = s.sol := rfl
@[simp] theorem State.edge_launch (s : State) : (s.edge).launch = s.launch := rfl
@[simp] theorem State.edge_px (s : State) : (s.edge).px = s.px := rfl
@[simp] theorem State.edge_sn (s : State) : (s.edge).sn = s.sn := rfl
@[simp] theorem State.edge_mr (s : State) : (s.edge).mr = s.mr := rfl
@[simp] theorem State.edge_freeN (s : State) : (s.edge).freeN = s.freeN := rfl
@[simp] theorem State.edge_pending (s : State) : (s.edge).pending = s.pending := rfl

@[simp] theorem State.enterAcquiring_regs (s : State) : (s.enterAcquiring).regs = s.regs := rfl
@[simp] theorem State.enterAcquiring_hold (s : State) : (s.enterAcquiring).hold = s.hold := rfl
@[simp] theorem State.enterAcquiring_mem (s : State) : (s.enterAcquiring).mem = s.mem := rfl
@[simp] theorem State.enterAcquiring_ledger (s : State) : (s.enterAcquiring).ledger = s.ledger := rfl
@[simp] theorem State.enterAcquiring_ev (s : State) : (s.enterAcquiring).ev = s.ev := rfl
@[simp] theorem State.enterAcquiring_hp (s : State) : (s.enterAcquiring).hp = s.hp := rfl
@[simp] theorem State.enterAcquiring_pw (s : State) : (s.enterAcquiring).pw = s.pw := rfl
@[simp] theorem State.enterAcquiring_ck (s : State) : (s.enterAcquiring).ck = s.ck := rfl
@[simp] theorem State.enterAcquiring_sec (s : State) : (s.enterAcquiring).sec = s.sec := rfl
@[simp] theorem State.enterAcquiring_mills (s : State) : (s.enterAcquiring).mills = s.mills := rfl
@[simp] theorem State.enterAcquiring_leat (s : State) : (s.enterAcquiring).leat = s.leat := rfl
@[simp] theorem State.enterAcquiring_loader (s : State) : (s.enterAcquiring).loader = s.loader := rfl
@[simp] theorem State.enterAcquiring_ops (s : State) : (s.enterAcquiring).ops = s.ops := rfl
@[simp] theorem State.enterAcquiring_streams (s : State) : (s.enterAcquiring).streams = s.streams := rfl
@[simp] theorem State.enterAcquiring_tiers (s : State) : (s.enterAcquiring).tiers = s.tiers := rfl
@[simp] theorem State.enterAcquiring_bolters (s : State) : (s.enterAcquiring).bolters = s.bolters := rfl
@[simp] theorem State.enterAcquiring_gov (s : State) : (s.enterAcquiring).gov = s.gov := rfl
@[simp] theorem State.enterAcquiring_fus (s : State) : (s.enterAcquiring).fus = s.fus := rfl
@[simp] theorem State.enterAcquiring_sol (s : State) : (s.enterAcquiring).sol = s.sol := rfl
@[simp] theorem State.enterAcquiring_launch (s : State) : (s.enterAcquiring).launch = s.launch := rfl
@[simp] theorem State.enterAcquiring_px (s : State) : (s.enterAcquiring).px = s.px := rfl
@[simp] theorem State.enterAcquiring_sn (s : State) : (s.enterAcquiring).sn = s.sn := rfl
@[simp] theorem State.enterAcquiring_mr (s : State) : (s.enterAcquiring).mr = s.mr := rfl
@[simp] theorem State.enterAcquiring_freeN (s : State) : (s.enterAcquiring).freeN = s.freeN := rfl
@[simp] theorem State.enterAcquiring_pending (s : State) : (s.enterAcquiring).pending = s.pending := rfl

@[simp] theorem State.dropTokens_regs (s : State) (m i : Nat) (ids : List Nat) : (s.dropTokens m i ids).regs = s.regs := rfl
@[simp] theorem State.dropTokens_hold (s : State) (m i : Nat) (ids : List Nat) : (s.dropTokens m i ids).hold = s.hold := rfl
@[simp] theorem State.dropTokens_mem (s : State) (m i : Nat) (ids : List Nat) : (s.dropTokens m i ids).mem = s.mem := rfl
@[simp] theorem State.dropTokens_ledger (s : State) (m i : Nat) (ids : List Nat) : (s.dropTokens m i ids).ledger = s.ledger := rfl
@[simp] theorem State.dropTokens_ev (s : State) (m i : Nat) (ids : List Nat) : (s.dropTokens m i ids).ev = s.ev := rfl
@[simp] theorem State.dropTokens_hp (s : State) (m i : Nat) (ids : List Nat) : (s.dropTokens m i ids).hp = s.hp := rfl
@[simp] theorem State.dropTokens_pw (s : State) (m i : Nat) (ids : List Nat) : (s.dropTokens m i ids).pw = s.pw := rfl
@[simp] theorem State.dropTokens_ck (s : State) (m i : Nat) (ids : List Nat) : (s.dropTokens m i ids).ck = s.ck := rfl
@[simp] theorem State.dropTokens_sec (s : State) (m i : Nat) (ids : List Nat) : (s.dropTokens m i ids).sec = s.sec := rfl
@[simp] theorem State.dropTokens_mills (s : State) (m i : Nat) (ids : List Nat) : (s.dropTokens m i ids).mills = s.mills := rfl
@[simp] theorem State.dropTokens_leat (s : State) (m i : Nat) (ids : List Nat) : (s.dropTokens m i ids).leat = s.leat := rfl
@[simp] theorem State.dropTokens_loader (s : State) (m i : Nat) (ids : List Nat) : (s.dropTokens m i ids).loader = s.loader := rfl
@[simp] theorem State.dropTokens_ops (s : State) (m i : Nat) (ids : List Nat) : (s.dropTokens m i ids).ops = s.ops := rfl
@[simp] theorem State.dropTokens_streams (s : State) (m i : Nat) (ids : List Nat) : (s.dropTokens m i ids).streams = s.streams := rfl
@[simp] theorem State.dropTokens_bolters (s : State) (m i : Nat) (ids : List Nat) : (s.dropTokens m i ids).bolters = s.bolters := rfl
@[simp] theorem State.dropTokens_gov (s : State) (m i : Nat) (ids : List Nat) : (s.dropTokens m i ids).gov = s.gov := rfl
@[simp] theorem State.dropTokens_fus (s : State) (m i : Nat) (ids : List Nat) : (s.dropTokens m i ids).fus = s.fus := rfl
@[simp] theorem State.dropTokens_sol (s : State) (m i : Nat) (ids : List Nat) : (s.dropTokens m i ids).sol = s.sol := rfl
@[simp] theorem State.dropTokens_tm (s : State) (m i : Nat) (ids : List Nat) : (s.dropTokens m i ids).tm = s.tm := rfl
@[simp] theorem State.dropTokens_launch (s : State) (m i : Nat) (ids : List Nat) : (s.dropTokens m i ids).launch = s.launch := rfl
@[simp] theorem State.dropTokens_px (s : State) (m i : Nat) (ids : List Nat) : (s.dropTokens m i ids).px = s.px := rfl
@[simp] theorem State.dropTokens_sn (s : State) (m i : Nat) (ids : List Nat) : (s.dropTokens m i ids).sn = s.sn := rfl
@[simp] theorem State.dropTokens_mr (s : State) (m i : Nat) (ids : List Nat) : (s.dropTokens m i ids).mr = s.mr := rfl
@[simp] theorem State.dropTokens_freeN (s : State) (m i : Nat) (ids : List Nat) : (s.dropTokens m i ids).freeN = s.freeN := rfl
@[simp] theorem State.dropTokens_pending (s : State) (m i : Nat) (ids : List Nat) : (s.dropTokens m i ids).pending = s.pending := rfl

end Sys2Proof.Machine
end

