-- ==== Sys2Proof/Laws/Frames.lean ====
section
/-!
SUPPORT. The parts of the state that the shared operations leave alone: what is not named here for an operation, it may
change.
-/
set_option linter.unusedTactic false
set_option linter.unreachableTactic false
namespace Sys2Proof.Machine

@[simp] theorem State.bump_hold (s : State) (a n : Nat) : (s.bump a n).hold = s.hold := rfl
@[simp] theorem State.bump_mem (s : State) (a n : Nat) : (s.bump a n).mem = s.mem := rfl
@[simp] theorem State.bump_ledger (s : State) (a n : Nat) : (s.bump a n).ledger = s.ledger := rfl
@[simp] theorem State.bump_ev (s : State) (a n : Nat) : (s.bump a n).ev = s.ev := rfl
@[simp] theorem State.bump_hp (s : State) (a n : Nat) : (s.bump a n).hp = s.hp := rfl
@[simp] theorem State.bump_pw (s : State) (a n : Nat) : (s.bump a n).pw = s.pw := rfl
@[simp] theorem State.bump_ck (s : State) (a n : Nat) : (s.bump a n).ck = s.ck := rfl
@[simp] theorem State.bump_sec (s : State) (a n : Nat) : (s.bump a n).sec = s.sec := rfl
@[simp] theorem State.bump_mills (s : State) (a n : Nat) : (s.bump a n).mills = s.mills := rfl
@[simp] theorem State.bump_leat (s : State) (a n : Nat) : (s.bump a n).leat = s.leat := rfl
@[simp] theorem State.bump_loader (s : State) (a n : Nat) : (s.bump a n).loader = s.loader := rfl
@[simp] theorem State.bump_ops (s : State) (a n : Nat) : (s.bump a n).ops = s.ops := rfl
@[simp] theorem State.bump_streams (s : State) (a n : Nat) : (s.bump a n).streams = s.streams := rfl
@[simp] theorem State.bump_tiers (s : State) (a n : Nat) : (s.bump a n).tiers = s.tiers := rfl
@[simp] theorem State.bump_bolters (s : State) (a n : Nat) : (s.bump a n).bolters = s.bolters := rfl
@[simp] theorem State.bump_gov (s : State) (a n : Nat) : (s.bump a n).gov = s.gov := rfl
@[simp] theorem State.bump_fus (s : State) (a n : Nat) : (s.bump a n).fus = s.fus := rfl
@[simp] theorem State.bump_sol (s : State) (a n : Nat) : (s.bump a n).sol = s.sol := rfl
@[simp] theorem State.bump_tm (s : State) (a n : Nat) : (s.bump a n).tm = s.tm := rfl
@[simp] theorem State.bump_launch (s : State) (a n : Nat) : (s.bump a n).launch = s.launch := rfl
@[simp] theorem State.bump_px (s : State) (a n : Nat) : (s.bump a n).px = s.px := rfl
@[simp] theorem State.bump_sn (s : State) (a n : Nat) : (s.bump a n).sn = s.sn := rfl
@[simp] theorem State.bump_mr (s : State) (a n : Nat) : (s.bump a n).mr = s.mr := rfl
@[simp] theorem State.bump_freeN (s : State) (a n : Nat) : (s.bump a n).freeN = s.freeN := rfl
@[simp] theorem State.bump_pending (s : State) (a n : Nat) : (s.bump a n).pending = s.pending := rfl

@[simp] theorem State.raise_hold (s : State) (a mask : Nat) : (s.raise a mask).hold = s.hold := rfl
@[simp] theorem State.raise_mem (s : State) (a mask : Nat) : (s.raise a mask).mem = s.mem := rfl
@[simp] theorem State.raise_ledger (s : State) (a mask : Nat) : (s.raise a mask).ledger = s.ledger := rfl
@[simp] theorem State.raise_ev (s : State) (a mask : Nat) : (s.raise a mask).ev = s.ev := rfl
@[simp] theorem State.raise_hp (s : State) (a mask : Nat) : (s.raise a mask).hp = s.hp := rfl
@[simp] theorem State.raise_pw (s : State) (a mask : Nat) : (s.raise a mask).pw = s.pw := rfl
@[simp] theorem State.raise_ck (s : State) (a mask : Nat) : (s.raise a mask).ck = s.ck := rfl
@[simp] theorem State.raise_sec (s : State) (a mask : Nat) : (s.raise a mask).sec = s.sec := rfl
@[simp] theorem State.raise_mills (s : State) (a mask : Nat) : (s.raise a mask).mills = s.mills := rfl
@[simp] theorem State.raise_leat (s : State) (a mask : Nat) : (s.raise a mask).leat = s.leat := rfl
@[simp] theorem State.raise_loader (s : State) (a mask : Nat) : (s.raise a mask).loader = s.loader := rfl
@[simp] theorem State.raise_ops (s : State) (a mask : Nat) : (s.raise a mask).ops = s.ops := rfl
@[simp] theorem State.raise_streams (s : State) (a mask : Nat) : (s.raise a mask).streams = s.streams := rfl
@[simp] theorem State.raise_tiers (s : State) (a mask : Nat) : (s.raise a mask).tiers = s.tiers := rfl
@[simp] theorem State.raise_bolters (s : State) (a mask : Nat) : (s.raise a mask).bolters = s.bolters := rfl
@[simp] theorem State.raise_gov (s : State) (a mask : Nat) : (s.raise a mask).gov = s.gov := rfl
@[simp] theorem State.raise_fus (s : State) (a mask : Nat) : (s.raise a mask).fus = s.fus := rfl
@[simp] theorem State.raise_sol (s : State) (a mask : Nat) : (s.raise a mask).sol = s.sol := rfl
@[simp] theorem State.raise_tm (s : State) (a mask : Nat) : (s.raise a mask).tm = s.tm := rfl
@[simp] theorem State.raise_launch (s : State) (a mask : Nat) : (s.raise a mask).launch = s.launch := rfl
@[simp] theorem State.raise_px (s : State) (a mask : Nat) : (s.raise a mask).px = s.px := rfl
@[simp] theorem State.raise_sn (s : State) (a mask : Nat) : (s.raise a mask).sn = s.sn := rfl
@[simp] theorem State.raise_mr (s : State) (a mask : Nat) : (s.raise a mask).mr = s.mr := rfl
@[simp] theorem State.raise_freeN (s : State) (a mask : Nat) : (s.raise a mask).freeN = s.freeN := rfl
@[simp] theorem State.raise_pending (s : State) (a mask : Nat) : (s.raise a mask).pending = s.pending := rfl

@[simp] theorem State.peakReg_hold (s : State) (a n : Nat) : (s.peakReg a n).hold = s.hold :=
  by unfold State.peakReg; split <;> simp
@[simp] theorem State.peakReg_mem (s : State) (a n : Nat) : (s.peakReg a n).mem = s.mem :=
  by unfold State.peakReg; split <;> simp
@[simp] theorem State.peakReg_ledger (s : State) (a n : Nat) : (s.peakReg a n).ledger = s.ledger :=
  by unfold State.peakReg; split <;> simp
@[simp] theorem State.peakReg_ev (s : State) (a n : Nat) : (s.peakReg a n).ev = s.ev :=
  by unfold State.peakReg; split <;> simp
@[simp] theorem State.peakReg_hp (s : State) (a n : Nat) : (s.peakReg a n).hp = s.hp :=
  by unfold State.peakReg; split <;> simp
@[simp] theorem State.peakReg_pw (s : State) (a n : Nat) : (s.peakReg a n).pw = s.pw :=
  by unfold State.peakReg; split <;> simp
@[simp] theorem State.peakReg_ck (s : State) (a n : Nat) : (s.peakReg a n).ck = s.ck :=
  by unfold State.peakReg; split <;> simp
@[simp] theorem State.peakReg_sec (s : State) (a n : Nat) : (s.peakReg a n).sec = s.sec :=
  by unfold State.peakReg; split <;> simp
@[simp] theorem State.peakReg_mills (s : State) (a n : Nat) : (s.peakReg a n).mills = s.mills :=
  by unfold State.peakReg; split <;> simp
@[simp] theorem State.peakReg_leat (s : State) (a n : Nat) : (s.peakReg a n).leat = s.leat :=
  by unfold State.peakReg; split <;> simp
@[simp] theorem State.peakReg_loader (s : State) (a n : Nat) : (s.peakReg a n).loader = s.loader :=
  by unfold State.peakReg; split <;> simp
@[simp] theorem State.peakReg_ops (s : State) (a n : Nat) : (s.peakReg a n).ops = s.ops :=
  by unfold State.peakReg; split <;> simp
@[simp] theorem State.peakReg_streams (s : State) (a n : Nat) : (s.peakReg a n).streams = s.streams :=
  by unfold State.peakReg; split <;> simp
@[simp] theorem State.peakReg_tiers (s : State) (a n : Nat) : (s.peakReg a n).tiers = s.tiers :=
  by unfold State.peakReg; split <;> simp
@[simp] theorem State.peakReg_bolters (s : State) (a n : Nat) : (s.peakReg a n).bolters = s.bolters :=
  by unfold State.peakReg; split <;> simp
@[simp] theorem State.peakReg_gov (s : State) (a n : Nat) : (s.peakReg a n).gov = s.gov :=
  by unfold State.peakReg; split <;> simp
@[simp] theorem State.peakReg_fus (s : State) (a n : Nat) : (s.peakReg a n).fus = s.fus :=
  by unfold State.peakReg; split <;> simp
@[simp] theorem State.peakReg_sol (s : State) (a n : Nat) : (s.peakReg a n).sol = s.sol :=
  by unfold State.peakReg; split <;> simp
@[simp] theorem State.peakReg_tm (s : State) (a n : Nat) : (s.peakReg a n).tm = s.tm :=
  by unfold State.peakReg; split <;> simp
@[simp] theorem State.peakReg_launch (s : State) (a n : Nat) : (s.peakReg a n).launch = s.launch :=
  by unfold State.peakReg; split <;> simp
@[simp] theorem State.peakReg_px (s : State) (a n : Nat) : (s.peakReg a n).px = s.px :=
  by unfold State.peakReg; split <;> simp
@[simp] theorem State.peakReg_sn (s : State) (a n : Nat) : (s.peakReg a n).sn = s.sn :=
  by unfold State.peakReg; split <;> simp
@[simp] theorem State.peakReg_mr (s : State) (a n : Nat) : (s.peakReg a n).mr = s.mr :=
  by unfold State.peakReg; split <;> simp
@[simp] theorem State.peakReg_freeN (s : State) (a n : Nat) : (s.peakReg a n).freeN = s.freeN :=
  by unfold State.peakReg; split <;> simp
@[simp] theorem State.peakReg_pending (s : State) (a n : Nat) : (s.peakReg a n).pending = s.pending :=
  by unfold State.peakReg; split <;> simp

@[simp] theorem State.move_regs (s : State) (p : Nat) (a b : Place) (n : Nat) : (s.move p a b n).regs = s.regs := rfl
@[simp] theorem State.move_hold (s : State) (p : Nat) (a b : Place) (n : Nat) : (s.move p a b n).hold = s.hold := rfl
@[simp] theorem State.move_mem (s : State) (p : Nat) (a b : Place) (n : Nat) : (s.move p a b n).mem = s.mem := rfl
@[simp] theorem State.move_ev (s : State) (p : Nat) (a b : Place) (n : Nat) : (s.move p a b n).ev = s.ev := rfl
@[simp] theorem State.move_hp (s : State) (p : Nat) (a b : Place) (n : Nat) : (s.move p a b n).hp = s.hp := rfl
@[simp] theorem State.move_pw (s : State) (p : Nat) (a b : Place) (n : Nat) : (s.move p a b n).pw = s.pw := rfl
@[simp] theorem State.move_ck (s : State) (p : Nat) (a b : Place) (n : Nat) : (s.move p a b n).ck = s.ck := rfl
@[simp] theorem State.move_sec (s : State) (p : Nat) (a b : Place) (n : Nat) : (s.move p a b n).sec = s.sec := rfl
@[simp] theorem State.move_mills (s : State) (p : Nat) (a b : Place) (n : Nat) : (s.move p a b n).mills = s.mills :=
  rfl
@[simp] theorem State.move_leat (s : State) (p : Nat) (a b : Place) (n : Nat) : (s.move p a b n).leat = s.leat := rfl
@[simp] theorem State.move_loader (s : State) (p : Nat) (a b : Place) (n : Nat) : (s.move p a b n).loader = s.loader :=
  rfl
@[simp] theorem State.move_ops (s : State) (p : Nat) (a b : Place) (n : Nat) : (s.move p a b n).ops = s.ops := rfl
@[simp] theorem State.move_streams (s : State) (p : Nat) (a b : Place) (n : Nat) : (s.move p a b n).streams = s.streams :=
  rfl
@[simp] theorem State.move_tiers (s : State) (p : Nat) (a b : Place) (n : Nat) : (s.move p a b n).tiers = s.tiers :=
  rfl
@[simp] theorem State.move_bolters (s : State) (p : Nat) (a b : Place) (n : Nat) : (s.move p a b n).bolters = s.bolters :=
  rfl
@[simp] theorem State.move_gov (s : State) (p : Nat) (a b : Place) (n : Nat) : (s.move p a b n).gov = s.gov := rfl
@[simp] theorem State.move_fus (s : State) (p : Nat) (a b : Place) (n : Nat) : (s.move p a b n).fus = s.fus := rfl
@[simp] theorem State.move_sol (s : State) (p : Nat) (a b : Place) (n : Nat) : (s.move p a b n).sol = s.sol := rfl
@[simp] theorem State.move_tm (s : State) (p : Nat) (a b : Place) (n : Nat) : (s.move p a b n).tm = s.tm := rfl
@[simp] theorem State.move_launch (s : State) (p : Nat) (a b : Place) (n : Nat) : (s.move p a b n).launch = s.launch :=
  rfl
@[simp] theorem State.move_px (s : State) (p : Nat) (a b : Place) (n : Nat) : (s.move p a b n).px = s.px := rfl
@[simp] theorem State.move_sn (s : State) (p : Nat) (a b : Place) (n : Nat) : (s.move p a b n).sn = s.sn := rfl
@[simp] theorem State.move_mr (s : State) (p : Nat) (a b : Place) (n : Nat) : (s.move p a b n).mr = s.mr := rfl
@[simp] theorem State.move_freeN (s : State) (p : Nat) (a b : Place) (n : Nat) : (s.move p a b n).freeN = s.freeN :=
  rfl
@[simp] theorem State.move_pending (s : State) (p : Nat) (a b : Place) (n : Nat) : (s.move p a b n).pending = s.pending :=
  rfl

@[simp] theorem State.record_hold (s : State) (ch event status ctx source : Nat) (detail : Bytes) : (s.record ch event status ctx source detail).hold = s.hold :=
  by unfold State.record; simp only []; split <;> (try split) <;> (try split) <;> simp
@[simp] theorem State.record_mem (s : State) (ch event status ctx source : Nat) (detail : Bytes) : (s.record ch event status ctx source detail).mem = s.mem :=
  by unfold State.record; simp only []; split <;> (try split) <;> (try split) <;> simp
@[simp] theorem State.record_ledger (s : State) (ch event status ctx source : Nat) (detail : Bytes) : (s.record ch event status ctx source detail).ledger = s.ledger :=
  by unfold State.record; simp only []; split <;> (try split) <;> (try split) <;> simp
@[simp] theorem State.record_hp (s : State) (ch event status ctx source : Nat) (detail : Bytes) : (s.record ch event status ctx source detail).hp = s.hp :=
  by unfold State.record; simp only []; split <;> (try split) <;> (try split) <;> simp
@[simp] theorem State.record_pw (s : State) (ch event status ctx source : Nat) (detail : Bytes) : (s.record ch event status ctx source detail).pw = s.pw :=
  by unfold State.record; simp only []; split <;> (try split) <;> (try split) <;> simp
@[simp] theorem State.record_ck (s : State) (ch event status ctx source : Nat) (detail : Bytes) : (s.record ch event status ctx source detail).ck = s.ck :=
  by unfold State.record; simp only []; split <;> (try split) <;> (try split) <;> simp
@[simp] theorem State.record_sec (s : State) (ch event status ctx source : Nat) (detail : Bytes) : (s.record ch event status ctx source detail).sec = s.sec :=
  by unfold State.record; simp only []; split <;> (try split) <;> (try split) <;> simp
@[simp] theorem State.record_mills (s : State) (ch event status ctx source : Nat) (detail : Bytes) : (s.record ch event status ctx source detail).mills = s.mills :=
  by unfold State.record; simp only []; split <;> (try split) <;> (try split) <;> simp
@[simp] theorem State.record_leat (s : State) (ch event status ctx source : Nat) (detail : Bytes) : (s.record ch event status ctx source detail).leat = s.leat :=
  by unfold State.record; simp only []; split <;> (try split) <;> (try split) <;> simp
@[simp] theorem State.record_loader (s : State) (ch event status ctx source : Nat) (detail : Bytes) : (s.record ch event status ctx source detail).loader = s.loader :=
  by unfold State.record; simp only []; split <;> (try split) <;> (try split) <;> simp
@[simp] theorem State.record_ops (s : State) (ch event status ctx source : Nat) (detail : Bytes) : (s.record ch event status ctx source detail).ops = s.ops :=
  by unfold State.record; simp only []; split <;> (try split) <;> (try split) <;> simp
@[simp] theorem State.record_streams (s : State) (ch event status ctx source : Nat) (detail : Bytes) : (s.record ch event status ctx source detail).streams = s.streams :=
  by unfold State.record; simp only []; split <;> (try split) <;> (try split) <;> simp
@[simp] theorem State.record_tiers (s : State) (ch event status ctx source : Nat) (detail : Bytes) : (s.record ch event status ctx source detail).tiers = s.tiers :=
  by unfold State.record; simp only []; split <;> (try split) <;> (try split) <;> simp
@[simp] theorem State.record_bolters (s : State) (ch event status ctx source : Nat) (detail : Bytes) : (s.record ch event status ctx source detail).bolters = s.bolters :=
  by unfold State.record; simp only []; split <;> (try split) <;> (try split) <;> simp
@[simp] theorem State.record_gov (s : State) (ch event status ctx source : Nat) (detail : Bytes) : (s.record ch event status ctx source detail).gov = s.gov :=
  by unfold State.record; simp only []; split <;> (try split) <;> (try split) <;> simp
@[simp] theorem State.record_fus (s : State) (ch event status ctx source : Nat) (detail : Bytes) : (s.record ch event status ctx source detail).fus = s.fus :=
  by unfold State.record; simp only []; split <;> (try split) <;> (try split) <;> simp
@[simp] theorem State.record_sol (s : State) (ch event status ctx source : Nat) (detail : Bytes) : (s.record ch event status ctx source detail).sol = s.sol :=
  by unfold State.record; simp only []; split <;> (try split) <;> (try split) <;> simp
@[simp] theorem State.record_tm (s : State) (ch event status ctx source : Nat) (detail : Bytes) : (s.record ch event status ctx source detail).tm = s.tm :=
  by unfold State.record; simp only []; split <;> (try split) <;> (try split) <;> simp
@[simp] theorem State.record_launch (s : State) (ch event status ctx source : Nat) (detail : Bytes) : (s.record ch event status ctx source detail).launch = s.launch :=
  by unfold State.record; simp only []; split <;> (try split) <;> (try split) <;> simp
@[simp] theorem State.record_px (s : State) (ch event status ctx source : Nat) (detail : Bytes) : (s.record ch event status ctx source detail).px = s.px :=
  by unfold State.record; simp only []; split <;> (try split) <;> (try split) <;> simp
@[simp] theorem State.record_sn (s : State) (ch event status ctx source : Nat) (detail : Bytes) : (s.record ch event status ctx source detail).sn = s.sn :=
  by unfold State.record; simp only []; split <;> (try split) <;> (try split) <;> simp
@[simp] theorem State.record_mr (s : State) (ch event status ctx source : Nat) (detail : Bytes) : (s.record ch event status ctx source detail).mr = s.mr :=
  by unfold State.record; simp only []; split <;> (try split) <;> (try split) <;> simp
@[simp] theorem State.record_freeN (s : State) (ch event status ctx source : Nat) (detail : Bytes) : (s.record ch event status ctx source detail).freeN = s.freeN :=
  by unfold State.record; simp only []; split <;> (try split) <;> (try split) <;> simp
@[simp] theorem State.record_pending (s : State) (ch event status ctx source : Nat) (detail : Bytes) : (s.record ch event status ctx source detail).pending = s.pending :=
  by unfold State.record; simp only []; split <;> (try split) <;> (try split) <;> simp

@[simp] theorem State.resize_hold (s : State) (p n : Nat) : (s.resize p n).hold = s.hold :=
  by unfold State.resize; simp only []; split <;> (try split) <;> (try split) <;> simp
@[simp] theorem State.resize_mem (s : State) (p n : Nat) : (s.resize p n).mem = s.mem :=
  by unfold State.resize; simp only []; split <;> (try split) <;> (try split) <;> simp
@[simp] theorem State.resize_hp (s : State) (p n : Nat) : (s.resize p n).hp = s.hp :=
  by unfold State.resize; simp only []; split <;> (try split) <;> (try split) <;> simp
@[simp] theorem State.resize_pw (s : State) (p n : Nat) : (s.resize p n).pw = s.pw :=
  by unfold State.resize; simp only []; split <;> (try split) <;> (try split) <;> simp
@[simp] theorem State.resize_ck (s : State) (p n : Nat) : (s.resize p n).ck = s.ck :=
  by unfold State.resize; simp only []; split <;> (try split) <;> (try split) <;> simp
@[simp] theorem State.resize_sec (s : State) (p n : Nat) : (s.resize p n).sec = s.sec :=
  by unfold State.resize; simp only []; split <;> (try split) <;> (try split) <;> simp
@[simp] theorem State.resize_mills (s : State) (p n : Nat) : (s.resize p n).mills = s.mills :=
  by unfold State.resize; simp only []; split <;> (try split) <;> (try split) <;> simp
@[simp] theorem State.resize_leat (s : State) (p n : Nat) : (s.resize p n).leat = s.leat :=
  by unfold State.resize; simp only []; split <;> (try split) <;> (try split) <;> simp
@[simp] theorem State.resize_loader (s : State) (p n : Nat) : (s.resize p n).loader = s.loader :=
  by unfold State.resize; simp only []; split <;> (try split) <;> (try split) <;> simp
@[simp] theorem State.resize_ops (s : State) (p n : Nat) : (s.resize p n).ops = s.ops :=
  by unfold State.resize; simp only []; split <;> (try split) <;> (try split) <;> simp
@[simp] theorem State.resize_streams (s : State) (p n : Nat) : (s.resize p n).streams = s.streams :=
  by unfold State.resize; simp only []; split <;> (try split) <;> (try split) <;> simp
@[simp] theorem State.resize_tiers (s : State) (p n : Nat) : (s.resize p n).tiers = s.tiers :=
  by unfold State.resize; simp only []; split <;> (try split) <;> (try split) <;> simp
@[simp] theorem State.resize_bolters (s : State) (p n : Nat) : (s.resize p n).bolters = s.bolters :=
  by unfold State.resize; simp only []; split <;> (try split) <;> (try split) <;> simp
@[simp] theorem State.resize_gov (s : State) (p n : Nat) : (s.resize p n).gov = s.gov :=
  by unfold State.resize; simp only []; split <;> (try split) <;> (try split) <;> simp
@[simp] theorem State.resize_fus (s : State) (p n : Nat) : (s.resize p n).fus = s.fus :=
  by unfold State.resize; simp only []; split <;> (try split) <;> (try split) <;> simp
@[simp] theorem State.resize_sol (s : State) (p n : Nat) : (s.resize p n).sol = s.sol :=
  by unfold State.resize; simp only []; split <;> (try split) <;> (try split) <;> simp
@[simp] theorem State.resize_tm (s : State) (p n : Nat) : (s.resize p n).tm = s.tm :=
  by unfold State.resize; simp only []; split <;> (try split) <;> (try split) <;> simp
@[simp] theorem State.resize_launch (s : State) (p n : Nat) : (s.resize p n).launch = s.launch :=
  by unfold State.resize; simp only []; split <;> (try split) <;> (try split) <;> simp
@[simp] theorem State.resize_px (s : State) (p n : Nat) : (s.resize p n).px = s.px :=
  by unfold State.resize; simp only []; split <;> (try split) <;> (try split) <;> simp
@[simp] theorem State.resize_sn (s : State) (p n : Nat) : (s.resize p n).sn = s.sn :=
  by unfold State.resize; simp only []; split <;> (try split) <;> (try split) <;> simp
@[simp] theorem State.resize_mr (s : State) (p n : Nat) : (s.resize p n).mr = s.mr :=
  by unfold State.resize; simp only []; split <;> (try split) <;> (try split) <;> simp
@[simp] theorem State.resize_freeN (s : State) (p n : Nat) : (s.resize p n).freeN = s.freeN :=
  by unfold State.resize; simp only []; split <;> (try split) <;> (try split) <;> simp
@[simp] theorem State.resize_pending (s : State) (p n : Nat) : (s.resize p n).pending = s.pending :=
  by unfold State.resize; simp only []; split <;> (try split) <;> (try split) <;> simp

@[simp] theorem State.reclaim_hold (s : State) (p : Nat) (a : Place) (n cause code peer : Nat) : (s.reclaim p a n cause code peer).hold = s.hold :=
  by unfold State.reclaim; simp only []; split <;> (try split) <;> (try split) <;> simp
@[simp] theorem State.reclaim_mem (s : State) (p : Nat) (a : Place) (n cause code peer : Nat) : (s.reclaim p a n cause code peer).mem = s.mem :=
  by unfold State.reclaim; simp only []; split <;> (try split) <;> (try split) <;> simp
@[simp] theorem State.reclaim_hp (s : State) (p : Nat) (a : Place) (n cause code peer : Nat) : (s.reclaim p a n cause code peer).hp = s.hp :=
  by unfold State.reclaim; simp only []; split <;> (try split) <;> (try split) <;> simp
@[simp] theorem State.reclaim_pw (s : State) (p : Nat) (a : Place) (n cause code peer : Nat) : (s.reclaim p a n cause code peer).pw = s.pw :=
  by unfold State.reclaim; simp only []; split <;> (try split) <;> (try split) <;> simp
@[simp] theorem State.reclaim_ck (s : State) (p : Nat) (a : Place) (n cause code peer : Nat) : (s.reclaim p a n cause code peer).ck = s.ck :=
  by unfold State.reclaim; simp only []; split <;> (try split) <;> (try split) <;> simp
@[simp] theorem State.reclaim_sec (s : State) (p : Nat) (a : Place) (n cause code peer : Nat) : (s.reclaim p a n cause code peer).sec = s.sec :=
  by unfold State.reclaim; simp only []; split <;> (try split) <;> (try split) <;> simp
@[simp] theorem State.reclaim_mills (s : State) (p : Nat) (a : Place) (n cause code peer : Nat) : (s.reclaim p a n cause code peer).mills = s.mills :=
  by unfold State.reclaim; simp only []; split <;> (try split) <;> (try split) <;> simp
@[simp] theorem State.reclaim_leat (s : State) (p : Nat) (a : Place) (n cause code peer : Nat) : (s.reclaim p a n cause code peer).leat = s.leat :=
  by unfold State.reclaim; simp only []; split <;> (try split) <;> (try split) <;> simp
@[simp] theorem State.reclaim_loader (s : State) (p : Nat) (a : Place) (n cause code peer : Nat) : (s.reclaim p a n cause code peer).loader = s.loader :=
  by unfold State.reclaim; simp only []; split <;> (try split) <;> (try split) <;> simp
@[simp] theorem State.reclaim_ops (s : State) (p : Nat) (a : Place) (n cause code peer : Nat) : (s.reclaim p a n cause code peer).ops = s.ops :=
  by unfold State.reclaim; simp only []; split <;> (try split) <;> (try split) <;> simp
@[simp] theorem State.reclaim_streams (s : State) (p : Nat) (a : Place) (n cause code peer : Nat) : (s.reclaim p a n cause code peer).streams = s.streams :=
  by unfold State.reclaim; simp only []; split <;> (try split) <;> (try split) <;> simp
@[simp] theorem State.reclaim_tiers (s : State) (p : Nat) (a : Place) (n cause code peer : Nat) : (s.reclaim p a n cause code peer).tiers = s.tiers :=
  by unfold State.reclaim; simp only []; split <;> (try split) <;> (try split) <;> simp
@[simp] theorem State.reclaim_bolters (s : State) (p : Nat) (a : Place) (n cause code peer : Nat) : (s.reclaim p a n cause code peer).bolters = s.bolters :=
  by unfold State.reclaim; simp only []; split <;> (try split) <;> (try split) <;> simp
@[simp] theorem State.reclaim_gov (s : State) (p : Nat) (a : Place) (n cause code peer : Nat) : (s.reclaim p a n cause code peer).gov = s.gov :=
  by unfold State.reclaim; simp only []; split <;> (try split) <;> (try split) <;> simp
@[simp] theorem State.reclaim_fus (s : State) (p : Nat) (a : Place) (n cause code peer : Nat) : (s.reclaim p a n cause code peer).fus = s.fus :=
  by unfold State.reclaim; simp only []; split <;> (try split) <;> (try split) <;> simp
@[simp] theorem State.reclaim_sol (s : State) (p : Nat) (a : Place) (n cause code peer : Nat) : (s.reclaim p a n cause code peer).sol = s.sol :=
  by unfold State.reclaim; simp only []; split <;> (try split) <;> (try split) <;> simp
@[simp] theorem State.reclaim_tm (s : State) (p : Nat) (a : Place) (n cause code peer : Nat) : (s.reclaim p a n cause code peer).tm = s.tm :=
  by unfold State.reclaim; simp only []; split <;> (try split) <;> (try split) <;> simp
@[simp] theorem State.reclaim_launch (s : State) (p : Nat) (a : Place) (n cause code peer : Nat) : (s.reclaim p a n cause code peer).launch = s.launch :=
  by unfold State.reclaim; simp only []; split <;> (try split) <;> (try split) <;> simp
@[simp] theorem State.reclaim_px (s : State) (p : Nat) (a : Place) (n cause code peer : Nat) : (s.reclaim p a n cause code peer).px = s.px :=
  by unfold State.reclaim; simp only []; split <;> (try split) <;> (try split) <;> simp
@[simp] theorem State.reclaim_sn (s : State) (p : Nat) (a : Place) (n cause code peer : Nat) : (s.reclaim p a n cause code peer).sn = s.sn :=
  by unfold State.reclaim; simp only []; split <;> (try split) <;> (try split) <;> simp
@[simp] theorem State.reclaim_mr (s : State) (p : Nat) (a : Place) (n cause code peer : Nat) : (s.reclaim p a n cause code peer).mr = s.mr :=
  by unfold State.reclaim; simp only []; split <;> (try split) <;> (try split) <;> simp
@[simp] theorem State.reclaim_freeN (s : State) (p : Nat) (a : Place) (n cause code peer : Nat) : (s.reclaim p a n cause code peer).freeN = s.freeN :=
  by unfold State.reclaim; simp only []; split <;> (try split) <;> (try split) <;> simp
@[simp] theorem State.reclaim_pending (s : State) (p : Nat) (a : Place) (n cause code peer : Nat) : (s.reclaim p a n cause code peer).pending = s.pending :=
  by unfold State.reclaim; simp only []; split <;> (try split) <;> (try split) <;> simp

@[simp] theorem State.reclaimAll_hold (s : State) (p cause code peer : Nat) : (s.reclaimAll p cause code peer).hold = s.hold :=
  by unfold State.reclaimAll; simp only []; split <;> (try split) <;> (try split) <;> simp
@[simp] theorem State.reclaimAll_mem (s : State) (p cause code peer : Nat) : (s.reclaimAll p cause code peer).mem = s.mem :=
  by unfold State.reclaimAll; simp only []; split <;> (try split) <;> (try split) <;> simp
@[simp] theorem State.reclaimAll_hp (s : State) (p cause code peer : Nat) : (s.reclaimAll p cause code peer).hp = s.hp :=
  by unfold State.reclaimAll; simp only []; split <;> (try split) <;> (try split) <;> simp
@[simp] theorem State.reclaimAll_pw (s : State) (p cause code peer : Nat) : (s.reclaimAll p cause code peer).pw = s.pw :=
  by unfold State.reclaimAll; simp only []; split <;> (try split) <;> (try split) <;> simp
@[simp] theorem State.reclaimAll_ck (s : State) (p cause code peer : Nat) : (s.reclaimAll p cause code peer).ck = s.ck :=
  by unfold State.reclaimAll; simp only []; split <;> (try split) <;> (try split) <;> simp
@[simp] theorem State.reclaimAll_sec (s : State) (p cause code peer : Nat) : (s.reclaimAll p cause code peer).sec = s.sec :=
  by unfold State.reclaimAll; simp only []; split <;> (try split) <;> (try split) <;> simp
@[simp] theorem State.reclaimAll_mills (s : State) (p cause code peer : Nat) : (s.reclaimAll p cause code peer).mills = s.mills :=
  by unfold State.reclaimAll; simp only []; split <;> (try split) <;> (try split) <;> simp
@[simp] theorem State.reclaimAll_leat (s : State) (p cause code peer : Nat) : (s.reclaimAll p cause code peer).leat = s.leat :=
  by unfold State.reclaimAll; simp only []; split <;> (try split) <;> (try split) <;> simp
@[simp] theorem State.reclaimAll_loader (s : State) (p cause code peer : Nat) : (s.reclaimAll p cause code peer).loader = s.loader :=
  by unfold State.reclaimAll; simp only []; split <;> (try split) <;> (try split) <;> simp
@[simp] theorem State.reclaimAll_ops (s : State) (p cause code peer : Nat) : (s.reclaimAll p cause code peer).ops = s.ops :=
  by unfold State.reclaimAll; simp only []; split <;> (try split) <;> (try split) <;> simp
@[simp] theorem State.reclaimAll_streams (s : State) (p cause code peer : Nat) : (s.reclaimAll p cause code peer).streams = s.streams :=
  by unfold State.reclaimAll; simp only []; split <;> (try split) <;> (try split) <;> simp
@[simp] theorem State.reclaimAll_tiers (s : State) (p cause code peer : Nat) : (s.reclaimAll p cause code peer).tiers = s.tiers :=
  by unfold State.reclaimAll; simp only []; split <;> (try split) <;> (try split) <;> simp
@[simp] theorem State.reclaimAll_bolters (s : State) (p cause code peer : Nat) : (s.reclaimAll p cause code peer).bolters = s.bolters :=
  by unfold State.reclaimAll; simp only []; split <;> (try split) <;> (try split) <;> simp
@[simp] theorem State.reclaimAll_gov (s : State) (p cause code peer : Nat) : (s.reclaimAll p cause code peer).gov = s.gov :=
  by unfold State.reclaimAll; simp only []; split <;> (try split) <;> (try split) <;> simp
@[simp] theorem State.reclaimAll_fus (s : State) (p cause code peer : Nat) : (s.reclaimAll p cause code peer).fus = s.fus :=
  by unfold State.reclaimAll; simp only []; split <;> (try split) <;> (try split) <;> simp
@[simp] theorem State.reclaimAll_sol (s : State) (p cause code peer : Nat) : (s.reclaimAll p cause code peer).sol = s.sol :=
  by unfold State.reclaimAll; simp only []; split <;> (try split) <;> (try split) <;> simp
@[simp] theorem State.reclaimAll_tm (s : State) (p cause code peer : Nat) : (s.reclaimAll p cause code peer).tm = s.tm :=
  by unfold State.reclaimAll; simp only []; split <;> (try split) <;> (try split) <;> simp
@[simp] theorem State.reclaimAll_launch (s : State) (p cause code peer : Nat) : (s.reclaimAll p cause code peer).launch = s.launch :=
  by unfold State.reclaimAll; simp only []; split <;> (try split) <;> (try split) <;> simp
@[simp] theorem State.reclaimAll_px (s : State) (p cause code peer : Nat) : (s.reclaimAll p cause code peer).px = s.px :=
  by unfold State.reclaimAll; simp only []; split <;> (try split) <;> (try split) <;> simp
@[simp] theorem State.reclaimAll_sn (s : State) (p cause code peer : Nat) : (s.reclaimAll p cause code peer).sn = s.sn :=
  by unfold State.reclaimAll; simp only []; split <;> (try split) <;> (try split) <;> simp
@[simp] theorem State.reclaimAll_mr (s : State) (p cause code peer : Nat) : (s.reclaimAll p cause code peer).mr = s.mr :=
  by unfold State.reclaimAll; simp only []; split <;> (try split) <;> (try split) <;> simp
@[simp] theorem State.reclaimAll_freeN (s : State) (p cause code peer : Nat) : (s.reclaimAll p cause code peer).freeN = s.freeN :=
  by unfold State.reclaimAll; simp only []; split <;> (try split) <;> (try split) <;> simp
@[simp] theorem State.reclaimAll_pending (s : State) (p cause code peer : Nat) : (s.reclaimAll p cause code peer).pending = s.pending :=
  by unfold State.reclaimAll; simp only []; split <;> (try split) <;> (try split) <;> simp

@[simp] theorem State.releasePool_hold (s : State) (p : Nat) : (s.releasePool p).hold = s.hold :=
  by unfold State.releasePool; simp only []; split <;> (try split) <;> (try split) <;> simp
@[simp] theorem State.releasePool_mem (s : State) (p : Nat) : (s.releasePool p).mem = s.mem :=
  by unfold State.releasePool; simp only []; split <;> (try split) <;> (try split) <;> simp
@[simp] theorem State.releasePool_hp (s : State) (p : Nat) : (s.releasePool p).hp = s.hp :=
  by unfold State.releasePool; simp only []; split <;> (try split) <;> (try split) <;> simp
@[simp] theorem State.releasePool_pw (s : State) (p : Nat) : (s.releasePool p).pw = s.pw :=
  by unfold State.releasePool; simp only []; split <;> (try split) <;> (try split) <;> simp
@[simp] theorem State.releasePool_ck (s : State) (p : Nat) : (s.releasePool p).ck = s.ck :=
  by unfold State.releasePool; simp only []; split <;> (try split) <;> (try split) <;> simp
@[simp] theorem State.releasePool_sec (s : State) (p : Nat) : (s.releasePool p).sec = s.sec :=
  by unfold State.releasePool; simp only []; split <;> (try split) <;> (try split) <;> simp
@[simp] theorem State.releasePool_mills (s : State) (p : Nat) : (s.releasePool p).mills = s.mills :=
  by unfold State.releasePool; simp only []; split <;> (try split) <;> (try split) <;> simp
@[simp] theorem State.releasePool_leat (s : State) (p : Nat) : (s.releasePool p).leat = s.leat :=
  by unfold State.releasePool; simp only []; split <;> (try split) <;> (try split) <;> simp
@[simp] theorem State.releasePool_loader (s : State) (p : Nat) : (s.releasePool p).loader = s.loader :=
  by unfold State.releasePool; simp only []; split <;> (try split) <;> (try split) <;> simp
@[simp] theorem State.releasePool_ops (s : State) (p : Nat) : (s.releasePool p).ops = s.ops :=
  by unfold State.releasePool; simp only []; split <;> (try split) <;> (try split) <;> simp
@[simp] theorem State.releasePool_streams (s : State) (p : Nat) : (s.releasePool p).streams = s.streams :=
  by unfold State.releasePool; simp only []; split <;> (try split) <;> (try split) <;> simp
@[simp] theorem State.releasePool_tiers (s : State) (p : Nat) : (s.releasePool p).tiers = s.tiers :=
  by unfold State.releasePool; simp only []; split <;> (try split) <;> (try split) <;> simp
@[simp] theorem State.releasePool_bolters (s : State) (p : Nat) : (s.releasePool p).bolters = s.bolters :=
  by unfold State.releasePool; simp only []; split <;> (try split) <;> (try split) <;> simp
@[simp] theorem State.releasePool_gov (s : State) (p : Nat) : (s.releasePool p).gov = s.gov :=
  by unfold State.releasePool; simp only []; split <;> (try split) <;> (try split) <;> simp
@[simp] theorem State.releasePool_fus (s : State) (p : Nat) : (s.releasePool p).fus = s.fus :=
  by unfold State.releasePool; simp only []; split <;> (try split) <;> (try split) <;> simp
@[simp] theorem State.releasePool_sol (s : State) (p : Nat) : (s.releasePool p).sol = s.sol :=
  by unfold State.releasePool; simp only []; split <;> (try split) <;> (try split) <;> simp
@[simp] theorem State.releasePool_tm (s : State) (p : Nat) : (s.releasePool p).tm = s.tm :=
  by unfold State.releasePool; simp only []; split <;> (try split) <;> (try split) <;> simp
@[simp] theorem State.releasePool_launch (s : State) (p : Nat) : (s.releasePool p).launch = s.launch :=
  by unfold State.releasePool; simp only []; split <;> (try split) <;> (try split) <;> simp
@[simp] theorem State.releasePool_px (s : State) (p : Nat) : (s.releasePool p).px = s.px :=
  by unfold State.releasePool; simp only []; split <;> (try split) <;> (try split) <;> simp
@[simp] theorem State.releasePool_sn (s : State) (p : Nat) : (s.releasePool p).sn = s.sn :=
  by unfold State.releasePool; simp only []; split <;> (try split) <;> (try split) <;> simp
@[simp] theorem State.releasePool_mr (s : State) (p : Nat) : (s.releasePool p).mr = s.mr :=
  by unfold State.releasePool; simp only []; split <;> (try split) <;> (try split) <;> simp
@[simp] theorem State.releasePool_freeN (s : State) (p : Nat) : (s.releasePool p).freeN = s.freeN :=
  by unfold State.releasePool; simp only []; split <;> (try split) <;> (try split) <;> simp
@[simp] theorem State.releasePool_pending (s : State) (p : Nat) : (s.releasePool p).pending = s.pending :=
  by unfold State.releasePool; simp only []; split <;> (try split) <;> (try split) <;> simp

@[simp] theorem State.flagFault_hold (s : State) (p : Nat) : (s.flagFault p).hold = s.hold := rfl
@[simp] theorem State.flagFault_mem (s : State) (p : Nat) : (s.flagFault p).mem = s.mem := rfl
@[simp] theorem State.flagFault_hp (s : State) (p : Nat) : (s.flagFault p).hp = s.hp := rfl
@[simp] theorem State.flagFault_pw (s : State) (p : Nat) : (s.flagFault p).pw = s.pw := rfl
@[simp] theorem State.flagFault_ck (s : State) (p : Nat) : (s.flagFault p).ck = s.ck := rfl
@[simp] theorem State.flagFault_sec (s : State) (p : Nat) : (s.flagFault p).sec = s.sec := rfl
@[simp] theorem State.flagFault_mills (s : State) (p : Nat) : (s.flagFault p).mills = s.mills := rfl
@[simp] theorem State.flagFault_leat (s : State) (p : Nat) : (s.flagFault p).leat = s.leat := rfl
@[simp] theorem State.flagFault_loader (s : State) (p : Nat) : (s.flagFault p).loader = s.loader := rfl
@[simp] theorem State.flagFault_ops (s : State) (p : Nat) : (s.flagFault p).ops = s.ops := rfl
@[simp] theorem State.flagFault_streams (s : State) (p : Nat) : (s.flagFault p).streams = s.streams := rfl
@[simp] theorem State.flagFault_tiers (s : State) (p : Nat) : (s.flagFault p).tiers = s.tiers := rfl
@[simp] theorem State.flagFault_bolters (s : State) (p : Nat) : (s.flagFault p).bolters = s.bolters := rfl
@[simp] theorem State.flagFault_gov (s : State) (p : Nat) : (s.flagFault p).gov = s.gov := rfl
@[simp] theorem State.flagFault_fus (s : State) (p : Nat) : (s.flagFault p).fus = s.fus := rfl
@[simp] theorem State.flagFault_sol (s : State) (p : Nat) : (s.flagFault p).sol = s.sol := rfl
@[simp] theorem State.flagFault_tm (s : State) (p : Nat) : (s.flagFault p).tm = s.tm := rfl
@[simp] theorem State.flagFault_launch (s : State) (p : Nat) : (s.flagFault p).launch = s.launch := rfl
@[simp] theorem State.flagFault_px (s : State) (p : Nat) : (s.flagFault p).px = s.px := rfl
@[simp] theorem State.flagFault_sn (s : State) (p : Nat) : (s.flagFault p).sn = s.sn := rfl
@[simp] theorem State.flagFault_mr (s : State) (p : Nat) : (s.flagFault p).mr = s.mr := rfl
@[simp] theorem State.flagFault_freeN (s : State) (p : Nat) : (s.flagFault p).freeN = s.freeN := rfl
@[simp] theorem State.flagFault_pending (s : State) (p : Nat) : (s.flagFault p).pending = s.pending := rfl

@[simp] theorem State.faultReconcile_hold (s : State) (p size : Nat) : (s.faultReconcile p size).hold = s.hold :=
  by unfold State.faultReconcile; split <;> simp
@[simp] theorem State.faultReconcile_mem (s : State) (p size : Nat) : (s.faultReconcile p size).mem = s.mem :=
  by unfold State.faultReconcile; split <;> simp
@[simp] theorem State.faultReconcile_hp (s : State) (p size : Nat) : (s.faultReconcile p size).hp = s.hp :=
  by unfold State.faultReconcile; split <;> simp
@[simp] theorem State.faultReconcile_pw (s : State) (p size : Nat) : (s.faultReconcile p size).pw = s.pw :=
  by unfold State.faultReconcile; split <;> simp
@[simp] theorem State.faultReconcile_ck (s : State) (p size : Nat) : (s.faultReconcile p size).ck = s.ck :=
  by unfold State.faultReconcile; split <;> simp
@[simp] theorem State.faultReconcile_sec (s : State) (p size : Nat) : (s.faultReconcile p size).sec = s.sec :=
  by unfold State.faultReconcile; split <;> simp
@[simp] theorem State.faultReconcile_mills (s : State) (p size : Nat) : (s.faultReconcile p size).mills = s.mills :=
  by unfold State.faultReconcile; split <;> simp
@[simp] theorem State.faultReconcile_leat (s : State) (p size : Nat) : (s.faultReconcile p size).leat = s.leat :=
  by unfold State.faultReconcile; split <;> simp
@[simp] theorem State.faultReconcile_loader (s : State) (p size : Nat) : (s.faultReconcile p size).loader = s.loader :=
  by unfold State.faultReconcile; split <;> simp
@[simp] theorem State.faultReconcile_ops (s : State) (p size : Nat) : (s.faultReconcile p size).ops = s.ops :=
  by unfold State.faultReconcile; split <;> simp
@[simp] theorem State.faultReconcile_streams (s : State) (p size : Nat) : (s.faultReconcile p size).streams = s.streams :=
  by unfold State.faultReconcile; split <;> simp
@[simp] theorem State.faultReconcile_tiers (s : State) (p size : Nat) : (s.faultReconcile p size).tiers = s.tiers :=
  by unfold State.faultReconcile; split <;> simp
@[simp] theorem State.faultReconcile_bolters (s : State) (p size : Nat) : (s.faultReconcile p size).bolters = s.bolters :=
  by unfold State.faultReconcile; split <;> simp
@[simp] theorem State.faultReconcile_gov (s : State) (p size : Nat) : (s.faultReconcile p size).gov = s.gov :=
  by unfold State.faultReconcile; split <;> simp
@[simp] theorem State.faultReconcile_fus (s : State) (p size : Nat) : (s.faultReconcile p size).fus = s.fus :=
  by unfold State.faultReconcile; split <;> simp
@[simp] theorem State.faultReconcile_sol (s : State) (p size : Nat) : (s.faultReconcile p size).sol = s.sol :=
  by unfold State.faultReconcile; split <;> simp
@[simp] theorem State.faultReconcile_tm (s : State) (p size : Nat) : (s.faultReconcile p size).tm = s.tm :=
  by unfold State.faultReconcile; split <;> simp
@[simp] theorem State.faultReconcile_launch (s : State) (p size : Nat) : (s.faultReconcile p size).launch = s.launch :=
  by unfold State.faultReconcile; split <;> simp
@[simp] theorem State.faultReconcile_px (s : State) (p size : Nat) : (s.faultReconcile p size).px = s.px :=
  by unfold State.faultReconcile; split <;> simp
@[simp] theorem State.faultReconcile_sn (s : State) (p size : Nat) : (s.faultReconcile p size).sn = s.sn :=
  by unfold State.faultReconcile; split <;> simp
@[simp] theorem State.faultReconcile_mr (s : State) (p size : Nat) : (s.faultReconcile p size).mr = s.mr :=
  by unfold State.faultReconcile; split <;> simp
@[simp] theorem State.faultReconcile_freeN (s : State) (p size : Nat) : (s.faultReconcile p size).freeN = s.freeN :=
  by unfold State.faultReconcile; split <;> simp
@[simp] theorem State.faultReconcile_pending (s : State) (p size : Nat) : (s.faultReconcile p size).pending = s.pending :=
  by unfold State.faultReconcile; split <;> simp

@[simp] theorem State.sizePool_hold (s : State) (p n : Nat) : (s.sizePool p n).hold = s.hold :=
  by unfold State.sizePool; split <;> simp
@[simp] theorem State.sizePool_mem (s : State) (p n : Nat) : (s.sizePool p n).mem = s.mem :=
  by unfold State.sizePool; split <;> simp
@[simp] theorem State.sizePool_hp (s : State) (p n : Nat) : (s.sizePool p n).hp = s.hp :=
  by unfold State.sizePool; split <;> simp
@[simp] theorem State.sizePool_pw (s : State) (p n : Nat) : (s.sizePool p n).pw = s.pw :=
  by unfold State.sizePool; split <;> simp
@[simp] theorem State.sizePool_ck (s : State) (p n : Nat) : (s.sizePool p n).ck = s.ck :=
  by unfold State.sizePool; split <;> simp
@[simp] theorem State.sizePool_sec (s : State) (p n : Nat) : (s.sizePool p n).sec = s.sec :=
  by unfold State.sizePool; split <;> simp
@[simp] theorem State.sizePool_mills (s : State) (p n : Nat) : (s.sizePool p n).mills = s.mills :=
  by unfold State.sizePool; split <;> simp
@[simp] theorem State.sizePool_leat (s : State) (p n : Nat) : (s.sizePool p n).leat = s.leat :=
  by unfold State.sizePool; split <;> simp
@[simp] theorem State.sizePool_loader (s : State) (p n : Nat) : (s.sizePool p n).loader = s.loader :=
  by unfold State.sizePool; split <;> simp
@[simp] theorem State.sizePool_ops (s : State) (p n : Nat) : (s.sizePool p n).ops = s.ops :=
  by unfold State.sizePool; split <;> simp
@[simp] theorem State.sizePool_streams (s : State) (p n : Nat) : (s.sizePool p n).streams = s.streams :=
  by unfold State.sizePool; split <;> simp
@[simp] theorem State.sizePool_tiers (s : State) (p n : Nat) : (s.sizePool p n).tiers = s.tiers :=
  by unfold State.sizePool; split <;> simp
@[simp] theorem State.sizePool_bolters (s : State) (p n : Nat) : (s.sizePool p n).bolters = s.bolters :=
  by unfold State.sizePool; split <;> simp
@[simp] theorem State.sizePool_gov (s : State) (p n : Nat) : (s.sizePool p n).gov = s.gov :=
  by unfold State.sizePool; split <;> simp
@[simp] theorem State.sizePool_fus (s : State) (p n : Nat) : (s.sizePool p n).fus = s.fus :=
  by unfold State.sizePool; split <;> simp
@[simp] theorem State.sizePool_sol (s : State) (p n : Nat) : (s.sizePool p n).sol = s.sol :=
  by unfold State.sizePool; split <;> simp
@[simp] theorem State.sizePool_tm (s : State) (p n : Nat) : (s.sizePool p n).tm = s.tm :=
  by unfold State.sizePool; split <;> simp
@[simp] theorem State.sizePool_launch (s : State) (p n : Nat) : (s.sizePool p n).launch = s.launch :=
  by unfold State.sizePool; split <;> simp
@[simp] theorem State.sizePool_px (s : State) (p n : Nat) : (s.sizePool p n).px = s.px :=
  by unfold State.sizePool; split <;> simp
@[simp] theorem State.sizePool_sn (s : State) (p n : Nat) : (s.sizePool p n).sn = s.sn :=
  by unfold State.sizePool; split <;> simp
@[simp] theorem State.sizePool_mr (s : State) (p n : Nat) : (s.sizePool p n).mr = s.mr :=
  by unfold State.sizePool; split <;> simp
@[simp] theorem State.sizePool_freeN (s : State) (p n : Nat) : (s.sizePool p n).freeN = s.freeN :=
  by unfold State.sizePool; split <;> simp
@[simp] theorem State.sizePool_pending (s : State) (p n : Nat) : (s.sizePool p n).pending = s.pending :=
  by unfold State.sizePool; split <;> simp

@[simp] theorem State.wheelTo_hold (s : State) (t : Wheel) : (s.wheelTo t).hold = s.hold :=
  by unfold State.wheelTo; simp only []; split <;> (try split) <;> (try split) <;> simp
@[simp] theorem State.wheelTo_mem (s : State) (t : Wheel) : (s.wheelTo t).mem = s.mem :=
  by unfold State.wheelTo; simp only []; split <;> (try split) <;> (try split) <;> simp
@[simp] theorem State.wheelTo_ledger (s : State) (t : Wheel) : (s.wheelTo t).ledger = s.ledger :=
  by unfold State.wheelTo; simp only []; split <;> (try split) <;> (try split) <;> simp
@[simp] theorem State.wheelTo_hp (s : State) (t : Wheel) : (s.wheelTo t).hp = s.hp :=
  by unfold State.wheelTo; simp only []; split <;> (try split) <;> (try split) <;> simp
@[simp] theorem State.wheelTo_pw (s : State) (t : Wheel) : (s.wheelTo t).pw = s.pw :=
  by unfold State.wheelTo; simp only []; split <;> (try split) <;> (try split) <;> simp
@[simp] theorem State.wheelTo_ck (s : State) (t : Wheel) : (s.wheelTo t).ck = s.ck :=
  by unfold State.wheelTo; simp only []; split <;> (try split) <;> (try split) <;> simp
@[simp] theorem State.wheelTo_sec (s : State) (t : Wheel) : (s.wheelTo t).sec = s.sec :=
  by unfold State.wheelTo; simp only []; split <;> (try split) <;> (try split) <;> simp
@[simp] theorem State.wheelTo_mills (s : State) (t : Wheel) : (s.wheelTo t).mills = s.mills :=
  by unfold State.wheelTo; simp only []; split <;> (try split) <;> (try split) <;> simp
@[simp] theorem State.wheelTo_leat (s : State) (t : Wheel) : (s.wheelTo t).leat = s.leat :=
  by unfold State.wheelTo; simp only []; split <;> (try split) <;> (try split) <;> simp
@[simp] theorem State.wheelTo_loader (s : State) (t : Wheel) : (s.wheelTo t).loader = s.loader :=
  by unfold State.wheelTo; simp only []; split <;> (try split) <;> (try split) <;> simp
@[simp] theorem State.wheelTo_ops (s : State) (t : Wheel) : (s.wheelTo t).ops = s.ops :=
  by unfold State.wheelTo; simp only []; split <;> (try split) <;> (try split) <;> simp
@[simp] theorem State.wheelTo_streams (s : State) (t : Wheel) : (s.wheelTo t).streams = s.streams :=
  by unfold State.wheelTo; simp only []; split <;> (try split) <;> (try split) <;> simp
@[simp] theorem State.wheelTo_tiers (s : State) (t : Wheel) : (s.wheelTo t).tiers = s.tiers :=
  by unfold State.wheelTo; simp only []; split <;> (try split) <;> (try split) <;> simp
@[simp] theorem State.wheelTo_bolters (s : State) (t : Wheel) : (s.wheelTo t).bolters = s.bolters :=
  by unfold State.wheelTo; simp only []; split <;> (try split) <;> (try split) <;> simp
@[simp] theorem State.wheelTo_fus (s : State) (t : Wheel) : (s.wheelTo t).fus = s.fus :=
  by unfold State.wheelTo; simp only []; split <;> (try split) <;> (try split) <;> simp
@[simp] theorem State.wheelTo_sol (s : State) (t : Wheel) : (s.wheelTo t).sol = s.sol :=
  by unfold State.wheelTo; simp only []; split <;> (try split) <;> (try split) <;> simp
@[simp] theorem State.wheelTo_tm (s : State) (t : Wheel) : (s.wheelTo t).tm = s.tm :=
  by unfold State.wheelTo; simp only []; split <;> (try split) <;> (try split) <;> simp
@[simp] theorem State.wheelTo_launch (s : State) (t : Wheel) : (s.wheelTo t).launch = s.launch :=
  by unfold State.wheelTo; simp only []; split <;> (try split) <;> (try split) <;> simp
@[simp] theorem State.wheelTo_px (s : State) (t : Wheel) : (s.wheelTo t).px = s.px :=
  by unfold State.wheelTo; simp only []; split <;> (try split) <;> (try split) <;> simp
@[simp] theorem State.wheelTo_sn (s : State) (t : Wheel) : (s.wheelTo t).sn = s.sn :=
  by unfold State.wheelTo; simp only []; split <;> (try split) <;> (try split) <;> simp
@[simp] theorem State.wheelTo_mr (s : State) (t : Wheel) : (s.wheelTo t).mr = s.mr :=
  by unfold State.wheelTo; simp only []; split <;> (try split) <;> (try split) <;> simp
@[simp] theorem State.wheelTo_freeN (s : State) (t : Wheel) : (s.wheelTo t).freeN = s.freeN :=
  by unfold State.wheelTo; simp only []; split <;> (try split) <;> (try split) <;> simp
@[simp] theorem State.wheelTo_pending (s : State) (t : Wheel) : (s.wheelTo t).pending = s.pending :=
  by unfold State.wheelTo; simp only []; split <;> (try split) <;> (try split) <;> simp

@[simp] theorem State.setWheel_hold (s : State) (w : BrakeWheel) : (s.setWheel w).hold = s.hold :=
  by simp [State.setWheel]
@[simp] theorem State.setWheel_mem (s : State) (w : BrakeWheel) : (s.setWheel w).mem = s.mem :=
  by simp [State.setWheel]
@[simp] theorem State.setWheel_ledger (s : State) (w : BrakeWheel) : (s.setWheel w).ledger = s.ledger :=
  by simp [State.setWheel]
@[simp] theorem State.setWheel_hp (s : State) (w : BrakeWheel) : (s.setWheel w).hp = s.hp := by simp [State.setWheel]
@[simp] theorem State.setWheel_pw (s : State) (w : BrakeWheel) : (s.setWheel w).pw = s.pw := by simp [State.setWheel]
@[simp] theorem State.setWheel_ck (s : State) (w : BrakeWheel) : (s.setWheel w).ck = s.ck := by simp [State.setWheel]
@[simp] theorem State.setWheel_sec (s : State) (w : BrakeWheel) : (s.setWheel w).sec = s.sec :=
  by simp [State.setWheel]
@[simp] theorem State.setWheel_mills (s : State) (w : BrakeWheel) : (s.setWheel w).mills = s.mills :=
  by simp [State.setWheel]
@[simp] theorem State.setWheel_leat (s : State) (w : BrakeWheel) : (s.setWheel w).leat = s.leat :=
  by simp [State.setWheel]
@[simp] theorem State.setWheel_loader (s : State) (w : BrakeWheel) : (s.setWheel w).loader = s.loader :=
  by simp [State.setWheel]
@[simp] theorem State.setWheel_ops (s : State) (w : BrakeWheel) : (s.setWheel w).ops = s.ops :=
  by simp [State.setWheel]
@[simp] theorem State.setWheel_streams (s : State) (w : BrakeWheel) : (s.setWheel w).streams = s.streams :=
  by simp [State.setWheel]
@[simp] theorem State.setWheel_tiers (s : State) (w : BrakeWheel) : (s.setWheel w).tiers = s.tiers :=
  by simp [State.setWheel]
@[simp] theorem State.setWheel_bolters (s : State) (w : BrakeWheel) : (s.setWheel w).bolters = s.bolters :=
  by simp [State.setWheel]
@[simp] theorem State.setWheel_fus (s : State) (w : BrakeWheel) : (s.setWheel w).fus = s.fus :=
  by simp [State.setWheel]
@[simp] theorem State.setWheel_sol (s : State) (w : BrakeWheel) : (s.setWheel w).sol = s.sol :=
  by simp [State.setWheel]
@[simp] theorem State.setWheel_tm (s : State) (w : BrakeWheel) : (s.setWheel w).tm = s.tm := by simp [State.setWheel]
@[simp] theorem State.setWheel_launch (s : State) (w : BrakeWheel) : (s.setWheel w).launch = s.launch :=
  by simp [State.setWheel]
@[simp] theorem State.setWheel_px (s : State) (w : BrakeWheel) : (s.setWheel w).px = s.px := by simp [State.setWheel]
@[simp] theorem State.setWheel_sn (s : State) (w : BrakeWheel) : (s.setWheel w).sn = s.sn := by simp [State.setWheel]
@[simp] theorem State.setWheel_mr (s : State) (w : BrakeWheel) : (s.setWheel w).mr = s.mr := by simp [State.setWheel]
@[simp] theorem State.setWheel_freeN (s : State) (w : BrakeWheel) : (s.setWheel w).freeN = s.freeN :=
  by simp [State.setWheel]
@[simp] theorem State.setWheel_pending (s : State) (w : BrakeWheel) : (s.setWheel w).pending = s.pending :=
  by simp [State.setWheel]

@[simp] theorem State.holdCause_hold (s : State) (c : Nat) (on : Bool) : (s.holdCause c on).hold = s.hold :=
  by simp [State.holdCause]
@[simp] theorem State.holdCause_mem (s : State) (c : Nat) (on : Bool) : (s.holdCause c on).mem = s.mem :=
  by simp [State.holdCause]
@[simp] theorem State.holdCause_ledger (s : State) (c : Nat) (on : Bool) : (s.holdCause c on).ledger = s.ledger :=
  by simp [State.holdCause]
@[simp] theorem State.holdCause_hp (s : State) (c : Nat) (on : Bool) : (s.holdCause c on).hp = s.hp :=
  by simp [State.holdCause]
@[simp] theorem State.holdCause_pw (s : State) (c : Nat) (on : Bool) : (s.holdCause c on).pw = s.pw :=
  by simp [State.holdCause]
@[simp] theorem State.holdCause_ck (s : State) (c : Nat) (on : Bool) : (s.holdCause c on).ck = s.ck :=
  by simp [State.holdCause]
@[simp] theorem State.holdCause_sec (s : State) (c : Nat) (on : Bool) : (s.holdCause c on).sec = s.sec :=
  by simp [State.holdCause]
@[simp] theorem State.holdCause_mills (s : State) (c : Nat) (on : Bool) : (s.holdCause c on).mills = s.mills :=
  by simp [State.holdCause]
@[simp] theorem State.holdCause_leat (s : State) (c : Nat) (on : Bool) : (s.holdCause c on).leat = s.leat :=
  by simp [State.holdCause]
@[simp] theorem State.holdCause_loader (s : State) (c : Nat) (on : Bool) : (s.holdCause c on).loader = s.loader :=
  by simp [State.holdCause]
@[simp] theorem State.holdCause_ops (s : State) (c : Nat) (on : Bool) : (s.holdCause c on).ops = s.ops :=
  by simp [State.holdCause]
@[simp] theorem State.holdCause_streams (s : State) (c : Nat) (on : Bool) : (s.holdCause c on).streams = s.streams :=
  by simp [State.holdCause]
@[simp] theorem State.holdCause_tiers (s : State) (c : Nat) (on : Bool) : (s.holdCause c on).tiers = s.tiers :=
  by simp [State.holdCause]
@[simp] theorem State.holdCause_bolters (s : State) (c : Nat) (on : Bool) : (s.holdCause c on).bolters = s.bolters :=
  by simp [State.holdCause]
@[simp] theorem State.holdCause_fus (s : State) (c : Nat) (on : Bool) : (s.holdCause c on).fus = s.fus :=
  by simp [State.holdCause]
@[simp] theorem State.holdCause_sol (s : State) (c : Nat) (on : Bool) : (s.holdCause c on).sol = s.sol :=
  by simp [State.holdCause]
@[simp] theorem State.holdCause_tm (s : State) (c : Nat) (on : Bool) : (s.holdCause c on).tm = s.tm :=
  by simp [State.holdCause]
@[simp] theorem State.holdCause_launch (s : State) (c : Nat) (on : Bool) : (s.holdCause c on).launch = s.launch :=
  by simp [State.holdCause]
@[simp] theorem State.holdCause_px (s : State) (c : Nat) (on : Bool) : (s.holdCause c on).px = s.px :=
  by simp [State.holdCause]
@[simp] theorem State.holdCause_sn (s : State) (c : Nat) (on : Bool) : (s.holdCause c on).sn = s.sn :=
  by simp [State.holdCause]
@[simp] theorem State.holdCause_mr (s : State) (c : Nat) (on : Bool) : (s.holdCause c on).mr = s.mr :=
  by simp [State.holdCause]
@[simp] theorem State.holdCause_freeN (s : State) (c : Nat) (on : Bool) : (s.holdCause c on).freeN = s.freeN :=
  by simp [State.holdCause]
@[simp] theorem State.holdCause_pending (s : State) (c : Nat) (on : Bool) : (s.holdCause c on).pending = s.pending :=
  by simp [State.holdCause]

@[simp] theorem State.stoCause_hold (s : State) (c : Nat) : (s.stoCause c).hold = s.hold := by simp [State.stoCause]
@[simp] theorem State.stoCause_mem (s : State) (c : Nat) : (s.stoCause c).mem = s.mem := by simp [State.stoCause]
@[simp] theorem State.stoCause_ledger (s : State) (c : Nat) : (s.stoCause c).ledger = s.ledger :=
  by simp [State.stoCause]
@[simp] theorem State.stoCause_hp (s : State) (c : Nat) : (s.stoCause c).hp = s.hp := by simp [State.stoCause]
@[simp] theorem State.stoCause_pw (s : State) (c : Nat) : (s.stoCause c).pw = s.pw := by simp [State.stoCause]
@[simp] theorem State.stoCause_ck (s : State) (c : Nat) : (s.stoCause c).ck = s.ck := by simp [State.stoCause]
@[simp] theorem State.stoCause_sec (s : State) (c : Nat) : (s.stoCause c).sec = s.sec := by simp [State.stoCause]
@[simp] theorem State.stoCause_mills (s : State) (c : Nat) : (s.stoCause c).mills = s.mills :=
  by simp [State.stoCause]
@[simp] theorem State.stoCause_leat (s : State) (c : Nat) : (s.stoCause c).leat = s.leat := by simp [State.stoCause]
@[simp] theorem State.stoCause_loader (s : State) (c : Nat) : (s.stoCause c).loader = s.loader :=
  by simp [State.stoCause]
@[simp] theorem State.stoCause_ops (s : State) (c : Nat) : (s.stoCause c).ops = s.ops := by simp [State.stoCause]
@[simp] theorem State.stoCause_streams (s : State) (c : Nat) : (s.stoCause c).streams = s.streams :=
  by simp [State.stoCause]
@[simp] theorem State.stoCause_tiers (s : State) (c : Nat) : (s.stoCause c).tiers = s.tiers :=
  by simp [State.stoCause]
@[simp] theorem State.stoCause_bolters (s : State) (c : Nat) : (s.stoCause c).bolters = s.bolters :=
  by simp [State.stoCause]
@[simp] theorem State.stoCause_fus (s : State) (c : Nat) : (s.stoCause c).fus = s.fus := by simp [State.stoCause]
@[simp] theorem State.stoCause_sol (s : State) (c : Nat) : (s.stoCause c).sol = s.sol := by simp [State.stoCause]
@[simp] theorem State.stoCause_tm (s : State) (c : Nat) : (s.stoCause c).tm = s.tm := by simp [State.stoCause]
@[simp] theorem State.stoCause_launch (s : State) (c : Nat) : (s.stoCause c).launch = s.launch :=
  by simp [State.stoCause]
@[simp] theorem State.stoCause_px (s : State) (c : Nat) : (s.stoCause c).px = s.px := by simp [State.stoCause]
@[simp] theorem State.stoCause_sn (s : State) (c : Nat) : (s.stoCause c).sn = s.sn := by simp [State.stoCause]
@[simp] theorem State.stoCause_mr (s : State) (c : Nat) : (s.stoCause c).mr = s.mr := by simp [State.stoCause]
@[simp] theorem State.stoCause_freeN (s : State) (c : Nat) : (s.stoCause c).freeN = s.freeN :=
  by simp [State.stoCause]
@[simp] theorem State.stoCause_pending (s : State) (c : Nat) : (s.stoCause c).pending = s.pending :=
  by simp [State.stoCause]

@[simp] theorem State.laneCount_hold (s : State) : (s.laneCount).hold = s.hold :=
  by unfold State.laneCount; split <;> simp
@[simp] theorem State.laneCount_mem (s : State) : (s.laneCount).mem = s.mem :=
  by unfold State.laneCount; split <;> simp
@[simp] theorem State.laneCount_ledger (s : State) : (s.laneCount).ledger = s.ledger :=
  by unfold State.laneCount; split <;> simp
@[simp] theorem State.laneCount_hp (s : State) : (s.laneCount).hp = s.hp := by unfold State.laneCount; split <;> simp
@[simp] theorem State.laneCount_pw (s : State) : (s.laneCount).pw = s.pw := by unfold State.laneCount; split <;> simp
@[simp] theorem State.laneCount_ck (s : State) : (s.laneCount).ck = s.ck := by unfold State.laneCount; split <;> simp
@[simp] theorem State.laneCount_sec (s : State) : (s.laneCount).sec = s.sec :=
  by unfold State.laneCount; split <;> simp
@[simp] theorem State.laneCount_mills (s : State) : (s.laneCount).mills = s.mills :=
  by unfold State.laneCount; split <;> simp
@[simp] theorem State.laneCount_leat (s : State) : (s.laneCount).leat = s.leat :=
  by unfold State.laneCount; split <;> simp
@[simp] theorem State.laneCount_loader (s : State) : (s.laneCount).loader = s.loader :=
  by unfold State.laneCount; split <;> simp
@[simp] theorem State.laneCount_ops (s : State) : (s.laneCount).ops = s.ops :=
  by unfold State.laneCount; split <;> simp
@[simp] theorem State.laneCount_streams (s : State) : (s.laneCount).streams = s.streams :=
  by unfold State.laneCount; split <;> simp
@[simp] theorem State.laneCount_tiers (s : State) : (s.laneCount).tiers = s.tiers :=
  by unfold State.laneCount; split <;> simp
@[simp] theorem State.laneCount_bolters (s : State) : (s.laneCount).bolters = s.bolters :=
  by unfold State.laneCount; split <;> simp
@[simp] theorem State.laneCount_fus (s : State) : (s.laneCount).fus = s.fus :=
  by unfold State.laneCount; split <;> simp
@[simp] theorem State.laneCount_sol (s : State) : (s.laneCount).sol = s.sol :=
  by unfold State.laneCount; split <;> simp
@[simp] theorem State.laneCount_tm (s : State) : (s.laneCount).tm = s.tm := by unfold State.laneCount; split <;> simp
@[simp] theorem State.laneCount_launch (s : State) : (s.laneCount).launch = s.launch :=
  by unfold State.laneCount; split <;> simp
@[simp] theorem State.laneCount_px (s : State) : (s.laneCount).px = s.px := by unfold State.laneCount; split <;> simp
@[simp] theorem State.laneCount_sn (s : State) : (s.laneCount).sn = s.sn := by unfold State.laneCount; split <;> simp
@[simp] theorem State.laneCount_mr (s : State) : (s.laneCount).mr = s.mr := by unfold State.laneCount; split <;> simp
@[simp] theorem State.laneCount_freeN (s : State) : (s.laneCount).freeN = s.freeN :=
  by unfold State.laneCount; split <;> simp
@[simp] theorem State.laneCount_pending (s : State) : (s.laneCount).pending = s.pending :=
  by unfold State.laneCount; split <;> simp

@[simp] theorem State.isolate_hold (s : State) (l cause point off minor major : Nat) : (s.isolate l cause point off minor major).hold = s.hold :=
  by unfold State.isolate; simp only []; split <;> (try split) <;> (try split) <;> simp
@[simp] theorem State.isolate_mem (s : State) (l cause point off minor major : Nat) : (s.isolate l cause point off minor major).mem = s.mem :=
  by unfold State.isolate; simp only []; split <;> (try split) <;> (try split) <;> simp
@[simp] theorem State.isolate_ledger (s : State) (l cause point off minor major : Nat) : (s.isolate l cause point off minor major).ledger = s.ledger :=
  by unfold State.isolate; simp only []; split <;> (try split) <;> (try split) <;> simp
@[simp] theorem State.isolate_hp (s : State) (l cause point off minor major : Nat) : (s.isolate l cause point off minor major).hp = s.hp :=
  by unfold State.isolate; simp only []; split <;> (try split) <;> (try split) <;> simp
@[simp] theorem State.isolate_pw (s : State) (l cause point off minor major : Nat) : (s.isolate l cause point off minor major).pw = s.pw :=
  by unfold State.isolate; simp only []; split <;> (try split) <;> (try split) <;> simp
@[simp] theorem State.isolate_ck (s : State) (l cause point off minor major : Nat) : (s.isolate l cause point off minor major).ck = s.ck :=
  by unfold State.isolate; simp only []; split <;> (try split) <;> (try split) <;> simp
@[simp] theorem State.isolate_sec (s : State) (l cause point off minor major : Nat) : (s.isolate l cause point off minor major).sec = s.sec :=
  by unfold State.isolate; simp only []; split <;> (try split) <;> (try split) <;> simp
@[simp] theorem State.isolate_mills (s : State) (l cause point off minor major : Nat) : (s.isolate l cause point off minor major).mills = s.mills :=
  by unfold State.isolate; simp only []; split <;> (try split) <;> (try split) <;> simp
@[simp] theorem State.isolate_leat (s : State) (l cause point off minor major : Nat) : (s.isolate l cause point off minor major).leat = s.leat :=
  by unfold State.isolate; simp only []; split <;> (try split) <;> (try split) <;> simp
@[simp] theorem State.isolate_loader (s : State) (l cause point off minor major : Nat) : (s.isolate l cause point off minor major).loader = s.loader :=
  by unfold State.isolate; simp only []; split <;> (try split) <;> (try split) <;> simp
@[simp] theorem State.isolate_ops (s : State) (l cause point off minor major : Nat) : (s.isolate l cause point off minor major).ops = s.ops :=
  by unfold State.isolate; simp only []; split <;> (try split) <;> (try split) <;> simp
@[simp] theorem State.isolate_streams (s : State) (l cause point off minor major : Nat) : (s.isolate l cause point off minor major).streams = s.streams :=
  by unfold State.isolate; simp only []; split <;> (try split) <;> (try split) <;> simp
@[simp] theorem State.isolate_tiers (s : State) (l cause point off minor major : Nat) : (s.isolate l cause point off minor major).tiers = s.tiers :=
  by unfold State.isolate; simp only []; split <;> (try split) <;> (try split) <;> simp
@[simp] theorem State.isolate_bolters (s : State) (l cause point off minor major : Nat) : (s.isolate l cause point off minor major).bolters = s.bolters :=
  by unfold State.isolate; simp only []; split <;> (try split) <;> (try split) <;> simp
@[simp] theorem State.isolate_fus (s : State) (l cause point off minor major : Nat) : (s.isolate l cause point off minor major).fus = s.fus :=
  by unfold State.isolate; simp only []; split <;> (try split) <;> (try split) <;> simp
@[simp] theorem State.isolate_sol (s : State) (l cause point off minor major : Nat) : (s.isolate l cause point off minor major).sol = s.sol :=
  by unfold State.isolate; simp only []; split <;> (try split) <;> (try split) <;> simp
@[simp] theorem State.isolate_tm (s : State) (l cause point off minor major : Nat) : (s.isolate l cause point off minor major).tm = s.tm :=
  by unfold State.isolate; simp only []; split <;> (try split) <;> (try split) <;> simp
@[simp] theorem State.isolate_launch (s : State) (l cause point off minor major : Nat) : (s.isolate l cause point off minor major).launch = s.launch :=
  by unfold State.isolate; simp only []; split <;> (try split) <;> (try split) <;> simp
@[simp] theorem State.isolate_px (s : State) (l cause point off minor major : Nat) : (s.isolate l cause point off minor major).px = s.px :=
  by unfold State.isolate; simp only []; split <;> (try split) <;> (try split) <;> simp
@[simp] theorem State.isolate_sn (s : State) (l cause point off minor major : Nat) : (s.isolate l cause point off minor major).sn = s.sn :=
  by unfold State.isolate; simp only []; split <;> (try split) <;> (try split) <;> simp
@[simp] theorem State.isolate_mr (s : State) (l cause point off minor major : Nat) : (s.isolate l cause point off minor major).mr = s.mr :=
  by unfold State.isolate; simp only []; split <;> (try split) <;> (try split) <;> simp
@[simp] theorem State.isolate_freeN (s : State) (l cause point off minor major : Nat) : (s.isolate l cause point off minor major).freeN = s.freeN :=
  by unfold State.isolate; simp only []; split <;> (try split) <;> (try split) <;> simp
@[simp] theorem State.isolate_pending (s : State) (l cause point off minor major : Nat) : (s.isolate l cause point off minor major).pending = s.pending :=
  by unfold State.isolate; simp only []; split <;> (try split) <;> (try split) <;> simp

@[simp] theorem State.millFault_hold (s : State) (m cause pool : Nat) : (s.millFault m cause pool).hold = s.hold :=
  by unfold State.millFault; simp only []; split <;> (try split) <;> (try split) <;> simp
@[simp] theorem State.millFault_mem (s : State) (m cause pool : Nat) : (s.millFault m cause pool).mem = s.mem :=
  by unfold State.millFault; simp only []; split <;> (try split) <;> (try split) <;> simp
@[simp] theorem State.millFault_ledger (s : State) (m cause pool : Nat) : (s.millFault m cause pool).ledger = s.ledger :=
  by unfold State.millFault; simp only []; split <;> (try split) <;> (try split) <;> simp
@[simp] theorem State.millFault_hp (s : State) (m cause pool : Nat) : (s.millFault m cause pool).hp = s.hp :=
  by unfold State.millFault; simp only []; split <;> (try split) <;> (try split) <;> simp
@[simp] theorem State.millFault_pw (s : State) (m cause pool : Nat) : (s.millFault m cause pool).pw = s.pw :=
  by unfold State.millFault; simp only []; split <;> (try split) <;> (try split) <;> simp
@[simp] theorem State.millFault_ck (s : State) (m cause pool : Nat) : (s.millFault m cause pool).ck = s.ck :=
  by unfold State.millFault; simp only []; split <;> (try split) <;> (try split) <;> simp
@[simp] theorem State.millFault_sec (s : State) (m cause pool : Nat) : (s.millFault m cause pool).sec = s.sec :=
  by unfold State.millFault; simp only []; split <;> (try split) <;> (try split) <;> simp
@[simp] theorem State.millFault_leat (s : State) (m cause pool : Nat) : (s.millFault m cause pool).leat = s.leat :=
  by unfold State.millFault; simp only []; split <;> (try split) <;> (try split) <;> simp
@[simp] theorem State.millFault_loader (s : State) (m cause pool : Nat) : (s.millFault m cause pool).loader = s.loader :=
  by unfold State.millFault; simp only []; split <;> (try split) <;> (try split) <;> simp
@[simp] theorem State.millFault_ops (s : State) (m cause pool : Nat) : (s.millFault m cause pool).ops = s.ops :=
  by unfold State.millFault; simp only []; split <;> (try split) <;> (try split) <;> simp
@[simp] theorem State.millFault_streams (s : State) (m cause pool : Nat) : (s.millFault m cause pool).streams = s.streams :=
  by unfold State.millFault; simp only []; split <;> (try split) <;> (try split) <;> simp
@[simp] theorem State.millFault_tiers (s : State) (m cause pool : Nat) : (s.millFault m cause pool).tiers = s.tiers :=
  by unfold State.millFault; simp only []; split <;> (try split) <;> (try split) <;> simp
@[simp] theorem State.millFault_bolters (s : State) (m cause pool : Nat) : (s.millFault m cause pool).bolters = s.bolters :=
  by unfold State.millFault; simp only []; split <;> (try split) <;> (try split) <;> simp
@[simp] theorem State.millFault_gov (s : State) (m cause pool : Nat) : (s.millFault m cause pool).gov = s.gov :=
  by unfold State.millFault; simp only []; split <;> (try split) <;> (try split) <;> simp
@[simp] theorem State.millFault_fus (s : State) (m cause pool : Nat) : (s.millFault m cause pool).fus = s.fus :=
  by unfold State.millFault; simp only []; split <;> (try split) <;> (try split) <;> simp
@[simp] theorem State.millFault_sol (s : State) (m cause pool : Nat) : (s.millFault m cause pool).sol = s.sol :=
  by unfold State.millFault; simp only []; split <;> (try split) <;> (try split) <;> simp
@[simp] theorem State.millFault_tm (s : State) (m cause pool : Nat) : (s.millFault m cause pool).tm = s.tm :=
  by unfold State.millFault; simp only []; split <;> (try split) <;> (try split) <;> simp
@[simp] theorem State.millFault_launch (s : State) (m cause pool : Nat) : (s.millFault m cause pool).launch = s.launch :=
  by unfold State.millFault; simp only []; split <;> (try split) <;> (try split) <;> simp
@[simp] theorem State.millFault_px (s : State) (m cause pool : Nat) : (s.millFault m cause pool).px = s.px :=
  by unfold State.millFault; simp only []; split <;> (try split) <;> (try split) <;> simp
@[simp] theorem State.millFault_sn (s : State) (m cause pool : Nat) : (s.millFault m cause pool).sn = s.sn :=
  by unfold State.millFault; simp only []; split <;> (try split) <;> (try split) <;> simp
@[simp] theorem State.millFault_mr (s : State) (m cause pool : Nat) : (s.millFault m cause pool).mr = s.mr :=
  by unfold State.millFault; simp only []; split <;> (try split) <;> (try split) <;> simp
@[simp] theorem State.millFault_freeN (s : State) (m cause pool : Nat) : (s.millFault m cause pool).freeN = s.freeN :=
  by unfold State.millFault; simp only []; split <;> (try split) <;> (try split) <;> simp
@[simp] theorem State.millFault_pending (s : State) (m cause pool : Nat) : (s.millFault m cause pool).pending = s.pending :=
  by unfold State.millFault; simp only []; split <;> (try split) <;> (try split) <;> simp

@[simp] theorem State.finishAt_regs (s : State) (ctx idx status result : Nat) : (s.finishAt ctx idx status result).regs = s.regs :=
  by unfold State.finishAt; split <;> simp
@[simp] theorem State.finishAt_hold (s : State) (ctx idx status result : Nat) : (s.finishAt ctx idx status result).hold = s.hold :=
  by unfold State.finishAt; split <;> simp
@[simp] theorem State.finishAt_mem (s : State) (ctx idx status result : Nat) : (s.finishAt ctx idx status result).mem = s.mem :=
  by unfold State.finishAt; split <;> simp
@[simp] theorem State.finishAt_ledger (s : State) (ctx idx status result : Nat) : (s.finishAt ctx idx status result).ledger = s.ledger :=
  by unfold State.finishAt; split <;> simp
@[simp] theorem State.finishAt_ev (s : State) (ctx idx status result : Nat) : (s.finishAt ctx idx status result).ev = s.ev :=
  by unfold State.finishAt; split <;> simp
@[simp] theorem State.finishAt_pw (s : State) (ctx idx status result : Nat) : (s.finishAt ctx idx status result).pw = s.pw :=
  by unfold State.finishAt; split <;> simp
@[simp] theorem State.finishAt_ck (s : State) (ctx idx status result : Nat) : (s.finishAt ctx idx status result).ck = s.ck :=
  by unfold State.finishAt; split <;> simp
@[simp] theorem State.finishAt_sec (s : State) (ctx idx status result : Nat) : (s.finishAt ctx idx status result).sec = s.sec :=
  by unfold State.finishAt; split <;> simp
@[simp] theorem State.finishAt_mills (s : State) (ctx idx status result : Nat) : (s.finishAt ctx idx status result).mills = s.mills :=
  by unfold State.finishAt; split <;> simp
@[simp] theorem State.finishAt_leat (s : State) (ctx idx status result : Nat) : (s.finishAt ctx idx status result).leat = s.leat :=
  by unfold State.finishAt; split <;> simp
@[simp] theorem State.finishAt_loader (s : State) (ctx idx status result : Nat) : (s.finishAt ctx idx status result).loader = s.loader :=
  by unfold State.finishAt; split <;> simp
@[simp] theorem State.finishAt_ops (s : State) (ctx idx status result : Nat) : (s.finishAt ctx idx status result).ops = s.ops :=
  by unfold State.finishAt; split <;> simp
@[simp] theorem State.finishAt_streams (s : State) (ctx idx status result : Nat) : (s.finishAt ctx idx status result).streams = s.streams :=
  by unfold State.finishAt; split <;> simp
@[simp] theorem State.finishAt_tiers (s : State) (ctx idx status result : Nat) : (s.finishAt ctx idx status result).tiers = s.tiers :=
  by unfold State.finishAt; split <;> simp
@[simp] theorem State.finishAt_bolters (s : State) (ctx idx status result : Nat) : (s.finishAt ctx idx status result).bolters = s.bolters :=
  by unfold State.finishAt; split <;> simp
@[simp] theorem State.finishAt_gov (s : State) (ctx idx status result : Nat) : (s.finishAt ctx idx status result).gov = s.gov :=
  by unfold State.finishAt; split <;> simp
@[simp] theorem State.finishAt_fus (s : State) (ctx idx status result : Nat) : (s.finishAt ctx idx status result).fus = s.fus :=
  by unfold State.finishAt; split <;> simp
@[simp] theorem State.finishAt_sol (s : State) (ctx idx status result : Nat) : (s.finishAt ctx idx status result).sol = s.sol :=
  by unfold State.finishAt; split <;> simp
@[simp] theorem State.finishAt_tm (s : State) (ctx idx status result : Nat) : (s.finishAt ctx idx status result).tm = s.tm :=
  by unfold State.finishAt; split <;> simp
@[simp] theorem State.finishAt_launch (s : State) (ctx idx status result : Nat) : (s.finishAt ctx idx status result).launch = s.launch :=
  by unfold State.finishAt; split <;> simp
@[simp] theorem State.finishAt_px (s : State) (ctx idx status result : Nat) : (s.finishAt ctx idx status result).px = s.px :=
  by unfold State.finishAt; split <;> simp
@[simp] theorem State.finishAt_sn (s : State) (ctx idx status result : Nat) : (s.finishAt ctx idx status result).sn = s.sn :=
  by unfold State.finishAt; split <;> simp
@[simp] theorem State.finishAt_mr (s : State) (ctx idx status result : Nat) : (s.finishAt ctx idx status result).mr = s.mr :=
  by unfold State.finishAt; split <;> simp
@[simp] theorem State.finishAt_freeN (s : State) (ctx idx status result : Nat) : (s.finishAt ctx idx status result).freeN = s.freeN :=
  by unfold State.finishAt; split <;> simp
@[simp] theorem State.finishAt_pending (s : State) (ctx idx status result : Nat) : (s.finishAt ctx idx status result).pending = s.pending :=
  by unfold State.finishAt; split <;> simp

@[simp] theorem State.countStatus_hold (s : State) (ctx status : Nat) : (s.countStatus ctx status).hold = s.hold :=
  by unfold State.countStatus; split <;> (try split) <;> simp
@[simp] theorem State.countStatus_mem (s : State) (ctx status : Nat) : (s.countStatus ctx status).mem = s.mem :=
  by unfold State.countStatus; split <;> (try split) <;> simp
@[simp] theorem State.countStatus_ledger (s : State) (ctx status : Nat) : (s.countStatus ctx status).ledger = s.ledger :=
  by unfold State.countStatus; split <;> (try split) <;> simp
@[simp] theorem State.countStatus_ev (s : State) (ctx status : Nat) : (s.countStatus ctx status).ev = s.ev :=
  by unfold State.countStatus; split <;> (try split) <;> simp
@[simp] theorem State.countStatus_hp (s : State) (ctx status : Nat) : (s.countStatus ctx status).hp = s.hp :=
  by unfold State.countStatus; split <;> (try split) <;> simp
@[simp] theorem State.countStatus_pw (s : State) (ctx status : Nat) : (s.countStatus ctx status).pw = s.pw :=
  by unfold State.countStatus; split <;> (try split) <;> simp
@[simp] theorem State.countStatus_ck (s : State) (ctx status : Nat) : (s.countStatus ctx status).ck = s.ck :=
  by unfold State.countStatus; split <;> (try split) <;> simp
@[simp] theorem State.countStatus_sec (s : State) (ctx status : Nat) : (s.countStatus ctx status).sec = s.sec :=
  by unfold State.countStatus; split <;> (try split) <;> simp
@[simp] theorem State.countStatus_mills (s : State) (ctx status : Nat) : (s.countStatus ctx status).mills = s.mills :=
  by unfold State.countStatus; split <;> (try split) <;> simp
@[simp] theorem State.countStatus_leat (s : State) (ctx status : Nat) : (s.countStatus ctx status).leat = s.leat :=
  by unfold State.countStatus; split <;> (try split) <;> simp
@[simp] theorem State.countStatus_loader (s : State) (ctx status : Nat) : (s.countStatus ctx status).loader = s.loader :=
  by unfold State.countStatus; split <;> (try split) <;> simp
@[simp] theorem State.countStatus_ops (s : State) (ctx status : Nat) : (s.countStatus ctx status).ops = s.ops :=
  by unfold State.countStatus; split <;> (try split) <;> simp
@[simp] theorem State.countStatus_streams (s : State) (ctx status : Nat) : (s.countStatus ctx status).streams = s.streams :=
  by unfold State.countStatus; split <;> (try split) <;> simp
@[simp] theorem State.countStatus_tiers (s : State) (ctx status : Nat) : (s.countStatus ctx status).tiers = s.tiers :=
  by unfold State.countStatus; split <;> (try split) <;> simp
@[simp] theorem State.countStatus_bolters (s : State) (ctx status : Nat) : (s.countStatus ctx status).bolters = s.bolters :=
  by unfold State.countStatus; split <;> (try split) <;> simp
@[simp] theorem State.countStatus_gov (s : State) (ctx status : Nat) : (s.countStatus ctx status).gov = s.gov :=
  by unfold State.countStatus; split <;> (try split) <;> simp
@[simp] theorem State.countStatus_fus (s : State) (ctx status : Nat) : (s.countStatus ctx status).fus = s.fus :=
  by unfold State.countStatus; split <;> (try split) <;> simp
@[simp] theorem State.countStatus_sol (s : State) (ctx status : Nat) : (s.countStatus ctx status).sol = s.sol :=
  by unfold State.countStatus; split <;> (try split) <;> simp
@[simp] theorem State.countStatus_tm (s : State) (ctx status : Nat) : (s.countStatus ctx status).tm = s.tm :=
  by unfold State.countStatus; split <;> (try split) <;> simp
@[simp] theorem State.countStatus_launch (s : State) (ctx status : Nat) : (s.countStatus ctx status).launch = s.launch :=
  by unfold State.countStatus; split <;> (try split) <;> simp
@[simp] theorem State.countStatus_px (s : State) (ctx status : Nat) : (s.countStatus ctx status).px = s.px :=
  by unfold State.countStatus; split <;> (try split) <;> simp
@[simp] theorem State.countStatus_sn (s : State) (ctx status : Nat) : (s.countStatus ctx status).sn = s.sn :=
  by unfold State.countStatus; split <;> (try split) <;> simp
@[simp] theorem State.countStatus_mr (s : State) (ctx status : Nat) : (s.countStatus ctx status).mr = s.mr :=
  by unfold State.countStatus; split <;> (try split) <;> simp
@[simp] theorem State.countStatus_freeN (s : State) (ctx status : Nat) : (s.countStatus ctx status).freeN = s.freeN :=
  by unfold State.countStatus; split <;> (try split) <;> simp
@[simp] theorem State.countStatus_pending (s : State) (ctx status : Nat) : (s.countStatus ctx status).pending = s.pending :=
  by unfold State.countStatus; split <;> (try split) <;> simp

@[simp] theorem State.tokenBack_regs (s : State) (m : Nat) : (s.tokenBack m).regs = s.regs :=
  by unfold State.tokenBack; split <;> simp
@[simp] theorem State.tokenBack_hold (s : State) (m : Nat) : (s.tokenBack m).hold = s.hold :=
  by unfold State.tokenBack; split <;> simp
@[simp] theorem State.tokenBack_mem (s : State) (m : Nat) : (s.tokenBack m).mem = s.mem :=
  by unfold State.tokenBack; split <;> simp
@[simp] theorem State.tokenBack_ev (s : State) (m : Nat) : (s.tokenBack m).ev = s.ev :=
  by unfold State.tokenBack; split <;> simp
@[simp] theorem State.tokenBack_hp (s : State) (m : Nat) : (s.tokenBack m).hp = s.hp :=
  by unfold State.tokenBack; split <;> simp
@[simp] theorem State.tokenBack_pw (s : State) (m : Nat) : (s.tokenBack m).pw = s.pw :=
  by unfold State.tokenBack; split <;> simp
@[simp] theorem State.tokenBack_ck (s : State) (m : Nat) : (s.tokenBack m).ck = s.ck :=
  by unfold State.tokenBack; split <;> simp
@[simp] theorem State.tokenBack_sec (s : State) (m : Nat) : (s.tokenBack m).sec = s.sec :=
  by unfold State.tokenBack; split <;> simp
@[simp] theorem State.tokenBack_mills (s : State) (m : Nat) : (s.tokenBack m).mills = s.mills :=
  by unfold State.tokenBack; split <;> simp
@[simp] theorem State.tokenBack_leat (s : State) (m : Nat) : (s.tokenBack m).leat = s.leat :=
  by unfold State.tokenBack; split <;> simp
@[simp] theorem State.tokenBack_loader (s : State) (m : Nat) : (s.tokenBack m).loader = s.loader :=
  by unfold State.tokenBack; split <;> simp
@[simp] theorem State.tokenBack_ops (s : State) (m : Nat) : (s.tokenBack m).ops = s.ops :=
  by unfold State.tokenBack; split <;> simp
@[simp] theorem State.tokenBack_streams (s : State) (m : Nat) : (s.tokenBack m).streams = s.streams :=
  by unfold State.tokenBack; split <;> simp
@[simp] theorem State.tokenBack_tiers (s : State) (m : Nat) : (s.tokenBack m).tiers = s.tiers :=
  by unfold State.tokenBack; split <;> simp
@[simp] theorem State.tokenBack_bolters (s : State) (m : Nat) : (s.tokenBack m).bolters = s.bolters :=
  by unfold State.tokenBack; split <;> simp
@[simp] theorem State.tokenBack_gov (s : State) (m : Nat) : (s.tokenBack m).gov = s.gov :=
  by unfold State.tokenBack; split <;> simp
@[simp] theorem State.tokenBack_fus (s : State) (m : Nat) : (s.tokenBack m).fus = s.fus :=
  by unfold State.tokenBack; split <;> simp
@[simp] theorem State.tokenBack_sol (s : State) (m : Nat) : (s.tokenBack m).sol = s.sol :=
  by unfold State.tokenBack; split <;> simp
@[simp] theorem State.tokenBack_tm (s : State) (m : Nat) : (s.tokenBack m).tm = s.tm :=
  by unfold State.tokenBack; split <;> simp
@[simp] theorem State.tokenBack_launch (s : State) (m : Nat) : (s.tokenBack m).launch = s.launch :=
  by unfold State.tokenBack; split <;> simp
@[simp] theorem State.tokenBack_px (s : State) (m : Nat) : (s.tokenBack m).px = s.px :=
  by unfold State.tokenBack; split <;> simp
@[simp] theorem State.tokenBack_sn (s : State) (m : Nat) : (s.tokenBack m).sn = s.sn :=
  by unfold State.tokenBack; split <;> simp
@[simp] theorem State.tokenBack_mr (s : State) (m : Nat) : (s.tokenBack m).mr = s.mr :=
  by unfold State.tokenBack; split <;> simp
@[simp] theorem State.tokenBack_freeN (s : State) (m : Nat) : (s.tokenBack m).freeN = s.freeN :=
  by unfold State.tokenBack; split <;> simp
@[simp] theorem State.tokenBack_pending (s : State) (m : Nat) : (s.tokenBack m).pending = s.pending :=
  by unfold State.tokenBack; split <;> simp

@[simp] theorem State.snErr_hold (s : State) (n torn gap : Nat) : (s.snErr n torn gap).hold = s.hold := rfl
@[simp] theorem State.snErr_mem (s : State) (n torn gap : Nat) : (s.snErr n torn gap).mem = s.mem := rfl
@[simp] theorem State.snErr_ledger (s : State) (n torn gap : Nat) : (s.snErr n torn gap).ledger = s.ledger := rfl
@[simp] theorem State.snErr_ev (s : State) (n torn gap : Nat) : (s.snErr n torn gap).ev = s.ev := rfl
@[simp] theorem State.snErr_hp (s : State) (n torn gap : Nat) : (s.snErr n torn gap).hp = s.hp := rfl
@[simp] theorem State.snErr_pw (s : State) (n torn gap : Nat) : (s.snErr n torn gap).pw = s.pw := rfl
@[simp] theorem State.snErr_ck (s : State) (n torn gap : Nat) : (s.snErr n torn gap).ck = s.ck := rfl
@[simp] theorem State.snErr_sec (s : State) (n torn gap : Nat) : (s.snErr n torn gap).sec = s.sec := rfl
@[simp] theorem State.snErr_mills (s : State) (n torn gap : Nat) : (s.snErr n torn gap).mills = s.mills := rfl
@[simp] theorem State.snErr_leat (s : State) (n torn gap : Nat) : (s.snErr n torn gap).leat = s.leat := rfl
@[simp] theorem State.snErr_loader (s : State) (n torn gap : Nat) : (s.snErr n torn gap).loader = s.loader := rfl
@[simp] theorem State.snErr_ops (s : State) (n torn gap : Nat) : (s.snErr n torn gap).ops = s.ops := rfl
@[simp] theorem State.snErr_streams (s : State) (n torn gap : Nat) : (s.snErr n torn gap).streams = s.streams := rfl
@[simp] theorem State.snErr_tiers (s : State) (n torn gap : Nat) : (s.snErr n torn gap).tiers = s.tiers := rfl
@[simp] theorem State.snErr_bolters (s : State) (n torn gap : Nat) : (s.snErr n torn gap).bolters = s.bolters := rfl
@[simp] theorem State.snErr_gov (s : State) (n torn gap : Nat) : (s.snErr n torn gap).gov = s.gov := rfl
@[simp] theorem State.snErr_fus (s : State) (n torn gap : Nat) : (s.snErr n torn gap).fus = s.fus := rfl
@[simp] theorem State.snErr_sol (s : State) (n torn gap : Nat) : (s.snErr n torn gap).sol = s.sol := rfl
@[simp] theorem State.snErr_tm (s : State) (n torn gap : Nat) : (s.snErr n torn gap).tm = s.tm := rfl
@[simp] theorem State.snErr_launch (s : State) (n torn gap : Nat) : (s.snErr n torn gap).launch = s.launch := rfl
@[simp] theorem State.snErr_px (s : State) (n torn gap : Nat) : (s.snErr n torn gap).px = s.px := rfl
@[simp] theorem State.snErr_sn (s : State) (n torn gap : Nat) : (s.snErr n torn gap).sn = s.sn := rfl
@[simp] theorem State.snErr_mr (s : State) (n torn gap : Nat) : (s.snErr n torn gap).mr = s.mr := rfl
@[simp] theorem State.snErr_freeN (s : State) (n torn gap : Nat) : (s.snErr n torn gap).freeN = s.freeN := rfl
@[simp] theorem State.snErr_pending (s : State) (n torn gap : Nat) : (s.snErr n torn gap).pending = s.pending := rfl

@[simp] theorem State.chunkDone_regs (s : State) (k : Chunk) (status : Nat) : (s.chunkDone k status).regs = s.regs :=
  by unfold State.chunkDone; split <;> simp
@[simp] theorem State.chunkDone_hold (s : State) (k : Chunk) (status : Nat) : (s.chunkDone k status).hold = s.hold :=
  by unfold State.chunkDone; split <;> simp
@[simp] theorem State.chunkDone_mem (s : State) (k : Chunk) (status : Nat) : (s.chunkDone k status).mem = s.mem :=
  by unfold State.chunkDone; split <;> simp
@[simp] theorem State.chunkDone_ledger (s : State) (k : Chunk) (status : Nat) : (s.chunkDone k status).ledger = s.ledger :=
  by unfold State.chunkDone; split <;> simp
@[simp] theorem State.chunkDone_ev (s : State) (k : Chunk) (status : Nat) : (s.chunkDone k status).ev = s.ev :=
  by unfold State.chunkDone; split <;> simp
@[simp] theorem State.chunkDone_pw (s : State) (k : Chunk) (status : Nat) : (s.chunkDone k status).pw = s.pw :=
  by unfold State.chunkDone; split <;> simp
@[simp] theorem State.chunkDone_ck (s : State) (k : Chunk) (status : Nat) : (s.chunkDone k status).ck = s.ck :=
  by unfold State.chunkDone; split <;> simp
@[simp] theorem State.chunkDone_sec (s : State) (k : Chunk) (status : Nat) : (s.chunkDone k status).sec = s.sec :=
  by unfold State.chunkDone; split <;> simp
@[simp] theorem State.chunkDone_mills (s : State) (k : Chunk) (status : Nat) : (s.chunkDone k status).mills = s.mills :=
  by unfold State.chunkDone; split <;> simp
@[simp] theorem State.chunkDone_leat (s : State) (k : Chunk) (status : Nat) : (s.chunkDone k status).leat = s.leat :=
  by unfold State.chunkDone; split <;> simp
@[simp] theorem State.chunkDone_loader (s : State) (k : Chunk) (status : Nat) : (s.chunkDone k status).loader = s.loader :=
  by unfold State.chunkDone; split <;> simp
@[simp] theorem State.chunkDone_ops (s : State) (k : Chunk) (status : Nat) : (s.chunkDone k status).ops = s.ops :=
  by unfold State.chunkDone; split <;> simp
@[simp] theorem State.chunkDone_streams (s : State) (k : Chunk) (status : Nat) : (s.chunkDone k status).streams = s.streams :=
  by unfold State.chunkDone; split <;> simp
@[simp] theorem State.chunkDone_tiers (s : State) (k : Chunk) (status : Nat) : (s.chunkDone k status).tiers = s.tiers :=
  by unfold State.chunkDone; split <;> simp
@[simp] theorem State.chunkDone_bolters (s : State) (k : Chunk) (status : Nat) : (s.chunkDone k status).bolters = s.bolters :=
  by unfold State.chunkDone; split <;> simp
@[simp] theorem State.chunkDone_gov (s : State) (k : Chunk) (status : Nat) : (s.chunkDone k status).gov = s.gov :=
  by unfold State.chunkDone; split <;> simp
@[simp] theorem State.chunkDone_fus (s : State) (k : Chunk) (status : Nat) : (s.chunkDone k status).fus = s.fus :=
  by unfold State.chunkDone; split <;> simp
@[simp] theorem State.chunkDone_sol (s : State) (k : Chunk) (status : Nat) : (s.chunkDone k status).sol = s.sol :=
  by unfold State.chunkDone; split <;> simp
@[simp] theorem State.chunkDone_tm (s : State) (k : Chunk) (status : Nat) : (s.chunkDone k status).tm = s.tm :=
  by unfold State.chunkDone; split <;> simp
@[simp] theorem State.chunkDone_launch (s : State) (k : Chunk) (status : Nat) : (s.chunkDone k status).launch = s.launch :=
  by unfold State.chunkDone; split <;> simp
@[simp] theorem State.chunkDone_px (s : State) (k : Chunk) (status : Nat) : (s.chunkDone k status).px = s.px :=
  by unfold State.chunkDone; split <;> simp
@[simp] theorem State.chunkDone_sn (s : State) (k : Chunk) (status : Nat) : (s.chunkDone k status).sn = s.sn :=
  by unfold State.chunkDone; split <;> simp
@[simp] theorem State.chunkDone_mr (s : State) (k : Chunk) (status : Nat) : (s.chunkDone k status).mr = s.mr :=
  by unfold State.chunkDone; split <;> simp
@[simp] theorem State.chunkDone_freeN (s : State) (k : Chunk) (status : Nat) : (s.chunkDone k status).freeN = s.freeN :=
  by unfold State.chunkDone; split <;> simp
@[simp] theorem State.chunkDone_pending (s : State) (k : Chunk) (status : Nat) : (s.chunkDone k status).pending = s.pending :=
  by unfold State.chunkDone; split <;> simp

@[simp] theorem State.fwRecord_hold (s : State) (phase status : Nat) : (s.fwRecord phase status).hold = s.hold :=
  by simp [State.fwRecord]
@[simp] theorem State.fwRecord_mem (s : State) (phase status : Nat) : (s.fwRecord phase status).mem = s.mem :=
  by simp [State.fwRecord]
@[simp] theorem State.fwRecord_ledger (s : State) (phase status : Nat) : (s.fwRecord phase status).ledger = s.ledger :=
  by simp [State.fwRecord]
@[simp] theorem State.fwRecord_hp (s : State) (phase status : Nat) : (s.fwRecord phase status).hp = s.hp :=
  by simp [State.fwRecord]
@[simp] theorem State.fwRecord_pw (s : State) (phase status : Nat) : (s.fwRecord phase status).pw = s.pw :=
  by simp [State.fwRecord]
@[simp] theorem State.fwRecord_ck (s : State) (phase status : Nat) : (s.fwRecord phase status).ck = s.ck :=
  by simp [State.fwRecord]
@[simp] theorem State.fwRecord_sec (s : State) (phase status : Nat) : (s.fwRecord phase status).sec = s.sec :=
  by simp [State.fwRecord]
@[simp] theorem State.fwRecord_mills (s : State) (phase status : Nat) : (s.fwRecord phase status).mills = s.mills :=
  by simp [State.fwRecord]
@[simp] theorem State.fwRecord_leat (s : State) (phase status : Nat) : (s.fwRecord phase status).leat = s.leat :=
  by simp [State.fwRecord]
@[simp] theorem State.fwRecord_loader (s : State) (phase status : Nat) : (s.fwRecord phase status).loader = s.loader :=
  by simp [State.fwRecord]
@[simp] theorem State.fwRecord_ops (s : State) (phase status : Nat) : (s.fwRecord phase status).ops = s.ops :=
  by simp [State.fwRecord]
@[simp] theorem State.fwRecord_streams (s : State) (phase status : Nat) : (s.fwRecord phase status).streams = s.streams :=
  by simp [State.fwRecord]
@[simp] theorem State.fwRecord_tiers (s : State) (phase status : Nat) : (s.fwRecord phase status).tiers = s.tiers :=
  by simp [State.fwRecord]
@[simp] theorem State.fwRecord_bolters (s : State) (phase status : Nat) : (s.fwRecord phase status).bolters = s.bolters :=
  by simp [State.fwRecord]
@[simp] theorem State.fwRecord_gov (s : State) (phase status : Nat) : (s.fwRecord phase status).gov = s.gov :=
  by simp [State.fwRecord]
@[simp] theorem State.fwRecord_fus (s : State) (phase status : Nat) : (s.fwRecord phase status).fus = s.fus :=
  by simp [State.fwRecord]
@[simp] theorem State.fwRecord_sol (s : State) (phase status : Nat) : (s.fwRecord phase status).sol = s.sol :=
  by simp [State.fwRecord]
@[simp] theorem State.fwRecord_tm (s : State) (phase status : Nat) : (s.fwRecord phase status).tm = s.tm :=
  by simp [State.fwRecord]
@[simp] theorem State.fwRecord_launch (s : State) (phase status : Nat) : (s.fwRecord phase status).launch = s.launch :=
  by simp [State.fwRecord]
@[simp] theorem State.fwRecord_px (s : State) (phase status : Nat) : (s.fwRecord phase status).px = s.px :=
  by simp [State.fwRecord]
@[simp] theorem State.fwRecord_sn (s : State) (phase status : Nat) : (s.fwRecord phase status).sn = s.sn :=
  by simp [State.fwRecord]
@[simp] theorem State.fwRecord_mr (s : State) (phase status : Nat) : (s.fwRecord phase status).mr = s.mr :=
  by simp [State.fwRecord]
@[simp] theorem State.fwRecord_freeN (s : State) (phase status : Nat) : (s.fwRecord phase status).freeN = s.freeN :=
  by simp [State.fwRecord]
@[simp] theorem State.fwRecord_pending (s : State) (phase status : Nat) : (s.fwRecord phase status).pending = s.pending :=
  by simp [State.fwRecord]

@[simp] theorem State.fantailRecord_hold (s : State) : (s.fantailRecord).hold = s.hold :=
  by simp [State.fantailRecord]
@[simp] theorem State.fantailRecord_mem (s : State) : (s.fantailRecord).mem = s.mem := by simp [State.fantailRecord]
@[simp] theorem State.fantailRecord_ledger (s : State) : (s.fantailRecord).ledger = s.ledger :=
  by simp [State.fantailRecord]
@[simp] theorem State.fantailRecord_hp (s : State) : (s.fantailRecord).hp = s.hp := by simp [State.fantailRecord]
@[simp] theorem State.fantailRecord_pw (s : State) : (s.fantailRecord).pw = s.pw := by simp [State.fantailRecord]
@[simp] theorem State.fantailRecord_ck (s : State) : (s.fantailRecord).ck = s.ck := by simp [State.fantailRecord]
@[simp] theorem State.fantailRecord_sec (s : State) : (s.fantailRecord).sec = s.sec := by simp [State.fantailRecord]
@[simp] theorem State.fantailRecord_mills (s : State) : (s.fantailRecord).mills = s.mills :=
  by simp [State.fantailRecord]
@[simp] theorem State.fantailRecord_leat (s : State) : (s.fantailRecord).leat = s.leat :=
  by simp [State.fantailRecord]
@[simp] theorem State.fantailRecord_loader (s : State) : (s.fantailRecord).loader = s.loader :=
  by simp [State.fantailRecord]
@[simp] theorem State.fantailRecord_ops (s : State) : (s.fantailRecord).ops = s.ops := by simp [State.fantailRecord]
@[simp] theorem State.fantailRecord_streams (s : State) : (s.fantailRecord).streams = s.streams :=
  by simp [State.fantailRecord]
@[simp] theorem State.fantailRecord_tiers (s : State) : (s.fantailRecord).tiers = s.tiers :=
  by simp [State.fantailRecord]
@[simp] theorem State.fantailRecord_bolters (s : State) : (s.fantailRecord).bolters = s.bolters :=
  by simp [State.fantailRecord]
@[simp] theorem State.fantailRecord_gov (s : State) : (s.fantailRecord).gov = s.gov := by simp [State.fantailRecord]
@[simp] theorem State.fantailRecord_fus (s : State) : (s.fantailRecord).fus = s.fus := by simp [State.fantailRecord]
@[simp] theorem State.fantailRecord_sol (s : State) : (s.fantailRecord).sol = s.sol := by simp [State.fantailRecord]
@[simp] theorem State.fantailRecord_tm (s : State) : (s.fantailRecord).tm = s.tm := by simp [State.fantailRecord]
@[simp] theorem State.fantailRecord_launch (s : State) : (s.fantailRecord).launch = s.launch :=
  by simp [State.fantailRecord]
@[simp] theorem State.fantailRecord_px (s : State) : (s.fantailRecord).px = s.px := by simp [State.fantailRecord]
@[simp] theorem State.fantailRecord_sn (s : State) : (s.fantailRecord).sn = s.sn := by simp [State.fantailRecord]
@[simp] theorem State.fantailRecord_mr (s : State) : (s.fantailRecord).mr = s.mr := by simp [State.fantailRecord]
@[simp] theorem State.fantailRecord_freeN (s : State) : (s.fantailRecord).freeN = s.freeN :=
  by simp [State.fantailRecord]
@[simp] theorem State.fantailRecord_pending (s : State) : (s.fantailRecord).pending = s.pending :=
  by simp [State.fantailRecord]

@[simp] theorem State.trackRec_hold (s : State) (stream event : Nat) (off o : Int) : (s.trackRec stream event off o).hold = s.hold :=
  by simp [State.trackRec]
@[simp] theorem State.trackRec_mem (s : State) (stream event : Nat) (off o : Int) : (s.trackRec stream event off o).mem = s.mem :=
  by simp [State.trackRec]
@[simp] theorem State.trackRec_ledger (s : State) (stream event : Nat) (off o : Int) : (s.trackRec stream event off o).ledger = s.ledger :=
  by simp [State.trackRec]
@[simp] theorem State.trackRec_hp (s : State) (stream event : Nat) (off o : Int) : (s.trackRec stream event off o).hp = s.hp :=
  by simp [State.trackRec]
@[simp] theorem State.trackRec_pw (s : State) (stream event : Nat) (off o : Int) : (s.trackRec stream event off o).pw = s.pw :=
  by simp [State.trackRec]
@[simp] theorem State.trackRec_ck (s : State) (stream event : Nat) (off o : Int) : (s.trackRec stream event off o).ck = s.ck :=
  by simp [State.trackRec]
@[simp] theorem State.trackRec_sec (s : State) (stream event : Nat) (off o : Int) : (s.trackRec stream event off o).sec = s.sec :=
  by simp [State.trackRec]
@[simp] theorem State.trackRec_mills (s : State) (stream event : Nat) (off o : Int) : (s.trackRec stream event off o).mills = s.mills :=
  by simp [State.trackRec]
@[simp] theorem State.trackRec_leat (s : State) (stream event : Nat) (off o : Int) : (s.trackRec stream event off o).leat = s.leat :=
  by simp [State.trackRec]
@[simp] theorem State.trackRec_loader (s : State) (stream event : Nat) (off o : Int) : (s.trackRec stream event off o).loader = s.loader :=
  by simp [State.trackRec]
@[simp] theorem State.trackRec_ops (s : State) (stream event : Nat) (off o : Int) : (s.trackRec stream event off o).ops = s.ops :=
  by simp [State.trackRec]
@[simp] theorem State.trackRec_streams (s : State) (stream event : Nat) (off o : Int) : (s.trackRec stream event off o).streams = s.streams :=
  by simp [State.trackRec]
@[simp] theorem State.trackRec_tiers (s : State) (stream event : Nat) (off o : Int) : (s.trackRec stream event off o).tiers = s.tiers :=
  by simp [State.trackRec]
@[simp] theorem State.trackRec_bolters (s : State) (stream event : Nat) (off o : Int) : (s.trackRec stream event off o).bolters = s.bolters :=
  by simp [State.trackRec]
@[simp] theorem State.trackRec_gov (s : State) (stream event : Nat) (off o : Int) : (s.trackRec stream event off o).gov = s.gov :=
  by simp [State.trackRec]
@[simp] theorem State.trackRec_fus (s : State) (stream event : Nat) (off o : Int) : (s.trackRec stream event off o).fus = s.fus :=
  by simp [State.trackRec]
@[simp] theorem State.trackRec_sol (s : State) (stream event : Nat) (off o : Int) : (s.trackRec stream event off o).sol = s.sol :=
  by simp [State.trackRec]
@[simp] theorem State.trackRec_tm (s : State) (stream event : Nat) (off o : Int) : (s.trackRec stream event off o).tm = s.tm :=
  by simp [State.trackRec]
@[simp] theorem State.trackRec_launch (s : State) (stream event : Nat) (off o : Int) : (s.trackRec stream event off o).launch = s.launch :=
  by simp [State.trackRec]
@[simp] theorem State.trackRec_px (s : State) (stream event : Nat) (off o : Int) : (s.trackRec stream event off o).px = s.px :=
  by simp [State.trackRec]
@[simp] theorem State.trackRec_sn (s : State) (stream event : Nat) (off o : Int) : (s.trackRec stream event off o).sn = s.sn :=
  by simp [State.trackRec]
@[simp] theorem State.trackRec_mr (s : State) (stream event : Nat) (off o : Int) : (s.trackRec stream event off o).mr = s.mr :=
  by simp [State.trackRec]
@[simp] theorem State.trackRec_freeN (s : State) (stream event : Nat) (off o : Int) : (s.trackRec stream event off o).freeN = s.freeN :=
  by simp [State.trackRec]
@[simp] theorem State.trackRec_pending (s : State) (stream event : Nat) (off o : Int) : (s.trackRec stream event off o).pending = s.pending :=
  by simp [State.trackRec]

end Sys2Proof.Machine
end

