-- ==== Sys2Proof/Laws/Memory.lean ====
section
/-!
SUPPORT. The byte memories: a read after a write, writes leave other addresses alone, every operation keeps the canonical
form.
-/
namespace Sys2Proof.Machine

/-! ### Cells -/

theorem cellRead_write_same (gen : Nat) (l : List Host.Cell) (a : Nat) (v : Byte) (lo : Option Nat)
    (h : cellsOk gen lo l = true) : cellRead gen (cellWrite gen l a v) a = v := by
  induction l generalizing lo with
  | nil => by_cases hv : v = Mem.unlisted gen a <;> simp [cellWrite, cellRead, hv]
  | cons e t ih =>
    obtain ⟨k, b⟩ := e
    simp only [cellsOk, Bool.and_eq_true] at h
    have unl : ∀ (l : List Host.Cell) (k : Nat), cellsOk gen (some k) l = true → a ≤ k →
        cellRead gen l a = Mem.unlisted gen a := by
      intro l
      induction l with
      | nil => intros; rfl
      | cons e t ih =>
        obtain ⟨j, c⟩ := e
        intro k hk hle
        simp only [cellsOk, Bool.and_eq_true, decide_eq_true_eq] at hk
        have hj : j ≠ a := by omega
        simpa [cellRead, hj] using ih j hk.2 (by omega)
    unfold cellWrite
    by_cases h1 : a < k
    · by_cases hv : v = Mem.unlisted gen a
      · have hk : k ≠ a := by omega
        simp [h1, hv, cellRead, hk, unl t k h.2 (by omega)]
      · simp [h1, hv, cellRead]
    · by_cases h2 : k = a
      · subst h2
        by_cases hv : v = Mem.unlisted gen k
        · simp [hv, unl t k h.2 (Nat.le_refl k)]
        · simp [hv, cellRead]
      · simp [h1, h2, cellRead, ih (some k) h.2]

theorem cellRead_write_other (gen : Nat) (l : List Host.Cell) (a b : Nat) (v : Byte) (lo : Option Nat)
    (h : cellsOk gen lo l = true) (hab : b ≠ a) : cellRead gen (cellWrite gen l a v) b = cellRead gen l b := by
  induction l generalizing lo with
  | nil => by_cases hv : v = Mem.unlisted gen a <;> simp [cellWrite, cellRead, hv, Ne.symm hab]
  | cons e t ih =>
    obtain ⟨k, c⟩ := e
    simp only [cellsOk, Bool.and_eq_true] at h
    unfold cellWrite
    by_cases h1 : a < k
    · by_cases hv : v = Mem.unlisted gen a <;> simp [h1, hv, cellRead, Ne.symm hab]
    · by_cases h2 : k = a
      · subst h2
        by_cases hv : v = Mem.unlisted gen k <;> simp [hv, cellRead, Ne.symm hab]
      · simp [h1, h2, cellRead, ih (some k) h.2]

theorem cellsOk_write (gen : Nat) (l : List Host.Cell) (a : Nat) (v : Byte) (lo : Option Nat)
    (h : cellsOk gen lo l = true) (hlo : ∀ k, lo = some k → k < a) :
    cellsOk gen lo (cellWrite gen l a v) = true := by
  induction l generalizing lo with
  | nil =>
    by_cases hv : v = Mem.unlisted gen a
    · simp [cellWrite, cellsOk, hv]
    · cases lo with
      | none => simp [cellWrite, cellsOk, hv]
      | some k => simp [cellWrite, cellsOk, hv, hlo k rfl]
  | cons e t ih =>
    obtain ⟨k, b⟩ := e
    have h' := h
    simp only [cellsOk, Bool.and_eq_true] at h'
    unfold cellWrite
    by_cases h1 : a < k
    · by_cases hv : v = Mem.unlisted gen a
      · simpa [h1, hv] using h
      · cases lo with
        | none => simp_all [cellsOk]
        | some j => simp_all [cellsOk]
    · by_cases h2 : k = a
      · subst h2
        by_cases hv : v = Mem.unlisted gen k
        · have weak : ∀ (t : List Host.Cell), cellsOk gen (some k) t = true → cellsOk gen lo t = true := by
            intro t ht
            cases t with
            | nil => rfl
            | cons e t =>
              obtain ⟨j, c⟩ := e
              simp only [cellsOk, Bool.and_eq_true, decide_eq_true_eq] at ht
              cases lo with
              | none => simp [cellsOk, ht.1.2, ht.2]
              | some i =>
                have := hlo i rfl
                have hij : i < j := by omega
                simp [cellsOk, ht.1.2, ht.2, hij]
          simpa [hv] using weak t h'.2
        · simp [hv, cellsOk, h'.1.1, h'.2]
      · have hk : k < a := by omega
        simp [h1, h2, cellsOk, h'.1.1, ih (some k) h'.2 (by intro j hj; cases hj; exact hk)]
        simpa using h'.1.2

/-! ### One memory -/

theorem Mem.read_write_same (m : Mem) (a : Nat) (v : Byte) (h : m.wf = true) : (m.write a v).read a = v :=
  cellRead_write_same m.gen m.cells a v none h

theorem Mem.read_write_other (m : Mem) (a b : Nat) (v : Byte) (h : m.wf = true) (hab : b ≠ a) :
    (m.write a v).read b = m.read b :=
  cellRead_write_other m.gen m.cells a b v none h hab

theorem Mem.write_wf (m : Mem) (a : Nat) (v : Byte) (h : m.wf = true) : (m.write a v).wf = true :=
  cellsOk_write m.gen m.cells a v none h (by intro k hk; cases hk)

theorem Mem.writeBytes_wf (m : Mem) (a : Nat) (bs : Bytes) (h : m.wf = true) : (m.writeBytes a bs).wf = true := by
  induction bs generalizing m a with
  | nil => exact h
  | cons b bs ih => exact ih (m.write a b) (a + 1) (m.write_wf a b h)

theorem Mem.read_writeBytes_outside (m : Mem) (a b : Nat) (bs : Bytes) (h : m.wf = true)
    (hb : b < a ∨ a + bs.length ≤ b) : (m.writeBytes a bs).read b = m.read b := by
  induction bs generalizing m a with
  | nil => rfl
  | cons v bs ih =>
    simp only [List.length_cons] at hb
    have hne : b ≠ a := by omega
    rw [← m.read_write_other a b v h hne]
    exact ih (m.write a v) (a + 1) (m.write_wf a v h) (by omega)

theorem Mem.readBytes_writeBytes (m : Mem) (a : Nat) (bs : Bytes) (h : m.wf = true) :
    (m.writeBytes a bs).readBytes a bs.length = bs := by
  induction bs generalizing m a with
  | nil => rfl
  | cons v bs ih =>
    have hr : ((m.write a v).writeBytes (a + 1) bs).read a = v := by
      rw [Mem.read_writeBytes_outside _ _ _ _ (m.write_wf a v h) (by omega), m.read_write_same a v h]
    simp only [List.length_cons, Mem.writeBytes, Mem.readBytes, hr]
    exact congrArg (v :: ·) (ih (m.write a v) (a + 1) (m.write_wf a v h))

theorem Mem.lose_wf (m : Mem) : m.lose.wf = true := rfl

theorem cellsOk_filter (gen : Nat) (p : Host.Cell → Bool) (l : List Host.Cell) (lo : Option Nat)
    (h : cellsOk gen lo l = true) : cellsOk gen lo (l.filter p) = true := by
  have weak : ∀ (t : List Host.Cell) (lo : Option Nat) (k : Nat), (∀ i, lo = some i → i < k) →
      cellsOk gen (some k) t = true → cellsOk gen lo t = true := by
    intro t lo k hlo ht
    cases t with
    | nil => rfl
    | cons e t =>
      obtain ⟨j, c⟩ := e
      simp only [cellsOk, Bool.and_eq_true, decide_eq_true_eq] at ht
      cases lo with
      | none => simp [cellsOk, ht.1.2, ht.2]
      | some i =>
        have := hlo i rfl
        have hij : i < j := by omega
        simp [cellsOk, ht.1.2, ht.2, hij]
  induction l generalizing lo with
  | nil => rfl
  | cons e t ih =>
    obtain ⟨k, b⟩ := e
    simp only [cellsOk, Bool.and_eq_true] at h
    have hlo : ∀ i, lo = some i → i < k := by
      intro i hi
      subst hi
      simpa using h.1.1
    by_cases hp : p (k, b) = true
    · simp only [List.filter, hp, cellsOk, h.1.1, h.1.2, ih (some k) h.2, Bool.and_self]
    · simp only [List.filter, hp]
      exact weak _ lo k hlo (ih (some k) h.2)

theorem Mem.drop_wf (m : Mem) (lo hi : Nat) (h : m.wf = true) : (m.drop lo hi).wf = true :=
  cellsOk_filter m.gen _ m.cells none h

/-! ### The memories of the module -/

theorem Memories.writeLocal_wf (m : Memories) (a : Nat) (bs : Bytes) (h : m.wf = true) : (m.writeLocal a bs).wf = true := by
  simp only [Memories.wf, Bool.and_eq_true] at h
  obtain ⟨⟨⟨hs, hp⟩, hh⟩, ht⟩ := h
  unfold Memories.writeLocal
  split <;> simp [Memories.wf, hs, hp, hh, ht, Mem.writeBytes_wf]

theorem State.setLocal_memOk (s : State) (a : Nat) (bs : Bytes) (h : s.memOk) : (s.setLocal a bs).memOk :=
  s.mem.writeLocal_wf a bs h

theorem State.reset_memOk : State.reset.memOk := by decide

end Sys2Proof.Machine
end

