-- ==== Sys2Proof/Laws/Table.lean ====
section
/-!
SUPPORT. The sparse tables, the register bank and the pools: an entry read after it is set, and every other entry as before.
-/
namespace Sys2Proof.Machine

/-! ### Tables -/

@[simp] theorem Tbl.find_set_same {α : Type} (t : Tbl α) (k : Nat) (v : α) : Tbl.find (Tbl.set t k v) k = some v := by
  induction t with
  | nil => simp [Tbl.set, Tbl.find]
  | cons e t ih =>
    obtain ⟨j, a⟩ := e
    unfold Tbl.set
    split
    · simp [Tbl.find]
    · split
      · simp [Tbl.find]
      · simp [Tbl.find, *]

theorem Tbl.find_set_other {α : Type} (t : Tbl α) (k j : Nat) (v : α) (h : j ≠ k) :
    Tbl.find (Tbl.set t k v) j = Tbl.find t j := by
  induction t with
  | nil => simp [Tbl.set, Tbl.find, Ne.symm h]
  | cons e t ih =>
    obtain ⟨i, a⟩ := e
    unfold Tbl.set
    split
    · simp [Tbl.find, Ne.symm h]
    · split
      · rename_i hi
        subst hi
        simp [Tbl.find, Ne.symm h]
      · simp only [Tbl.find, ih]

@[simp] theorem Tbl.getD_set_same {α : Type} (t : Tbl α) (k : Nat) (v d : α) : Tbl.getD (Tbl.set t k v) k d = v := by
  simp [Tbl.getD]

theorem Tbl.getD_set_other {α : Type} (t : Tbl α) (k j : Nat) (v d : α) (h : j ≠ k) :
    Tbl.getD (Tbl.set t k v) j d = Tbl.getD t j d := by
  simp [Tbl.getD, Tbl.find_set_other t k j v h]

/-! ### The register bank -/

@[simp] theorem State.reg_setReg_same (s : State) (a : Nat) (w : Word) : (s.setReg a w).reg a = w := by
  simp [State.reg, State.setReg]

theorem State.reg_setReg_other (s : State) (a b : Nat) (w : Word) (h : b ≠ a) : (s.setReg a w).reg b = s.reg b := by
  have hr : regReset (s.setReg a w) b = regReset s b := rfl
  simp only [State.reg, hr]
  simp only [State.setReg, Tbl.find_set_other s.regs a b w h]

/-- A counter is raised and stops at 0xFFFF_FFFF. -/
theorem State.regN_bump_same (s : State) (a n : Nat) : (s.bump a n).regN a = min (s.regN a + n) 0xFFFFFFFF := by
  simp only [State.bump, State.regN, State.reg_setReg_same, word, sat32, BitVec.toNat_ofNat]
  omega

theorem State.reg_bump_other (s : State) (a b n : Nat) (h : b ≠ a) : (s.bump a n).reg b = s.reg b :=
  s.reg_setReg_other a b _ h

/-- An event sets its bits and keeps the others. -/
@[simp] theorem State.reg_raise_same (s : State) (a mask : Nat) : (s.raise a mask).reg a = s.reg a ||| word mask :=
  s.reg_setReg_same a _

theorem State.reg_raise_other (s : State) (a b mask : Nat) (h : b ≠ a) : (s.raise a mask).reg b = s.reg b :=
  s.reg_setReg_other a b _ h

/-! ### Pools, mills, lanes, rings -/

@[simp] theorem State.pool_setPool_same (s : State) (p : Nat) (x : Pool) : (s.setPool p x).pool p = x := by
  simp [State.pool, State.setPool]

theorem State.pool_setPool_other (s : State) (p q : Nat) (x : Pool) (h : q ≠ p) : (s.setPool p x).pool q = s.pool q := by
  simp [State.pool, State.setPool, Tbl.getD_set_other _ _ _ _ _ h]

@[simp] theorem State.mill_setMill_same (s : State) (m : Nat) (x : Mill) : (s.setMill m x).mill m = x := by
  simp [State.mill, State.setMill]

theorem State.mill_setMill_other (s : State) (m k : Nat) (x : Mill) (h : k ≠ m) : (s.setMill m x).mill k = s.mill k := by
  simp [State.mill, State.setMill, Tbl.getD_set_other _ _ _ _ _ h]

@[simp] theorem State.lane_setLane_same (s : State) (l : Nat) (x : Lane) : (s.setLane l x).lane l = x := by
  simp [State.lane, State.setLane]

theorem State.lane_setLane_other (s : State) (l k : Nat) (x : Lane) (h : k ≠ l) : (s.setLane l x).lane k = s.lane k := by
  simp [State.lane, State.setLane, Tbl.getD_set_other _ _ _ _ _ h]

@[simp] theorem State.ring_setRing_same (s : State) (c : Nat) (r : Ring) : (s.setRing c r).ring c = r := by
  simp [State.ring, State.setRing]

theorem State.ring_setRing_other (s : State) (c k : Nat) (r : Ring) (h : k ≠ c) : (s.setRing c r).ring k = s.ring k := by
  simp [State.ring, State.setRing, Tbl.getD_set_other _ _ _ _ _ h]

/-! ### Conservation (R39) -/

/-- A move between places keeps what a pool holds in all. -/
theorem Pool.move_total (x : Pool) (a b : Place) (n : Nat) :
    (x.move a b n).held + (x.move a b n).inFlight + (x.move a b n).parked + (x.move a b n).returned +
      (x.move a b n).reclaimed = x.held + x.inFlight + x.parked + x.returned + x.reclaimed := by
  cases a <;> cases b <;> simp only [Pool.move, Pool.put, Pool.count] <;> omega

/-- A move keeps a pool's size. -/
@[simp] theorem Pool.move_size (x : Pool) (a b : Place) (n : Nat) : (x.move a b n).size = x.size := by
  cases a <;> cases b <;> rfl

/-- A move keeps the balance of R39. -/
theorem Pool.move_balanced (x : Pool) (a b : Place) (n : Nat) (h : x.balanced = true) : (x.move a b n).balanced = true := by
  have ht := x.move_total a b n
  simp only [Pool.balanced, decide_eq_true_eq, Pool.move_size] at h ⊢
  omega

/-! ### What the shared operations do -/

/-- The brake wheel stands where it was put. -/
@[simp] theorem State.wheelTo_state (s : State) (t : Wheel) : (s.wheelTo t).gov.wheel.state = t := by
  by_cases h : t = s.gov.wheel.state
  · simp [State.wheelTo, h]
  · simp [State.wheelTo, h, State.record_gov, State.raise_gov]

/-- Replaced causes give the state they call for. -/
theorem State.setWheel_state (s : State) (w : BrakeWheel) :
    (s.setWheel w).gov.wheel.state = BrakeWheel.target { w with state := s.gov.wheel.state } :=
  State.wheelTo_state _ _

/-- A finished request is no longer accepted, and its completion is the last that waits. -/
theorem State.finish_answered (s : State) (r : Request) (status result extra : Nat) :
    s.answered (s.finish r status result extra) r status result :=
  ⟨rfl, extra, s.now, rfl⟩

/-- A record on no live channel, with room in the buffer, is the newest entry and takes the next number. -/
theorem State.record_buffered (s : State) (ch event status ctx source : Nat) (detail : Bytes) (hl : liveChannel ch = false)
    (hf : s.ev.full = false) :
    (s.record ch event status ctx source detail).ev.buffer =
      s.ev.buffer ++ [s.newRec s.ev.next ch event status ctx source 0 detail] ∧
    (s.record ch event status ctx source detail).ev.next = s.ev.next + 1 := by
  have hf' : Recorder.full (s.bump (Reg.evChCount ch) 1).ev = false := hf
  unfold State.record
  simp only [hl, hf', Bool.and_false, Bool.false_eq_true, if_false]
  exact ⟨rfl, rfl⟩

/-- A live record is pending and takes the next number. -/
theorem State.record_live (s : State) (ch event status ctx source : Nat) (detail : Bytes) (hl : liveChannel ch = true) :
    (s.record ch event status ctx source detail).ev.pendingLive =
      s.ev.pendingLive ++ [s.newRec s.ev.next ch event status ctx source 1 detail] ∧
    (s.record ch event status ctx source detail).ev.next = s.ev.next + 1 := by
  unfold State.record
  simp only [hl, if_true]
  exact ⟨rfl, rfl⟩

/-- A digest has 32 bytes. -/
@[simp] theorem digestOf_length (m : Bytes) : (digestOf m).length = 32 := by
  simp [digestOf, padTo, zeros]

/-- The command at the front of the queue is run on the state with the rest of the queue. -/
theorem step_pending (s : State) (c : Instr) (rest : List Instr) (h : s.pending = c :: rest) :
    step s = exec c { s with pending := rest } := by
  simp [step, h]

end Sys2Proof.Machine
end

