-- ==== Sys2Proof/WellFormed.lean ====
section
/-!
DEFINITION. Well-formed commands: every operand that names a unit or fills a field is in that unit's or field's range.
A meaning is total: it leaves the state unchanged, or answers what the spec says, where an operand names nothing.
-/
namespace Sys2Proof

/-- A 32-bit word. -/
def isWord (n : Nat) : Bool := decide (n < 2 ^ 32)
/-- A 16-bit number. -/
def isHalf (n : Nat) : Bool := decide (n < 2 ^ 16)
/-- A byte. -/
def isByte (n : Nat) : Bool := decide (n < 256)
/-- A 64-bit number. -/
def isLong (n : Nat) : Bool := decide (n < 2 ^ 64)
/-- A context (R37). -/
def isCtx (n : Nat) : Bool := decide (n < 64)
/-- A context, or 64 for the mailbox (R401). -/
def isRing (n : Nat) : Bool := decide (n < 65)
/-- A mill or a router, 0–15. -/
def isMill (n : Nat) : Bool := decide (n < 16)
/-- A stage, or a queue of a mill, 0–7. -/
def isStage (n : Nat) : Bool := decide (n < 8)
/-- A weir, 0–41. -/
def isWeir (n : Nat) : Bool := decide (n < 42)
/-- A stream slot or sensor stream. -/
def isStream (n : Nat) : Bool := decide (n < 256)
/-- A bolter. -/
def isBolter (n : Nat) : Bool := decide (n < 2)
/-- A governor lane. -/
def isLane (n : Nat) : Bool := decide (n < 3)
/-- A timing port (R348). -/
def isTimePort (n : Nat) : Bool := decide (n < 26)
/-- A port of the motion ring. -/
def isRingPort (n : Nat) : Bool := decide (n < 2)
/-- A Phirov port. -/
def isPhirov (n : Nat) : Bool := decide (n < 8)
/-- A module identifier (R47). -/
def isModule (n : Nat) : Bool := decide (n < 1024)
/-- A traffic class. -/
def isClass (n : Nat) : Bool := decide (n < 4)
/-- A governor-interface queue (R26). -/
def isQueue (n : Nat) : Bool := decide (n < 16)
/-- A recorder channel (R465). -/
def isChannelNo (n : Nat) : Bool := decide (n < 64)
/-- A sack-hoist channel (R228). -/
def isHoist (n : Nat) : Bool := decide (n < 32)
/-- A ledger pool (R38). -/
def isPool (n : Nat) : Bool := decide (n < 512)
/-- An input or output of a router. -/
def isOutput (n : Nat) : Bool := decide (n < 5)
/-- An HBM station. -/
def isStation (n : Nat) : Bool := decide (n < 8)
/-- An HBM stack. -/
def isStack (n : Nat) : Bool := decide (n < 6)
/-- A channel of an HBM station (R481). -/
def isStack12 (n : Nat) : Bool := decide (n < 12)
/-- An HBM bank. -/
def isBank (n : Nat) : Bool := decide (n < 32)
/-- A bank of the host port (R370). -/
def isBank16 (n : Nat) : Bool := decide (n < 16)
/-- A row of the host port (R370). -/
def isRow (n : Nat) : Bool := decide (n < 16384)
/-- A column of the host port (R370). -/
def isColumn (n : Nat) : Bool := decide (n < 1024)
/-- A channel of the host port (R367). -/
def isHpChannel (n : Nat) : Bool := decide (n < 4)
/-- A training kind (R369). -/
def isTraining (n : Nat) : Bool := decide (n < 7)
/-- A sensor lane. -/
def isSensorLane (n : Nat) : Bool := decide (n < 16)
/-- A prefill bucket (R180). -/
def isBucket (n : Nat) : Bool := decide (n < 6)
/-- A collective group. -/
def isGroup (n : Nat) : Bool := decide (n < 256)
/-- A crossing number (R437). -/
def isCrossing (n : Nat) : Bool := decide (n < 42)
/-- A reset domain code (R438). -/
def isDomain (n : Nat) : Bool := decide (n < 128)
/-- A structure of R457. -/
def isScrub (n : Nat) : Bool := decide (n < 14)
/-- A square matrix of dimension n (R327). -/
def isSquare (n : Nat) (m : Mat) : Bool := decide (m.rows.length = n) && m.rows.all (fun r => decide (r.length = n))
/-- A stage of the QP within the limits of R327. -/
def isQpStage (st : QpStage) : Bool :=
  let n := st.g.length
  decide (1 ≤ n) && decide (n ≤ 64) && isSquare n st.h && decide (st.c.rows.length ≤ 64) && st.c.rows.all (fun r => decide (r.length = n)) &&
  decide (st.lo.length = st.c.rows.length) && decide (st.hi.length = st.c.rows.length) && decide (st.shared.length ≤ 32) &&
  st.shared.all (fun p => decide (p.1 < n)) &&
  st.lus.all (fun m => decide (1 ≤ m.rows.length) && decide (m.rows.length ≤ 64) && isSquare m.rows.length m)
/-- A format code (R53). -/
def isFormat (n : Nat) : Bool := decide (n < 16)
/-- The window address of a register: aligned, in the privileged view or a context view (R19, R376). -/
def isRegAddr (n : Nat) : Bool := decide (n < 0x05000000) && n % 4 == 0

/-- A command whose operands are in their ranges. -/
def Instr.wf : Instr → Bool
  | .registerWrite a v => isRegAddr a && isWord v
  | .w1cWrite a v ev => isRegAddr a && isWord v && isWord ev
  | .w1sWrite a v => isRegAddr a && isWord v
  | .rcRead a ev => isRegAddr a && isWord ev
  | .captureReadLowWord a => isRegAddr a
  | .ledgerFault p _ _ _ _ _ => isPool p
  | .lgFaultClear v => isWord v
  | .lgSnapCtrl v => isWord v
  | .snapCaptureDone => true
  | .innerTick => true
  | .conflictLimitExpiry => true
  | .acceptanceWindowClose => true
  | .cycleBoundary qp => qp.length ≤ 32 && qp.all isQpStage
  | .voteV1 _ => true
  | .voteV2 _ _ => true
  | .voteV3 _ _ _ _ _ => true
  | .voteV4 r _ => isByte r
  | .torqueLaunch p err => isRingPort p && decide (err.natAbs ≤ 6195)
  | .launchEntryPlace p _ _ => isRingPort p
  | .supplyWarning v => isHalf v
  | .supplyRise v => isHalf v
  | .supplyFall v => isHalf v
  | .recoveryQualified v _ _ _ => isHalf v
  | .holdupTakeover v => isHalf v
  | .supplyReset v => isHalf v
  | .shutdownStoDone _ _ _ => true
  | .startQualified v _ => isHalf v
  | .overVoltageNotice v => isHalf v
  | .throttleUpdate _ _ _ _ => true
  | .pwCap v => isWord v
  | .thermalThrottle _ => true
  | .thermalFabricReset _ => true
  | .thermalShutdown _ => true
  | .thermalRelease _ _ => true
  | .srReseed m _ => isMill m
  | .stageItem m i _ => isMill m && isStage i
  | .tailraceEmit m i _ => isMill m && isStage i
  | .weirAdmit w dest _ => isWeir w && isByte dest
  | .routerHop k out input _ => isMill k && isOutput out && isOutput input
  | .hopperWrite dest _ m _ => isByte dest && isMill m
  | .slotFree m q => isMill m && isStage q
  | .creditArrive p w => isPool p && isWeir w
  | .parcelHeaderError => true
  | .coreHeartbeat m => isMill m
  | .watchdogExpiry m => isMill m
  | .millUncorrectable m => isMill m
  | .scrubPass code _ _ _ _ => isScrub code
  | .copyVerify => true
  | .copyDone => true
  | .verifyDone => true
  | .load => true
  | .preload => true
  | .preloadDone => true
  | .swap => true
  | .drainComplete m => isMill m
  | .drainTimeout m => isMill m
  | .sectionReplaceApply => true
  | .discard => true
  | .unload => true
  | .evacuate m => isMill m
  | .autoEvacuate m => isMill m
  | .restore m => isMill m
  | .stripeStart m i _ => isMill m && isStage i
  | .frameBufferStart _ m _ _ => isMill m
  | .kvWriteStep m i slot _ layer _ _ _ _ _ _ _ _ => isMill m && isStage i && isHalf slot && isByte layer
  | .kvReadResume m i slot _ _ _ _ => isMill m && isStage i && isHalf slot
  | .sequenceClose m i slot => isMill m && isStage i && isHalf slot
  | .prefillDispatch m b _ => isMill m && isBucket b
  | .attnMergeEmit m i _ _ _ _ _ => isMill m && isStage i
  | .streamStart ctx _ => isCtx ctx
  | .streamPause ctx _ => isCtx ctx
  | .streamResume ctx _ => isCtx ctx
  | .streamReset ctx _ => isCtx ctx
  | .streamEnd ctx _ => isCtx ctx
  | .streamExport ctx _ => isCtx ctx
  | .streamImport ctx _ => isCtx ctx
  | .chunkBoundary stream => isStream stream
  | .chunkEnqueue _ ctx _ _ => isCtx ctx
  | .layerChunkStart stream layer => isStream stream && isByte layer
  | .hoist ctx _ => isCtx ctx
  | .alloc ctx _ _ => isCtx ctx
  | .free ctx _ => isCtx ctx
  | .tierCmdStart ctx _ ch => isCtx ctx && isHoist ch
  | .hoistPageDone ch _ _ _ => isHoist ch
  | .tierRequest mill stage _ cls _ hbm pond len => isMill mill && isStage stage && isClass cls && isLong hbm && isLong pond && isWord len
  | .tierRequestDone mill stage _ _ => isMill mill && isStage stage
  | .tierLateExpiry mill stage _ => isMill mill && isStage stage
  | .purge ctx => isCtx ctx
  | .commit => true
  | .hbmRowRepair station channel bank _ _ => isStation station && isStack12 channel && isBank bank
  | .hbmRepairDone => true
  | .batch ctx _ => isCtx ctx
  | .batchStart b => isBolter b
  | .checkingEnd b _ => isBolter b
  | .batchDeadline b _ _ => isBolter b
  | .gridPublish b _ _ => isBolter b
  | .pyramidBuildDone b _ => isBolter b
  | .pyramidActivate b => isBolter b
  | .resultEmit b => isBolter b
  | .clearWatch ctx _ => isCtx ctx
  | .repairBatch b addr => isBolter b && isLong addr
  | .enable => true
  | .hold => true
  | .release => true
  | .stop => true
  | .clearSto => true
  | .readmit l => isLane l
  | .laneResetDone l => isLane l
  | .laneCopyDone l _ => isLane l
  | .shadowPass l => isLane l
  | .singleLaneTimeout => true
  | .govifRecordArrive q _ => isQueue q
  | .holdLastExpiry q => isQueue q
  | .planRecordArrive q _ => isQueue q
  | .syncReceive p _ _ _ => isTimePort p
  | .pdelayExchange p _ _ _ _ _ => isTimePort p
  | .announceReceive p p1 cls acc var p2 id steps src => isTimePort p && isByte p1 && isByte cls && isByte acc && isHalf var && isByte p2 && isLong id && isHalf steps && isLong src
  | .referenceTimeout _ => true
  | .syncTransmit p _ _ => isTimePort p
  | .ppsEdge => true
  | .ppsTimeout => true
  | .holdoverExpired => true
  | .timeSet => true
  | .timeStepApply => true
  | .reacquire => true
  | .tmTickPhaseWrite v => isWord v
  | .tmNowCapture _ => true
  | .timeCopyMismatch _ _ _ => true
  | .replicaRealign p => isTimePort p
  | .resetNAssert => true
  | .hostPortInitReady _ => true
  | .hpCtrlService v => isWord v
  | .hostPortDomainReset => true
  | .modeRegisterWrite ch r v => isHpChannel ch && isByte r && isByte v
  | .modeRegisterRead ch r => isHpChannel ch && isByte r
  | .training kind _ data => isTraining kind && decide (data.length ≤ 32)
  | .refresh => true
  | .powerDown => true
  | .readBurst row bank ch col => isRow row && isBank16 bank && isHpChannel ch && isColumn col
  | .writeBurst row bank ch col data mask => isRow row && isBank16 bank && isHpChannel ch && isColumn col && decide (data.length ≤ 32) && isWord mask
  | .hpCtxSqDb ctx v => isCtx ctx && isWord v
  | .entryAccept ctx => isRing ctx
  | .sealWaitTimeout ctx => isCtx ctx
  | .hpCtxCqDb ctx v => isCtx ctx && isWord v
  | .completionWrite => true
  | .ctxEnable ctx => isCtx ctx
  | .ctxDisable ctx => isCtx ctx
  | .ctxReset ctx => isCtx ctx
  | .chunk ctx _ => isCtx ctx
  | .item ctx _ fmt => isCtx ctx && isFormat fmt
  | .alertHoldoffExpiry => true
  | .hpMbSqDb v => isWord v
  | .hpMbCqDb v => isWord v
  | .pxModuleIdWrite v => isWord v
  | .phirovPortEnable p v => isPhirov p && isWord v
  | .pxPeerWrite m v => isModule m && isWord v
  | .linkUp t => isTimePort t
  | .helloTimer m => isModule m
  | .helloReceive p m dst own echo => isPhirov p && isModule m && isModule dst && isHalf own && isHalf echo
  | .creditReceive p m _ => isPhirov p && isModule m
  | .phirovFrameSend m c => isModule m && isClass c
  | .creditReturnSend m => isModule m
  | .writeFrameReceive p m _ => isPhirov p && isModule m
  | .readFrameReceive p m _ => isPhirov p && isModule m
  | .responseReceive p m _ => isPhirov p && isModule m
  | .collectReceive p m _ => isPhirov p && isModule m
  | .pfcReceive p mask => isPhirov p && isByte mask
  | .peerLost m _ => isModule m
  | .peerTimeout m => isModule m
  | .linkDownEvent t => isTimePort t
  | .collectiveRequest mill stage _ g => isMill mill && isStage stage && isGroup g
  | .collectiveDone g => isGroup g
  | .fragmentReceive l stream format number index offset src bytes _ _ _ _ => isSensorLane l && isStream stream && isByte format && isWord number && isHalf index && isWord offset && isLong src && isHalf bytes
  | .ingressDeliveryDone stream => isStream stream
  | .ptpMessageReceive p _ domain _ _ => isTimePort p && isByte domain
  | .ringCopyReturn _ copy port _ _ => isRingPort copy && isRingPort port
  | .ringReturnDeadline _ => true
  | .mrCfgWrite v => isWord v
  | .clockCheckFail _ _ => true
  | .referenceAbsent => true
  | .clockRestartAttempt _ => true
  | .cdcTimeout crossing _ => isCrossing crossing
  | .domainReset d => isDomain d
  | .fabricGroupReset => true
  | .domainRelease d => isDomain d
  | .pwResetCmd v => isWord v
  | .bootStageDone _ => true
  | .bootStageOverrun => true
  | .portRetrain t => isTimePort t
  | .portRetrainEnd t _ => isTimePort t
  | .millTest _ _ _ => true
  | .evCapture _ => true
  | .challenge _ => true
  | .evClear _ => true
  | .returnEnter _ => true
  | .liveRecordEnter => true
  | .recordFlush => true
  | .coalescedRecord ch => isChannelNo ch
  | .opSecondsSave => true
  | .evRdSeqHiWrite v => isWord v
  | .evCtxSelHiWrite ctx v => isCtx ctx && isWord v
  | .recordLatchDone k => isRing k
  | .attest _ => true
  | .certRead _ => true
  | .fwStage _ => true
  | .fwApply _ => true
  | .fwUnitDone _ => true
  | .fwAbort _ => true
  | .otpChallenge _ => true
  | .otpWrite _ => true
  | .otpWriteStart => true
  | .otpWriteDone => true
  | .otpRead _ => true
  | .holdupEnd v _ => isHalf v
  | .holdupLowChange _ => true
  | .laneWatchdogExpiry l => isLane l
  | .asCapableLost p => isTimePort p
  | .announceTransmit p => isTimePort p
  | .pdelayRequestTransmit p _ => isTimePort p
  | .powerDownExit => true
  | .frameDiscard t => isTimePort t
  | .phirovPortDisable p v => isPhirov p && isWord v
  | .tmCtrlSourceWrite v => isWord v
  | .hbmStackFailure station ch stack => isStation station && isByte ch && isStack stack

end Sys2Proof
end

