-- ==== Sys2Proof/Tests/Slice0.lean ====
section
/-!
SUPPORT. Tests of the model: ill-formed operands that WellFormed refuses, worked examples of the spec, and for every clause of
the obligations a state and operands that meet its hypotheses.
-/
set_option linter.unusedVariables false
set_option Elab.async false
namespace Sys2Proof.Tests
open Sys2Proof Sys2Proof.Machine

/-! ### Small states -/

/-- `n` bytes, zero but for fields given as offset, width and value. -/
def blob (n : Nat) (xs : List (Nat × Nat × Nat)) : Bytes := xs.foldl (fun b e => patch b e.1 (le e.2.1 e.2.2)) (zeros n)

/-- A section with its header of R114 and no manifest or preloads. -/
def mkSec (typ target ctx : Nat) (body : Bytes) : Section :=
  { typ := typ, target := target
    bytes := blob 64 [(0, 1, typ), (1, 1, target), (2, 1, ctx), (4, 4, body.length), (0x18, 4, 64)] ++ body }

/-- A request that a ring has accepted. -/
def req (ctx idx target : Nat) (body : Bytes) : Request :=
  { ctx := ctx, idx := idx, target := target, notify := false, tag := 0, body := body }

/-- A module after bring-up, with a GOVERNOR section of no joints, two clock ports and no millplan. -/
def live : State :=
  { regs := [(Reg.tmPortCfg 0, 1), (Reg.tmPortCfg 8, 1)]
    hp := { state := .service, resetN := false, holdAlert := false }
    pw := { motionOn := true, fabricOn := true, stage := 8, inputV := 4800 }
    ck := { tcxoOk := true, motionLock := true, fabricLock := true, service := [0, 1, 2, 3, 4, 5, 6, 7, 16, 24] }
    sec := { groups := [(1, { gens := [(1, { consumed := true, marker := true, data := [1] })], current := 1, shadow := [1] })] }
    tiers := { mapReady := true, hbmReady := true, storeReady := true }
    gov := { sec := some (mkSec 7 0 0 (blob 0x80 [(0x20, 1, 1)])) }
    tm := { running := true, ports := [(0, { linkUp := true, aligned := true }), (8, { linkUp := true, aligned := true })] } }

def setR (a v : Nat) (s : State) : State := s.setReg a (word v)
def asks (r : Request) (s : State) : State := { s with hp := { s.hp with requests := [r] } }
def ringOf (c : Nat) (r : Ring) (s : State) : State := { s with hp := { s.hp with rings := [(c, r)] } }
def inWheel (w : Wheel) (s : State) : State := { s with gov := { s.gov with wheel := { s.gov.wheel with state := w } } }
def plan (xs : List Section) (s : State) : State := { s with loader := { s.loader with loaded := some { sections := xs } } }
def runs (m : Nat) (x : Section) (s : State) : State := s.setMill m { state := .run, sec := some x }
def pools (p : Nat) (x : Pool) (s : State) : State := s.setPool p x

/-! ### Ill-formed commands, one for each range -/

theorem test_wf_isWord : (Instr.lgFaultClear 0x100000000).wf = false := by decide
theorem test_wf_isHalf : (Instr.supplyWarning 0x10000).wf = false := by decide
theorem test_wf_isByte : (Instr.voteV4 256 []).wf = false := by decide
theorem test_wf_isLong : (Instr.repairBatch 0 0x10000000000000000).wf = false := by decide
theorem test_wf_isCtx : (Instr.purge 64).wf = false := by decide
theorem test_wf_isRing : (Instr.entryAccept 65).wf = false := by decide
theorem test_wf_isMill : (Instr.coreHeartbeat 16).wf = false := by decide
theorem test_wf_isStage : (Instr.slotFree 0 8).wf = false := by decide
theorem test_wf_isWeir : (Instr.creditArrive 0 42).wf = false := by decide
theorem test_wf_isStream : (Instr.chunkBoundary 256).wf = false := by decide
theorem test_wf_isBolter : (Instr.batchStart 2).wf = false := by decide
theorem test_wf_isLane : (Instr.readmit 3).wf = false := by decide
theorem test_wf_isTimePort : (Instr.replicaRealign 26).wf = false := by decide
theorem test_wf_isRingPort : (Instr.torqueLaunch 2 0).wf = false := by decide
theorem test_wf_isPhirov : (Instr.phirovPortEnable 8 0).wf = false := by decide
theorem test_wf_isModule : (Instr.helloTimer 1024).wf = false := by decide
theorem test_wf_isClass : (Instr.phirovFrameSend 0 4).wf = false := by decide
theorem test_wf_isQueue : (Instr.holdLastExpiry 16).wf = false := by decide
theorem test_wf_isChannelNo : (Instr.coalescedRecord 64).wf = false := by decide
theorem test_wf_isHoist : (Instr.tierCmdStart 0 0 32).wf = false := by decide
theorem test_wf_isPool : (Instr.creditArrive 512 0).wf = false := by decide
theorem test_wf_isOutput : (Instr.routerHop 0 0 5 0).wf = false := by decide
theorem test_wf_isStation : (Instr.hbmStackFailure 8 0 0).wf = false := by decide
theorem test_wf_isStack : (Instr.hbmStackFailure 0 0 6).wf = false := by decide
theorem test_wf_isStack12 : (Instr.hbmRowRepair 0 12 0 0 []).wf = false := by decide
theorem test_wf_isBank : (Instr.hbmRowRepair 0 0 32 0 []).wf = false := by decide
theorem test_wf_isBank16 : (Instr.readBurst 0 16 0 0).wf = false := by decide
theorem test_wf_isRow : (Instr.readBurst 16384 0 0 0).wf = false := by decide
theorem test_wf_isColumn : (Instr.readBurst 0 0 0 1024).wf = false := by decide
theorem test_wf_isHpChannel : (Instr.modeRegisterRead 4 0).wf = false := by decide
theorem test_wf_isTraining : (Instr.training 7 0 []).wf = false := by decide
theorem test_wf_isSensorLane : (Instr.fragmentReceive 16 0 0 0 0 0 0 0 false false 0 []).wf = false := by decide
theorem test_wf_isBucket : (Instr.prefillDispatch 0 6 []).wf = false := by decide
theorem test_wf_isGroup : (Instr.collectiveDone 256).wf = false := by decide
theorem test_wf_isCrossing : (Instr.cdcTimeout 42 0).wf = false := by decide
theorem test_wf_isDomain : (Instr.domainReset 128).wf = false := by decide
theorem test_wf_isScrub : (Instr.scrubPass 14 0 0 0 false).wf = false := by decide
theorem test_wf_isFormat : (Instr.item 0 0 16).wf = false := by decide
theorem test_wf_isRegAddr : (Instr.captureReadLowWord 83886080).wf = false := by decide
theorem test_wf_burst : (Instr.writeBurst 0 0 0 0 (zeros 33) 0).wf = false := by decide

/-! ### Worked examples of the spec -/

/-- "one layer to a governor queue": the product with BF16 output has tag 121, with FP32 output 115. -/
def productTag (fmt : Nat) : Nat :=
  (tailBlock fmt 0 true false 255 0
    [{ v := .fin false 14365491 (-20), b := sumRho 4096 (some ⟨96, 0⟩) }]).tag
theorem test_tag_of_a_product_bf16 : productTag 2 = 121 := by decide +kernel
theorem test_tag_of_a_product_fp32 : productTag 1 = 115 := by decide +kernel
theorem test_bound_of_tag_121 : tagBound 121 1 = some ⟨1, -6⟩ := by decide

/-- "one joint at one tick": joint 5; the two table entries stand at the table's start, where
the look-up position −32,760 has u = 8, and f = 8 as in the example. -/
def joint5 : JointCfg :=
  { enabled := true, table := true, wrap := false, drive := 5, pExp := 2, vExp := 4, tExp := 8, gainShift := 4, kp := 25600
    kd := 2560, holdShift := 0, bandShift := 9, kpHold := 0, kdHold := 0, gBand := 20480, qMin := -32767, qMax := 32767
    qdMax := 32767, tauMax := 15360, dtauMax := 250, qdReduced := 0, tableOff := 0 }
def joint5Law : Law :=
  { qRef := [], qdRef := [], tau := List.replicate 6 7680, hold := false, gainMode := 0, gainShift := [], gains := [] }
def joint5Errs : List Int := setNth (setNth (List.replicate 70 (0 : Int)) 5 156) 69 410
def joint5Table : Bytes := le 2 (twos 16 (-96)) ++ le 2 160 ++ le 2 (twos 16 (-40)) ++ le 2 168
theorem test_friction_band : bandOf joint5 1638 = 32767 := by decide
theorem test_level_1 : level1 joint5Table joint5Law joint5 5 joint5Errs (-32760) 1638 [] = (10238, 0) := by decide +kernel
theorem test_level_2 : level2 (limitsOf [] joint5 5) false 10248 1638 9900 10238 = (10150, 1) := by decide +kernel

/-- "odometry at a tick": the aligned velocity at T, and the corrected one. -/
theorem test_alignment :
    ((alignPair 2000000 2 10000000 [{ t := 9702000, v := [1321206] }, { t := 7702000, v := [1258291] }]).map alignVals) =
      some [1330580] := by decide +kernel
theorem test_correction : correct 4096 1310720 1330580 = 1313203 := by decide

/-- "a singular stage and the fallback": the leading block of M_7 in LDLᵀ, with the scale of 2^−28. -/
def singular : Factor :=
  factorize { stages := 8, iterations := 24, ldlt := true, spacing := 0, pivot := ⟨16384, -24⟩, eps := Dy.zero
              sigma := Dy.zero, rho := Dy.zero, rhoC := Dy.zero, alpha := Dy.zero, xLoM := -4, xHiM := 8, xLoV := 0
              xHiV := 0, xL := 4, xW := 0, xY := 0, xC := 0 }
    { rows := [[1073741824, 536870912, 0], [536870912, 268435456, 134217728], [0, 134217728, 805306368]], exp := 3 }
theorem test_singular_pivot :
    singular.rows = [[1073741824], [67108864, 262144], [0, 2147483647, 738197504]] ∧ singular.pivots = 1 ∧
      singular.first = some 1 ∧ singular.sats = 1 := by decide +kernel

/-- "an asymmetric fibre": the mean path delay is 629.0 ns (times in 2^−16 ns, the delay in the units of the time base). -/
theorem test_path_delay :
    (match exec (.pdelayExchange 3 0 0 (10000 * 65536) (11258 * 65536) (2 ^ 40)) (setR (Reg.tmPortCfg 3) 1 live
        |>.setPort 3 { linkUp := true, aligned := true, asCapable := true }) with
     | .next s => (s.port 3).delay
     | _ => 0) = 629 * 65536 := by decide +kernel

/-- "a doorbell that overtakes its entries": slot 33 of context 12. -/
theorem test_slot_address :
    ((ringOf 12 {} (setR (Reg.hpCtxCfg 12) 0x66 live)).sqSlot 12 33) = 0x01C10840 := by decide +kernel

/-- "Sequence caches": position 1,000,000 of a ring of 10,560 slots. -/
theorem test_ring_slot : ({ ring := true, slots := 10560 } : SeqDesc).slotOf 1000000 = 7360 := by decide

/-- "Stripes": stripe 3 of a 3 × 3 convolution with padding 1 and 64 rows a stripe reads rows 191 to 256. -/
def conv3 : ImgP :=
  { imgOf [] 0 with typ := 2, inW := 64, inH := 512, inC := 32, outC := 32, kw := 3, kh := 3, sw := 1, sh := 1, dw := 1, dh := 1
                    padL := 1, padR := 1, padT := 1, padB := 1, stripeRows := 64 }
theorem test_stripe_rows : (conv3.lastRow 3, conv3.haloRows 3) = (256, 2) := by decide

/-- R316: 1 rad/s about z for 1 ms turns the attitude by 0.5 mrad of half-angle, in 2^−30. -/
theorem test_attitude_step :
    (({} : Fusion).step 0 1000000 [0, 0, 16777216] [0, 0, 0]).att = [1073741690, 0, 0, 536871] := by decide +kernel

/-- The table gives no row bits. -/
theorem test_no_words (n w : Nat) : decodeTableWord n w = none := rfl

/-! ### A state and operands for every hypothesis of the obligations -/

/-! #### StepRunsFront -/

theorem wit_StepRunsFront_2 : ∃ (s : State), s.pending = [] :=
  ⟨live, by decide⟩

/-! #### RegisterWrites -/

theorem wit_RegisterWrites_1 : ∃ (a v mask : Nat) (s : State), (a, mask) ∈ [(Reg.mpSrcOffset, 0xFFFFFFFF), (Reg.mpSrcLength, 0xFFFFFFFF), (Reg.mpCtrl, 3), (Reg.mtMapIndex, 0x3FFFFF), (Reg.tmSetNs, 0xFFFFFFFF), (Reg.tmSetSecLo, 0xFFFFFFFF), (Reg.tmSetSecHi, 0xFFFF), (Reg.tmServo, 0xFFFFFF), (Reg.tmStepThreshold, 0xFFFFFFFF), (Reg.tmClockQuality, 0xFFFFFFFF), (Reg.tmPpsDelay, 0xFFFFFFFF), (Reg.tmUtcOffset, 0x1FFFF), (Reg.evRdSeqLo, 0xFFFFFFFF)] :=
  ⟨Reg.mpSrcOffset, 7, 0xFFFFFFFF, live, by decide⟩

theorem wit_RegisterWrites_2 : ∃ (a v : Nat) (s : State), accessAt a ≠ some .rw :=
  ⟨Reg.lgFault, 1, live, by decide⟩

theorem wit_RegisterWrites_3 : ∃ (a v : Nat) (c : Instr) (s t : State), (a, c) ∈ [(Reg.hpCtrl, .hpCtrlService v), (Reg.tmCtrl, .tmCtrlSourceWrite v), (Reg.tmTickPhase, .tmTickPhaseWrite v), (Reg.pxModuleId, .pxModuleIdWrite v), (Reg.mrCfg, .mrCfgWrite v), (Reg.pwCap, .pwCap v), (Reg.evRdSeqHi, .evRdSeqHiWrite v)] ∧ exec c s = .next t :=
  ⟨Reg.pwCap, 0, .pwCap 0, live, _, by decide, rfl⟩

theorem wit_RegisterWrites_4 : ∃ (a c v : Nat) (s : State), c < 64 ∧ (a = Reg.hpCtxCfg c ∨ a = Reg.hpCtxPond c) ∧ (s.ring c).state = .disabled :=
  ⟨Reg.hpCtxCfg 3, 3, 0x100, live, by decide⟩

theorem wit_RegisterWrites_5 : ∃ (a c v : Nat) (s : State), c < 64 ∧ (a = Reg.hpCtxCfg c ∨ a = Reg.hpCtxPond c) ∧ (s.ring c).state ≠ .disabled :=
  ⟨Reg.hpCtxPond 63, 63, 1, ringOf 63 { state := .run } live, by decide⟩

/-! #### HardwareEventWins -/

theorem wit_HardwareEventWins_1 : ∃ (a v ev : Nat) (s : State), accessAt a = some .w1c :=
  ⟨Reg.gvEvents, 1, 2, live, by decide⟩

theorem wit_HardwareEventWins_2 : ∃ (a ev : Nat) (s : State), accessAt a = some .rc :=
  ⟨Reg.fuPhase 0, 1, live, by decide⟩

/-! #### LowWordCaptures -/

theorem wit_LowWordCaptures_1 : ∃ (a : Nat) (s : State), lowWord (regAddr a) = true :=
  ⟨Reg.gvCycleLo, live, by decide⟩

/-! #### LedgerFaults -/

theorem wit_LedgerFaults_1 : ∃ (p h f k r c : Nat) (s : State), poolReserved p = false ∧ s.poolFault p = false ∧ (s.pool p).size ≠ h + f + k + r + c :=
  ⟨0, 1, 0, 0, 0, 0, live, by decide⟩

theorem wit_LedgerFaults_2 : ∃ (p h f k r c : Nat) (s : State), (poolReserved p = true ∨ s.poolFault p = true ∨ (s.pool p).size = h + f + k + r + c) :=
  ⟨0, 0, 0, 0, 0, 0, live, by decide⟩

theorem wit_LedgerFaults_4 : ∃ (v : Nat) (s : State), s.ledger.snap.busy = true :=
  ⟨1, { live with ledger := { snap := { busy := true } } }, by decide⟩

theorem wit_LedgerFaults_5 : ∃ (v : Nat) (s : State), s.ledger.snap.busy = false :=
  ⟨511, live, by decide⟩

theorem wit_LedgerFaults_6 : ∃ (s : State), s.ledger.snap.busy = true :=
  ⟨{ live with ledger := { snap := { busy := true } } }, by decide⟩

/-! #### HostPortStates -/

theorem wit_HostPortStates_1 : ∃ (ms : Nat) (s : State), s.hp.state = .off ∧ 7 ≤ s.pw.stage ∧ has s.ck.held 4 = false :=
  ⟨5, { live with hp := {}, pw := { live.pw with stage := 7 } }, by decide⟩

theorem wit_HostPortStates_2 : ∃ (v : Nat) (s : State), s.hp.state = .init ∧ s.hp.holdAlert = false ∧ bitN v 0 = true :=
  ⟨1, { live with hp := { live.hp with state := .init } }, by decide⟩

theorem wit_HostPortStates_3 : ∃ (v : Nat) (s : State), s.hp.state = .init ∧ s.hp.holdAlert = true :=
  ⟨1, { live with hp := { live.hp with state := .init, holdAlert := true } }, by decide⟩

theorem wit_HostPortStates_5 : ∃ (s : State), s.pw.fabricOn = true ∧ has s.ck.held 8 = false ∧ s.hp.state = .service :=
  ⟨live, by decide⟩

theorem wit_HostPortStates_7 : ∃ (s : State), s.hp.state ≠ .off :=
  ⟨live, by decide⟩

/-! #### HostPortDevice -/

theorem wit_HostPortDevice_1 : ∃ (ch r v : Nat) (s : State), s.hp.listens = true ∧ mrStored r = true :=
  ⟨0, 1, 5, live, by decide⟩

theorem wit_HostPortDevice_2 : ∃ (ch r : Nat) (s : State), s.hp.listens = true ∧ mrStored r = true ∧ r ≠ 26 :=
  ⟨3, 34, live, by decide⟩

theorem wit_HostPortDevice_3 : ∃ (kind rate : Nat) (data : Bytes) (s : State), s.hp.listens = true ∧ (kind = 0 ∨ kind = 1 ∨ kind = 2) :=
  ⟨2, 6400, [], live, by decide⟩

theorem wit_HostPortDevice_5 : ∃ (s : State), s.hp.state ≠ .off :=
  ⟨live, by decide⟩

theorem wit_HostPortDevice_6 : ∃ (s : State), s.hp.state ≠ .off :=
  ⟨live, by decide⟩

theorem wit_HostPortDevice_7 : ∃ (ch r v kind rate : Nat) (data : Bytes) (c : Instr) (s : State), c ∈ [.modeRegisterWrite ch r v, .training kind rate data, .powerDown, .powerDownExit] :=
  ⟨0, 0, 0, 0, 0, [], .modeRegisterWrite 0 0 0, live, by decide⟩

/-! #### BurstPond -/

theorem wit_BurstPond_1 : ∃ (row bank ch col mask : Nat) (data : Bytes) (s : State), s.memOk ∧ s.hp.state = .service ∧ s.hp.lowPower = false ∧ 0x40000000 ≤ burstAddr row bank ch col ∧ burstAddr row bank ch col < 0x44000000 ∧ data.length = 32 :=
  ⟨8192, 0, 0, 0, 1, zeros 32, live, by decide⟩

theorem wit_BurstPond_2 : ∃ (row bank ch col : Nat) (s : State), s.hp.state = .service ∧ s.hp.lowPower = false ∧ 0x40000000 ≤ burstAddr row bank ch col ∧ burstAddr row bank ch col < 0x44000000 ∧ has s.hp.bad (burstAddr row bank ch col) = false :=
  ⟨8192, 0, 0, 0, live, by decide⟩

/-! #### DoorbellAnnounces -/

theorem wit_DoorbellAnnounces_1 : ∃ (ctx v : Nat) (s : State), ctx < 64 ∧ (s.ring ctx).state = .run ∧ ((s.ring ctx).announced + 65536 - (s.ring ctx).sqCons) % 65536 < (v % 65536 + 65536 - (s.ring ctx).sqCons) % 65536 ∧ (v % 65536 + 65536 - (s.ring ctx).sqCons) % 65536 ≤ s.sqDepth ctx ∧ (v % 65536 + 65536 - (s.ring ctx).sqCons) % 65536 ≤ s.issued ctx :=
  ⟨0, 8, pools 352 { size := 8, held := 8 } (setR (Reg.hpCtxCfg 0) 0x0866 (ringOf 0 { state := .run } live)), by decide⟩

theorem wit_DoorbellAnnounces_2 : ∃ (ctx v : Nat) (s : State), ctx < 64 ∧ (s.ring ctx).state = .run ∧ ((s.ring ctx).announced + 65536 - (s.ring ctx).sqCons) % 65536 < (v % 65536 + 65536 - (s.ring ctx).sqCons) % 65536 ∧ (s.sqDepth ctx < (v % 65536 + 65536 - (s.ring ctx).sqCons) % 65536 ∨ s.issued ctx < (v % 65536 + 65536 - (s.ring ctx).sqCons) % 65536) :=
  ⟨0, 9, pools 352 { size := 8, held := 8 } (setR (Reg.hpCtxCfg 0) 0x0866 (ringOf 0 { state := .run } live)), by decide⟩

theorem wit_DoorbellAnnounces_3 : ∃ (ctx v : Nat) (s : State), ctx < 64 ∧ (v % 65536 + 65536 - (s.ring ctx).sqCons) % 65536 ≤ ((s.ring ctx).announced + 65536 - (s.ring ctx).sqCons) % 65536 :=
  ⟨63, 0, live, by decide⟩

theorem wit_DoorbellAnnounces_4 : ∃ (v : Nat) (s : State), (s.ring mb).state = .run ∧ ((s.ring mb).announced + 65536 - (s.ring mb).sqCons) % 65536 < (v % 65536 + 65536 - (s.ring mb).sqCons) % 65536 ∧ (v % 65536 + 65536 - (s.ring mb).sqCons) % 65536 ≤ 1024 :=
  ⟨1024, ringOf mb { state := .run } live, by decide⟩

theorem wit_DoorbellAnnounces_5 : ∃ (ctx v : Nat) (c : Instr) (s : State), c ∈ [.hpCtxSqDb ctx v, .hpMbSqDb v] :=
  ⟨0, 0, .hpCtxSqDb 0 0, live, by decide⟩

/-! #### PartialAndStray -/

theorem wit_PartialAndStray_1 : ∃ (row bank ch col mask : Nat) (data : Bytes) (s : State), s.hp.state = .service ∧ s.hp.lowPower = false ∧ burstAddr row bank ch col < 0x01000000 ∧ (∀ i, i < 8 → maskWord (mask % 2 ^ 32) i ≠ 0 ∧ maskWord (mask % 2 ^ 32) i ≠ 15) :=
  ⟨0, 0, 0, 0, 0x77777777, zeros 32, live, by decide⟩

theorem wit_PartialAndStray_2 : ∃ (row bank ch col mask : Nat) (data : Bytes) (s : State), s.hp.state = .service ∧ s.hp.lowPower = false ∧ (0x05000000 ≤ burstAddr row bank ch col ∧ burstAddr row bank ch col < 0x08000000 ∨ 0x0C000000 ≤ burstAddr row bank ch col ∧ burstAddr row bank ch col < 0x40000000 ∨ 0x44000000 ≤ burstAddr row bank ch col) :=
  ⟨640, 0, 0, 0, 0, zeros 32, live, by decide⟩

theorem wit_PartialAndStray_3 : ∃ (row bank ch col : Nat) (s : State), s.hp.state = .service ∧ s.hp.lowPower = false ∧ (0x05000000 ≤ burstAddr row bank ch col ∧ burstAddr row bank ch col < 0x08000000 ∨ 0x0C000000 ≤ burstAddr row bank ch col ∧ burstAddr row bank ch col < 0x40000000 ∨ 0x44000000 ≤ burstAddr row bank ch col) :=
  ⟨8704, 0, 0, 0, live, by decide⟩

/-! #### RequestsAccepted -/

theorem wit_RequestsAccepted_1 : ∃ (ctx : Nat) (s : State), ctx ≤ mb ∧ (s.ring ctx).state = .run ∧ (s.ring ctx).sqCons ≠ (s.ring ctx).announced ∧ s.slotSealed ctx (s.ring ctx).sqCons = true ∧ s.slotFree ctx = true ∧ leAt (s.mem.sram.readBytes (s.sqSlot ctx (s.ring ctx).sqCons) 64) 0 2 = (s.ring ctx).sqCons :=
  ⟨0, ringOf 0 { state := .run, announced := 1, sealed := [0x01010000, 0x01010020] } live, by decide⟩

theorem wit_RequestsAccepted_2 : ∃ (ctx : Nat) (s : State), ctx ≤ mb ∧ (s.ring ctx).state = .run ∧ (s.ring ctx).sqCons ≠ (s.ring ctx).announced ∧ s.slotSealed ctx (s.ring ctx).sqCons = true ∧ s.slotFree ctx = true ∧ leAt (s.mem.sram.readBytes (s.sqSlot ctx (s.ring ctx).sqCons) 64) 0 2 ≠ (s.ring ctx).sqCons :=
  ⟨0, ringOf 0 { state := .run, sqCons := 1, announced := 2, sealed := [0x01010000, 0x01010020] } live, by decide⟩

theorem wit_RequestsAccepted_3 : ∃ (ctx : Nat) (s : State), ctx < 64 ∧ s.sealWait ctx = true :=
  ⟨5, ringOf 5 { state := .run, announced := 1 } live, by decide⟩

theorem wit_RequestsAccepted_4 : ∃ (ctx idx fmt : Nat) (r : Request) (s : State), s.request ctx idx = some r ∧ r.target = 5 ∧ r.begun = false ∧ allZero ((r.body.drop 2).take 2) = true ∧ allZero (r.body.drop 28) = true ∧ leAt r.body 0 1 < leatEntries (s.body 2 0) ∧ leAt r.body 1 1 = (leatEntry (s.body 2 0) (leAt r.body 0 1)).cls ∧ 0 < leAt r.body 4 4 ∧ (leatEntry (s.body 2 0) (leAt r.body 0 1)).ctx = ctx ∧ s.inGrant ctx (leAt r.body 8 8) (leAt r.body 4 4) = true ∧ s.inGrant ctx (leAt r.body 16 8) (leAt r.body 24 4) = true :=
  ⟨3, 1, 8, req 3 1 5 (blob 32 [(1, 1, 2), (4, 4, 64)]), setR (Reg.hpCtxPond 3) 0x400 (asks (req 3 1 5 (blob 32 [(1, 1, 2), (4, 4, 64)])) (plan [mkSec 2 0 0 (blob 64 [(0x0A, 2, 1), (0x14, 4, 32), (32, 1, 0), (33, 1, 2), (34, 1, 3)])] live)), by decide⟩

theorem wit_RequestsAccepted_5 : ∃ (ctx idx fmt : Nat) (r : Request) (s : State), s.request ctx idx = some r ∧ r.target = 5 ∧ r.begun = false ∧ allZero ((r.body.drop 2).take 2) = true ∧ allZero (r.body.drop 28) = true ∧ leAt r.body 0 1 < leatEntries (s.body 2 0) ∧ leAt r.body 1 1 = (leatEntry (s.body 2 0) (leAt r.body 0 1)).cls ∧ 0 < leAt r.body 4 4 ∧ ((leatEntry (s.body 2 0) (leAt r.body 0 1)).ctx ≠ ctx ∨ s.inGrant ctx (leAt r.body 8 8) (leAt r.body 4 4) = false) :=
  ⟨3, 1, 8, req 3 1 5 (blob 32 [(1, 1, 2), (4, 4, 64)]), asks (req 3 1 5 (blob 32 [(1, 1, 2), (4, 4, 64)])) (plan [mkSec 2 0 0 (blob 64 [(0x0A, 2, 1), (0x14, 4, 32), (32, 1, 0), (33, 1, 2), (34, 1, 3)])] live), by decide⟩

theorem wit_RequestsAccepted_6 : ∃ (ctx idx fmt : Nat) (r : Request) (s : State), s.request ctx idx = some r ∧ r.target = 5 ∧ r.begun = false ∧ (leatEntries (s.body 2 0) ≤ leAt r.body 0 1 ∨ leAt r.body 4 4 = 0) :=
  ⟨3, 1, 8, req 3 1 5 (zeros 32), asks (req 3 1 5 (zeros 32)) live, by decide⟩

/-! #### Completions -/

theorem wit_Completions_1 : ∃ (d : Done) (rest : List Done) (s : State), s.hp.done = d :: rest ∧ d.req.idx < 65536 ∧ d.req.ctx < 64 ∧ (s.ring d.req.ctx).resetting = false ∧ d.extra = 0 ∧ 1 ≤ (s.pool (hostPool d.req.ctx)).held :=
  ⟨{ req := req 0 0 1 (zeros 32), status := 0, result := 0 }, [], pools 352 { size := 1, held := 1 } { live with hp := { live.hp with done := [{ req := req 0 0 1 (zeros 32), status := 0, result := 0 }] } }, by decide⟩

theorem wit_Completions_2 : ∃ (v : Nat) (s : State), (s.ring mb).state = .run ∧ (v % 65536 + 65536 - (s.ring mb).cqAck) % 65536 ≤ ((s.ring mb).cqProd + 65536 - (s.ring mb).cqAck) % 65536 :=
  ⟨1, ringOf mb { state := .run, cqProd := 1 } live, by decide⟩

/-! #### CqDoorbell -/

theorem wit_CqDoorbell_1 : ∃ (ctx v : Nat) (s : State), ctx < 64 ∧ (s.ring ctx).state ≠ .disabled ∧ (v % 65536 + 65536 - (s.ring ctx).cqAck) % 65536 ≤ ((s.ring ctx).cqProd + 65536 - (s.ring ctx).cqAck) % 65536 :=
  ⟨0, 2, ringOf 0 { state := .run, cqProd := 2 } live, by decide⟩

theorem wit_CqDoorbell_2 : ∃ (ctx v : Nat) (s : State), ctx < 64 ∧ (s.ring ctx).state ≠ .disabled ∧ ((s.ring ctx).cqProd + 65536 - (s.ring ctx).cqAck) % 65536 < (v % 65536 + 65536 - (s.ring ctx).cqAck) % 65536 :=
  ⟨0, 3, ringOf 0 { state := .run, cqProd := 2 } live, by decide⟩

/-! #### RingCommands -/

theorem wit_RingCommands_1 : ∃ (ctx : Nat) (s : State), ctx < 64 ∧ s.memOk ∧ s.mayEnable ctx = true ∧ s.pool (hostPool ctx) = {} ∧ s.poolFault (hostPool ctx) = false :=
  ⟨0, setR (Reg.hpCtxCfg 0) 0x0866 live, by decide⟩

theorem wit_RingCommands_2 : ∃ (ctx : Nat) (s : State), ctx < 64 ∧ s.mayEnable ctx = false :=
  ⟨0, live, by decide⟩

theorem wit_RingCommands_3 : ∃ (ctx : Nat) (s : State), ctx < 64 ∧ (s.ring ctx).state = .run ∧ (s.ring ctx).outstanding = 0 ∧ (s.ring ctx).orphans = 0 ∧ s.poolFault (hostPool ctx) = false ∧ (s.pool (hostPool ctx)).balanced = true ∧ (s.pool (hostPool ctx)).returned = 0 ∧ (s.pool (hostPool ctx)).inFlight = 0 ∧ (s.pool (hostPool ctx)).parked = 0 :=
  ⟨0, pools 352 { size := 8, held := 8 } (ringOf 0 { state := .run } live), by decide⟩

theorem wit_RingCommands_4 : ∃ (ctx : Nat) (s : State), ctx < 64 ∧ (s.ring ctx).state = .run ∧ (s.ring ctx).outstanding ≠ 0 :=
  ⟨0, ringOf 0 { state := .run, outstanding := 1 } live, by decide⟩

theorem wit_RingCommands_5 : ∃ (ctx : Nat) (s : State), ctx < 64 ∧ (s.ring ctx).state = .error ∧ (s.ring ctx).outstanding = 0 :=
  ⟨0, ringOf 0 { state := .error } live, by decide⟩

theorem wit_RingCommands_7 : ∃ (ctx : Nat) (c : Instr) (s : State), c ∈ [.ctxDisable ctx, .ctxReset ctx] :=
  ⟨0, .ctxDisable 0, live, by decide⟩

/-! #### ErrorsAndMillTest -/

theorem wit_ErrorsAndMillTest_1 : ∃ (code unit addr n : Nat) (a : Nat) (s : State), ceCounter code unit = some a :=
  ⟨0, 0, 0, 1, Reg.mtCeCount, live, by decide⟩

theorem wit_ErrorsAndMillTest_2 : ∃ (code m addr n : Nat) (s : State), code < 2 ∧ m < 16 ∧ (s.mill m).state ≠ .evacuated :=
  ⟨1, 15, 0, 1, live, by decide⟩

theorem wit_ErrorsAndMillTest_3 : ∃ (unit addr n : Nat) (s : State), tierOf addr = some .hbm :=
  ⟨0, 0x10000000000, 1, live, by decide⟩

theorem wit_ErrorsAndMillTest_4 : ∃ (code l addr n : Nat) (s : State), (code = 11 ∨ code = 12) ∧ l < 3 ∧ (s.lane l).state = .inService :=
  ⟨11, 2, 0, 1, live, by decide⟩

theorem wit_ErrorsAndMillTest_6 : ∃ (idx : Nat) (passed : Bool) (rows : List (Nat × Nat)) (r : Request) (s : State), s.mbRequest idx 0x14 = some r ∧ leAt r.body 0 1 < 16 ∧ allZero (r.body.drop 1) = true ∧ ((s.mill (leAt r.body 0 1)).state = .evacuated ∨ (s.mill (leAt r.body 0 1)).state = .empty) :=
  ⟨0, true, [], (req 64 0 0x14 (zeros 32)), asks (req 64 0 0x14 (zeros 32)) live, by decide⟩

theorem wit_ErrorsAndMillTest_7 : ∃ (idx : Nat) (passed : Bool) (rows : List (Nat × Nat)) (r : Request) (s : State), s.mbRequest idx 0x14 = some r ∧ leAt r.body 0 1 < 16 ∧ allZero (r.body.drop 1) = true ∧ (s.mill (leAt r.body 0 1)).state ≠ .evacuated ∧ (s.mill (leAt r.body 0 1)).state ≠ .empty :=
  ⟨0, true, [], (req 64 0 0x14 (zeros 32)), asks (req 64 0 0x14 (zeros 32)) (live.setMill 0 { state := .run }), by decide⟩

/-! #### ReferenceMessages -/

theorem wit_ReferenceMessages_1 : ∃ (p origin : Nat) (corr cap : Int) (s : State), s.tm.slave = some p ∧ s.portOn p = true ∧ s.tmSource = 0 ∧ (s.port p).aligned = true ∧ s.tm.fantail ≠ .acquiring ∧ s.tm.fantail ≠ .locked :=
  ⟨0, 0, 0, 0, { live with tm := { live.tm with slave := some 0 } }, by decide⟩

theorem wit_ReferenceMessages_2 : ∃ (p origin : Nat) (corr cap : Int) (s : State), (s.tm.slave ≠ some p ∨ s.portOn p = false ∨ s.tmSource ≠ 0) :=
  ⟨1, 0, 0, 0, { live with tm := { live.tm with slave := some 0 } }, by decide⟩

theorem wit_ReferenceMessages_3 : ∃ (p r : Nat) (t1 t2 t3 t4 : Int) (s : State), (p < 8 ∨ p = 24 ∨ p = 25) ∧ s.portOn p = true ∧ (s.port p).linkUp = true :=
  ⟨0, 0, 0, 0, 0, 0, live, by decide⟩

theorem wit_ReferenceMessages_4 : ∃ (p p1 cls acc var p2 id steps src : Nat) (s : State), p < 8 ∧ s.portOn p = true ∧ (s.port p).linkUp = true :=
  ⟨0, 1, 2, 3, 4, 5, 6, 7, 8, live, by decide⟩

theorem wit_ReferenceMessages_5 : ∃ (p origin r p1 cls acc var p2 id steps src : Nat) (corr cap t1 t2 t3 t4 : Int) (c : Instr) (s : State), c ∈ [.syncReceive p origin corr cap, .pdelayExchange p t1 t2 t3 t4 r, .announceReceive p p1 cls acc var p2 id steps src] :=
  ⟨0, 0, 0, 0, 0, 0, 0, 0, 0, 0, 0, 0, 0, 0, 0, 0, 0, .syncReceive 0 0 0 0, live, by decide⟩

/-! #### ReferenceLost -/

theorem wit_ReferenceLost_1 : ∃ (announce : Bool) (p : Nat) (s : State), s.tm.slave = some p ∧ (s.tm.fantail = .acquiring ∨ s.tm.fantail = .locked) :=
  ⟨true, 0, { live with tm := { live.tm with slave := some 0, fantail := .locked } }, by decide⟩

theorem wit_ReferenceLost_2 : ∃ (p : Nat) (s : State), p < 26 ∧ s.tm.slave = some p ∧ (s.tm.fantail = .acquiring ∨ s.tm.fantail = .locked) :=
  ⟨0, { live with tm := { live.tm with slave := some 0, fantail := .acquiring } }, by decide⟩

theorem wit_ReferenceLost_3 : ∃ (s : State), s.tmSource = 1 ∧ (s.tm.fantail = .acquiring ∨ s.tm.fantail = .locked) ∧ s.ppsLate = true :=
  ⟨setR Reg.tmCtrl 1 ({ live with tm := { live.tm with slave := some 0, fantail := .locked } }), by decide⟩

theorem wit_ReferenceLost_4 : ∃ (s : State), s.tm.fantail = .holdover ∧ s.tm.holdSince + 60000000000 ≤ s.now :=
  ⟨{ live with tm := { live.tm with slave := some 0, fantail := .holdover, copies := [2 ^ 80, 2 ^ 80, 2 ^ 80] } }, by decide⟩

theorem wit_ReferenceLost_5 : ∃ (s : State), s.tm.fantail = .holdover :=
  ⟨{ live with tm := { live.tm with slave := some 0, fantail := .holdover } }, by decide⟩

theorem wit_ReferenceLost_6 : ∃ (s : State), s.tm.fantail ≠ .holdover :=
  ⟨live, by decide⟩

theorem wit_ReferenceLost_7 : ∃ (announce : Bool) (p : Nat) (c : Instr) (s : State), c ∈ [.referenceTimeout announce, .asCapableLost p, .ppsTimeout] :=
  ⟨false, 0, .referenceTimeout false, live, by decide⟩

theorem wit_ReferenceLost_8 : ∃ (c : Instr) (s : State), c ∈ [.holdoverExpired, .reacquire] :=
  ⟨.holdoverExpired, live, by decide⟩

/-! #### TimeTransmit -/

theorem wit_TimeTransmit_1 : ∃ (p rate : Nat) (cap : Int) (s : State), p < 26 ∧ s.roleNow p = 1 ∧ (s.port p).linkUp = true ∧ s.noSync p = false ∧ s.guarded p = false :=
  ⟨8, 0, 0, live, by decide⟩

theorem wit_TimeTransmit_2 : ∃ (p : Nat) (s : State), p < 26 ∧ s.roleNow p = 1 ∧ (s.port p).linkUp = true ∧ s.guarded p = false ∧ s.selectGm = none :=
  ⟨8, live, by decide⟩

theorem wit_TimeTransmit_3 : ∃ (p : Nat) (cap : Int) (s : State), (p < 8 ∨ p = 24 ∨ p = 25) ∧ s.portOn p = true ∧ (s.port p).linkUp = true ∧ s.guarded p = false :=
  ⟨0, 0, live, by decide⟩

theorem wit_TimeTransmit_5 : ∃ (p : Nat) (cap : Int) (c : Instr) (s : State), c ∈ [.announceTransmit p, .pdelayRequestTransmit p cap] :=
  ⟨0, 0, .announceTransmit 0, live, by decide⟩

/-! #### TimeRegisters -/

theorem wit_TimeRegisters_1 : ∃ (s : State), s.tm.running = true :=
  ⟨live, by decide⟩

theorem wit_TimeRegisters_2 : ∃ (v : Nat) (s : State), s.gov.wheel.state = .standby ∧ v < 250000 :=
  ⟨249999, live, by decide⟩

theorem wit_TimeRegisters_3 : ∃ (v : Nat) (s : State), (s.gov.wheel.state ≠ .standby ∨ 250000 ≤ v) :=
  ⟨250000, live, by decide⟩

theorem wit_TimeRegisters_5 : ∃ (v : Nat) (s : State), v % 4 = 2 :=
  ⟨2, live, by decide⟩

theorem wit_TimeRegisters_6 : ∃ (p : Nat) (s : State), p < 20 ∧ s.tm.running = true ∧ has s.ck.service (portCrossing p) = true :=
  ⟨0, live, by decide⟩

theorem wit_TimeRegisters_7 : ∃ (p kind domain : Nat) (cap : Int) (s : State), p < 26 ∧ s.portOn p = true :=
  ⟨8, 0, 1, 0, live, by decide⟩

theorem wit_TimeRegisters_8 : ∃ (p : Nat) (cap : Int) (s : State), p < 8 ∧ s.portOn p = true :=
  ⟨0, 0, live, by decide⟩

/-! #### ModuleTime -/

theorem wit_ModuleTime_1 : ∃ (d : Int) (a : Nat) (s : State), s.tm.running = true ∧ s.tm.copies = [a, a, a] ∧ 0 < d :=
  ⟨1, 0, live, by decide⟩

theorem wit_ModuleTime_2 : ∃ (b c : Int) (a : Nat) (s : State), s.tm.running = true ∧ s.tm.copies = [a, a, a] ∧ 0 < b ∧ 0 < c ∧ b ≠ c :=
  ⟨1, 2, 0, live, by decide⟩

theorem wit_ModuleTime_3 : ∃ (s : State), s.gov.wheel.state = .standby :=
  ⟨live, by decide⟩

theorem wit_ModuleTime_4 : ∃ (s : State), s.gov.wheel.state ≠ .standby :=
  ⟨inWheel .run live, by decide⟩

theorem wit_ModuleTime_5 : ∃ (s : State), s.tm.setWait = true ∧ s.regN Reg.tmSetNs ≤ 999999999 ∧ s.regN Reg.tmSetSecHi < 65536 :=
  ⟨{ live with tm := { live.tm with setWait := true } }, by decide⟩

theorem wit_ModuleTime_6 : ∃ (s : State), s.tm.setWait = true ∧ 999999999 < s.regN Reg.tmSetNs :=
  ⟨setR Reg.tmSetNs 1000000000 { live with tm := { live.tm with setWait := true } }, by decide⟩

/-! #### LaunchQueue -/

theorem wit_LaunchQueue_1 : ∃ (p time ref : Nat) (e : LaunchEntry) (rest : List LaunchEntry) (s : State), p < 2 ∧ mgmtCount (s.queue p) < 3 ∧ Tbl.getD s.launch.waiting p [] ++ [{ time := time, voter := false, ref := ref, frame := [] }] = e :: rest :=
  ⟨1, 9, 1, { time := 9, voter := false, ref := 1, frame := [] }, [], live, by decide⟩

theorem wit_LaunchQueue_2 : ∃ (p time ref : Nat) (s : State), p < 2 ∧ 3 ≤ mgmtCount (s.queue p) :=
  ⟨0, 9, 1, { live with launch := { queues := [(0, [{ time := 9, voter := false, ref := 1, frame := [] }, { time := 9, voter := false, ref := 1, frame := [] }, { time := 9, voter := false, ref := 1, frame := [] }])] } }, by decide⟩

theorem wit_LaunchQueue_3 : ∃ (p : Nat) (err : Int) (e : LaunchEntry) (s : State), earliest (s.queue p) = some e ∧ s.now ≤ e.time ∧ e.time ≤ s.now + 1300 + s.regN (Reg.tmLatOut (24 + p)) / 256 :=
  ⟨0, 0, { time := 9, voter := false, ref := 1, frame := [] }, { live with launch := { queues := [(0, [{ time := 9, voter := false, ref := 1, frame := [] }])] } }, by decide⟩

theorem wit_LaunchQueue_4 : ∃ (p : Nat) (err : Int) (e : LaunchEntry) (s : State), earliest (s.queue p) = some e ∧ e.time < s.now :=
  ⟨0, 0, { time := 9, voter := false, ref := 1, frame := [] }, { live with launch := { queues := [(0, [{ time := 9, voter := false, ref := 1, frame := [] }])] }, tm := { live.tm with copies := [2 ^ 50, 2 ^ 50, 2 ^ 50] } }, by decide⟩

theorem wit_LaunchQueue_5 : ∃ (p : Nat) (err : Int) (s : State), (s.queue p = [] ∨ ∃ e, earliest (s.queue p) = some e ∧ s.now + 1300 + s.regN (Reg.tmLatOut (24 + p)) / 256 < e.time) :=
  ⟨0, 0, live, by decide⟩

/-! #### SensorFragments -/

theorem wit_SensorFragments_1 : ∃ (l stream format number index offset src bytes : Nat) (first last : Bool) (cap : Int) (payload : Bytes) (s : State), s.binding stream = none :=
  ⟨0, 7, 0, 0, 0, 0, 0, 0, true, true, 0, [], live, by decide⟩

theorem wit_SensorFragments_2 : ∃ (l stream format number src bytes : Nat) (cap : Int) (payload : Bytes) (b : Binding) (s : State), s.binding stream = some b ∧ b.lane = l ∧ (s.stream stream).asm = none ∧ bytes ≤ b.frameMax ∧ payload.length < bytes ∧ (s.stream stream).slots.length < 8 ∧ s.laneStopped l = false :=
  ⟨1, 7, 1, 0, 0, 64, 0, zeros 32, leatBinding (blob 64 [(8, 2, 1), (0x10, 4, 32), (32, 1, 7), (33, 1, 1), (36, 4, 64)]) 0, plan [mkSec 2 0 0 (blob 64 [(8, 2, 1), (0x10, 4, 32), (32, 1, 7), (33, 1, 1), (36, 4, 64)])] live, by decide⟩

theorem wit_SensorFragments_3 : ∃ (l stream format number src bytes : Nat) (cap : Int) (payload : Bytes) (b : Binding) (s : State), s.binding stream = some b ∧ b.lane = l ∧ (s.stream stream).asm = none ∧ bytes ≤ b.frameMax ∧ payload.length = bytes ∧ (s.stream stream).slots.length < 8 ∧ s.laneStopped l = false :=
  ⟨1, 7, 1, 0, 0, 32, 0, zeros 32, leatBinding (blob 64 [(8, 2, 1), (0x10, 4, 32), (32, 1, 7), (33, 1, 1), (36, 4, 64)]) 0, plan [mkSec 2 0 0 (blob 64 [(8, 2, 1), (0x10, 4, 32), (32, 1, 7), (33, 1, 1), (36, 4, 64)])] live, by decide⟩

theorem wit_SensorFragments_4 : ∃ (l stream format number src bytes : Nat) (last : Bool) (cap : Int) (payload : Bytes) (b : Binding) (s : State), s.binding stream = some b ∧ b.lane = l ∧ (s.stream stream).asm = none ∧ bytes ≤ b.frameMax ∧ 8 ≤ (s.stream stream).slots.length :=
  ⟨1, 7, 1, 0, 0, 64, true, 0, zeros 32, leatBinding (blob 64 [(8, 2, 1), (0x10, 4, 32), (32, 1, 7), (33, 1, 1), (36, 4, 64)]) 0, { plan [mkSec 2 0 0 (blob 64 [(8, 2, 1), (0x10, 4, 32), (32, 1, 7), (33, 1, 1), (36, 4, 64)])] live with sn := { streams := [(7, { slots := List.replicate 8 { number := 0, src := 0, port := 0, format := 1, data := [] } })] } }, by decide⟩

/-! #### SupplyAndHoldUp -/

theorem wit_SupplyAndHoldUp_1 : ∃ (v : Nat) (s : State), s.pw.motionOn = true ∧ s.pw.supply = .normal ∧ v < 3300 ∧ (s.pw.onHoldup = false ∨ s.pw.holdupLow = false) :=
  ⟨3299, live, by decide⟩

theorem wit_SupplyAndHoldUp_2 : ∃ (v : Nat) (s : State), s.pw.supply = .dip ∧ 3500 ≤ v ∧ v ≤ 8000 :=
  ⟨3500, { live with pw := { live.pw with supply := .dip } }, by decide⟩

theorem wit_SupplyAndHoldUp_3 : ∃ (v : Nat) (s : State), s.pw.supply = .recovering ∧ v < 3500 :=
  ⟨3499, { live with pw := { live.pw with supply := .recovering } }, by decide⟩

theorem wit_SupplyAndHoldUp_4 : ∃ (v lowest below left : Nat) (s : State), s.pw.supply = .recovering ∧ 3500 ≤ v ∧ v ≤ 8000 :=
  ⟨3500, 3000, 1, 900, { live with pw := { live.pw with supply := .recovering } }, by decide⟩

theorem wit_SupplyAndHoldUp_5 : ∃ (v : Nat) (s : State), s.pw.motionOn = true ∧ v < 2800 ∧ s.pw.holdupLow = false :=
  ⟨2799, live, by decide⟩

theorem wit_SupplyAndHoldUp_6 : ∃ (v left : Nat) (s : State), s.pw.onHoldup = true ∧ 2800 ≤ v ∧ v ≤ 8000 :=
  ⟨2800, 900, { live with pw := { live.pw with onHoldup := true } }, by decide⟩

theorem wit_SupplyAndHoldUp_7 : ∃ (left : Nat) (s : State), s.pw.motionOn = true ∧ s.pw.onHoldup = false :=
  ⟨400, live, by decide⟩

theorem wit_SupplyAndHoldUp_8 : ∃ (v : Nat) (s : State), s.pw.motionOn = true ∧ 6200 < v ∧ v ≤ 8000 :=
  ⟨6201, live, by decide⟩

theorem wit_SupplyAndHoldUp_9 : ∃ (v a b c : Nat) (cold : Bool) (s : State) (i : Instr), 8000 < v ∧ i ∈ [.supplyWarning v, .supplyRise v, .supplyFall v, .recoveryQualified v a b c, .holdupTakeover v, .holdupEnd v a, .supplyReset v, .startQualified v cold, .overVoltageNotice v] :=
  ⟨8001, 0, 0, 0, true, live, .supplyWarning 8001, by decide⟩

theorem wit_SupplyAndHoldUp_10 : ∃ (v : Nat) (c : Instr) (s : State), v ≤ 8000 ∧ c ∈ [.supplyWarning v, .holdupTakeover v] :=
  ⟨0, .supplyWarning 0, live, by decide⟩

theorem wit_SupplyAndHoldUp_11 : ∃ (v left : Nat) (c : Instr) (s : State), v ≤ 8000 ∧ c ∈ [.supplyRise v, .supplyFall v, .holdupEnd v left] :=
  ⟨0, 0, .supplyRise 0, live, by decide⟩

theorem wit_SupplyAndHoldUp_12 : ∃ (v lowest below left : Nat) (s : State), v ≤ 8000 :=
  ⟨0, 0, 0, 0, live, by decide⟩

theorem wit_SupplyAndHoldUp_14 : ∃ (v : Nat) (cold : Bool) (c : Instr) (s : State), v ≤ 8000 ∧ c ∈ [.overVoltageNotice v, .startQualified v cold] :=
  ⟨0, false, .overVoltageNotice 0, live, by decide⟩

/-! #### MotionRing -/

theorem wit_MotionRing_1 : ∃ (v : Nat) (s : State), s.gov.wheel.state = .standby ∧ 1 ≤ fldN v 6 0 ∧ fldN v 6 0 ≤ 64 ∧ 20 ≤ fldN v 15 8 ∧ fldN v 15 8 ≤ 250 ∧ 1 ≤ fldN v 18 16 ∧ fldN v 18 16 ≤ 4 :=
  ⟨0x16406, live, by decide⟩

theorem wit_MotionRing_2 : ∃ (v : Nat) (s : State), (s.gov.wheel.state ≠ .standby ∨ fldN v 6 0 = 0 ∨ 64 < fldN v 6 0 ∨ fldN v 15 8 < 20 ∨ 250 < fldN v 15 8 ∨ fldN v 18 16 = 0 ∨ 4 < fldN v 18 16) :=
  ⟨0, live, by decide⟩

theorem wit_MotionRing_3 : ∃ (tick copy port traversal : Nat) (slots : List (Nat × DriveSlot)) (s : State), (tick, copy) ∈ s.mr.launched ∧ port < 2 ∧ s.mr.copies.any (fun c => c.tick = tick && c.copy = copy) = false ∧ traversal ≤ 1000 * s.applyUs + 10000 :=
  ⟨5, 0, 1, 1000, [], { live with mr := { launched := [(5, 0)] } }, by decide⟩

theorem wit_MotionRing_4 : ∃ (tick copy port traversal : Nat) (slots : List (Nat × DriveSlot)) (s : State), (tick, copy) ∉ s.mr.launched :=
  ⟨5, 0, 1, 1000, [], live, by decide⟩

theorem wit_MotionRing_5 : ∃ (tick : Nat) (s : State), (∃ c, (tick, c) ∈ s.mr.launched) :=
  ⟨5, { live with mr := { launched := [(5, 0)] } }, 0, by decide⟩

/-! #### ShutdownEntersSto -/

theorem wit_ShutdownEntersSto_1 : ∃ (v : Nat) (s : State), s.pw.motionOn = true ∧ (s.pw.supply = .dip ∨ s.pw.supply = .recovering) ∧ v < 2800 :=
  ⟨2700, { live with pw := { live.pw with supply := .dip } }, by decide⟩

theorem wit_ShutdownEntersSto_2 : ∃ (v : Nat) (s : State), s.pw.motionOn = true ∧ s.pw.holdupLow = true ∧ (s.pw.supply = .dip ∨ s.pw.supply = .recovering) ∧ v < 2800 :=
  ⟨2799, { live with pw := { live.pw with supply := .recovering, holdupLow := true } }, by decide⟩

theorem wit_ShutdownEntersSto_3 : ∃ (left : Nat) (s : State), s.pw.motionOn = true ∧ s.pw.onHoldup = true ∧ (s.pw.supply = .dip ∨ s.pw.supply = .recovering) ∧ left < 450 :=
  ⟨449, { live with pw := { live.pw with supply := .dip, onHoldup := true } }, by decide⟩

theorem wit_ShutdownEntersSto_4 : ∃ (x : Int) (s : State), s.pw.motionOn = true ∧ s.pw.supply ≠ .shutdown ∧ 1150 ≤ x :=
  ⟨1150, live, by decide⟩

theorem wit_ShutdownEntersSto_5 : ∃ (lowest below left : Nat) (s : State), s.pw.supply = .shutdown ∧ s.pw.motionOn = true ∧ (s.gov.sec = none ∨ 24 ≤ s.gov.stoFrames ∨ 8 ≤ s.gov.stoFrames ∧ 2 ≤ s.gov.stoActive) :=
  ⟨0, 0, 0, { live with pw := { live.pw with supply := .shutdown }, gov := { live.gov with stoFrames := 24 } }, by decide⟩

theorem wit_ShutdownEntersSto_6 : ∃ (v : Nat) (cold : Bool) (s : State), s.pw.motionOn = false ∧ s.pw.motionHot = false ∧ 3600 ≤ v ∧ v ≤ 8000 :=
  ⟨3600, true, { live with pw := { live.pw with motionOn := false } }, by decide⟩

theorem wit_ShutdownEntersSto_7 : ∃ (v : Nat) (s : State), s.pw.motionOn = true ∧ s.pw.supply = .normal ∧ s.pw.onHoldup = true ∧ s.pw.holdupLow = true ∧ v < 3300 :=
  ⟨3299, { live with pw := { live.pw with onHoldup := true, holdupLow := true } }, by decide⟩

theorem wit_ShutdownEntersSto_8 : ∃ (v : Nat) (s : State), v ≤ 8000 :=
  ⟨0, live, by decide⟩

/-! #### ThrottleAndThermal -/

theorem wit_ThrottleAndThermal_1 : ∃ (p : Nat) (f m c : Int) (s : State), s.pw.motionOn = true :=
  ⟨1700, 400, 400, 300, live, by decide⟩

theorem wit_ThrottleAndThermal_3 : ∃ (x : Int) (s : State), s.pw.motionOn = true ∧ s.pw.thermal = .normal ∧ 1000 ≤ x :=
  ⟨1000, live, by decide⟩

theorem wit_ThrottleAndThermal_4 : ∃ (x : Int) (s : State), s.pw.motionOn = true ∧ s.pw.thermal ≠ .fabricHeld ∧ 1100 ≤ x :=
  ⟨1100, live, by decide⟩

theorem wit_ThrottleAndThermal_5 : ∃ (x : Int) (s : State), (s.pw.thermal = .throttling ∧ x < 950 ∨ s.pw.thermal = .fabricHeld ∧ x < 900) :=
  ⟨949, { live with pw := { live.pw with thermal := .throttling } }, by decide⟩

theorem wit_ThrottleAndThermal_6 : ∃ (x : Int) (s : State), x < 950 :=
  ⟨949, live, by decide⟩

theorem wit_ThrottleAndThermal_7 : ∃ (p : Nat) (fabric motion face t1 : Int) (c : Instr) (s : State), c ∈ [.throttleUpdate p fabric motion face, .thermalThrottle t1] :=
  ⟨0, 0, 0, 0, 0, .throttleUpdate 0 0 0 0, live, by decide⟩

/-! #### ClockFailures -/

theorem wit_ClockFailures_1 : ∃ (u : Nat) (s : State), s.pw.motionOn = true :=
  ⟨0, live, by decide⟩

theorem wit_ClockFailures_2 : ∃ (s : State), s.pw.motionOn = true :=
  ⟨live, by decide⟩

theorem wit_ClockFailures_3 : ∃ (p : Bool) (s : State), s.pw.clockFailed = true ∧ s.pw.motionOn = false ∧ s.pw.motionHot = false :=
  ⟨true, { live with pw := { live.pw with clockFailed := true, motionOn := false } }, by decide⟩

theorem wit_ClockFailures_4 : ∃ (u : Nat) (s : State), s.pw.motionOn = true :=
  ⟨0, live, by decide⟩

theorem wit_ClockFailures_5 : ∃ (u : Nat) (s : State), s.pw.motionOn = true ∧ u < 6 :=
  ⟨5, live, by decide⟩

theorem wit_ClockFailures_6 : ∃ (u : Nat) (s : State), s.pw.motionOn = true ∧ u < 24 :=
  ⟨23, live, by decide⟩

theorem wit_ClockFailures_7 : ∃ (a b c : Nat) (s : State), s.pw.fabricOn = true ∧ has s.ck.held 4 = false :=
  ⟨0, 0, 0, live, by decide⟩

theorem wit_ClockFailures_8 : ∃ (s : State), s.pw.fabricOn = true ∧ has s.ck.held 4 = false :=
  ⟨live, by decide⟩

theorem wit_ClockFailures_9 : ∃ (c x : Nat) (s : State), s.pw.motionOn = true ∧ c < 3 ∧ has s.ck.held (c + 1) = false ∧ (s.lane c).state = .inService :=
  ⟨2, 1, live, by decide⟩

theorem wit_ClockFailures_11 : ∃ (station ch stack : Nat) (c : Instr) (s : State), c ∈ [.hbmStackFailure station ch stack, .parcelHeaderError] :=
  ⟨0, 0, 0, .hbmStackFailure 0 0 0, live, by decide⟩

/-! #### DomainResets -/

theorem wit_DomainResets_1 : ∃ (d : Nat) (s : State), s.pw.motionOn = true ∧ (d = 7 ∨ d = 8 ∨ 16 ≤ d ∧ d < 40 ∨ 48 ≤ d ∧ d < 64) :=
  ⟨63, live, by decide⟩

theorem wit_DomainResets_2 : ∃ (l : Nat) (s : State), s.pw.motionOn = true ∧ l < 3 ∧ has s.ck.held (l + 1) = false ∧ (s.lane l).state = .inService :=
  ⟨2, live, by decide⟩

theorem wit_DomainResets_3 : ∃ (s : State), s.pw.fabricOn = true ∧ has s.ck.held 4 = false :=
  ⟨live, by decide⟩

theorem wit_DomainResets_4 : ∃ (d : Nat) (s : State), d ≠ 4 ∧ d ≠ 127 ∧ has s.ck.held d = true ∧ (has s.ck.held 4 = false ∨ has fabricGroup d = false) :=
  ⟨32, { live with ck := { live.ck with held := [32] } }, by decide⟩

theorem wit_DomainResets_5 : ∃ (s : State), has s.ck.held 4 = true ∧ s.pw.fabricOn = true ∧ s.pw.thermal ≠ .fabricHeld :=
  ⟨{ live with ck := { live.ck with held := [4] } }, by decide⟩

theorem wit_DomainResets_6 : ∃ (v : Nat) (s : State), s.pw.resetBusy = true :=
  ⟨32, { live with pw := { live.pw with resetBusy := true } }, by decide⟩

theorem wit_DomainResets_7 : ∃ (v : Nat) (s : State), s.pw.resetBusy = false ∧ v % 128 ≠ 127 ∧ (¬(16 ≤ v % 128 ∧ v % 128 < 40)) ∧ (¬(48 ≤ v % 128 ∧ v % 128 < 64)) :=
  ⟨4, live, by decide⟩

theorem wit_DomainResets_8 : ∃ (v : Nat) (s : State), s.pw.resetBusy = false ∧ (32 ≤ v % 128 ∧ v % 128 < 40 ∨ 48 ≤ v % 128 ∧ v % 128 < 60 ∨ 60 ≤ v % 128 ∧ v % 128 < 64 ∧ s.gov.wheel.state = .standby ∨ 16 ≤ v % 128 ∧ v % 128 < 32 ∧ ((s.mill (v % 128 - 16)).state = .empty ∨ (s.mill (v % 128 - 16)).state = .evacuated)) :=
  ⟨59, live, by decide⟩

theorem wit_DomainResets_9 : ∃ (d : Nat) (s : State), s.pw.motionOn = true ∧ 16 ≤ d ∧ d < 32 ∧ has s.ck.held d = false ∧ s.loader.state = .swapping ∧ s.replaces (d - 16) = true :=
  ⟨16, { (live.setMill 0 { state := .closed, sec := some (mkSec 1 0 0 []) }) with loader := { staged := some { replacement := true, sections := [(mkSec 1 0 0 [])] }, state := .swapping, step := 1 } }, by decide⟩

/-! #### BringUp -/

theorem wit_BringUp_1 : ∃ (bad : Nat) (s : State), s.pw.motionOn = true ∧ s.pw.stuck = false ∧ s.pw.supply ≠ .shutdown ∧ 1 ≤ s.pw.stage ∧ s.pw.stage ≤ 6 ∧ (s.pw.stage = 1 → s.pw.refAbsent = false) :=
  ⟨0, { live with pw := { live.pw with stage := 1 } }, by decide⟩

theorem wit_BringUp_2 : ∃ (bad : Nat) (s : State), s.pw.motionOn = true ∧ s.pw.stuck = true :=
  ⟨0, { live with pw := { live.pw with stuck := true } }, by decide⟩

theorem wit_BringUp_3 : ∃ (s : State), s.pw.motionOn = true ∧ 1 ≤ s.pw.stage ∧ s.pw.stage ≤ 7 :=
  ⟨{ live with pw := { live.pw with stage := 7 } }, by decide⟩

/-! #### RecordsEnter -/

theorem wit_RecordsEnter_1 : ∃ (r : Rec) (rest : List Rec) (s : State), s.ev.pendingLive = r :: rest :=
  ⟨{ seq := 1, opSeconds := 0, powerCycles := 0, timeNs := 0, channel := 62, status := 0, context := 255, flags := 0, source := 0, event := 1, detail := [] }, [], { live with ev := { pendingLive := [{ seq := 1, opSeconds := 0, powerCycles := 0, timeNs := 0, channel := 62, status := 0, context := 255, flags := 0, source := 0, event := 1, detail := [] }] } }, by decide⟩

theorem wit_RecordsEnter_2 : ∃ (r : Rec) (rest : List Rec) (s : State), s.ev.buffer = r :: rest ∧ s.pw.fabricOn = true ∧ s.pw.fabricPaused = false ∧ has s.ck.held 4 = false ∧ s.storeUp = true :=
  ⟨{ seq := 1, opSeconds := 0, powerCycles := 0, timeNs := 0, channel := 62, status := 0, context := 255, flags := 0, source := 0, event := 1, detail := [] }, [], { live with ev := { buffer := [{ seq := 1, opSeconds := 0, powerCycles := 0, timeNs := 0, channel := 62, status := 0, context := 255, flags := 0, source := 0, event := 1, detail := [] }] } }, by decide⟩

theorem wit_RecordsEnter_3 : ∃ (s : State), (s.pw.fabricPaused = true ∨ has s.ck.held 4 = true ∨ s.storeUp = false) :=
  ⟨{ live with pw := { live.pw with fabricPaused := true } }, by decide⟩

theorem wit_RecordsEnter_4 : ∃ (ch n : Nat) (s : State), Tbl.find s.ev.coalesce ch = some n ∧ 0 < n ∧ s.ev.buffer.length < 3840 :=
  ⟨1, 2, { live with ev := { coalesce := [(1, 2)] } }, by decide⟩

theorem wit_RecordsEnter_6 : ∃ (ch : Nat) (c : Instr) (s : State), c ∈ [.liveRecordEnter, .coalescedRecord ch] :=
  ⟨0, .liveRecordEnter, live, by decide⟩

theorem wit_RecordsEnter_7 : ∃ (c : Instr) (s : State), c ∈ [.recordFlush, .opSecondsSave] :=
  ⟨.recordFlush, live, by decide⟩

/-! #### RecordWindows -/

theorem wit_RecordWindows_1 : ∃ (v : Nat) (s : State), (s.latch 64).busy = false :=
  ⟨0, live, by decide⟩

theorem wit_RecordWindows_2 : ∃ (v : Nat) (s : State), (s.latch 64).busy = true :=
  ⟨0, { live with ev := { latches := [(64, { busy := true })] } }, by decide⟩

theorem wit_RecordWindows_3 : ∃ (ctx v : Nat) (s : State), ctx < 64 ∧ (s.latch ctx).busy = false :=
  ⟨63, 0, live, by decide⟩

theorem wit_RecordWindows_4 : ∃ (k : Nat) (s : State), (s.latch k).busy = true :=
  ⟨64, { live with ev := { latches := [(64, { busy := true })] } }, by decide⟩

/-! #### CaptureAndAttestation -/

theorem wit_CaptureAndAttestation_1 : ∃ (idx : Nat) (r : Request) (s : State), s.memOk ∧ s.mbRequest idx 0x10 = some r ∧ 1 ≤ leAt r.body 8 4 ∧ leAt r.body 8 4 ≤ 524288 ∧ leAt r.body 12 4 % 64 = 0 ∧ leAt r.body 12 4 + 64 * leAt r.body 8 4 ≤ dataBytes :=
  ⟨0, (req 64 0 0x10 (blob 32 [(8, 4, 1)])), asks (req 64 0 0x10 (blob 32 [(8, 4, 1)])) live, by decide⟩

theorem wit_CaptureAndAttestation_2 : ∃ (idx : Nat) (r : Request) (s : State), s.memOk ∧ s.mbRequest idx 0x11 = some r ∧ (leAt r.body 0 1 = 1 ∨ leAt r.body 0 1 = 2) ∧ leAt r.body 4 4 + 64 ≤ dataBytes ∧ s.lifecycle ≠ 0 :=
  ⟨0, (req 64 0 0x11 (blob 32 [(0, 1, 1)])), asks (req 64 0 0x11 (blob 32 [(0, 1, 1)])) live, by decide⟩

theorem wit_CaptureAndAttestation_3 : ∃ (idx : Nat) (r : Request) (s : State), s.memOk ∧ s.mbRequest idx 0x1B = some r ∧ leAt r.body 0 4 + 64 ≤ dataBytes ∧ s.lifecycle ≠ 0 :=
  ⟨0, (req 64 0 0x1B (zeros 32)), asks (req 64 0 0x1B (zeros 32)) live, by decide⟩

theorem wit_CaptureAndAttestation_4 : ∃ (idx g gen : Nat) (r : Request) (y : OtpGen) (s : State), s.memOk ∧ s.mbRequest idx 0x1D = some r ∧ g = leAt r.body 0 1 ∧ g < 8 ∧ gen = leAt r.body 1 1 ∧ 1 ≤ gen ∧ gen ≤ 4 ∧ leAt r.body 4 4 + otpBytes g ≤ dataBytes ∧ Tbl.find (s.otp g).gens gen = some y ∧ y.marker = true ∧ y.crcOk = true :=
  ⟨0, 1, 1, (req 64 0 0x1D (blob 32 [(0, 1, 1), (1, 1, 1)])), { consumed := true, marker := true, data := [1] }, asks (req 64 0 0x1D (blob 32 [(0, 1, 1), (1, 1, 1)])) live, by decide⟩

theorem wit_CaptureAndAttestation_5 : ∃ (idx : Nat) (r : Request) (s : State), s.memOk ∧ s.mbRequest idx 0x19 = some r :=
  ⟨0, (req 64 0 0x19 (zeros 32)), asks (req 64 0 0x19 (zeros 32)) live, by decide⟩

theorem wit_CaptureAndAttestation_6 : ∃ (idx : Nat) (r : Request) (s : State), s.memOk ∧ s.mbRequest idx 0x18 = some r ∧ s.loader.state = .idle ∧ s.sec.update.phase = .idle ∧ leAt r.body 16 4 + (s.report (r.body.take 16)).length + 96 ≤ dataBytes :=
  ⟨0, (req 64 0 0x18 (zeros 32)), asks (req 64 0 0x18 (zeros 32)) live, by decide +kernel⟩

theorem wit_CaptureAndAttestation_7 : ∃ (idx : Nat) (s : State), (s.loader.state ≠ .idle ∨ s.sec.update.phase ≠ .idle) :=
  ⟨0, { live with loader := { state := .copying } }, by decide⟩

theorem wit_CaptureAndAttestation_8 : ∃ (idx : Nat) (c : Instr) (s : State), c ∈ [.evCapture idx, .otpRead idx, .certRead idx, .attest idx] :=
  ⟨0, .evCapture 0, live, by decide⟩

theorem wit_CaptureAndAttestation_9 : ∃ (idx : Nat) (c : Instr) (s : State), c ∈ [.challenge idx, .otpChallenge idx] :=
  ⟨0, .challenge 0, live, by decide⟩

/-! #### TokensDecide -/

theorem wit_TokensDecide_1 : ∃ (idx : Nat) (r : Request) (s : State), s.mbRequest idx 0x12 = some r ∧ leAt r.body 0 4 + leAt r.body 4 4 ≤ dataBytes ∧ s.lifecycle = 1 :=
  ⟨0, (req 64 0 0x12 (blob 32 [(4, 4, 232)])), asks (req 64 0 0x12 (blob 32 [(4, 4, 232)])) live, by decide⟩

theorem wit_TokensDecide_2 : ∃ (idx : Nat) (r : Request) (s : State), s.mbRequest idx 0x13 = some r ∧ r.begun = false ∧ leAt r.body 0 4 + leAt r.body 4 4 ≤ dataBytes ∧ s.lifecycle = 1 ∧ (s.otp 1).consumed < 4 ∧ s.gov.wheel.state = .standby ∧ s.loader.loaded = none ∧ s.pw.supply = .normal ∧ s.pw.holdupLow = false :=
  ⟨0, (req 64 0 0x13 (blob 32 [(4, 4, 392)])), asks (req 64 0 0x13 (blob 32 [(4, 4, 392)])) live, by decide⟩

theorem wit_TokensDecide_3 : ∃ (idx : Nat) (r : Request) (s : State), s.mbRequest idx 0x1C = some r ∧ r.begun = false ∧ leAt r.body 0 4 + leAt r.body 4 4 ≤ dataBytes ∧ s.lifecycle = 1 ∧ s.pw.supply = .normal ∧ s.pw.holdupLow = false :=
  ⟨0, (req 64 0 0x1C (blob 32 [(4, 4, 392)])), asks (req 64 0 0x1C (blob 32 [(4, 4, 392)])) live, by decide⟩

/-! #### OtpProgramming -/

theorem wit_OtpProgramming_1 : ∃ (j : OtpJob) (q : List OtpJob) (s : State), s.sec.otpQueue = j :: q ∧ s.sec.otpRunning = false ∧ s.pw.supply = .normal ∧ s.pw.holdupLow = false ∧ (s.otp j.group).consumed < 4 :=
  ⟨{ group := 4, data := [1], req := none }, [], { live with sec := { live.sec with otpQueue := [{ group := 4, data := [1], req := none }] } }, by decide⟩

theorem wit_OtpProgramming_2 : ∃ (s : State), (s.pw.supply ≠ .normal ∨ s.pw.holdupLow = true) :=
  ⟨{ live with pw := { live.pw with supply := .dip } }, by decide⟩

theorem wit_OtpProgramming_3 : ∃ (j : OtpJob) (q : List OtpJob) (s : State), s.sec.otpQueue = j :: q ∧ s.sec.otpRunning = true :=
  ⟨{ group := 4, data := [1], req := none }, [], { live with sec := { live.sec with otpQueue := [{ group := 4, data := [1], req := none }], otpRunning := true } }, by decide⟩

/-! #### FirmwareUpdate -/

theorem wit_FirmwareUpdate_1 : ∃ (idx cls off len : Nat) (r : Request) (s : State), s.fwRequest idx 1 = some r ∧ cls = leAt r.body 1 1 ∧ 1 ≤ cls ∧ cls ≤ 5 ∧ off = leAt r.body 4 4 ∧ off % 65536 = 0 ∧ len = leAt r.body 8 4 ∧ 256 ≤ len ∧ len ≤ fwLimit cls ∧ off + len ≤ 0x4000000 ∧ s.sec.update.phase = .idle :=
  ⟨0, 1, 0, 256, (req 64 0 0x1A (blob 32 [(0, 1, 1), (1, 1, 1), (8, 4, 256)])), asks (req 64 0 0x1A (blob 32 [(0, 1, 1), (1, 1, 1), (8, 4, 256)])) live, by decide⟩

theorem wit_FirmwareUpdate_2 : ∃ (idx u : Nat) (r : Request) (s : State), s.fwRequest idx 2 = some r ∧ s.sec.update.staged = true ∧ s.sec.update.phase = .idle ∧ leAt r.body 1 1 = s.sec.update.cls ∧ s.pw.recovery = false ∧ u = s.fwNext s.sec.update.cls 16 0 ∧ u < fwUnits s.sec.update.cls :=
  ⟨0, 0, (req 64 0 0x1A (blob 32 [(0, 1, 2), (1, 1, 4)])), asks (req 64 0 0x1A (blob 32 [(0, 1, 2), (1, 1, 4)])) { live with sec := { live.sec with update := { staged := true, cls := 4 } } }, by decide⟩

theorem wit_FirmwareUpdate_3 : ∃ (idx : Nat) (r : Request) (s : State), s.fwRequest idx 2 = some r ∧ s.sec.update.staged = true ∧ s.sec.update.phase = .idle ∧ leAt r.body 1 1 = s.sec.update.cls ∧ (s.pw.recovery = true ∨ fwUnits s.sec.update.cls ≤ s.fwNext s.sec.update.cls 16 0) :=
  ⟨0, (req 64 0 0x1A (blob 32 [(0, 1, 2), (1, 1, 4)])), asks (req 64 0 0x1A (blob 32 [(0, 1, 2), (1, 1, 4)])) { live with pw := { live.pw with recovery := true }, sec := { live.sec with update := { staged := true, cls := 4 } } }, by decide⟩

theorem wit_FirmwareUpdate_4 : ∃ (s : State), s.sec.update.phase = .apply ∧ s.sec.update.rollback = false ∧ s.pw.fabricPaused = false ∧ s.sec.update.cls ≠ 3 ∧ s.fwSkips s.sec.update.cls s.sec.update.unit = false ∧ s.fwReady = true ∧ s.sec.update.unit < fwUnits s.sec.update.cls :=
  ⟨{ live with sec := { live.sec with update := { phase := .apply, cls := 4 } } }, by decide⟩

theorem wit_FirmwareUpdate_5 : ∃ (ok : Bool) (s : State), s.sec.update.phase = .apply ∧ s.sec.update.rollback = false ∧ s.pw.fabricPaused = false ∧ s.fwSkips s.sec.update.cls s.sec.update.unit = true ∧ s.fwNext s.sec.update.cls 16 (s.sec.update.unit + 1) < fwUnits s.sec.update.cls :=
  ⟨true, { (live.setMill 3 { state := .run }) with sec := { live.sec with update := { phase := .apply, cls := 1 } } }, by decide⟩

theorem wit_FirmwareUpdate_6 : ∃ (s : State), s.sec.update.phase = .apply ∧ s.sec.update.rollback = false ∧ s.pw.fabricPaused = false ∧ s.fwSkips s.sec.update.cls s.sec.update.unit = false :=
  ⟨{ live with sec := { live.sec with update := { phase := .apply, cls := 4, repeated := true } } }, by decide⟩

theorem wit_FirmwareUpdate_7 : ∃ (ok : Bool) (k : Nat) (rest : List Nat) (s : State), s.sec.update.phase = .apply ∧ s.sec.update.rollback = true ∧ s.pw.fabricPaused = false ∧ s.sec.update.done = k :: rest ∧ s.fwReady = true :=
  ⟨false, 0, [], { live with sec := { live.sec with update := { phase := .apply, cls := 4, rollback := true, done := [0] } } }, by decide⟩

theorem wit_FirmwareUpdate_8 : ∃ (idx : Nat) (r : Request) (s : State), s.fwRequest idx 3 = some r ∧ (s.sec.update.staged = true ∨ s.sec.update.phase = .apply) :=
  ⟨0, (req 64 0 0x1A (blob 32 [(0, 1, 3)])), asks (req 64 0 0x1A (blob 32 [(0, 1, 3)])) { live with sec := { live.sec with update := { staged := true } } }, by decide⟩

theorem wit_FirmwareUpdate_11 : ∃ (ok : Bool) (idx : Nat) (c : Instr) (s : State), c ∈ [.fwUnitDone ok, .fwAbort idx] :=
  ⟨false, 0, .fwUnitDone false, live, by decide⟩

/-! #### PortsRetrain -/

theorem wit_PortsRetrain_1 : ∃ (p : Nat) (s : State), p < 24 ∧ has s.ev.portDown p = false ∧ Tbl.find s.ev.retraining (retrainGroup p) = none :=
  ⟨23, live, by decide⟩

theorem wit_PortsRetrain_2 : ∃ (p k : Nat) (s : State), p < 24 ∧ has s.ev.portDown p = false ∧ Tbl.find s.ev.retraining (retrainGroup p) = some k ∧ k ≠ p :=
  ⟨1, 0, { live with ev := { retraining := [(retrainGroup 1, 0)] } }, by decide⟩

theorem wit_PortsRetrain_3 : ∃ (p : Nat) (s : State), (p = 24 ∧ s.mr.link1 = false ∨ p = 25 ∧ s.mr.link0 = false) ∧ has s.ev.portDown p = false ∧ Tbl.find s.ev.retraining 3 = none :=
  ⟨24, live, by decide⟩

theorem wit_PortsRetrain_4 : ∃ (p : Nat) (s : State), p < 26 ∧ Tbl.find s.ev.retraining (retrainGroup p) = some p ∧ s.ev.retrainWait = [] :=
  ⟨25, { live with ev := { retraining := [(retrainGroup 25, 25)] } }, by decide⟩

theorem wit_PortsRetrain_5 : ∃ (p : Nat) (s : State), p < 26 ∧ Tbl.find s.ev.retraining (retrainGroup p) = some p ∧ s.ev.retrainWait = [] ∧ 2 ≤ ((Tbl.getD s.ev.retrainFails p []).filter (fun x => s.now - x < 600000000000)).length :=
  ⟨0, { live with ev := { retraining := [(retrainGroup 0, 0)], retrainFails := [(0, [0, 0])] } }, by decide⟩

/-! #### PortsAndPairings -/

theorem wit_PortsAndPairings_1 : ∃ (v : Nat) (s : State), (∀ p, p < 8 → s.pxOn p = false) :=
  ⟨5, live, by decide⟩

theorem wit_PortsAndPairings_2 : ∃ (v p : Nat) (s : State), p < 8 ∧ s.pxOn p = true :=
  ⟨5, 0, setR (Reg.pxPortCfg 0) 1 live, by decide⟩

theorem wit_PortsAndPairings_3 : ∃ (p v : Nat) (s : State), p < 8 ∧ v % 2 = 1 ∧ s.pxOn p = false :=
  ⟨7, 1, live, by decide⟩

theorem wit_PortsAndPairings_4 : ∃ (p v : Nat) (s : State), p < 8 ∧ v % 2 = 0 :=
  ⟨0, 0, live, by decide⟩

theorem wit_PortsAndPairings_5 : ∃ (m v : Nat) (s : State), m < 1024 ∧ (s.peer m).state = .down :=
  ⟨1023, 4, live, by decide⟩

theorem wit_PortsAndPairings_6 : ∃ (p : Nat) (s : State), p < 26 :=
  ⟨25, live, by decide⟩

theorem wit_PortsAndPairings_7 : ∃ (p : Nat) (s : State), p < 26 :=
  ⟨0, live, by decide⟩

theorem wit_PortsAndPairings_8 : ∃ (p mask : Nat) (s : State), p < 8 ∧ s.pxOn p = true ∧ bitN (s.regN (Reg.pxPortCfg p)) 2 = true :=
  ⟨0, 64, setR (Reg.pxPortCfg 0) 5 live, by decide⟩

theorem wit_PortsAndPairings_9 : ∃ (p : Nat) (s : State), p < 8 :=
  ⟨7, live, by decide⟩

theorem wit_PortsAndPairings_12 : ∃ (m v p mask : Nat) (c : Instr) (s : State), c ∈ [.pxPeerWrite m v, .pfcReceive p mask] :=
  ⟨0, 0, 0, 0, .pxPeerWrite 0 0, live, by decide⟩

/-! #### HellosAndLoss -/

theorem wit_HellosAndLoss_1 : ∃ (m : Nat) (s : State), ((s.peer m).state = .joining ∨ (s.peer m).state = .up) ∧ s.pxOn (s.peer m).port = true ∧ has s.px.linkUp (s.peer m).port = true :=
  ⟨5, { setR (Reg.pxPortCfg 0) 1 (live) with px := { linkUp := [0], peers := [(5, { valid := true, state := .up, session := 3, expected := 4, credit := [(0, 9), (1, 9)] })] } }, by decide⟩

theorem wit_HellosAndLoss_2 : ∃ (p m dst own echo : Nat) (s : State), p < 8 ∧ s.pxOn p = true ∧ has s.px.linkUp p = true ∧ fldN dst 9 0 = s.moduleId ∧ (s.peer m).port = p ∧ (s.peer m).state = .joining ∧ echo = (s.peer m).session ∧ (s.grant p 0 + s.grant p 1 + s.grant p 2 + s.grant p 3) * ((s.peersUp p).length + 2) ≤ 4096 :=
  ⟨0, 5, 0, 7, 3, { setR (Reg.pxPortCfg 0) 1 (live) with px := { linkUp := [0], peers := [(5, { valid := true, state := .joining, session := 3 })] } }, by decide⟩

theorem wit_HellosAndLoss_3 : ∃ (p m dst own echo : Nat) (s : State), p < 8 ∧ s.pxOn p = true ∧ has s.px.linkUp p = true ∧ fldN dst 9 0 = s.moduleId ∧ (s.peer m).port = p ∧ (s.peer m).state = .joining ∧ echo ≠ (s.peer m).session :=
  ⟨0, 5, 0, 7, 4, { setR (Reg.pxPortCfg 0) 1 (live) with px := { linkUp := [0], peers := [(5, { valid := true, state := .joining, session := 3 })] } }, by decide⟩

theorem wit_HellosAndLoss_4 : ∃ (p m dst own echo : Nat) (s : State), p < 8 ∧ s.pxOn p = true ∧ has s.px.linkUp p = true ∧ fldN dst 9 0 = s.moduleId ∧ (s.peer m).port = p ∧ (s.peer m).state = .up ∧ own ≠ (s.peer m).expected :=
  ⟨0, 5, 0, 7, 3, { setR (Reg.pxPortCfg 0) 1 (live) with px := { linkUp := [0], peers := [(5, { valid := true, state := .up, session := 3, expected := 4, credit := [(0, 9), (1, 9)] })] } }, by decide⟩

theorem wit_HellosAndLoss_5 : ∃ (m : Nat) (s : State) (c : Instr), (s.peer m).port < 8 ∧ (s.peer m).state = .up ∧ c ∈ [.peerTimeout m, .peerLost m 1, .peerLost m 2, .peerLost m 3, .peerLost m 4] :=
  ⟨5, { setR (Reg.pxPortCfg 0) 1 (live) with px := { linkUp := [0], peers := [(5, { valid := true, state := .up, session := 3, expected := 4, credit := [(0, 9), (1, 9)] })] } }, .peerTimeout 5, by decide⟩

theorem wit_HellosAndLoss_6 : ∃ (p m : Nat) (f : PxFrame) (s : State), p < 8 ∧ s.pxOn p = true ∧ has s.px.linkUp p = true ∧ fldN f.dst 9 0 = s.moduleId ∧ (s.peer m).port = p ∧ (s.peer m).state = .up ∧ f.session = (s.peer m).expected :=
  ⟨0, 5, { kind := 4, session := 4 }, { setR (Reg.pxPortCfg 0) 1 (live) with px := { linkUp := [0], peers := [(5, { valid := true, state := .up, session := 3, expected := 4, credit := [(0, 9), (1, 9)] })] } }, by decide⟩

theorem wit_HellosAndLoss_7 : ∃ (m : Nat) (s : State), (s.peer m).port < 8 ∧ (s.peer m).state = .up ∧ (s.peer m).freed.any (fun e => e.2 ≠ 0) = true :=
  ⟨5, { setR (Reg.pxPortCfg 0) 1 (live) with px := { linkUp := [0], peers := [(5, { valid := true, state := .up, freed := [(0, 1)] })] } }, by decide⟩

theorem wit_HellosAndLoss_9 : ∃ (p m dst own echo cause : Nat) (f : PxFrame) (c : Instr) (s : State), c ∈ [.helloReceive p m dst own echo, .peerTimeout m, .peerLost m cause, .creditReceive p m f] :=
  ⟨0, 0, 0, 0, 0, 0, { kind := 4, session := 4 }, .helloReceive 0 0 0 0 0, live, by decide⟩

/-! #### RemoteAccesses -/

theorem wit_RemoteAccesses_1 : ∃ (m c : Nat) (f : PxFrame) (s : State), s.px.tx.find? (fun e => e.1 = m && e.2.cls = c) = some (m, f) ∧ s.canSend m f = true :=
  ⟨5, 0, { kind := 1, session := 4, address := 0x10001000000, length := 1, payload := [5] }, { setR (Reg.pxPortCfg 0) 1 live with px := { linkUp := [0], peers := [(5, { valid := true, state := .up, credit := [(0, 9)] })], tx := [(5, { kind := 1, session := 4, address := 0x10001000000, length := 1, payload := [5] })] } }, by decide⟩

theorem wit_RemoteAccesses_2 : ∃ (m c : Nat) (s : State), (s.peer m).state ≠ .up :=
  ⟨5, 0, live, by decide⟩

theorem wit_RemoteAccesses_3 : ∃ (p m : Nat) (f : PxFrame) (s : State), s.memOk ∧ p < 8 ∧ s.pxOn p = true ∧ has s.px.linkUp p = true ∧ fldN f.dst 9 0 = s.moduleId ∧ (s.peer m).port = p ∧ (s.peer m).state = .up ∧ f.session = (s.peer m).expected ∧ f.seq = cget (s.peer m).rxSeq f.cls ∧ s.passesAtOnce p m f ∧ s.noDescs f.address f.length ∧ 1 ≤ f.length ∧ f.length ≤ 8192 ∧ f.payload.length = f.length ∧ s.pw.fabricPaused = false ∧ s.remoteStatus f.ctx f.address f.length = 0 :=
  ⟨0, 5, { kind := 1, session := 4, address := 0x10001000000, length := 1, payload := [5] }, { setR (Reg.pxPortCfg 0) 1 (live) with px := { linkUp := [0], peers := [(5, { valid := true, state := .up, session := 3, expected := 4, credit := [(0, 9), (1, 9)] })] } , tiers := { live.tiers with runs := [{ first := 0, pages := 1024, ctx := 0, kind := .alloc }] }, leat := { rows := [(rowKey 31 0, 2 ^ 9)], tokens := [(rowKey 31 0, 8192)] } }, by decide⟩

theorem wit_RemoteAccesses_4 : ∃ (p m : Nat) (f : PxFrame) (s : State), p < 8 ∧ s.pxOn p = true ∧ has s.px.linkUp p = true ∧ fldN f.dst 9 0 = s.moduleId ∧ (s.peer m).port = p ∧ (s.peer m).state = .up ∧ f.session = (s.peer m).expected ∧ f.seq = cget (s.peer m).rxSeq f.cls ∧ s.passesAtOnce p m f ∧ 1 ≤ f.length ∧ f.length ≤ 8192 ∧ s.pw.fabricPaused = false ∧ s.remoteStatus f.ctx f.address f.length = 0 ∧ s.poisonedIn f.address f.length = false :=
  ⟨0, 5, { kind := 1, session := 4, address := 0x10001000000, length := 1, payload := [5] }, { setR (Reg.pxPortCfg 0) 1 (live) with px := { linkUp := [0], peers := [(5, { valid := true, state := .up, session := 3, expected := 4, credit := [(0, 9), (1, 9)] })] } , tiers := { live.tiers with runs := [{ first := 0, pages := 1024, ctx := 0, kind := .alloc }] }, leat := { rows := [(rowKey 31 0, 2 ^ 9)], tokens := [(rowKey 31 0, 8192)] } }, by decide⟩

theorem wit_RemoteAccesses_5 : ∃ (p m : Nat) (f : PxFrame) (r : Remote) (s : State), p < 8 ∧ s.pxOn p = true ∧ has s.px.linkUp p = true ∧ fldN f.dst 9 0 = s.moduleId ∧ (s.peer m).port = p ∧ (s.peer m).state = .up ∧ f.session = (s.peer m).expected ∧ f.seq = cget (s.peer m).rxSeq f.cls ∧ s.passesAtOnce p m f ∧ f.length ≤ 8192 ∧ s.pw.fabricPaused = false ∧ Tbl.find s.px.remote f.req = some r ∧ (f.status ≠ 0 ∨ r.write = true) :=
  ⟨0, 5, { kind := 3, session := 4 }, { peer := 5, cls := 0, write := true, mill := 0, stage := 0, id := 0, slots := 1, length := 1 }, { setR (Reg.pxPortCfg 0) 1 (live) with px := { linkUp := [0], remote := [(0, { peer := 5, cls := 0, write := true, mill := 0, stage := 0, id := 0, slots := 1, length := 1 })], peers := [(5, { valid := true, state := .up, session := 3, expected := 4, credit := [(0, 9), (1, 9)] })] }, leat := { rows := [(rowKey 31 0, 2 ^ 9)], tokens := [(rowKey 31 0, 8192)] } }, by decide⟩

theorem wit_RemoteAccesses_6 : ∃ (p m : Nat) (f : PxFrame) (s : State), p < 8 ∧ s.pxOn p = true ∧ has s.px.linkUp p = true ∧ fldN f.dst 9 0 = s.moduleId ∧ (s.peer m).port = p ∧ (s.peer m).state = .up ∧ f.session ≠ (s.peer m).expected ∧ f.length ≤ 8192 ∧ 1 ≤ f.length :=
  ⟨0, 5, { kind := 1, session := 9, length := 1 }, { setR (Reg.pxPortCfg 0) 1 (live) with px := { linkUp := [0], peers := [(5, { valid := true, state := .up, session := 3, expected := 4, credit := [(0, 9), (1, 9)] })] } }, by decide⟩

theorem wit_RemoteAccesses_8 : ∃ (p m : Nat) (f : PxFrame) (c : Instr) (s : State), c ∈ [.writeFrameReceive p m f, .readFrameReceive p m f, .responseReceive p m f] :=
  ⟨0, 0, { kind := 4, session := 4 }, .writeFrameReceive 0 0 ({ kind := 4, session := 4 }), live, by decide⟩

/-! #### Collectives -/

theorem wit_Collectives_1 : ∃ (mill stage id g r : Nat) (s : State), (leatGroup (s.body 2 0) g).rank s.moduleId = some r ∧ g < leatGroups (s.body 2 0) ∧ Tbl.find s.px.colls g = none ∧ s.tierReq mill stage id = none ∧ 0 < (s.pool (tokenPool mill)).returned ∧ s.pw.fabricPaused = false ∧ s.px.rx = [] ∧ (∀ j, j ∈ (leatGroup (s.body 2 0) g).others r → (s.peer (nth (leatGroup (s.body 2 0) g).members j 0)).state = .up) :=
  ⟨0, 0, 0, 0, 0, pools 128 { size := 1, returned := 1 } (plan [mkSec 2 0 0 (blob 96 [(0x0C, 2, 1), (0x18, 4, 32), (36, 2, 2), (44, 4, 64), (64, 2, 0), (66, 2, 5)])] ({ setR (Reg.pxPortCfg 0) 1 (live) with px := { linkUp := [0], peers := [(5, { valid := true, state := .up, session := 3, expected := 4, credit := [(0, 9), (1, 9)] })] } })), by decide⟩

theorem wit_Collectives_2 : ∃ (mill stage id g r j : Nat) (s : State), (leatGroup (s.body 2 0) g).rank s.moduleId = some r ∧ g < leatGroups (s.body 2 0) ∧ Tbl.find s.px.colls g = none ∧ s.tierReq mill stage id = none ∧ 0 < (s.pool (tokenPool mill)).returned ∧ s.pw.fabricPaused = false ∧ j ∈ (leatGroup (s.body 2 0) g).others r ∧ (s.peer (nth (leatGroup (s.body 2 0) g).members j 0)).state ≠ .up :=
  ⟨0, 0, 0, 0, 0, 1, pools 128 { size := 1, returned := 1 } (plan [mkSec 2 0 0 (blob 96 [(0x0C, 2, 1), (0x18, 4, 32), (36, 2, 2), (44, 4, 64), (64, 2, 0), (66, 2, 5)])] live), by decide⟩

theorem wit_Collectives_3 : ∃ (p m : Nat) (f : PxFrame) (s : State), p < 8 ∧ s.pxOn p = true ∧ has s.px.linkUp p = true ∧ fldN f.dst 9 0 = s.moduleId ∧ (s.peer m).port = p ∧ (s.peer m).state = .up ∧ f.session = (s.peer m).expected ∧ f.seq = cget (s.peer m).rxSeq f.cls ∧ f.length ≤ 8192 ∧ (∀ h, h ∈ s.px.rx → h.port ≠ p) ∧ Tbl.find s.px.colls (fldN f.address 5 0) = none :=
  ⟨0, 5, { kind := 5, session := 4 }, { setR (Reg.pxPortCfg 0) 1 (live) with px := { linkUp := [0], peers := [(5, { valid := true, state := .up, session := 3, expected := 4, credit := [(0, 9), (1, 9)] })] } }, by decide⟩

theorem wit_Collectives_4 : ∃ (p m r q : Nat) (f : PxFrame) (s : State), p < 8 ∧ s.pxOn p = true ∧ has s.px.linkUp p = true ∧ fldN f.dst 9 0 = s.moduleId ∧ (s.peer m).port = p ∧ (s.peer m).state = .up ∧ f.session = (s.peer m).expected ∧ f.seq = cget (s.peer m).rxSeq f.cls ∧ s.passesAtOnce p m f ∧ f.length = 0 ∧ f.status = 0x12 ∧ s.pw.fabricPaused = false ∧ (Tbl.find s.px.colls (fldN f.address 5 0)).isSome = true ∧ (leatGroup (s.body 2 0) (fldN f.address 5 0)).rank s.moduleId = some r ∧ (leatGroup (s.body 2 0) (fldN f.address 5 0)).rank m = some q :=
  ⟨0, 5, 0, 1, { kind := 5, session := 4, status := 0x12 }, plan [mkSec 2 0 0 (blob 96 [(0x0C, 2, 1), (0x18, 4, 32), (36, 2, 2), (44, 4, 64), (64, 2, 0), (66, 2, 5)])] ({ setR (Reg.pxPortCfg 0) 1 (live) with px := { linkUp := [0], colls := [(0, { mill := 0, stage := 0, id := 0 })], peers := [(5, { valid := true, state := .up, session := 3, expected := 4, credit := [(0, 9), (1, 9)] })] }, leat := { rows := [(rowKey 31 0, 2 ^ 9)], tokens := [(rowKey 31 0, 8192)] } }), by decide⟩

theorem wit_Collectives_5 : ∃ (g : Nat) (k : Coll) (s : State), Tbl.find s.px.colls g = some k ∧ s.collReady g = true :=
  ⟨0, { mill := 0, stage := 0, id := 0 }, plan [mkSec 2 0 0 (blob 96 [(0x0C, 2, 1), (0x18, 4, 32), (36, 2, 1), (44, 4, 64), (64, 2, 0)])] { live with px := { colls := [(0, { mill := 0, stage := 0, id := 0 })] } }, by decide⟩

/-! #### ParcelsMove -/

theorem wit_ParcelsMove_1 : ∃ (m i wait d c r : Nat) (x : TailSlot) (s : State), m < 16 ∧ s.millWorks m = true ∧ (s.mill m).toCredit i = some x ∧ x.dests = [(d, c, r)] ∧ d < 256 ∧ d % 32 < 16 ∧ d % 32 ≠ m ∧ s.destClosed d = false ∧ s.classFits c d = true ∧ 1 ≤ s.credits (8 * (d % 32) + d / 32) m :=
  ⟨0, 0, 0, 1, 0, 0, { stage := 0, parcel := { dest := 1, cls := 0, ctx := 0 }, dests := [(1, 0, 0)], credited := false }, { live.setMill 0 { state := .run, tail := [{ stage := 0, parcel := { dest := 1, cls := 0, ctx := 0 }, dests := [(1, 0, 0)], credited := false }] } with leat := { credits := [(creditKey 8 0, 1)] } }, by decide⟩

theorem wit_ParcelsMove_2 : ∃ (m i wait d c r : Nat) (x : TailSlot) (s : State), (s.mill m).toCredit i = some x ∧ x.dests = [(d, c, r)] ∧ (s.hasCredit m d = false ∨ s.classFits c d = false ∨ x.first = true ∧ d % 32 ≠ m ∧ s.destClosed d = true) :=
  ⟨0, 0, 0, 1, 0, 0, { stage := 0, parcel := { dest := 1, cls := 0, ctx := 0 }, dests := [(1, 0, 0)], credited := false }, live.setMill 0 { state := .run, tail := [{ stage := 0, parcel := { dest := 1, cls := 0, ctx := 0 }, dests := [(1, 0, 0)], credited := false }] }, by decide⟩

theorem wit_ParcelsMove_3 : ∃ (w r wait : Nat) (p : Parcel) (rest : List Parcel) (s : State), 17 ≤ w ∧ w < 42 ∧ (w < 31 ∨ 39 ≤ w) ∧ s.waiting w = p :: rest ∧ s.edgeRow w p = some r ∧ has s.leat.shut w = false ∧ (p.off ≠ 0 ∨ has s.leat.closing w = false ∧ s.destClosed p.dest = false) ∧ s.pw.fabricPaused = false ∧ s.hasToken w r = true ∧ s.hasCredit w p.dest = true ∧ s.classFits p.cls p.dest = true ∧ s.entryRoom w p.cls = true :=
  ⟨17, 0, 0, { dest := 1, cls := 0, ctx := 0 }, [], { live with leat := { waiting := [(17, [{ dest := 1, cls := 0, ctx := 0 }])], rows := [(rowKey 17 0, (2 ^ 9))], tokens := [(rowKey 17 0, 1024)], credits := [(creditKey 8 17, 1)] } }, by decide⟩

theorem wit_ParcelsMove_4 : ∃ (w d c r wait : Nat) (x : TailSlot) (s : State), w < 16 ∧ s.millWorks w = true ∧ has s.leat.shut w = false ∧ (s.mill w).toAdmit d = some x ∧ x.dests = [(d, c, r)] ∧ rowFits (s.rowWord w r) { x.parcel with dest := d, cls := c, weir := w } = true ∧ s.hasToken w r = true ∧ s.entryRoom w c = true :=
  ⟨0, 1, 0, 0, 0, { stage := 0, parcel := { dest := 1, cls := 0, ctx := 0 }, dests := [(1, 0, 0)], credited := true }, { live.setMill 0 { state := .run, tail := [{ stage := 0, parcel := { dest := 1, cls := 0, ctx := 0 }, dests := [(1, 0, 0)], credited := true }] } with leat := { rows := [(rowKey 0 0, (2 ^ 9))], tokens := [(rowKey 0 0, 1024)] } }, by decide⟩

theorem wit_ParcelsMove_5 : ∃ (k out input wait c : Nat) (p : Parcel) (rest : List Parcel) (s : State), input < 5 ∧ s.hopClass k out = some c ∧ s.canHop k out input c = true ∧ s.buf k input c = p :: rest :=
  ⟨0, 3, 0, 0, 0, { dest := 1, cls := 0, ctx := 0 }, [], { live with leat := { bufs := [(bufKey 0 0 0, [{ dest := 1, cls := 0, ctx := 0 }])] } }, by decide⟩

theorem wit_ParcelsMove_6 : ∃ (m cycles d : Nat) (p : Parcel) (rest : List Parcel) (s : State), d < 256 ∧ d % 32 < 16 ∧ Tbl.getD s.leat.arrived d [] = p :: rest ∧ p.dest = d ∧ (s.mill (d % 32)).state ≠ .fault ∧ (s.mill (d % 32)).state ≠ .empty ∧ (s.mill (d % 32)).state ≠ .evacuated :=
  ⟨0, 5, 1, { dest := 1, cls := 2, ctx := 0 }, [], { live.setMill 1 { state := .run } with leat := { arrived := [(1, [{ dest := 1, cls := 2, ctx := 0 }])] } }, by decide⟩

theorem wit_ParcelsMove_7 : ∃ (m cycles d : Nat) (p : Parcel) (s : State), d < 256 ∧ d % 32 = m ∧ m < 16 ∧ (s.mill m).loop.find? (fun x => x.dest = d) = some p ∧ (s.mill m).state ≠ .fault ∧ (s.mill m).state ≠ .empty ∧ (s.mill m).state ≠ .evacuated :=
  ⟨1, 0, 1, { dest := 1, cls := 0, ctx := 0 }, live.setMill 1 { state := .run, loop := [{ dest := 1, cls := 0, ctx := 0 }] }, by decide⟩

theorem wit_ParcelsMove_8 : ∃ (m q : Nat) (p : Parcel) (rest : List Parcel) (s : State), Tbl.getD (s.mill m).reading q [] = p :: rest ∧ (s.mill m).state ≠ .closed :=
  ⟨0, 0, { dest := 1, cls := 0, ctx := 0 }, [], live.setMill 0 { state := .run, reading := [(0, [{ dest := 1, cls := 0, ctx := 0 }])] }, by decide⟩

theorem wit_ParcelsMove_9 : ∃ (m q : Nat) (p : Parcel) (rest : List Parcel) (s : State), Tbl.getD (s.mill m).reading q [] = p :: rest ∧ (s.mill m).state = .closed :=
  ⟨0, 0, { dest := 1, cls := 0, ctx := 0 }, [], live.setMill 0 { state := .closed, reading := [(0, [{ dest := 1, cls := 0, ctx := 0 }])] }, by decide⟩

theorem wit_ParcelsMove_10 : ∃ (p w : Nat) (s : State), 0 < Tbl.getD s.leat.returning (creditKey p w) 0 ∧ (16 ≤ w ∨ (s.mill w).state ≠ .closed ∨ (s.mill w).spent = false) ∧ (s.poolShut p = false ∨ p < 128 ∧ w = p / 8) :=
  ⟨8, 0, { live with leat := { returning := [(creditKey 8 0, 1)] } }, by decide⟩

theorem wit_ParcelsMove_11 : ∃ (p w : Nat) (s : State), 0 < Tbl.getD s.leat.returning (creditKey p w) 0 ∧ (w < 16 ∧ (s.mill w).state = .closed ∧ (s.mill w).spent = true ∨ s.poolShut p = true ∧ (128 ≤ p ∨ w ≠ p / 8) ∧ ∀ v, v < 42 → s.emitting v p = false) :=
  ⟨8, 0, { live.setMill 0 { state := .closed, drained := true } with leat := { returning := [(creditKey 8 0, 1)] } }, by decide⟩

/-! #### MillerCores -/

theorem wit_MillerCores_1 : ∃ (m : Nat) (s : State), (s.mill m).coreRunning = true :=
  ⟨0, live.setMill 0 { coreRunning := true }, by decide⟩

theorem wit_MillerCores_2 : ∃ (m : Nat) (s : State), m < 16 ∧ s.pw.fabricOn = true ∧ (s.mill m).state ≠ .fault ∧ (s.mill m).state ≠ .evacuated :=
  ⟨15, live, by decide⟩

theorem wit_MillerCores_3 : ∃ (m : Nat) (s : State), m < 16 ∧ s.pw.fabricOn = true ∧ (s.mill m).state ≠ .fault ∧ (s.mill m).state ≠ .evacuated :=
  ⟨15, live, by decide⟩

theorem wit_MillerCores_4 : ∃ (m : Nat) (s : State), m < 16 ∧ s.pw.fabricOn = true ∧ ((s.mill m).state = .fault ∨ (s.mill m).state = .evacuated) :=
  ⟨15, live.setMill 15 { state := .fault }, by decide⟩

theorem wit_MillerCores_5 : ∃ (m : Nat) (pass : Bool) (s : State), m < 16 ∧ 2 ^ 24 ≤ (s.mill m).srDraws :=
  ⟨0, true, live.setMill 0 { srDraws := 2 ^ 24 }, by decide⟩

theorem wit_MillerCores_6 : ∃ (m : Nat) (pass : Bool) (s : State), (s.mill m).srDraws < 2 ^ 24 :=
  ⟨0, true, live, by decide⟩

theorem wit_MillerCores_8 : ∃ (m : Nat) (c : Instr) (s : State), c ∈ [.watchdogExpiry m, .millUncorrectable m] :=
  ⟨0, .watchdogExpiry 0, live, by decide⟩

/-! #### StagesAndFrames -/

theorem wit_StagesAndFrames_1 : ∃ (m i q : Nat) (a : Nat × Nat × Nat) (job : StageJob) (p : Parcel) (rest : List Parcel) (s : State), s.millWorks m = true ∧ s.stageWorks m i = true ∧ job.first ≠ has (s.mill m).items i ∧ cfgValid (stageCfg (s.millBody m) i) = true ∧ operFits (cfgType (stageCfg (s.millBody m) i)) (cfgParams (stageCfg (s.millBody m) i) = 1) job.op = true ∧ stageStriped (s.millBody m) i = false ∧ s.attn m i = none ∧ (s.stagePlanes m i job).isSome = true ∧ scans job.op = false ∧ job.tokens = [] ∧ job.store = some a ∧ job.takes = [q] ∧ Tbl.getD (s.mill m).hopper q [] = p :: rest ∧ (hopperCfg (s.millBody m) q).stage = i :=
  ⟨0, 0, 0, (0, 0, 0), { op := .unary .abs (.const [0]), takes := [0], format := 1, store := some (0, 0, 0) }, { dest := 1, cls := 0, ctx := 0 }, [], live.setMill 0 { state := .run, sec := some (mkSec 1 0 0 (blob 1728 [(0, 4, 0x13)])), hopper := [(0, [{ dest := 1, cls := 0, ctx := 0 }])] }, by decide +kernel⟩

theorem wit_StagesAndFrames_2 : ∃ (m i wait : Nat) (s : State), m < 16 ∧ stageStriped (s.millBody m) i = true ∧ (s.stripe (8 * m + i)).active = false ∧ s.stripeReady (8 * m + i) = true ∧ (s.stripe (8 * m + i)).frameOpen = true ∧ (s.mill m).state = .run ∧ has (s.mill m).stopped i = false :=
  ⟨0, 0, 0, { runs 0 (mkSec 1 0 0 (blob 1728 [(0, 4, 0x12), (12, 2, 4), (14, 2, 4), (16, 2, 1), (18, 2, 1), (32, 2, 1), (34, 1, 2), (36, 8, 0x10000000000), (44, 8, 0x10000100000)])) live with ops := { stripes := [(0, { frameOpen := true })], bufs := [(0x10000000000, { rows := 4 })] } }, by decide +kernel⟩

theorem wit_StagesAndFrames_3 : ∃ (m i wait : Nat) (s : State), m < 16 ∧ stageStriped (s.millBody m) i = true ∧ (s.stripe (8 * m + i)).frameOpen = false ∧ (s.stripe (8 * m + i)).stripe = 0 ∧ s.bufFree (s.img (8 * m + i)).outAddr (s.img (8 * m + i)).bufs (s.stripe (8 * m + i)).frame = true :=
  ⟨0, 0, 0, runs 0 (mkSec 1 0 0 (blob 1728 [(0, 4, 0x12), (12, 2, 4), (14, 2, 4), (16, 2, 1), (18, 2, 1), (32, 2, 1), (34, 1, 2), (36, 8, 0x10000000000), (44, 8, 0x10000100000)])) live, by decide +kernel⟩

theorem wit_StagesAndFrames_4 : ∃ (m i wait : Nat) (b : Binding) (s : State), s.binding i = some b ∧ b.kind = 1 ∧ has s.ops.inOpen i = false ∧ s.bufFree (s.img (8 * b.mill + b.stage)).inAddr (s.img (8 * b.mill + b.stage)).bufs (Tbl.getD s.ops.inFrames i 0) = true :=
  ⟨0, 7, 0, leatBinding (blob 64 [(8, 2, 1), (0x10, 4, 32), (32, 1, 7), (34, 1, 1), (36, 4, 64)]) 0, plan [mkSec 2 0 0 (blob 64 [(8, 2, 1), (0x10, 4, 32), (32, 1, 7), (34, 1, 1), (36, 4, 64)])] (runs 0 (mkSec 1 0 0 (blob 1728 [(0, 4, 0x12), (12, 2, 4), (14, 2, 4), (16, 2, 1), (18, 2, 1), (32, 2, 1), (34, 1, 2), (36, 8, 0x10000000000), (44, 8, 0x10000100000)])) live), by decide +kernel⟩

theorem wit_StagesAndFrames_5 : ∃ (n : Nat) (b : Binding) (f : SnFrame) (rest : List SnFrame) (s : State), s.binding n = some b ∧ (s.stream n).slots = f :: rest ∧ (b.kind = 0 ∧ (s.waiting (19 + b.lane)).any (fun p => p.origin = n + 1 && p.seq = f.number) = false ∨ 2 ≤ b.kind) :=
  ⟨7, leatBinding (blob 64 [(8, 2, 1), (0x10, 4, 32), (32, 1, 7), (34, 1, 2), (36, 4, 64)]) 0, { number := 0, src := 0, port := 0, format := 1, data := [] }, [], { plan [mkSec 2 0 0 (blob 64 [(8, 2, 1), (0x10, 4, 32), (32, 1, 7), (34, 1, 2), (36, 4, 64)])] live with sn := { streams := [(7, { slots := [{ number := 0, src := 0, port := 0, format := 1, data := [] }] })] } }, by decide⟩

theorem wit_StagesAndFrames_6 : ∃ (n : Nat) (b : Binding) (f : SnFrame) (rest : List SnFrame) (s : State), s.binding n = some b ∧ (s.stream n).slots = f :: rest ∧ b.kind = 1 ∧ has s.ops.inOpen n = true :=
  ⟨7, leatBinding (blob 64 [(8, 2, 1), (0x10, 4, 32), (32, 1, 7), (34, 1, 1), (36, 4, 64)]) 0, { number := 0, src := 0, port := 0, format := 1, data := [] }, [], { plan [mkSec 2 0 0 (blob 64 [(8, 2, 1), (0x10, 4, 32), (32, 1, 7), (34, 1, 1), (36, 4, 64)])] live with sn := { streams := [(7, { slots := [{ number := 0, src := 0, port := 0, format := 1, data := [] }] })] }, ops := { inOpen := [7] } }, by decide⟩

theorem wit_StagesAndFrames_8 : ∃ (m i wait : Nat) (ingress : Bool) (c : Instr) (s : State), c ∈ [.stripeStart m i wait, .frameBufferStart ingress m i wait] :=
  ⟨0, 0, 0, false, .stripeStart 0 0 0, live, by decide⟩

/-! #### Sequences -/

theorem wit_Sequences_1 : ∃ (m i slot seqId layer maxTokens p0 count idx : Nat) (pages : List Nat) (decode : Bool) (job : StageJob) (p : AttnP) (s : State), s.attn m i = some p ∧ p.role = 4 ∧ slot < 4096 ∧ s.stageWorks m i = true ∧ 1 ≤ count ∧ 1 ≤ maxTokens ∧ maxTokens ≤ 1048576 ∧ s.stillRead (descPlace p slot) = false ∧ operFits 8 true job.op = true ∧ job.takes = [] ∧ job.tokens = [] ∧ (s.seq (descPlace p slot)).isOpen = true ∧ (s.seq (descPlace p slot)).closing = false ∧ (decode = true → (s.seq (descPlace p slot)).ring = false ∧ bitN p.buckets (bucketOf (p0 + count)) = true) ∧ p0 + count ≤ (s.seq (descPlace p slot)).maxTokens ∧ s.newPages p (s.seq (descPlace p slot)) p0 count = [] ∧ (s.operate m none job.op).length = (s.seq (descPlace p slot)).rings * count * (s.seq (descPlace p slot)).dim :=
  ⟨0, 0, 0, 0, 0, 64, 5, 1, 0, [], false, { op := .move (.const (List.replicate 64 0)) (List.range 64) true, format := 2 }, attnOf (blob 1728 [(0, 4, 0x3A), (12, 1, 4), (16, 2, 1), (20, 2, 1), (24, 4, 0), (36, 8, 0x10000000000)]) 0, { runs 0 (mkSec 1 0 0 (blob 1728 [(0, 4, 0x3A), (12, 1, 4), (16, 2, 1), (20, 2, 1), (24, 4, 0), (36, 8, 0x10000000000)])) (live.setLocal 0x10000020000 (le 8 0x10000030000 ++ le 8 0x10000040000)) with ops := { seqs := [(0x10000000000, { isOpen := true, maxTokens := 64, kvHeads := 1, format := 2, pageList := 0x10000020000, pagesPerRing := 1 })] } }, by decide +kernel⟩

theorem wit_Sequences_2 : ∃ (m i slot seqId layer maxTokens p0 count idx : Nat) (pages : List Nat) (fail : Bool) (job : StageJob) (p : AttnP) (r : Request) (s : State), s.attn m i = some p ∧ p.role = 4 ∧ slot < 4096 ∧ s.stageWorks m i = true ∧ 1 ≤ count ∧ 1 ≤ maxTokens ∧ maxTokens ≤ 1048576 ∧ s.stillRead (descPlace p slot) = false ∧ operFits 8 true job.op = true ∧ job.takes = [] ∧ job.tokens = [] ∧ (s.seq (descPlace p slot)).isOpen = true ∧ ((s.seq (descPlace p slot)).closing = true ∨ (s.seq (descPlace p slot)).maxTokens < p0 + count) ∧ s.request (((s.mill m).sec.map Section.ctx).getD 0) idx = some r :=
  ⟨0, 0, 0, 0, 0, 64, 64, 1, 1, [], false, { op := .move (.const []) [] true, format := 2 }, attnOf (blob 1728 [(0, 4, 0x3A), (12, 1, 4), (16, 2, 1), (20, 2, 1), (24, 4, 0), (36, 8, 0x10000000000)]) 0, (req 0 1 7 (zeros 32)), { runs 0 (mkSec 1 0 0 (blob 1728 [(0, 4, 0x3A), (12, 1, 4), (16, 2, 1), (20, 2, 1), (24, 4, 0), (36, 8, 0x10000000000)])) (asks (req 0 1 7 (zeros 32)) live) with ops := { seqs := [(0x10000000000, { isOpen := true, closing := true, maxTokens := 64, kvHeads := 1, format := 2, pageList := 0x10000020000, pagesPerRing := 1 })] } }, by decide +kernel⟩

theorem wit_Sequences_3 : ∃ (m i slot seqId layer maxTokens p0 count idx : Nat) (pages : List Nat) (decode fail : Bool) (job : StageJob) (p : AttnP) (s : State), s.attn m i = some p ∧ s.stillRead (descPlace p slot) = true :=
  ⟨0, 0, 0, 0, 0, 64, 0, 1, 0, [], false, false, { op := .move (.const []) [] true, format := 2 }, attnOf (blob 1728 [(0, 4, 0x3A), (12, 1, 4), (16, 2, 1), (20, 2, 1), (24, 4, 0), (36, 8, 0x10000000000)]) 0, { runs 0 (mkSec 1 0 0 (blob 1728 [(0, 4, 0x3A), (12, 1, 4), (16, 2, 1), (20, 2, 1), (24, 4, 0), (36, 8, 0x10000000000)])) live with ops := { seqs := [(0x10000000000, { isOpen := true, maxTokens := 64, kvHeads := 1, format := 2, pageList := 0x10000020000, pagesPerRing := 1 })], readers := [(0x10000000000, [1])] } }, by decide +kernel⟩

theorem wit_Sequences_4 : ∃ (m i slot pos g idx wait : Nat) (p : AttnP) (s : State), s.attn m i = some p ∧ (p.role = 1 ∨ p.role = 3) ∧ s.millWorks m = true ∧ (s.seq (descPlace p slot)).isOpen = true ∧ (s.seq (descPlace p slot)).closing = false :=
  ⟨0, 0, 0, 5, 0, 0, 0, attnOf (blob 1728 [(0, 4, 0x3A), (12, 1, 1), (16, 2, 1), (20, 2, 1), (24, 4, 0), (36, 8, 0x10000000000)]) 0, { runs 0 (mkSec 1 0 0 (blob 1728 [(0, 4, 0x3A), (12, 1, 1), (16, 2, 1), (20, 2, 1), (24, 4, 0), (36, 8, 0x10000000000)])) live with ops := { seqs := [(0x10000000000, { isOpen := true, maxTokens := 64, kvHeads := 1, format := 2, pageList := 0x10000020000, pagesPerRing := 1 })] } }, by decide +kernel⟩

theorem wit_Sequences_5 : ∃ (m i slot pos g idx wait : Nat) (p : AttnP) (r : Request) (s : State), s.attn m i = some p ∧ (p.role = 1 ∨ p.role = 3) ∧ s.millWorks m = true ∧ (s.seq (descPlace p slot)).closing = true ∧ s.request (((s.mill m).sec.map Section.ctx).getD 0) idx = some r :=
  ⟨0, 0, 0, 5, 0, 1, 0, attnOf (blob 1728 [(0, 4, 0x3A), (12, 1, 1), (16, 2, 1), (20, 2, 1), (24, 4, 0), (36, 8, 0x10000000000)]) 0, (req 0 1 7 (zeros 32)), { runs 0 (mkSec 1 0 0 (blob 1728 [(0, 4, 0x3A), (12, 1, 1), (16, 2, 1), (20, 2, 1), (24, 4, 0), (36, 8, 0x10000000000)])) (asks (req 0 1 7 (zeros 32)) live) with ops := { seqs := [(0x10000000000, { isOpen := true, closing := true, maxTokens := 64, kvHeads := 1, format := 2, pageList := 0x10000020000, pagesPerRing := 1 })] } }, by decide +kernel⟩

theorem wit_Sequences_6 : ∃ (m i slot : Nat) (p : AttnP) (s : State), s.attn m i = some p ∧ (s.seq (descPlace p slot)).isOpen = true :=
  ⟨0, 0, 0, attnOf (blob 1728 [(0, 4, 0x3A), (12, 1, 1), (16, 2, 1), (20, 2, 1), (24, 4, 0), (36, 8, 0x10000000000)]) 0, { runs 0 (mkSec 1 0 0 (blob 1728 [(0, 4, 0x3A), (12, 1, 1), (16, 2, 1), (20, 2, 1), (24, 4, 0), (36, 8, 0x10000000000)])) live with ops := { seqs := [(0x10000000000, { isOpen := true, maxTokens := 64, kvHeads := 1, format := 2, pageList := 0x10000020000, pagesPerRing := 1 })] } }, by decide +kernel⟩

theorem wit_Sequences_7 : ∃ (m b : Nat) (x : PrefillItem) (rest : List PrefillItem) (s : State), m < 16 ∧ b < 6 ∧ s.millWorks m = true ∧ s.prefillOf m b = x :: rest ∧ (batchSize b ≤ rest.length + 1 ∨ x.since + 200000 ≤ s.now) :=
  ⟨3, 1, { ctx := 0, idx := 0, len := 64, since := 0 }, [], { runs 3 (mkSec 1 0 0 (blob 1728 [(0, 4, 0x3A), (12, 1, 1), (16, 2, 1), (20, 2, 1), (24, 4, 0), (36, 8, 0x10000000000)])) live with ops := { prefill := [(25, [{ ctx := 0, idx := 0, len := 64, since := 0 }])] }, tm := { live.tm with copies := [2 ^ 70, 2 ^ 70, 2 ^ 70] } }, by decide⟩

theorem wit_Sequences_8 : ∃ (m i step head wait : Nat) (a : Nat × Nat × Nat) (job : StageJob) (p : AttnP) (x : Merge) (s : State), m < 16 ∧ s.attn m i = some p ∧ p.role = 5 ∧ s.millWorks m = true ∧ (p.modMode = 2 → p.modIndex = 0) ∧ s.ops.merges.find? (fun y => y.mill = m && y.stage = i && y.step = step && y.head = head) = some x ∧ p.expected ≤ x.partials.length ∧ job.store = some a :=
  ⟨0, 0, 0, 0, 0, (0, 0, 0), { op := .move (.const []) [] true, format := 1, store := some (0, 0, 0) }, attnOf (blob 1728 [(0, 4, 0x3A), (12, 1, 5), (16, 2, 1), (20, 2, 1), (24, 4, 0), (36, 8, 0x10000000000), (47, 1, 1)]) 0, { mill := 0, stage := 0, step := 0, head := 0, partials := [{ o := [0], m := 0, l := 0, beta := 0, n := 1, tags := [], status := 0 }] }, { runs 0 (mkSec 1 0 0 (blob 1728 [(0, 4, 0x3A), (12, 1, 5), (16, 2, 1), (20, 2, 1), (24, 4, 0), (36, 8, 0x10000000000), (47, 1, 1)])) live with ops := { merges := [{ mill := 0, stage := 0, step := 0, head := 0, partials := [{ o := [0], m := 0, l := 0, beta := 0, n := 1, tags := [], status := 0 }] }] } }, by decide +kernel⟩

theorem wit_Sequences_9 : ∃ (m i step head wait : Nat) (job : StageJob) (p : AttnP) (x : Merge) (s : State), s.attn m i = some p ∧ s.ops.merges.find? (fun y => y.mill = m && y.stage = i && y.step = step && y.head = head) = some x ∧ x.partials.length < p.expected :=
  ⟨0, 0, 0, 0, 0, { op := .move (.const []) [] true, format := 1, store := some (0, 0, 0) }, attnOf (blob 1728 [(0, 4, 0x3A), (12, 1, 5), (16, 2, 1), (20, 2, 1), (24, 4, 0), (36, 8, 0x10000000000), (47, 1, 2)]) 0, { mill := 0, stage := 0, step := 0, head := 0, partials := [{ o := [0], m := 0, l := 0, beta := 0, n := 1, tags := [], status := 0 }] }, { runs 0 (mkSec 1 0 0 (blob 1728 [(0, 4, 0x3A), (12, 1, 5), (16, 2, 1), (20, 2, 1), (24, 4, 0), (36, 8, 0x10000000000), (47, 1, 2)])) live with ops := { merges := [{ mill := 0, stage := 0, step := 0, head := 0, partials := [{ o := [0], m := 0, l := 0, beta := 0, n := 1, tags := [], status := 0 }] }] } }, by decide +kernel⟩

/-! #### StreamCommands -/

theorem wit_StreamCommands_1 : ∃ (ctx idx n : Nat) (r : Request) (c : StreamCfg) (s : State), s.memOk ∧ (∀ l, l ∈ c.layers → s.noDescs (l.slot c n) l.slotBytes) ∧ s.streamAsk ctx idx 1 = some r ∧ streamBad r.body = false ∧ n = leAt r.body 2 2 ∧ s.streamSection n = some (ctx, c) ∧ (s.strm n).state = .free :=
  ⟨3, 1, 0, (req 3 1 2 (blob 32 [(0, 1, 1)])), streamCfg (blob 48 [(0, 2, 0), (2, 2, 4), (4, 2, 1), (6, 2, 8), (8, 1, 4), (24, 4, 1), (32, 1, 1)]), asks (req 3 1 2 (blob 32 [(0, 1, 1)])) ({ plan [mkSec 8 3 3 (blob 48 [(0, 2, 0), (2, 2, 4), (4, 2, 1), (6, 2, 8), (8, 1, 4), (24, 4, 1), (32, 1, 1)])] live with streams := [(0, { state := .free })] }), by decide⟩

theorem wit_StreamCommands_2 : ∃ (ctx idx n : Nat) (r : Request) (c : StreamCfg) (s : State), s.streamAsk ctx idx 2 = some r ∧ streamBad r.body = false ∧ n = leAt r.body 2 2 ∧ s.streamSection n = some (ctx, c) ∧ leAt r.body 4 4 = (s.strm n).gen ∧ (s.strm n).state = .active :=
  ⟨3, 1, 0, (req 3 1 2 (blob 32 [(0, 1, 2)])), streamCfg (blob 48 [(0, 2, 0), (2, 2, 4), (4, 2, 1), (6, 2, 8), (8, 1, 4), (24, 4, 1), (32, 1, 1)]), asks (req 3 1 2 (blob 32 [(0, 1, 2)])) ({ plan [mkSec 8 3 3 (blob 48 [(0, 2, 0), (2, 2, 4), (4, 2, 1), (6, 2, 8), (8, 1, 4), (24, 4, 1), (32, 1, 1)])] live with streams := [(0, { state := .active })] }), by decide⟩

theorem wit_StreamCommands_3 : ∃ (ctx idx n : Nat) (r : Request) (c : StreamCfg) (s : State), s.streamAsk ctx idx 3 = some r ∧ streamBad r.body = false ∧ n = leAt r.body 2 2 ∧ s.streamSection n = some (ctx, c) ∧ leAt r.body 4 4 = (s.strm n).gen ∧ (s.strm n).state = .paused :=
  ⟨3, 1, 0, (req 3 1 2 (blob 32 [(0, 1, 3)])), streamCfg (blob 48 [(0, 2, 0), (2, 2, 4), (4, 2, 1), (6, 2, 8), (8, 1, 4), (24, 4, 1), (32, 1, 1)]), asks (req 3 1 2 (blob 32 [(0, 1, 3)])) ({ plan [mkSec 8 3 3 (blob 48 [(0, 2, 0), (2, 2, 4), (4, 2, 1), (6, 2, 8), (8, 1, 4), (24, 4, 1), (32, 1, 1)])] live with streams := [(0, { state := .paused })] }), by decide⟩

theorem wit_StreamCommands_4 : ∃ (ctx idx n : Nat) (r : Request) (c : StreamCfg) (s : State), s.streamAsk ctx idx 4 = some r ∧ streamBad r.body = false ∧ n = leAt r.body 2 2 ∧ s.streamSection n = some (ctx, c) ∧ leAt r.body 4 4 = (s.strm n).gen ∧ ((s.strm n).state = .active ∨ (s.strm n).state = .paused) :=
  ⟨3, 1, 0, (req 3 1 2 (blob 32 [(0, 1, 4)])), streamCfg (blob 48 [(0, 2, 0), (2, 2, 4), (4, 2, 1), (6, 2, 8), (8, 1, 4), (24, 4, 1), (32, 1, 1)]), asks (req 3 1 2 (blob 32 [(0, 1, 4)])) ({ plan [mkSec 8 3 3 (blob 48 [(0, 2, 0), (2, 2, 4), (4, 2, 1), (6, 2, 8), (8, 1, 4), (24, 4, 1), (32, 1, 1)])] live with streams := [(0, { state := .paused })] }), by decide⟩

theorem wit_StreamCommands_5 : ∃ (ctx idx n : Nat) (r : Request) (c : StreamCfg) (s : State), s.streamAsk ctx idx 5 = some r ∧ streamBad r.body = false ∧ n = leAt r.body 2 2 ∧ s.streamSection n = some (ctx, c) ∧ leAt r.body 4 4 = (s.strm n).gen ∧ ((s.strm n).state = .active ∨ (s.strm n).state = .paused) ∧ (s.strm n).wait = none :=
  ⟨3, 1, 0, (req 3 1 2 (blob 32 [(0, 1, 5)])), streamCfg (blob 48 [(0, 2, 0), (2, 2, 4), (4, 2, 1), (6, 2, 8), (8, 1, 4), (24, 4, 1), (32, 1, 1)]), asks (req 3 1 2 (blob 32 [(0, 1, 5)])) ({ plan [mkSec 8 3 3 (blob 48 [(0, 2, 0), (2, 2, 4), (4, 2, 1), (6, 2, 8), (8, 1, 4), (24, 4, 1), (32, 1, 1)])] live with streams := [(0, { state := .active })] }), by decide⟩

theorem wit_StreamCommands_6 : ∃ (ctx idx n : Nat) (r : Request) (c : StreamCfg) (s : State), s.streamAsk ctx idx 6 = some r ∧ streamBad r.body = false ∧ n = leAt r.body 2 2 ∧ s.streamSection n = some (ctx, c) ∧ leAt r.body 4 4 = (s.strm n).gen ∧ ((s.strm n).state = .active ∨ (s.strm n).state = .paused) ∧ (s.strm n).wait = none ∧ s.packageAt ctx (leAt r.body 8 8) (leAt r.body 16 8) = 0 :=
  ⟨3, 1, 0, (req 3 1 2 (blob 32 [(0, 1, 6), (8, 8, 0x10001000000), (16, 8, 65536)])), streamCfg (blob 48 [(0, 2, 0), (2, 2, 4), (4, 2, 1), (6, 2, 8), (8, 1, 4), (24, 4, 1), (32, 1, 1)]), asks (req 3 1 2 (blob 32 [(0, 1, 6), (8, 8, 0x10001000000), (16, 8, 65536)])) ({ plan [mkSec 8 3 3 (blob 48 [(0, 2, 0), (2, 2, 4), (4, 2, 1), (6, 2, 8), (8, 1, 4), (24, 4, 1), (32, 1, 1)])] live with streams := [(0, { state := .active })], tiers := { live.tiers with runs := [{ first := 0, pages := 1024, ctx := 3, kind := .alloc }] } }), by decide⟩

theorem wit_StreamCommands_7 : ∃ (ctx idx n : Nat) (r : Request) (c : StreamCfg) (s : State), s.streamAsk ctx idx 7 = some r ∧ streamBad r.body = false ∧ n = leAt r.body 2 2 ∧ s.streamSection n = some (ctx, c) ∧ (s.strm n).state = .free ∧ s.packageAt ctx (leAt r.body 8 8) (leAt r.body 16 8) = 0 ∧ moduleOf (leAt r.body 8 8) = s.moduleId :=
  ⟨3, 1, 0, (req 3 1 2 (blob 32 [(0, 1, 7), (8, 8, 0x10001000000), (16, 8, 65536)])), streamCfg (blob 48 [(0, 2, 0), (2, 2, 4), (4, 2, 1), (6, 2, 8), (8, 1, 4), (24, 4, 1), (32, 1, 1)]), asks (req 3 1 2 (blob 32 [(0, 1, 7), (8, 8, 0x10001000000), (16, 8, 65536)])) ({ plan [mkSec 8 3 3 (blob 48 [(0, 2, 0), (2, 2, 4), (4, 2, 1), (6, 2, 8), (8, 1, 4), (24, 4, 1), (32, 1, 1)])] live with streams := [(0, { state := .free })], tiers := { live.tiers with runs := [{ first := 0, pages := 1024, ctx := 3, kind := .alloc }] } }), by decide⟩

theorem wit_StreamCommands_9 : ∃ (ctx idx : Nat) (c : Instr) (s : State), c ∈ [.streamPause ctx idx, .streamResume ctx idx, .streamExport ctx idx] :=
  ⟨0, 0, .streamPause 0 0, live, by decide⟩

theorem wit_StreamCommands_10 : ∃ (ctx idx : Nat) (c : Instr) (s : State), c ∈ [.streamReset ctx idx, .streamEnd ctx idx] :=
  ⟨0, 0, .streamReset 0 0, live, by decide⟩

/-! #### Chunks -/

theorem wit_Chunks_1 : ∃ (ctx idx : Nat) (r : Request) (c : StreamCfg) (s : State), s.request ctx idx = some r ∧ r.target = 3 ∧ r.begun = false ∧ allZero (r.body.drop 12) = true ∧ s.inGrant ctx (leAt r.body 0 8) (leAt r.body 8 4) = true ∧ s.streamSection (leAt (s.pondRead (leAt r.body 0 8) (leAt r.body 8 4)) 0 2) = some (ctx, c) ∧ chunkBad c (s.pondRead (leAt r.body 0 8) (leAt r.body 8 4)) = false ∧ ((s.strm (leAt (s.pondRead (leAt r.body 0 8) (leAt r.body 8 4)) 0 2)).state ≠ .free ∨ leAt (s.pondRead (leAt r.body 0 8) (leAt r.body 8 4)) 4 4 ≠ (s.strm (leAt (s.pondRead (leAt r.body 0 8) (leAt r.body 8 4)) 0 2)).gen) :=
  ⟨3, 1, (req 3 1 3 (blob 32 [(8, 4, 32)])), streamCfg (blob 48 [(0, 2, 0), (2, 2, 4), (4, 2, 1), (6, 2, 8), (8, 1, 4), (24, 4, 1), (32, 1, 1)]), setR (Reg.hpCtxPond 3) 0x400 (asks (req 3 1 3 (blob 32 [(8, 4, 32)])) (({ plan [mkSec 8 3 3 (blob 48 [(0, 2, 0), (2, 2, 4), (4, 2, 1), (6, 2, 8), (8, 1, 4), (24, 4, 1), (32, 1, 1)])] live with streams := [(0, { state := .active })] }).setLocal 0x40000000 (blob 32 [(0, 2, 0), (2, 2, 1), (12, 1, 0), (16, 8, 0xFFFFFFFFFFFFFFFF), (24, 8, 0xFFFFFFFFFFFFFFFF)]))), by decide⟩

theorem wit_Chunks_2 : ∃ (host : Bool) (ctx idx n : Nat) (chunk b : Bytes) (c : StreamCfg) (s : State), (host = false ∧ b = chunk ∨ host = true ∧ (s.streams.flatMap (fun e => e.2.queue ++ e.2.started.map (·.chunk))).any (fun k => k.req = some (ctx, idx)) = false ∧ ∃ r, s.request ctx idx = some r ∧ r.target = 3 ∧ r.begun = true ∧ b = s.pondRead (leAt r.body 0 8) (leAt r.body 8 4)) ∧ n = leAt b 0 2 ∧ s.streamSection n = some (ctx, c) ∧ chunkBad c b = false :=
  ⟨false, 3, 1, 0, blob 32 [(0, 2, 0), (2, 2, 1), (12, 1, 0), (16, 8, 0xFFFFFFFFFFFFFFFF), (24, 8, 0xFFFFFFFFFFFFFFFF)], blob 32 [(0, 2, 0), (2, 2, 1), (12, 1, 0), (16, 8, 0xFFFFFFFFFFFFFFFF), (24, 8, 0xFFFFFFFFFFFFFFFF)], streamCfg (blob 48 [(0, 2, 0), (2, 2, 4), (4, 2, 1), (6, 2, 8), (8, 1, 4), (24, 4, 1), (32, 1, 1)]), { plan [mkSec 8 3 3 (blob 48 [(0, 2, 0), (2, 2, 4), (4, 2, 1), (6, 2, 8), (8, 1, 4), (24, 4, 1), (32, 1, 1)])] live with streams := [(0, { state := .active })] }, by decide⟩

theorem wit_Chunks_3 : ∃ (n ctx : Nat) (k : Chunk) (rest : List Chunk) (c : StreamCfg) (s : State), s.streamSection n = some (ctx, c) ∧ s.layerFree n c 0 = true ∧ (s.strm n).queue = k :: rest ∧ (s.strm n).state = .active ∧ (s.strm n).ending = false ∧ (s.strm n).wait = none :=
  ⟨0, 3, { gen := 0, steps := 1 }, [], streamCfg (blob 48 [(0, 2, 0), (2, 2, 4), (4, 2, 1), (6, 2, 8), (8, 1, 4), (24, 4, 1), (32, 1, 1)]), { plan [mkSec 8 3 3 (blob 48 [(0, 2, 0), (2, 2, 4), (4, 2, 1), (6, 2, 8), (8, 1, 4), (24, 4, 1), (32, 1, 1)])] (live.setMill 0 { state := .run }) with streams := [(0, { state := .active, queue := [{ gen := 0, steps := 1 }] })] }, by decide⟩

theorem wit_Chunks_4 : ∃ (n ctx layer : Nat) (r : ChunkRun) (c : StreamCfg) (s : State), s.streamSection n = some (ctx, c) ∧ s.layerFree n c layer = true ∧ layer ≠ 0 ∧ (s.strm n).started.find? (fun q => q.layer = layer) = some r :=
  ⟨0, 3, 1, { chunk := { gen := 0, steps := 1 }, layer := 1, running := false }, streamCfg (blob 64 [(0, 2, 0), (2, 2, 4), (4, 2, 2), (6, 2, 8), (8, 1, 4), (24, 4, 1), (32, 1, 1), (48, 1, 1), (49, 1, 1)]), { plan [mkSec 8 3 3 (blob 64 [(0, 2, 0), (2, 2, 4), (4, 2, 2), (6, 2, 8), (8, 1, 4), (24, 4, 1), (32, 1, 1), (48, 1, 1), (49, 1, 1)])] (live.setMill 1 { state := .run }) with streams := [(0, { state := .active, started := [{ chunk := { gen := 0, steps := 1 }, layer := 1, running := false }] })] }, by decide⟩

theorem wit_Chunks_5 : ∃ (n ctx : Nat) (c : StreamCfg) (w : StreamWait) (s : State), s.streamSection n = some (ctx, c) ∧ (s.strm n).started = [] ∧ s.streamHeld c = false ∧ (s.strm n).wait = some w ∧ (s.strm n).state ≠ .importing ∧ w.isExport = false :=
  ⟨0, 3, streamCfg (blob 48 [(0, 2, 0), (2, 2, 4), (4, 2, 1), (6, 2, 8), (8, 1, 4), (24, 4, 1), (32, 1, 1)]), { ctx := 3, idx := 1, isExport := false }, { plan [mkSec 8 3 3 (blob 48 [(0, 2, 0), (2, 2, 4), (4, 2, 1), (6, 2, 8), (8, 1, 4), (24, 4, 1), (32, 1, 1)])] live with streams := [(0, { state := .active, wait := some { ctx := 3, idx := 1, isExport := false } })] }, by decide⟩

theorem digestOf_length (m : Bytes) : (digestOf m).length = 32 := by
  simp [digestOf, padTo, zeros]


theorem wit_Chunks_6 : ∃ (n ctx : Nat) (c : StreamCfg) (w : StreamWait) (r : Request) (s : State), s.memOk ∧ s.noDescs (localOf w.address) (s.package n c false).length ∧ s.streamSection n = some (ctx, c) ∧ (s.strm n).started = [] ∧ s.streamHeld c = false ∧ (s.strm n).wait = some w ∧ (s.strm n).state = .exporting ∧ w.isExport = true ∧ w.keep = false ∧ w.remotePages = 0 ∧ moduleOf w.address = s.moduleId ∧ tierOf (localOf w.address) = some .hbm ∧ (s.package n c false).length ≤ w.length ∧ s.request w.ctx w.idx = some r :=
  ⟨0, 3, streamCfg (blob 48 [(0, 2, 0), (2, 2, 4), (4, 2, 1), (6, 2, 8), (8, 1, 4), (24, 4, 1), (32, 1, 1)]), { ctx := 3, idx := 1, isExport := true, address := 0x10001000000, length := 65536 }, (req 3 1 2 (zeros 32)), asks (req 3 1 2 (zeros 32)) ({ plan [mkSec 8 3 3 (blob 48 [(0, 2, 0), (2, 2, 4), (4, 2, 1), (6, 2, 8), (8, 1, 4), (24, 4, 1), (32, 1, 1)])] live with streams := [(0, { state := .exporting, wait := some { ctx := 3, idx := 1, isExport := true, address := 0x10001000000, length := 65536 } })] }), by decide, (by intro e h; cases h), by decide, by decide, by decide, by decide, by decide, by decide, by decide, by decide, by decide, by decide, by
    simp only [State.package, List.length_append, digestOf_length]; decide +kernel, by decide⟩

/-! #### HoistsMovePages -/

theorem wit_HoistsMovePages_1 : ∃ (ctx idx : Nat) (r : Request) (s : State), s.tierAsk ctx idx 1 = some r ∧ r.begun = false ∧ s.hoistBad r.body = false :=
  ⟨3, 1, (req 3 1 1 (blob 32 [(0, 1, 1), (2, 1, 1), (4, 4, 1), (8, 8, 0x10001000000), (16, 8, 0x10001010000)])), asks (req 3 1 1 (blob 32 [(0, 1, 1), (2, 1, 1), (4, 4, 1), (8, 8, 0x10001000000), (16, 8, 0x10001010000)])) live, by decide⟩

theorem wit_HoistsMovePages_2 : ∃ (ctx idx : Nat) (r : Request) (s : State), s.tierAsk ctx idx 1 = some r ∧ r.begun = false ∧ s.hoistBad r.body = true :=
  ⟨3, 1, (req 3 1 1 (blob 32 [(0, 1, 1)])), asks (req 3 1 1 (blob 32 [(0, 1, 1)])) live, by decide⟩

theorem wit_HoistsMovePages_3 : ∃ (ctx idx ch : Nat) (r : Request) (a b : Tier) (s : State), s.firstWaiting ctx = some r ∧ r.idx = idx ∧ s.hoistTurn = some ctx ∧ 4 ≤ ch ∧ ch < 32 ∧ (s.chan ch).busy = false ∧ s.pw.fabricPaused = false ∧ s.hoistUnmapped (tierCmd r.body) = none ∧ s.tierAt (tierCmd r.body).src (unitBytes (tierCmd r.body).unit) = some a ∧ s.tierAt (tierCmd r.body).dst (unitBytes (tierCmd r.body).unit) = some b ∧ s.hoistHeld ctx (tierCmd r.body).src ((tierCmd r.body).pages * unitBytes (tierCmd r.body).unit) a = true ∧ s.hoistHeld ctx (tierCmd r.body).dst ((tierCmd r.body).pages * unitBytes (tierCmd r.body).unit) b = true :=
  ⟨3, 1, 31, (req 3 1 1 (blob 32 [(0, 1, 1), (2, 1, 1), (4, 4, 1), (8, 8, 0x10001000000), (16, 8, 0x10001010000)])), .hbm, .hbm, asks (req 3 1 1 (blob 32 [(0, 1, 1), (2, 1, 1), (4, 4, 1), (8, 8, 0x10001000000), (16, 8, 0x10001010000)])) { live with tiers := { live.tiers with runs := [{ first := 0, pages := 1024, ctx := 3, kind := .alloc }], waiting := [(3, 1)] } }, by decide⟩

theorem wit_HoistsMovePages_4 : ∃ (ch line slot : Nat) (s : State), (s.chan ch).busy = true ∧ (s.chan ch).held = false ∧ (s.chan ch).firmware = false ∧ (s.chan ch).next < (s.chan ch).total ∧ ((s.hoistPass ch 2048).chan ch).passed < (s.chan ch).unit / 1024 :=
  ⟨4, 0, 0, { live with tiers := { live.tiers with chans := [(4, { busy := true, total := 1, src := 0x10001000000, dst := 0x10001010000 })] } }, by decide +kernel⟩

theorem wit_HoistsMovePages_5 : ∃ (ch line slot : Nat) (k : Tier) (s : State), s.memOk ∧ (s.chan ch).busy = true ∧ (s.chan ch).held = false ∧ (s.chan ch).firmware = false ∧ (s.chan ch).next < (s.chan ch).total ∧ 1024 ≤ (s.chan ch).unit ∧ (s.chan ch).unit / 1024 ≤ ((s.hoistPass ch 2048).chan ch).passed ∧ s.storeWaits ((s.chan ch).src + (s.chan ch).next * (s.chan ch).unit) ((s.chan ch).dst + (s.chan ch).next * (s.chan ch).unit) = false ∧ moduleOf ((s.chan ch).src + (s.chan ch).next * (s.chan ch).unit) = s.moduleId ∧ moduleOf ((s.chan ch).dst + (s.chan ch).next * (s.chan ch).unit) = s.moduleId ∧ tierOf (localOf ((s.chan ch).dst + (s.chan ch).next * (s.chan ch).unit)) = some k ∧ k ≠ .store ∧ s.noDescs (localOf ((s.chan ch).dst + (s.chan ch).next * (s.chan ch).unit)) (s.chan ch).unit ∧ (s.pageFault (s.chan ch) 0 0 ((s.chan ch).src + (s.chan ch).next * (s.chan ch).unit) ((s.chan ch).dst + (s.chan ch).next * (s.chan ch).unit)).1 = 0 :=
  ⟨4, 0, 0, .hbm, { live with tiers := { live.tiers with chans := [(4, { busy := true, total := 1, src := 0x10001000000, dst := 0x10001010000, passed := 64 })] } }, by decide +kernel⟩

/-! #### PagesAllocated -/

theorem wit_PagesAllocated_1 : ∃ (ctx idx first p : Nat) (r : Request) (s : State), s.tierAsk ctx idx 2 = some r ∧ r.begun = false ∧ s.mayStart r = true ∧ allocBad r.body = false ∧ (tierCmd r.body).cls = 1 ∧ pickRun s.hbmGaps first (tierCmd r.body).pages = some p :=
  ⟨3, 1, 5, 5, (req 3 1 1 (blob 32 [(0, 1, 2), (2, 1, 1), (4, 4, 1), (8, 8, chooseAny)])), asks (req 3 1 1 (blob 32 [(0, 1, 2), (2, 1, 1), (4, 4, 1), (8, 8, chooseAny)])) live, by decide⟩

theorem wit_PagesAllocated_2 : ∃ (ctx idx : Nat) (r : Request) (s : State), s.tierAsk ctx idx 3 = some r ∧ r.begun = false ∧ s.mayStart r = true ∧ allocBad r.body = false ∧ (tierCmd r.body).cls = 1 ∧ tierOf (tierCmd r.body).src = some .hbm ∧ s.freeable ctx (tierCmd r.body).src (tierCmd r.body).pages = true :=
  ⟨3, 1, (req 3 1 1 (blob 32 [(0, 1, 3), (2, 1, 1), (4, 4, 1), (8, 8, 0x10001000000)])), asks (req 3 1 1 (blob 32 [(0, 1, 3), (2, 1, 1), (4, 4, 1), (8, 8, 0x10001000000)])) { live with tiers := { live.tiers with runs := [{ first := 0, pages := 300, ctx := 3, kind := .alloc }] } }, by decide⟩

theorem wit_PagesAllocated_3 : ∃ (ctx idx : Nat) (r : Request) (s : State), s.tierAsk ctx idx 3 = some r ∧ r.begun = false ∧ s.mayStart r = true ∧ allocBad r.body = false ∧ (tierCmd r.body).cls = 2 ∧ tierOf (tierCmd r.body).src = some .store ∧ s.freeable ctx (tierCmd r.body).src (tierCmd r.body).pages = true :=
  ⟨3, 1, (req 3 1 1 (blob 32 [(0, 1, 3), (2, 1, 2), (4, 4, 1), (8, 8, 0x800000000000)])), asks (req 3 1 1 (blob 32 [(0, 1, 3), (2, 1, 2), (4, 4, 1), (8, 8, 0x800000000000)])) { live with tiers := { live.tiers with map := [(0, { state := .data, ctx := 3 })] } }, by decide⟩

theorem wit_PagesAllocated_4 : ∃ (ctx idx first p : Nat) (r : Request) (s : State), s.tierAsk ctx idx 2 = some r ∧ r.begun = false ∧ s.mayStart r = true ∧ allocBad r.body = false ∧ (tierCmd r.body).cls = 2 ∧ (tierCmd r.body).src = chooseAny ∧ pickRun s.storeGaps first (tierCmd r.body).pages = some p ∧ (tierCmd r.body).pages ≤ (s.pool (storePool ctx)).returned :=
  ⟨3, 1, 5, 5, (req 3 1 1 (blob 32 [(0, 1, 2), (2, 1, 2), (4, 4, 1), (8, 8, chooseAny)])), pools 291 { size := 1, returned := 1 } (asks (req 3 1 1 (blob 32 [(0, 1, 2), (2, 1, 2), (4, 4, 1), (8, 8, chooseAny)])) live), by decide⟩

theorem wit_PagesAllocated_5 : ∃ (ctx idx first : Nat) (r : Request) (s : State), s.tierAsk ctx idx 2 = some r ∧ r.begun = false ∧ s.mayStart r = true ∧ allocBad r.body = true :=
  ⟨3, 1, 5, (req 3 1 1 (blob 32 [(0, 1, 2), (2, 1, 1), (8, 8, chooseAny)])), asks (req 3 1 1 (blob 32 [(0, 1, 2), (2, 1, 1), (8, 8, chooseAny)])) live, by decide⟩

theorem wit_PagesAllocated_6 : ∃ (ctx : Nat) (s : State), s.tiers.cmdBusy = false ∧ s.loader.loaded = none :=
  ⟨3, live, by decide⟩

theorem wit_PagesAllocated_7 : ∃ (ctx : Nat) (s : State), s.tiers.cmdBusy = false ∧ s.loader.loaded.isSome = true :=
  ⟨3, plan [] live, by decide⟩

theorem wit_PagesAllocated_8 : ∃ (s : State), s.tiers.cmdBusy = false ∧ (s.otp 2).consumed < 4 :=
  ⟨live, by decide⟩

theorem wit_PagesAllocated_9 : ∃ (st ch bank row : Nat) (pages : List Nat) (s : State), s.tiers.hbmReady = true ∧ s.tiers.rowRepair = none ∧ st < 8 ∧ ch < 12 ∧ bank < 32 ∧ (∀ a, a ∈ pages → hbmStation a = st ∧ hbmChannel a = ch) :=
  ⟨0, 0, 31, 0, [hbmBase], live, by decide⟩

theorem wit_PagesAllocated_10 : ∃ (st ch bank row a : Nat) (pages : List Nat) (s : State), a ∈ pages ∧ (hbmStation a ≠ st ∨ hbmChannel a ≠ ch) :=
  ⟨1, 0, 0, 0, hbmBase, [hbmBase], live, by decide⟩

theorem wit_PagesAllocated_11 : ∃ (r : RowRepair) (s : State), s.tiers.rowRepair = some r :=
  ⟨{ station := 0, channel := 0, bank := 0, row := 0, spare := 0 }, { live with tiers := { live.tiers with rowRepair := some { station := 0, channel := 0, bank := 0, row := 0, spare := 0 } } }, by decide⟩

theorem wit_PagesAllocated_12 : ∃ (ctx idx first : Nat) (c : Instr) (s : State), c ∈ [.alloc ctx idx first, .free ctx idx] :=
  ⟨0, 0, 0, .alloc 0 0 0, live, by decide⟩

theorem wit_PagesAllocated_15 : ∃ (station channel bank row : Nat) (lines : List Nat) (c : Instr) (s : State), c ∈ [.hbmRowRepair station channel bank row lines, .hbmRepairDone] :=
  ⟨0, 0, 0, 0, [], .hbmRowRepair 0 0 0 0 [], live, by decide⟩

/-! #### TierRequests -/

theorem wit_TierRequests_1 : ∃ (m stage id cls hbm pond len : Nat) (w : Bool) (q : TierReq) (s : State), m < 16 ∧ s.millWorks m = true ∧ s.pw.fabricPaused = false ∧ s.tierReq m stage id = none ∧ s.tiers.results.any (fun x => x.mill = m && x.stage = stage && x.id = id) = false ∧ 0 < (s.pool (tokenPool m)).held + (s.pool (tokenPool m)).returned ∧ (len = 65536 ∨ len = 4096) ∧ s.stageWorks m stage = true ∧ moduleOf hbm = s.moduleId ∧ s.stationFull cls (localOf hbm) len = false ∧ q = TierReq.mk m stage id cls w (((s.mill m).sec.map Section.ctx).getD 0) hbm pond len none s.now :=
  ⟨0, 0, 0, 2, 0x10001000000, 0, 4096, false, TierReq.mk 0 0 0 2 false 0 0x10001000000 0 4096 none 0, pools 128 { size := 1, held := 1 } (live.setMill 0 { state := .run }), by decide⟩

theorem wit_TierRequests_2 : ∃ (m stage id : Nat) (r : TierReq) (k : Tier) (s : State), s.memOk ∧ s.tierReq m stage id = some r ∧ r.remote = none ∧ r.write = false ∧ s.poisonedIn r.hbm r.len = false ∧ s.noDescs r.pond r.len ∧ tierOf r.hbm ≠ none ∧ tierOf r.pond = some k :=
  ⟨0, 0, 0, { mill := 0, stage := 0, id := 0, cls := 2, write := false, ctx := 0, hbm := 0x10001000000, pond := 0, len := 4096 }, .pond, { live with tiers := { live.tiers with reqs := [{ mill := 0, stage := 0, id := 0, cls := 2, write := false, ctx := 0, hbm := 0x10001000000, pond := 0, len := 4096 }] } }, by decide⟩

theorem wit_TierRequests_3 : ∃ (m stage id : Nat) (ue : Option Nat) (r : TierReq) (k : Tier) (s : State), s.memOk ∧ s.tierReq m stage id = some r ∧ r.remote = none ∧ r.write = true ∧ s.noDescs r.hbm r.len ∧ tierOf r.pond ≠ none ∧ tierOf r.hbm = some k :=
  ⟨0, 0, 0, none, { mill := 0, stage := 0, id := 0, cls := 2, write := true, ctx := 0, hbm := 0x10001000000, pond := 0, len := 4096 }, .hbm, { live with tiers := { live.tiers with reqs := [{ mill := 0, stage := 0, id := 0, cls := 2, write := true, ctx := 0, hbm := 0x10001000000, pond := 0, len := 4096 }] } }, by decide⟩

theorem wit_TierRequests_4 : ∃ (m stage id l : Nat) (r : TierReq) (s : State), s.tierReq m stage id = some r ∧ r.remote = none ∧ r.write = false :=
  ⟨0, 0, 0, 0, { mill := 0, stage := 0, id := 0, cls := 2, write := false, ctx := 0, hbm := 0x10001000000, pond := 0, len := 4096 }, { live with tiers := { live.tiers with reqs := [{ mill := 0, stage := 0, id := 0, cls := 2, write := false, ctx := 0, hbm := 0x10001000000, pond := 0, len := 4096 }] } }, by decide⟩

theorem wit_TierRequests_5 : ∃ (m stage id : Nat) (r : TierReq) (s : State), s.px.colls = [] ∧ s.tierReq m stage id = some r ∧ r.remote = none ∧ r.write = false ∧ s.reqLate r = true ∧ s.pw.fabricPaused = false :=
  ⟨0, 0, 0, { mill := 0, stage := 0, id := 0, cls := 2, write := false, ctx := 0, hbm := 0x10001000000, pond := 0, len := 4096 }, { live with tm := { live.tm with copies := [2 ^ 80, 2 ^ 80, 2 ^ 80] }, tiers := { live.tiers with reqs := [{ mill := 0, stage := 0, id := 0, cls := 2, write := false, ctx := 0, hbm := 0x10001000000, pond := 0, len := 4096 }] } }, by decide⟩

/-! #### BatchesChecked -/

theorem wit_BatchesChecked_1 : ∃ (ctx idx b : Nat) (r : Request) (x : Batch) (s : State), s.bolterAsk ctx idx = some r ∧ r.begun = false ∧ leAt r.body 0 1 = 1 ∧ b = leAt r.body 1 1 ∧ b < 2 ∧ leAt r.body 2 6 = 0 ∧ leAt r.body 24 8 = 0 ∧ (s.bolter b).sec.isSome = true ∧ (s.bolter b).ctx = ctx ∧ (s.bolter b).stopped = false ∧ x = s.batchAt (leAt r.body 8 8) ctx (some idx) (leAt r.body 16 8) ∧ s.inRegion ctx (leAt r.body 8 8) 64 = true ∧ s.inRegion ctx (leAt r.body 8 8) x.size = true ∧ (leAt r.body 16 8 = 0 ∨ s.inRegion ctx (leAt r.body 16 8) (64 + 32 * x.waypoints) = true) ∧ s.batchOk (s.bolter b).cfg x = true ∧ (s.bolter b).queue.length < 8 :=
  ⟨3, 1, 0, (req 3 1 4 (blob 32 [(0, 1, 1), (8, 8, 0x10001000000)])), { ctx := 3, idx := some 1, addr := 0x10001000000, resultAddr := 0, candidates := 1, waypoints := 1, urgent := false, toGov := false, batchId := 0, planStart := 0, deadline := 0 }, asks (req 3 1 4 (blob 32 [(0, 1, 1), (8, 8, 0x10001000000)])) (({ plan [mkSec 4 3 3 (blob 64 [(13, 1, 1), (32, 8, 0x10001000000), (40, 4, 1)])] live with bolters := [(0, { sec := some (mkSec 5 0 3 (blob 64 [(25, 1, 1), (12, 1, 1)])) })] }).setLocal 0x10001000000 (blob 128 [(0, 2, 1), (2, 1, 1), (112, 2, 0x3C00)])), by decide⟩

theorem wit_BatchesChecked_2 : ∃ (b : Nat) (x : Batch) (rest : List Batch) (s : State), (s.bolter b).queue = x :: rest ∧ (s.bolter b).state = .idle ∧ (s.bolter b).stopped = false ∧ (s.bolter b).pendingPyr = none ∧ (s.bolter b).sec.isSome = true ∧ s.bolterPaused = false :=
  ⟨0, { ctx := 3, idx := some 1, addr := 0, resultAddr := 0x10001000000, candidates := 1, waypoints := 1, urgent := false, toGov := false, batchId := 0, planStart := 0, deadline := 0 }, [], { plan [mkSec 4 3 3 (blob 64 [(13, 1, 1), (32, 8, 0x10001000000), (40, 4, 1)])] live with bolters := [(0, { sec := some (mkSec 5 0 3 (blob 64 [(25, 1, 1), (12, 1, 1)])), queue := [{ ctx := 3, idx := some 1, addr := 0, resultAddr := 0x10001000000, candidates := 1, waypoints := 1, urgent := false, toGov := false, batchId := 0, planStart := 0, deadline := 0 }] })] }, by decide⟩

theorem wit_BatchesChecked_3 : ∃ (b : Nat) (late : List Nat) (x : Batch) (s : State), (s.bolter b).cur = some x ∧ (s.bolter b).state = .checking ∧ s.now < x.deadline ∧ s.bolterPaused = false :=
  ⟨0, [], { ctx := 3, idx := some 1, addr := 0, resultAddr := 0x10001000000, candidates := 1, waypoints := 1, urgent := false, toGov := false, batchId := 0, planStart := 0, deadline := 9 }, { plan [mkSec 4 3 3 (blob 64 [(13, 1, 1), (32, 8, 0x10001000000), (40, 4, 1)])] live with bolters := [(0, { sec := some (mkSec 5 0 3 (blob 64 [(25, 1, 1), (12, 1, 1)])), state := .checking, cur := some { ctx := 3, idx := some 1, addr := 0, resultAddr := 0x10001000000, candidates := 1, waypoints := 1, urgent := false, toGov := false, batchId := 0, planStart := 0, deadline := 9 } })] }, by decide⟩

theorem wit_BatchesChecked_4 : ∃ (b : Nat) (tested late : List Nat) (x : Batch) (s : State), (s.bolter b).cur = some x ∧ (s.bolter b).state = .checking ∧ x.deadline ≤ s.now ∧ s.bolterPaused = false :=
  ⟨0, [], [], { ctx := 3, idx := some 1, addr := 0, resultAddr := 0x10001000000, candidates := 1, waypoints := 1, urgent := false, toGov := false, batchId := 0, planStart := 0, deadline := 0 }, { plan [mkSec 4 3 3 (blob 64 [(13, 1, 1), (32, 8, 0x10001000000), (40, 4, 1)])] live with bolters := [(0, { sec := some (mkSec 5 0 3 (blob 64 [(25, 1, 1), (12, 1, 1)])), state := .checking, cur := some { ctx := 3, idx := some 1, addr := 0, resultAddr := 0x10001000000, candidates := 1, waypoints := 1, urgent := false, toGov := false, batchId := 0, planStart := 0, deadline := 0 } })] }, by decide⟩

theorem wit_BatchesChecked_5 : ∃ (b idx : Nat) (r : Result) (q : Request) (s : State), b < 2 ∧ s.memOk ∧ s.bolterPaused = false ∧ (s.bolter b).stopped = false ∧ (s.bolter b).state = .waiting ∧ (s.bolter b).notices = [] ∧ (s.bolter b).pendingPyr = none ∧ (s.bolter b).result = some r ∧ r.batch.toGov = false ∧ r.batch.idx = some idx ∧ s.request r.batch.ctx idx = some q ∧ tierOf r.batch.resultAddr = some .hbm ∧ s.noDescs r.batch.resultAddr (s.resultRecord b r).length :=
  ⟨0, 1, { batch := { ctx := 3, idx := some 1, addr := 0, resultAddr := 0x10001000000, candidates := 1, waypoints := 1, urgent := false, toGov := false, batchId := 0, planStart := 0, deadline := 0 }, status := 0, timeout := false, rechecked := false, stale := false, lost := false, kept := [], colliding := none, epoch := 0, te := 0, checked := 0, valid := 0, elapsedUs := 0 }, (req 3 1 4 (zeros 32)), asks (req 3 1 4 (zeros 32)) ({ plan [mkSec 4 3 3 (blob 64 [(13, 1, 1), (32, 8, 0x10001000000), (40, 4, 1)])] live with bolters := [(0, { sec := some (mkSec 5 0 3 (blob 64 [(25, 1, 1), (12, 1, 1)])), state := .waiting, result := some { batch := { ctx := 3, idx := some 1, addr := 0, resultAddr := 0x10001000000, candidates := 1, waypoints := 1, urgent := false, toGov := false, batchId := 0, planStart := 0, deadline := 0 }, status := 0, timeout := false, rechecked := false, stale := false, lost := false, kept := [], colliding := none, epoch := 0, te := 0, checked := 0, valid := 0, elapsedUs := 0 } })] }), by decide⟩

theorem wit_BatchesChecked_7 : ∃ (b : Nat) (late tested : List Nat) (c : Instr) (s : State), c ∈ [.batchStart b, .checkingEnd b late, .batchDeadline b tested late] :=
  ⟨0, [], [], .batchStart 0, live, by decide⟩

/-! #### EpochsAndRepair -/

theorem wit_EpochsAndRepair_1 : ∃ (b n rows : Nat) (stamp : Int) (s : State), b < 2 ∧ (s.bolter b).sec.isSome = true ∧ (s.bolter b).building = none ∧ (s.bolter b).pendingPyr = none ∧ (s.bolter b).heldFrame = none ∧ n = (s.bolter b).frame ∧ (s.frameBuf ((s.bolter b).cfg.buffer n)).frame = n ∧ s.gridRows (s.bolter b).cfg.grid = some rows ∧ rows ≤ (s.frameBuf ((s.bolter b).cfg.buffer n)).rows ∧ s.bolterPaused = false :=
  ⟨0, 0, 4, 0, { runs 0 (mkSec 1 0 0 (blob 1728 [(0, 4, 0x12), (12, 2, 4), (14, 2, 4), (16, 2, 1), (18, 2, 1), (32, 2, 1), (34, 1, 1), (36, 8, 0x10000000000)])) ({ plan [mkSec 4 3 3 (blob 64 [(13, 1, 1), (32, 8, 0x10001000000), (40, 4, 1)])] live with bolters := [(0, { sec := some (mkSec 5 0 3 (blob 64 [(25, 1, 1), (12, 1, 1)])) })] }) with ops := { bufs := [(0, { rows := 4 })] } }, by decide +kernel⟩

theorem wit_EpochsAndRepair_2 : ∃ (b : Nat) (failed : List Nat) (p : Pyramid) (s : State), (s.bolter b).building = some p ∧ s.bolterPaused = false ∧ (s.bolter b).heldFrame = none :=
  ⟨0, [], { epoch := 0, te := 0, origin := [0, 0, 0], base := 0, grid := {}, failed := [] }, { plan [mkSec 4 3 3 (blob 64 [(13, 1, 1), (32, 8, 0x10001000000), (40, 4, 1)])] live with bolters := [(0, { sec := some (mkSec 5 0 3 (blob 64 [(25, 1, 1), (12, 1, 1)])), building := some { epoch := 0, te := 0, origin := [0, 0, 0], base := 0, grid := {}, failed := [] } })] }, by decide⟩

theorem wit_EpochsAndRepair_3 : ∃ (b : Nat) (p : Pyramid) (s : State), (s.bolter b).pendingPyr = some p ∧ (s.bolter b).state ≠ .checking ∧ (s.bolter b).state ≠ .rechecking ∧ (s.bolter b).heldFrame = none :=
  ⟨0, { epoch := 0, te := 0, origin := [0, 0, 0], base := 0, grid := {}, failed := [] }, { plan [mkSec 4 3 3 (blob 64 [(13, 1, 1), (32, 8, 0x10001000000), (40, 4, 1)])] live with bolters := [(0, { sec := some (mkSec 5 0 3 (blob 64 [(25, 1, 1), (12, 1, 1)])), pendingPyr := some { epoch := 0, te := 0, origin := [0, 0, 0], base := 0, grid := {}, failed := [] } })] }, by decide⟩

theorem wit_EpochsAndRepair_4 : ∃ (ctx idx b : Nat) (r : Request) (s : State), s.bolterAsk ctx idx = some r ∧ r.begun = false ∧ leAt r.body 0 1 = 2 ∧ b = leAt r.body 1 1 ∧ b < 2 ∧ allZero (r.body.drop 2) = true ∧ (s.bolter b).sec.isSome = true ∧ (s.bolter b).ctx = ctx :=
  ⟨3, 1, 0, (req 3 1 4 (blob 32 [(0, 1, 2)])), asks (req 3 1 4 (blob 32 [(0, 1, 2)])) ({ plan [mkSec 4 3 3 (blob 64 [(13, 1, 1), (32, 8, 0x10001000000), (40, 4, 1)])] live with bolters := [(0, { sec := some (mkSec 5 0 3 (blob 64 [(25, 1, 1), (12, 1, 1)])) })] }), by decide⟩

theorem wit_EpochsAndRepair_5 : ∃ (b addr k : Nat) (x : Batch) (s : State), b < 2 ∧ (s.bolter b).signal = some k ∧ (s.bolter b).sec.isSome = true ∧ (s.bolter b).stopped = false ∧ (s.bolter b).queue.length < 8 ∧ x = { s.batchAt addr (s.bolter b).ctx none 0 with urgent := true, toGov := true, repair := true } ∧ s.inRegion (s.bolter b).ctx addr x.size = true ∧ s.batchOk (s.bolter b).cfg x = true ∧ ((s.bolter b).fullReplan = true ∨ s.repairKeeps (s.bolter b) x k = true) :=
  ⟨0, 0x10001000000, 9, { ctx := 3, idx := none, addr := 0x10001000000, resultAddr := 0, candidates := 1, waypoints := 1, urgent := true, toGov := true, batchId := 0, planStart := 0, deadline := 0, repair := true }, ({ plan [mkSec 4 3 3 (blob 64 [(13, 1, 1), (32, 8, 0x10001000000), (40, 4, 1)])] live with bolters := [(0, { sec := some (mkSec 5 0 3 (blob 64 [(25, 1, 1), (12, 1, 1)])), signal := some 9, fullReplan := true })] }).setLocal 0x10001000000 (blob 128 [(0, 2, 1), (2, 1, 1), (112, 2, 0x3C00)]), by decide⟩

theorem wit_EpochsAndRepair_6 : ∃ (b n : Nat) (stamp : Int) (failed : List Nat) (c : Instr) (s : State), c ∈ [.gridPublish b n stamp, .pyramidBuildDone b failed, .pyramidActivate b] :=
  ⟨0, 0, 0, [], .gridPublish 0 0 0, live, by decide⟩

/-! #### BrakeWheelCommands -/

theorem wit_BrakeWheelCommands_1 : ∃ (s : State), s.pw.motionOn = true ∧ s.gov.wheel.state = .standby ∧ s.gov.sec.isSome = true ∧ 2 ≤ s.lanesIn.length :=
  ⟨live, by decide⟩

theorem wit_BrakeWheelCommands_2 : ∃ (s : State), s.pw.motionOn = true ∧ (s.gov.wheel.state ≠ .standby ∨ s.gov.sec = none ∨ s.lanesIn.length < 2) :=
  ⟨inWheel .run live, by decide⟩

theorem wit_BrakeWheelCommands_3 : ∃ (s : State), s.pw.motionOn = true ∧ 4 ∉ s.gov.wheel.hold :=
  ⟨inWheel .run live, by decide⟩

theorem wit_BrakeWheelCommands_4 : ∃ (s : State), s.pw.motionOn = true ∧ 4 ∈ s.gov.wheel.hold :=
  ⟨{ live with gov := { live.gov with wheel := { state := .hold, hold := [4] } } }, by decide⟩

theorem wit_BrakeWheelCommands_5 : ∃ (s : State), s.pw.motionOn = true ∧ 3 ∉ s.gov.wheel.sto :=
  ⟨inWheel .run live, by decide⟩

theorem wit_BrakeWheelCommands_6 : ∃ (a b : Nat) (s : State), s.pw.motionOn = true ∧ s.gov.wheel.state = .sto ∧ 2 ≤ s.lanesIn.length ∧ s.gov.noMajority = false ∧ s.tm.copies = [a, a, b] ∧ s.gov.wheel.everReset = false :=
  ⟨0, 0, inWheel .sto live, by decide⟩

theorem wit_BrakeWheelCommands_7 : ∃ (s : State), s.pw.motionOn = true ∧ (s.gov.wheel.state ≠ .sto ∨ s.lanesIn.length < 2 ∨ s.gov.noMajority = true ∨ s.gov.wheel.everReset = true) :=
  ⟨live, by decide⟩

theorem wit_BrakeWheelCommands_8 : ∃ (since : Nat) (s : State), s.gov.singleSince = some since ∧ s.gov.sec.isSome = true ∧ since + 1000000 * singleMs s.govBody ≤ s.now :=
  ⟨0, { live with gov := { live.gov with singleSince := some 0 }, tm := { live.tm with copies := [2 ^ 80, 2 ^ 80, 2 ^ 80] } }, by decide +kernel⟩

theorem wit_BrakeWheelCommands_10 : ∃ (c : Instr) (s : State), c ∈ [.release, .stop, .clearSto, .singleLaneTimeout] :=
  ⟨.release, live, by decide⟩

/-! #### StoKept -/

theorem wit_StoKept_1 : ∃ (s t : State), s.gov.wheel.state = .sto ∧ s.pending.head? ≠ some .clearSto ∧ (∀ c dev, s.pending.head? = some (.voteV2 c dev) → ∀ e, e ∈ dev → ∀ x, e.2 = some x → x.1 ≠ 0x10) ∧ step s = .next t :=
  ⟨{ inWheel .sto live with pending := [.refresh] }, _, by decide, by decide, (by intro c dev h; cases h), rfl⟩

/-! #### LaneStates -/

theorem wit_LaneStates_1 : ∃ (l : Nat) (s : State), l < 3 ∧ s.pw.motionOn = true ∧ (s.lane l).state = .isolated ∧ 2 ≤ s.lanesIn.length ∧ s.sec.update.phase ≠ .apply :=
  ⟨2, { live with gov := { live.gov with lanes := [(2, { state := .isolated })] } }, by decide⟩

theorem wit_LaneStates_2 : ∃ (l : Nat) (s : State), s.lanesIn.length < 2 ∧ s.loadsStaged l = false :=
  ⟨0, { live with gov := { live.gov with lanes := [(1, { state := .out }), (2, { state := .out })] } }, by decide⟩

theorem wit_LaneStates_3 : ∃ (l : Nat) (s : State), l < 3 ∧ s.pw.motionOn = true ∧ (s.lane l).state = .reloading ∧ (s.lane l).copied = false ∧ 2 ≤ s.lanesIn.length :=
  ⟨2, { live with gov := { live.gov with lanes := [(2, { state := .reloading })] } }, by decide⟩

theorem wit_LaneStates_4 : ∃ (l : Nat) (s : State), l < 3 ∧ s.pw.motionOn = true ∧ (s.lane l).state = .reloading ∧ (s.lane l).copied = false ∧ 2 ≤ s.lanesIn.length :=
  ⟨2, { live with gov := { live.gov with lanes := [(2, { state := .reloading })] } }, by decide⟩

theorem wit_LaneStates_5 : ∃ (l : Nat) (s : State), l < 3 ∧ s.pw.motionOn = true ∧ (s.lane l).state = .shadow ∧ 8 ≤ (s.lane l).shadow :=
  ⟨2, { live with gov := { live.gov with lanes := [(2, { state := .shadow, shadow := 8 })] } }, by decide⟩

theorem wit_LaneStates_6 : ∃ (l : Nat) (s : State), ((s.lane l).state ≠ .shadow ∨ (s.lane l).shadow < 8) :=
  ⟨2, { live with gov := { live.gov with lanes := [(2, { state := .shadow, shadow := 7 })] } }, by decide⟩

theorem wit_LaneStates_7 : ∃ (l : Nat) (s : State), l < 3 ∧ s.pw.motionOn = true ∧ s.laneIn l = true :=
  ⟨0, live, by decide⟩

theorem wit_LaneStates_8 : ∃ (l : Nat) (s : State), l < 3 ∧ s.pw.motionOn = true ∧ (s.lane l).state = .out ∧ 2 ≤ s.lanesIn.length :=
  ⟨2, { live with gov := { live.gov with lanes := [(2, { state := .out })] } }, by decide⟩

theorem wit_LaneStates_9 : ∃ (l : Nat) (s : State), s.pw.motionOn = true ∧ (3 ≤ l ∨ (s.lane l).state ≠ .out ∨ s.lanesIn.length < 2) :=
  ⟨3, live, by decide⟩

theorem wit_LaneStates_12 : ∃ (l : Nat) (c : Instr) (s : State), c ∈ [.shadowPass l, .laneWatchdogExpiry l] :=
  ⟨0, .shadowPass 0, live, by decide⟩

/-! #### VotingPoints -/

theorem wit_VotingPoints_1 : ∃ (s : State), s.pw.motionOn = true ∧ s.gov.tickFused ≠ [] ∧ s.lanesIn ≠ [] :=
  ⟨{ live with gov := { live.gov with tickFused := [1] } }, by decide⟩

theorem wit_VotingPoints_2 : ∃ (l off v : Nat) (s : State), l < 3 ∧ s.pw.motionOn = true ∧ s.lanesIn = [0, 1, 2] ∧ off % 4 = 0 ∧ off < 4 * s.gov.tickFused.length ∧ v % 2 ^ 32 ≠ nth s.gov.tickFused (off / 4) 0 :=
  ⟨2, 4, 7, { live with gov := { live.gov with tickFused := [0x22, 1, 0, 0] } }, by decide⟩

theorem wit_VotingPoints_3 : ∃ (l : Nat) (s : State), l < 3 ∧ s.pw.motionOn = true ∧ s.gov.tickFused ≠ [] ∧ s.lanesIn = [0, 1, 2] :=
  ⟨2, { live with gov := { live.gov with tickFused := [1] } }, by decide⟩

theorem wit_VotingPoints_4 : ∃ (off v : Nat) (s : State), s.pw.motionOn = true ∧ s.lanesIn = [0, 1] ∧ off % 4 = 0 ∧ off < 4 * s.gov.tickFused.length ∧ v % 2 ^ 32 ≠ nth s.gov.tickFused (off / 4) 0 :=
  ⟨4, 7, { live with gov := { live.gov with tickFused := [0x22, 1, 0, 0], lanes := [(2, { state := .out })] } }, by decide⟩

theorem wit_VotingPoints_5 : ∃ (dev : List (Nat × Option (Nat × Nat))) (s : State), s.gov.tickFused = [] :=
  ⟨[], live, by decide⟩

theorem wit_VotingPoints_6 : ∃ (cycles : Nat) (u s : State), s.pw.motionOn = true ∧ s.tm.running = true ∧ s.gov.sec.isSome = true ∧ (s.fwClass 3).valid = true ∧ s.lanesIn ≠ [] ∧ (s.pw.supply ≠ .shutdown ∨ s.stoDone = false) ∧ (u = (if s.gov.wheel.state ≠ .standby ∧ s.gov.wheel.state ≠ .sto ∧ s.gov.setPoint = none ∧ s.gov.latch = [] then { s with gov := { s.gov with latch := s.votedQ } } else s)) :=
  ⟨0, _, { live with sec := { live.sec with classes := [(3, { valid := true })] } }, by decide, by decide, by decide, by decide, by decide, by decide, rfl⟩

theorem wit_VotingPoints_7 : ∃ (cycles : Nat) (s : State), s.pw.motionOn = true ∧ s.tm.running = true ∧ s.gov.sec.isSome = true ∧ (s.fwClass 3).valid = true ∧ s.lanesIn = [0, 1, 2] ∧ s.gov.wheel.state = .sto ∧ s.pw.supply ≠ .shutdown ∧ (s.queue 0).length < 4 ∧ (s.queue 1).length < 4 :=
  ⟨0, inWheel .sto { live with sec := { live.sec with classes := [(3, { valid := true })] } }, by decide +kernel⟩

theorem wit_VotingPoints_8 : ∃ (cycles : Nat) (dev : List (Nat × Option (Nat × Nat))) (s : State), s.pw.motionOn = true ∧ s.tm.running = true ∧ s.gov.sec.isSome = true ∧ (s.fwClass 3).valid = true ∧ s.lanesIn ≠ [] ∧ (∀ l, l ∈ s.lanesIn → Strays.absent dev l = true) ∧ s.gov.votedFrame ≠ [] :=
  ⟨0, [(0, none), (1, none), (2, none)], { { live with sec := { live.sec with classes := [(3, { valid := true })] } } with gov := { live.gov with votedFrame := [1] } }, by decide⟩

theorem wit_VotingPoints_9 : ∃ (a i e : Nat) (out : Extract) (s : State), s.pw.motionOn = true ∧ s.gov.sec.isSome = true ∧ s.gov.v3Done = false ∧ s.sol.stages ≠ [] ∧ s.gov.wheel.state ≠ .standby ∧ s.gov.wheel.state ≠ .sto ∧ s.lanesIn ≠ [] :=
  ⟨1, 1, 1, { gainMode := 0, points := [], gainShift := [], gains := [], sats := 0 }, { inWheel .run live with sol := { stages := [{ h := { rows := [], exp := 0 }, g := [], gExp := 0, c := { rows := [], exp := 0 }, lo := [], hi := [], shared := [] }] } }, by decide⟩

theorem wit_VotingPoints_10 : ∃ (a i e : Nat) (out : Extract) (dev : List (Nat × Option (Nat × Nat))) (s : State), s.pw.motionOn = true ∧ s.gov.sec.isSome = true ∧ s.gov.v3Done = false ∧ s.sol.stages ≠ [] ∧ s.gov.wheel.state ≠ .standby ∧ s.gov.wheel.state ≠ .sto ∧ s.lanesIn ≠ [] ∧ (∀ l, l ∈ s.lanesIn → Strays.absent dev l = true) :=
  ⟨1, 1, 1, { gainMode := 0, points := [], gainShift := [], gains := [], sats := 0 }, [(0, none), (1, none), (2, none)], { inWheel .run live with sol := { stages := [{ h := { rows := [], exp := 0 }, g := [], gExp := 0, c := { rows := [], exp := 0 }, lo := [], hi := [], shared := [] }] } }, by decide⟩

theorem wit_VotingPoints_11 : ∃ (a i e : Nat) (out : Extract) (dev : List (Nat × Option (Nat × Nat))) (s : State), (s.gov.v3Done = true ∨ s.gov.wheel.state = .standby ∨ s.gov.wheel.state = .sto) :=
  ⟨1, 1, 1, { gainMode := 0, points := [], gainShift := [], gains := [], sats := 0 }, [], live, by decide⟩

theorem wit_VotingPoints_12 : ∃ (r : Nat) (s : State), s.pw.motionOn = true ∧ s.gov.sec.isSome = true ∧ r < leAt s.govBody 0x20 1 ∧ leAt s.govBody (0x40 + 16 * r + 3) 1 < Tbl.getD s.gov.returns r 0 ∧ s.lanesIn ≠ [] :=
  ⟨0, { live with gov := { live.gov with returns := [(0, 1)] } }, by decide +kernel⟩

theorem wit_VotingPoints_13 : ∃ (r : Nat) (dev : List (Nat × Option (Nat × Nat))) (s : State), s.pw.motionOn = true ∧ s.gov.sec.isSome = true ∧ r < leAt s.govBody 0x20 1 ∧ leAt s.govBody (0x40 + 16 * r + 3) 1 < Tbl.getD s.gov.returns r 0 ∧ s.lanesIn ≠ [] ∧ (∀ l, l ∈ s.lanesIn → Strays.absent dev l = true) ∧ s.returnItem (leAt s.govBody (0x40 + 16 * r) 1) ≠ [] :=
  ⟨0, [(0, none), (1, none), (2, none)], { live with gov := { live.gov with returns := [(0, 1)], sec := some (mkSec 7 0 0 (blob 0x80 [(0x20, 1, 1), (0x40, 1, 3)])) } }, by decide +kernel⟩

theorem wit_VotingPoints_14 : ∃ (r : Nat) (dev : List (Nat × Option (Nat × Nat))) (s : State), Tbl.getD s.gov.returns r 0 ≤ leAt s.govBody (0x40 + 16 * r + 3) 1 :=
  ⟨0, [], live, by decide +kernel⟩

/-! #### TicksAndRecords -/

theorem wit_TicksAndRecords_1 : ∃ (s : State), s.pw.motionOn = true ∧ s.tm.running = true ∧ s.gov.sec.isSome = true ∧ s.armedTick = none :=
  ⟨live, by decide⟩

theorem wit_TicksAndRecords_2 : ∃ (s : State), s.armedTick.isSome = true :=
  ⟨{ live with tm := { live.tm with armed := some (0, 1000000) } }, by decide⟩

theorem wit_TicksAndRecords_3 : ∃ (s : State), s.pw.motionOn = true ∧ s.tm.running = true ∧ s.gov.sec.isSome = true ∧ s.gov.windowClosed = false :=
  ⟨live, by decide⟩

theorem wit_TicksAndRecords_4 : ∃ (s : State), s.gov.windowClosed = true :=
  ⟨{ live with gov := { live.gov with windowClosed := true } }, by decide +kernel⟩

theorem wit_TicksAndRecords_5 : ∃ (qp : List QpStage) (x : Section) (s : State), s.pw.motionOn = true ∧ s.tm.running = true ∧ s.gov.nextSec = some x :=
  ⟨[], mkSec 7 0 0 (zeros 0x80), { live with gov := { live.gov with nextSec := some (mkSec 7 0 0 (zeros 0x80)) } }, by decide +kernel⟩

theorem wit_TicksAndRecords_6 : ∃ (qp : List QpStage) (s : State), s.pw.motionOn = true ∧ s.tm.running = true ∧ s.gov.nextSec = none ∧ s.gov.sec.isSome = true :=
  ⟨[], live, by decide⟩

theorem wit_TicksAndRecords_7 : ∃ (q cycles : Nat) (p : Parcel) (rest : List Parcel) (s : State), q < 16 ∧ (s.gq q).sec.isSome = true ∧ (s.gq q).cfg.kind = 1 ∧ Tbl.getD s.leat.arrived (govDest q) [] = p :: rest ∧ p.cls = 0 ∧ p.last = false :=
  ⟨0, 1, { dest := 30, cls := 0, ctx := 0, last := false }, [], { live with gov := { live.gov with queues := [(0, { sec := some (mkSec 6 0 0 (blob 32 [(0, 1, 1)])) })] }, leat := { arrived := [(govDest 0, [{ dest := 30, cls := 0, ctx := 0, last := false }])] } }, by decide⟩

theorem wit_TicksAndRecords_8 : ∃ (q cycles : Nat) (p : Parcel) (rest : List Parcel) (s : State), q < 16 ∧ (s.gq q).sec.isSome = true ∧ (s.gq q).cfg.kind = 1 ∧ Tbl.getD s.leat.arrived (govDest q) [] = p :: rest ∧ p.cls = 0 ∧ p.last = true ∧ badBlocks (s.gq q).cfg.tagLimit (({ s.gq q with slots := (s.gq q).slots ++ [p] } : GovQueue).recordOf p) ≠ 0 :=
  ⟨0, 1, { dest := 30, cls := 0, ctx := 0, last := true, blocks := 1, status := [3], payload := zeros 32, tags := [0] }, [], { live with gov := { live.gov with queues := [(0, { sec := some (mkSec 6 0 0 (blob 32 [(0, 1, 1)])) })] }, leat := { arrived := [(govDest 0, [{ dest := 30, cls := 0, ctx := 0, last := true, blocks := 1, status := [3], payload := zeros 32, tags := [0] }])] } }, by decide⟩

theorem wit_TicksAndRecords_9 : ∃ (q cycles : Nat) (p : Parcel) (rest ps : List Parcel) (s : State), q < 16 ∧ (s.gq q).sec.isSome = true ∧ (s.gq q).cfg.kind = 0 ∧ Tbl.getD s.leat.arrived (govDest q) [] = p :: rest ∧ p.cls = 0 ∧ p.last = true ∧ ps = ({ s.gq q with slots := (s.gq q).slots ++ [p] } : GovQueue).recordOf p ∧ badBlocks (s.gq q).cfg.tagLimit ps = 0 ∧ leAt (recordBytes ps) 0 1 = 0 :=
  ⟨0, 1, { dest := 30, cls := 0, ctx := 0, last := true, blocks := 1, status := [0], payload := zeros 32, tags := [0] }, [], [{ dest := 30, cls := 0, ctx := 0, last := true, blocks := 1, status := [0], payload := zeros 32, tags := [0] }], { live with gov := { live.gov with queues := [(0, { sec := some (mkSec 6 0 0 (blob 32 [(0, 1, 0)])) })] }, leat := { arrived := [(govDest 0, [{ dest := 30, cls := 0, ctx := 0, last := true, blocks := 1, status := [0], payload := zeros 32, tags := [0] }])] } }, by decide⟩

theorem wit_TicksAndRecords_10 : ∃ (q cycles : Nat) (p : Parcel) (rest ps : List Parcel) (s : State), q < 16 ∧ (s.gq q).sec.isSome = true ∧ (s.gq q).cfg.kind = 0 ∧ Tbl.getD s.leat.arrived (govDest q) [] = p :: rest ∧ p.cls = 0 ∧ p.last = true ∧ ps = ({ s.gq q with slots := (s.gq q).slots ++ [p] } : GovQueue).recordOf p ∧ watchNotice (s.gq q).cfg.tagLimit (recordBytes ps) ps = true :=
  ⟨0, 1, { dest := 30, cls := 0, ctx := 0, last := true, blocks := 1, status := [7], payload := 7 :: 16 :: zeros 30, tags := [0] }, [], [{ dest := 30, cls := 0, ctx := 0, last := true, blocks := 1, status := [7], payload := 7 :: 16 :: zeros 30, tags := [0] }], { live with gov := { live.gov with queues := [(0, { sec := some (mkSec 6 0 0 (blob 32 [(0, 1, 0)])) })] }, leat := { arrived := [(govDest 0, [{ dest := 30, cls := 0, ctx := 0, last := true, blocks := 1, status := [7], payload := 7 :: 16 :: zeros 30, tags := [0] }])] } }, by decide +kernel⟩

theorem wit_TicksAndRecords_11 : ∃ (q cycles : Nat) (p : Parcel) (rest ps : List Parcel) (s : State), q < 16 ∧ (s.gq q).sec.isSome = true ∧ (s.gq q).cfg.kind = 0 ∧ Tbl.getD s.leat.arrived (govDest q) [] = p :: rest ∧ p.cls = 0 ∧ p.last = true ∧ ps = ({ s.gq q with slots := (s.gq q).slots ++ [p] } : GovQueue).recordOf p ∧ badBlocks (s.gq q).cfg.tagLimit ps ≠ 0 ∧ watchNotice (s.gq q).cfg.tagLimit (recordBytes ps) ps = false :=
  ⟨0, 1, { dest := 30, cls := 0, ctx := 0, last := true, blocks := 1, status := [3], payload := zeros 32, tags := [0] }, [], [{ dest := 30, cls := 0, ctx := 0, last := true, blocks := 1, status := [3], payload := zeros 32, tags := [0] }], { live with gov := { live.gov with queues := [(0, { sec := some (mkSec 6 0 0 (blob 32 [(0, 1, 0)])) })] }, leat := { arrived := [(govDest 0, [{ dest := 30, cls := 0, ctx := 0, last := true, blocks := 1, status := [3], payload := zeros 32, tags := [0] }])] } }, by decide⟩

theorem wit_TicksAndRecords_12 : ∃ (q : Nat) (s : State), q < 16 ∧ (s.gq q).sec.isSome = true ∧ (s.gq q).cfg.kind = 1 ∧ s.gov.wheel.supply = false ∧ (s.gq q).acting = false ∧ (s.gq q).cfg.holdLast < (s.gq q).missCount :=
  ⟨0, { live with gov := { live.gov with queues := [(0, { sec := some (mkSec 6 0 0 (blob 32 [(0, 1, 1)])), missCount := 1 })] } }, by decide⟩

theorem wit_TicksAndRecords_13 : ∃ (g : Nat) (e : Gate) (since : Int) (s : State), (g, e) ∈ s.fus.gates ∧ e.since = some since ∧ s.gov.sec.isSome = true ∧ since + 1000000 * (s.fuCfg.limitMs : Int) ≤ (s.now : Int) :=
  ⟨0, { since := some 0 }, 0, { live with fus := { gates := [(0, { since := some 0 })] }, tm := { live.tm with copies := [2 ^ 80, 2 ^ 80, 2 ^ 80] } }, by decide +kernel⟩

/-! #### MillplanLoaded -/

theorem wit_MillplanLoaded_1 : ∃ (c : Instr) (m : Nat) (s : State), c ∈ [.copyVerify, .load, .preload, .swap, .unload, .discard, .restore m] ∧ (s.loader.state ≠ .idle ∨ s.mgmtReload = true) :=
  ⟨.load, 0, { live with loader := { state := .copying } }, by decide⟩

theorem wit_MillplanLoaded_2 : ∃ (s : State), s.loader.state = .idle ∧ s.mgmtReload = false ∧ s.lifecycle ≠ 0 ∧ (s.regN Reg.mpSrcOffset % 4096 ≠ 0 ∨ s.regN Reg.mpSrcLength = 0 ∨ 33554432 < s.regN Reg.mpSrcLength ∨ 67108864 < s.regN Reg.mpSrcOffset + s.regN Reg.mpSrcLength) :=
  ⟨live, by decide⟩

theorem wit_MillplanLoaded_3 : ∃ (s : State), s.loader.state = .idle ∧ s.mgmtReload = false ∧ s.lifecycle ≠ 0 ∧ s.regN Reg.mpSrcOffset % 4096 = 0 ∧ 0 < s.regN Reg.mpSrcLength ∧ s.regN Reg.mpSrcLength ≤ 33554432 ∧ s.regN Reg.mpSrcOffset + s.regN Reg.mpSrcLength ≤ 67108864 :=
  ⟨setR Reg.mpSrcLength 4096 live, by decide⟩

theorem wit_MillplanLoaded_4 : ∃ (c : Instr) (s : State), c ∈ [.copyVerify, .load] ∧ s.loader.state = .idle ∧ s.mgmtReload = false ∧ s.lifecycle = 0 :=
  ⟨.load, { live with sec := {} }, by decide⟩

theorem wit_MillplanLoaded_5 : ∃ (s : State), s.memOk ∧ s.loader.state = .copying ∧ s.pw.fabricPaused = false ∧ s.loader.srcLength ≤ s.copyPass.loader.passed * 1024 :=
  ⟨{ live with loader := { state := .copying } }, by decide⟩

theorem wit_MillplanLoaded_6 : ∃ (s : State), s.loader.state = .copying ∧ s.pw.fabricPaused = false ∧ s.copyPass.loader.passed * 1024 < s.loader.srcLength :=
  ⟨{ live with loader := { state := .copying, srcLength := 64 }, leat := { rows := [(rowKey 16 0, 2 ^ 9 + 2 ^ 8 + 3)] } }, by decide +kernel⟩

theorem wit_MillplanLoaded_7 : ∃ (s : State), s.loader.state = .verifying :=
  ⟨{ live with loader := { state := .verifying } }, by decide⟩

theorem wit_MillplanLoaded_8 : ∃ (x : Plan) (s : State), s.loader.state = .idle ∧ s.mgmtReload = false ∧ s.loader.staged = some x ∧ s.lifecycle = 1 ∧ x.replacement = false ∧ s.loader.loaded = none ∧ (∀ m, m < 16 → (s.mill m).state = .empty) ∧ s.loadFits x.sections = true ∧ (∀ y, y ∈ x.sections → y.preloads = []) :=
  ⟨{ sections := [(mkSec 1 0 0 [])] }, { live with loader := { staged := some { sections := [(mkSec 1 0 0 [])] } } }, by decide +kernel⟩

theorem wit_MillplanLoaded_9 : ∃ (x : Plan) (s : State), s.loader.state = .idle ∧ s.mgmtReload = false ∧ s.loader.staged = some x ∧ s.lifecycle = 1 ∧ x.replacement = false ∧ s.loader.loaded = none ∧ (∀ m, m < 16 → (s.mill m).state = .empty) ∧ s.loadFits x.sections = true ∧ sumN ((millSections x.sections).map Section.preloadPages) ≠ 0 :=
  ⟨{ sections := [{ typ := 1, target := 0, bytes := blob 128 [(0, 1, 1), (0x0A, 2, 1), (0x14, 4, 64), (0x18, 4, 64), (64, 8, 0x10001000000), (76, 2, 1)] }, (mkSec 4 0 0 (blob 64 [(0, 4, 8)]))] }, { live with loader := { staged := some { sections := [{ typ := 1, target := 0, bytes := blob 128 [(0, 1, 1), (0x0A, 2, 1), (0x14, 4, 64), (0x18, 4, 64), (64, 8, 0x10001000000), (76, 2, 1)] }, (mkSec 4 0 0 (blob 64 [(0, 4, 8)]))] } } }, by decide +kernel⟩

theorem wit_MillplanLoaded_10 : ∃ (x : Plan) (u s : State), s.loader.state = .loading ∧ s.pw.fabricPaused = false ∧ s.loader.staged = some x ∧ u = s.preloadOn (millSections x.sections) ∧ u.preloaded = true ∧ (∀ y, y ∈ x.sections → u.preloadBad y = false) ∧ (∀ m, m < 16 → (s.mill m).state ≠ .fault) :=
  ⟨{}, _, { live with loader := { state := .loading, staged := some {} } }, by decide, by decide, rfl, rfl, by decide, by decide, by decide⟩

theorem wit_MillplanLoaded_11 : ∃ (x : Plan) (s : State), s.loader.state = .idle ∧ s.mgmtReload = false ∧ s.loader.staged = some x ∧ s.lifecycle = 1 ∧ (x.replacement = true ∨ s.loader.loaded.isSome = true ∨ (∃ m, m < 16 ∧ (s.mill m).state ≠ .empty)) :=
  ⟨{ replacement := true }, { live with loader := { staged := some { replacement := true } } }, by decide⟩

theorem wit_MillplanLoaded_12 : ∃ (x : Section) (s : State), s.loader.state = .idle ∧ s.mgmtReload = false ∧ s.stagedSection = some x ∧ (x.typ = 1 → (s.mill x.target).state = .run) ∧ (x.typ = 10 → (s.mill x.target).state = .run) ∧ s.loader.ready = false ∧ x.preloadPages - Tbl.getD s.loader.charged x.ctx 0 ≤ (s.pool (160 + x.ctx)).returned :=
  ⟨(mkSec 1 0 0 []), { (runs 0 (mkSec 1 0 0 []) live) with loader := { staged := some { replacement := true, sections := [(mkSec 1 0 0 [])] } } }, by decide⟩

theorem wit_MillplanLoaded_13 : ∃ (x : Section) (s : State), s.loader.state = .idle ∧ s.mgmtReload = false ∧ s.stagedSection = some x ∧ (x.typ = 1 → (s.mill x.target).state = .run) ∧ (x.typ = 10 → (s.mill x.target).state = .run) ∧ s.loader.ready = false ∧ (s.pool (160 + x.ctx)).returned < x.preloadPages - Tbl.getD s.loader.charged x.ctx 0 :=
  ⟨{ typ := 1, target := 0, bytes := blob 128 [(0, 1, 1), (0x0A, 2, 1), (0x14, 4, 64), (0x18, 4, 64), (64, 8, 0x10001000000), (76, 2, 1)] }, { (runs 0 (mkSec 1 0 0 []) live) with loader := { staged := some { replacement := true, sections := [{ typ := 1, target := 0, bytes := blob 128 [(0, 1, 1), (0x0A, 2, 1), (0x14, 4, 64), (0x18, 4, 64), (64, 8, 0x10001000000), (76, 2, 1)] }] } } }, by decide⟩

theorem wit_MillplanLoaded_14 : ∃ (x : Section) (s : State), s.pw.fabricPaused = false ∧ s.loader.state = .preloading ∧ s.stagedSection = some x ∧ (s.preloadOn [x]).preloaded = true ∧ fld (s.reg Reg.mpCtrl) 1 1 = 0 :=
  ⟨(mkSec 1 0 0 []), { live with loader := { staged := some { replacement := true, sections := [(mkSec 1 0 0 [])] }, state := .preloading } }, by decide⟩

theorem wit_MillplanLoaded_15 : ∃ (x : Section) (s : State), s.pw.fabricPaused = false ∧ s.loader.state = .preloading ∧ s.stagedSection = some x ∧ (s.preloadOn [x]).preloaded = false :=
  ⟨(mkSec 1 0 0 []), { live with loader := { staged := some { replacement := true, sections := [(mkSec 1 0 0 [])] }, state := .preloading, preloadTotal := 1 } }, by decide⟩

theorem wit_MillplanLoaded_16 : ∃ (s : State), s.loader.state = .idle ∧ s.mgmtReload = false :=
  ⟨live, by decide⟩

theorem wit_MillplanLoaded_17 : ∃ (s : State), s.loader.state = .idle ∧ s.mgmtReload = false ∧ s.loader.loaded.isSome = true ∧ (∀ m, m < 16 → (s.mill m).state = .empty) :=
  ⟨plan [] live, by decide⟩

theorem wit_MillplanLoaded_18 : ∃ (s : State), s.loader.state = .idle ∧ s.mgmtReload = false ∧ s.loader.loaded.isSome = true ∧ (∃ m, m < 16 ∧ (s.mill m).state = .run) :=
  ⟨plan [(mkSec 1 0 0 [])] (runs 0 (mkSec 1 0 0 []) live), by decide⟩

theorem wit_MillplanLoaded_21 : ∃ (c : Instr) (s : State), c ∈ [.preload, .verifyDone] :=
  ⟨.preload, live, by decide⟩

/-! #### SectionsReplaced -/

theorem wit_SectionsReplaced_1 : ∃ (x : Section) (s : State), s.loader.state = .idle ∧ s.mgmtReload = false ∧ s.stagedSection = some x ∧ (x.typ = 1 ∨ x.typ = 10) ∧ s.lifecycle = 1 ∧ s.loader.ready = true ∧ (s.mill x.target).state = .run ∧ s.swapFits x = true :=
  ⟨(mkSec 1 0 0 []), { (runs 0 (mkSec 1 0 0 []) live) with loader := { staged := some { replacement := true, sections := [(mkSec 1 0 0 [])] }, ready := true } }, by decide +kernel⟩

theorem wit_SectionsReplaced_2 : ∃ (x : Section) (s : State), s.loader.state = .idle ∧ s.mgmtReload = false ∧ s.stagedSection = some x ∧ s.lifecycle = 1 ∧ (s.loader.ready = false ∨ (x.typ = 1 ∨ x.typ = 10) ∧ (s.mill x.target).state ≠ .run) :=
  ⟨(mkSec 1 0 0 []), { live with loader := { staged := some { replacement := true, sections := [(mkSec 1 0 0 [])] } } }, by decide +kernel⟩

theorem wit_SectionsReplaced_3 : ∃ (m : Nat) (x o : Section) (s : State), m < 16 ∧ s.pw.fabricPaused = false ∧ (s.mill m).state = .closed ∧ (s.mill m).drained = false ∧ s.millQuiet m = true ∧ s.loader.state = .swapping ∧ s.loader.step = 1 ∧ s.stagedSection = some x ∧ x.target = m ∧ (s.mill m).sec = some o ∧ s.loader.reload = false ∧ s.loader.queued = none ∧ (s.drainMill m).parkMismatch o = none :=
  ⟨0, (mkSec 1 0 0 []), (mkSec 1 0 0 []), { (live.setMill 0 { state := .closed, sec := some (mkSec 1 0 0 []) }) with loader := { staged := some { replacement := true, sections := [(mkSec 1 0 0 [])] }, state := .swapping, step := 1 } }, by decide +kernel⟩

theorem wit_SectionsReplaced_4 : ∃ (m : Nat) (s : State), m < 16 ∧ s.pw.fabricPaused = false ∧ (s.mill m).state = .closed ∧ (s.mill m).drained = false ∧ s.loader.state = .swapping ∧ s.loader.step = 1 ∧ s.loader.mill = m :=
  ⟨0, { (live.setMill 0 { state := .closed, sec := some (mkSec 1 0 0 []) }) with loader := { staged := some { replacement := true, sections := [(mkSec 1 0 0 [])] }, state := .swapping, step := 1 } }, by decide⟩

theorem wit_SectionsReplaced_5 : ∃ (x : Section) (s : State), s.loader.state = .swapping ∧ s.pw.fabricPaused = false ∧ s.stagedSection = some x ∧ x.typ = 7 ∧ s.gov.sec.isSome = true ∧ s.loader.queued = none :=
  ⟨(mkSec 7 0 0 (zeros 0x80)), { live with loader := { staged := some { replacement := true, sections := [(mkSec 7 0 0 (zeros 0x80))] }, state := .swapping } }, by decide +kernel⟩

theorem wit_SectionsReplaced_6 : ∃ (x : Section) (s : State), s.loader.state = .swapping ∧ s.pw.fabricPaused = false ∧ s.stagedSection = some x ∧ x.typ = 4 ∧ s.quotaCause x ≠ 0 :=
  ⟨(mkSec 4 0 0 (zeros 0x40)), { (pools 160 { size := 1, held := 1 } live) with loader := { staged := some { replacement := true, sections := [(mkSec 4 0 0 (zeros 0x40))] }, state := .swapping } }, by decide⟩

theorem wit_SectionsReplaced_7 : ∃ (m : Nat) (s : State), m < 16 ∧ s.loader.state = .idle ∧ s.mgmtReload = false ∧ (s.mill m).state ≠ .fault :=
  ⟨15, live, by decide⟩

theorem wit_SectionsReplaced_8 : ∃ (c : Instr) (m : Nat) (fb : Section) (s : State), (c = .evacuate m ∨ c = .autoEvacuate m ∧ fld (s.reg Reg.mpCtrl) 0 0 = 1) ∧ m < 16 ∧ s.loader.state = .idle ∧ (s.mill m).state = .fault ∧ s.loader.placedFor = none ∧ s.loader.queued = none ∧ s.fallback m = some fb ∧ sumN ((millSections fb.affected).map Section.preloadPages) ≠ 0 :=
  ⟨.evacuate 0, 0, (mkSec 9 0 0 (blob 128 [(0, 1, 1), (1, 1, 1), (0x0A, 2, 1), (0x14, 4, 64), (0x18, 4, 128), (76, 2, 1)])), plan [(mkSec 9 0 0 (blob 128 [(0, 1, 1), (1, 1, 1), (0x0A, 2, 1), (0x14, 4, 64), (0x18, 4, 128), (76, 2, 1)]))] (live.setMill 0 { state := .fault }), by decide +kernel⟩

theorem wit_SectionsReplaced_9 : ∃ (c : Instr) (m f : Nat) (s : State), (c = .evacuate m ∨ c = .autoEvacuate m ∧ fld (s.reg Reg.mpCtrl) 0 0 = 1) ∧ m < 16 ∧ s.loader.state = .idle ∧ (s.mill m).state = .fault ∧ s.loader.placedFor = some f ∧ s.loader.queued = none :=
  ⟨.evacuate 0, 0, 1, { (live.setMill 0 { state := .fault }) with loader := { placedFor := some 1 } }, by decide⟩

theorem wit_SectionsReplaced_10 : ∃ (m : Nat) (s : State), fld (s.reg Reg.mpCtrl) 0 0 = 0 :=
  ⟨0, setR Reg.mpCtrl 0 live, by decide⟩

theorem wit_SectionsReplaced_11 : ∃ (m : Nat) (s : State), s.loader.state = .idle ∧ s.mgmtReload = false ∧ (s.mill m).tested = false :=
  ⟨0, live, by decide⟩

theorem wit_SectionsReplaced_12 : ∃ (m : Nat) (y : Section) (s : State), m < 16 ∧ s.loader.state = .idle ∧ s.mgmtReload = false ∧ ((s.mill m).state = .evacuated ∨ (s.mill m).state = .empty) ∧ (s.mill m).tested = true ∧ (s.fallback m).isSome = true ∧ y ∈ (s.loader.loaded.map (·.sections)).getD [] ∧ (y.typ = 1 ∨ y.typ = 10) ∧ y.target = m :=
  ⟨0, (mkSec 1 0 0 []), plan [(mkSec 9 0 0 (blob 128 [(0, 1, 1), (1, 1, 1), (0x0A, 2, 1), (0x14, 4, 64), (0x18, 4, 128), (76, 2, 1)])), (mkSec 1 0 0 [])] (live.setMill 0 { state := .evacuated, tested := true }), by decide +kernel⟩

theorem wit_SectionsReplaced_13 : ∃ (m : Nat) (c : Instr) (s : State), c ∈ [.drainComplete m, .drainTimeout m, .evacuate m, .autoEvacuate m] :=
  ⟨0, .drainComplete 0, live, by decide⟩

/-! #### StepKeepsMemory -/

theorem wit_StepKeepsMemory_1 : ∃ (s t : State), s.memOk ∧ step s = .next t :=
  ⟨{ live with pending := [.refresh] }, _, by decide, rfl⟩

theorem wit_StepKeepsMemory_2 : ∃ (c : Instr) (s : State), overRated c = false :=
  ⟨.refresh, live, by decide⟩

theorem wit_StepKeepsMemory_3 : ∃ (c : Instr) (s : State), overRated c = true :=
  ⟨.supplyWarning 9000, live, by decide⟩

end Sys2Proof.Tests
end

section
/-!
PROOF. What every step keeps (O60): memories in canonical form stay so, and a command leaves the queue as it is.

`State.Keeps s t` says both of a state `t` that an operation makes of `s`. One lemma per operation of the model, in the order and
under the headings of the model's files, says that the operation keeps what the state before it kept: it names, branch by branch,
the operations of which the operation is made. Only a few operations write a memory; these close by the `wf` lemmas of `Laws/Memory`.
The lemma of a command is `exec…_completes`; `exec_completes` puts them together.
-/
namespace Sys2Proof.Machine

/-- What every command keeps from one state to the next: memories in canonical form stay so, and the queue of commands is
the same. -/
structure State.Keeps (s t : State) : Prop where
  memOk : s.memOk → t.memOk
  pending : t.pending = s.pending

/-- A command answers a next state, and keeps what every command keeps. -/
def State.Completes (s : State) (o : Out) : Prop := ∃ t, o = .next t ∧ s.Keeps t

/-- The state of an answer that may be none keeps what every command keeps. -/
def State.KeepsSome (s : State) (o : Option State) : Prop := ∀ t, o = some t → s.Keeps t

/-! ### The canonical form of the memories -/

theorem Memories.wf_iff (m : Memories) : m.wf = true ↔
    m.sram.wf = true ∧ m.pond.wf = true ∧ m.hbm.wf = true ∧ m.store.wf = true ∧ m.ram.wf = true := by
  simp only [Memories.wf, Bool.and_eq_true, and_assoc]

theorem Memories.wf_sram {m : Memories} {x : Mem} (h : m.wf = true) (hx : m.sram.wf = true → x.wf = true) :
    Memories.wf { m with sram := x } = true := by
  rw [Memories.wf_iff] at h ⊢
  exact ⟨hx h.1, h.2⟩

theorem Memories.wf_ram {m : Memories} {x : Mem} (h : m.wf = true) (hx : m.ram.wf = true → x.wf = true) :
    Memories.wf { m with ram := x } = true := by
  rw [Memories.wf_iff] at h ⊢
  obtain ⟨hs, hp, hh, ht, hr⟩ := h
  exact ⟨hs, hp, hh, ht, hx hr⟩

/-- Bytes written to the host-port SRAM keep the canonical form. -/
theorem Memories.wf_writeSram {m : Memories} {a : Nat} {bs : Bytes} (h : m.wf = true) :
    Memories.wf { m with sram := m.sram.writeBytes a bs } = true :=
  Memories.wf_sram h (m.sram.writeBytes_wf a bs)

theorem Memories.wf_loseSram {m : Memories} (h : m.wf = true) : Memories.wf { m with sram := m.sram.lose } = true :=
  Memories.wf_sram h fun _ => m.sram.lose_wf

/-- The fabric's memories are lost (R439). -/
theorem Memories.wf_loseFabric {m : Memories} (h : m.wf = true) :
    Memories.wf { m with pond := m.pond.lose, hbm := m.hbm.lose } = true := by
  rw [Memories.wf_iff] at h ⊢
  obtain ⟨hs, -, -, ht, hr⟩ := h
  exact ⟨hs, m.pond.lose_wf, m.hbm.lose_wf, ht, hr⟩

/-- Every memory but the store is lost (R447). -/
theorem Memories.wf_losePower {m : Memories} (h : m.wf = true) :
    Memories.wf { m with sram := m.sram.lose, pond := m.pond.lose, hbm := m.hbm.lose, ram := m.ram.lose } = true := by
  rw [Memories.wf_iff] at h ⊢
  obtain ⟨-, -, -, ht, -⟩ := h
  exact ⟨m.sram.lose_wf, m.pond.lose_wf, m.hbm.lose_wf, ht, m.ram.lose_wf⟩

section
variable {s₀ s t : State}

theorem State.Keeps.refl (s : State) : s.Keeps s := ⟨id, rfl⟩

theorem State.Keeps.ite {c : Prop} [Decidable c] (ht : s₀.Keeps s) (he : s₀.Keeps t) : s₀.Keeps (if c then s else t) := by
  split
  · exact ht
  · exact he

/-- A loop over a list keeps what each round keeps. -/
theorem State.Keeps.foldl {α : Type} {f : State → α → State} {l : List α} (hf : ∀ s a, s₀.Keeps s → s₀.Keeps (f s a))
    (h : s₀.Keeps s) : s₀.Keeps (l.foldl f s) := by
  induction l generalizing s with
  | nil => exact h
  | cons a l ih => exact ih (hf s a h)

/-- An update of any parts but the memories and the queue. -/
theorem State.Keeps.upd (h : s₀.Keeps s) {regs hold ledger ev hp pw ck sec mills leat loader ops streams tiers bolters gov fus
    sol tm launch px sn mr freeN} :
    s₀.Keeps { s with regs, hold, ledger, ev, hp, pw, ck, sec, mills, leat, loader, ops, streams, tiers, bolters, gov, fus,
                      sol, tm, launch, px, sn, mr, freeN } :=
  ⟨h.memOk, h.pending⟩

/-- An update of any parts but the queue that keeps the memories in canonical form. -/
theorem State.Keeps.updMem (h : s₀.Keeps s) {regs hold ledger ev hp pw ck sec mills leat loader ops streams tiers bolters gov
    fus sol tm launch px sn mr freeN} {mem : Memories} (hm : s.mem.wf = true → mem.wf = true) :
    s₀.Keeps { s with regs, hold, mem, ledger, ev, hp, pw, ck, sec, mills, leat, loader, ops, streams, tiers, bolters, gov, fus,
                      sol, tm, launch, px, sn, mr, freeN } :=
  ⟨fun h₀ => hm (h.memOk h₀), h.pending⟩

/-- A loop whose rounds carry a value besides the state. -/
theorem State.Keeps.foldlFst {α β : Type} {f : State × β → α → State × β} {l : List α} {p : State × β}
    (hf : ∀ p a, s₀.Keeps p.1 → s₀.Keeps (f p a).1) (h : s₀.Keeps p.1) : s₀.Keeps (l.foldl f p).1 := by
  induction l generalizing p with
  | nil => exact h
  | cons a l ih => exact ih (hf p a h)

theorem State.Keeps.snd {α : Type} {a : α} (h : s₀.Keeps s) : s₀.Keeps (a, s).2 := h

theorem State.Completes.next (h : s₀.Keeps s) : s₀.Completes (.next s) := ⟨s, rfl, h⟩

theorem State.Completes.ite {c : Prop} [Decidable c] {a b : Out} (ha : s₀.Completes a) (hb : s₀.Completes b) :
    s₀.Completes (if c then a else b) := by
  split
  · exact ha
  · exact hb

theorem State.KeepsSome.none : s₀.KeepsSome none := fun _ ht => (Option.some_ne_none _ ht.symm).elim

theorem State.KeepsSome.some (h : s₀.Keeps s) : s₀.KeepsSome (some s) := fun _ ht => Option.some.inj ht ▸ h

theorem State.KeepsSome.ite {c : Prop} [Decidable c] {a b : Option State} (ha : s₀.KeepsSome a) (hb : s₀.KeepsSome b) :
    s₀.KeepsSome (if c then a else b) := by
  split
  · exact ha
  · exact hb

theorem State.KeepsSome.bind {o : Option State} {f : State → Option State} (h : s₀.KeepsSome o)
    (hf : ∀ t, s₀.Keeps t → s₀.KeepsSome (f t)) : s₀.KeepsSome (o.bind f) := by
  cases o with
  | none => exact .none
  | some t => exact hf t (h t rfl)

theorem State.KeepsSome.bindOf {α : Type} {o : Option α} {f : α → Option State} (hf : ∀ a, s₀.KeepsSome (f a)) :
    s₀.KeepsSome (o.bind f) := by
  cases o with
  | none => exact .none
  | some a => exact hf a

theorem State.Keeps.getD {o : Option State} (ho : s₀.KeepsSome o) (h : s₀.Keeps s) : s₀.Keeps (o.getD s) := by
  cases o with
  | none => exact h
  | some t => exact ho t rfl

theorem State.KeepsSome.map {o : Option State} {f : State → State} (h : s₀.KeepsSome o) (hf : ∀ t, s₀.Keeps t → s₀.Keeps (f t)) :
    s₀.KeepsSome (o.map f) := by
  cases o with
  | none => exact .none
  | some t => exact .some (hf t (h t rfl))

end

section
variable {s₀ s t : State} (h : s₀.Keeps s)
include h

/-! ### Machine, Ops -/

theorem State.Keeps.setReg {a : Nat} {w : Word} : s₀.Keeps (s.setReg a w) := .upd h

theorem State.Keeps.bump {a n : Nat} : s₀.Keeps (s.bump a n) := .setReg h

theorem State.Keeps.raise {a mask : Nat} : s₀.Keeps (s.raise a mask) := .setReg h

theorem State.Keeps.peakReg {a n : Nat} : s₀.Keeps (s.peakReg a n) := .ite (.setReg h) h

theorem State.Keeps.clearRegs {lo hi : Nat} : s₀.Keeps (s.clearRegs lo hi) := .upd h

theorem State.Keeps.free : s₀.Keeps s.free.2 := .upd h

theorem State.Keeps.drew {n : Nat} : s₀.Keeps (s.drew n) := .upd h

theorem State.Keeps.setLocal {a : Nat} {bs : Bytes} : s₀.Keeps (s.setLocal a bs) := .updMem h (s.mem.writeLocal_wf a bs)

theorem State.Keeps.setPool {p : Nat} {x : Pool} : s₀.Keeps (s.setPool p x) := .upd h

theorem State.Keeps.move {p : Nat} {a b : Place} {n : Nat} : s₀.Keeps (s.move p a b n) := .setPool h

theorem State.Keeps.enterRec {r : Rec} : s₀.Keeps (s.enterRec r) := .upd h

theorem State.Keeps.record {ch event status ctx source : Nat} {detail : Bytes} :
    s₀.Keeps (s.record ch event status ctx source detail) :=
  .ite (.upd (.bump h)) (.ite (.upd (.bump h)) (.enterRec (.upd (.bump h))))

theorem State.Keeps.resize {p n : Nat} : s₀.Keeps (s.resize p n) := .ite h (.ite h (.record (.setPool h)))

theorem State.Keeps.reclaim {p : Nat} {a : Place} {n cause code peer : Nat} : s₀.Keeps (s.reclaim p a n cause code peer) :=
  .ite h (.record (.upd (.move h)))

theorem State.Keeps.reclaimAll {p cause code peer : Nat} : s₀.Keeps (s.reclaimAll p cause code peer) :=
  .ite h (.record (.upd (.move (.move h))))

theorem State.Keeps.releasePool {p : Nat} : s₀.Keeps (s.releasePool p) := .ite h (.record (.move h))

theorem State.Keeps.flagFault {p : Nat} : s₀.Keeps (s.flagFault p) := by
  unfold State.flagFault
  exact .record (.upd (.raise h))

theorem State.Keeps.faultReconcile {p size : Nat} : s₀.Keeps (s.faultReconcile p size) :=
  .ite (.upd (.setPool (.record h))) h

theorem State.Keeps.sizePool {p n : Nat} : s₀.Keeps (s.sizePool p n) := .ite (.faultReconcile h) (.resize h)

/-! ### Machine, Shared -/

theorem State.Keeps.setMill {m : Nat} {x : Mill} : s₀.Keeps (s.setMill m x) := .upd h

theorem State.Keeps.setLane {l : Nat} {x : Lane} : s₀.Keeps (s.setLane l x) := .upd h

theorem State.Keeps.millFault {m cause pool : Nat} : s₀.Keeps (s.millFault m cause pool) := .ite h (.record (.setMill h))

theorem State.Keeps.wheelTo {t : Wheel} : s₀.Keeps (s.wheelTo t) := .ite h (.record (.raise (.upd h)))

theorem State.Keeps.setWheel {w : BrakeWheel} : s₀.Keeps (s.setWheel w) := .wheelTo (.upd h)

theorem State.Keeps.holdCause {c : Nat} {on : Bool} : s₀.Keeps (s.holdCause c on) := .setWheel h

theorem State.Keeps.stoCause {c : Nat} : s₀.Keeps (s.stoCause c) := .setWheel h

theorem State.Keeps.laneCount : s₀.Keeps s.laneCount := by
  unfold State.laneCount
  split
  · exact .holdCause (.upd h)
  · exact h
  · exact .holdCause (.upd h)

theorem State.Keeps.isolate {l cause point off minor major : Nat} : s₀.Keeps (s.isolate l cause point off minor major) :=
  .ite h (.laneCount (.record (.raise (.setLane h))))

theorem State.Keeps.fusionAcquire : s₀.Keeps s.fusionAcquire := .upd h

theorem State.Keeps.finish {r : Request} {status result extra : Nat} : s₀.Keeps (s.finish r status result extra) := .upd h

theorem State.Keeps.finishAt {ctx idx status result : Nat} : s₀.Keeps (s.finishAt ctx idx status result) := by
  unfold State.finishAt
  split
  · exact .finish h
  · exact h

theorem State.Keeps.begin {r : Request} : s₀.Keeps (s.begin r) := .upd h

/-! ### Machine, TierOps -/

theorem State.Keeps.clearPoison {a n : Nat} : s₀.Keeps (s.clearPoison a n) := .ite (.ite (.upd h) h) h

theorem State.Keeps.keepDescs {a n : Nat} : s₀.Keeps (s.keepDescs a n) := .foldl (fun _ _ h => .setLocal h) h

theorem State.Keeps.putMem {a : Nat} {bs : Bytes} : s₀.Keeps (s.putMem a bs) :=
  .keepDescs (.upd (.clearPoison (.setLocal h)))

theorem State.Keeps.tokenBack {m : Nat} : s₀.Keeps (s.tokenBack m) := .ite h (.move h)

theorem State.Keeps.countStatus {ctx status : Nat} : s₀.Keeps (s.countStatus ctx status) :=
  .ite (.bump (.bump h)) (.ite (.bump (.bump h)) h)

theorem State.Keeps.tierEnd {r : TierReq} {status tag : Nat} : s₀.Keeps (s.tierEnd r status tag) :=
  .ite (.tokenBack (.upd h)) (.countStatus (.tokenBack (.upd h)))

/-! ### Machine, Sections -/

theorem State.Keeps.stopStages {l : List Node} : s₀.Keeps (s.stopStages l) := .foldl (fun _ _ h => .setMill h) h

theorem State.Keeps.stopPipelines {l : List Node} : s₀.Keeps (s.stopPipelines l) := .upd (.stopStages h)

/-! ### Machine, TimeBase -/

theorem State.Keeps.setPort {p : Nat} {x : TimePort} : s₀.Keeps (s.setPort p x) := .upd h

theorem State.Keeps.fantailRecord : s₀.Keeps s.fantailRecord := .record h

theorem State.Keeps.enterHoldover : s₀.Keeps s.enterHoldover := .ite (.fantailRecord (.raise (.upd (.drew h)))) (.upd h)

theorem State.Keeps.enterAcquiring : s₀.Keeps s.enterAcquiring := .upd h

theorem State.Keeps.servo {theta : Int} {delta : Nat} : s₀.Keeps (s.servo theta delta) :=
  .ite (.upd (.upd h))
    (.ite (.fantailRecord (.raise (.upd (.upd (.drew (.upd h))))))
      (.ite (.upd (.upd (.drew (.upd h)))) (.upd (.drew (.upd h)))))

theorem State.Keeps.reference {t theta : Int} {ok : Bool} : s₀.Keeps (s.reference t theta ok) := by
  refine .ite ?_ (.ite (.enterAcquiring (.upd (.upd h))) (.upd (.upd h)))
  split
  · exact .ite (.servo (.upd h)) (.upd h)
  · exact .upd h

theorem State.Keeps.applyGm : s₀.Keeps s.applyGm := by
  unfold State.applyGm
  extract_lets _ _ _ s₁
  have h₁ : s₀.Keeps s₁ := .ite (.enterHoldover h) h
  exact .ite (.record (.raise (.upd h₁))) (.upd h₁)

theorem State.Keeps.setQueue {p : Nat} {q : List LaunchEntry} : s₀.Keeps (s.setQueue p q) := .upd h

theorem execSyncReceive_completes {p origin : Nat} {corr cap : Int} : s₀.Completes (execSyncReceive p origin corr cap s) :=
  .ite (.ite (.next (.reference (.upd h))) (.next (.upd h))) (.next h)

theorem execPdelayExchange_completes {p : Nat} {t1 t2 t3 t4 : Int} {r : Nat} :
    s₀.Completes (execPdelayExchange p t1 t2 t3 t4 r s) :=
  .ite (.next (.ite (.applyGm (.ite (.drew (.setPort h)) (.setPort h))) (.ite (.drew (.setPort h)) (.setPort h)))) (.next h)

theorem execAnnounceReceive_completes {p p1 cls acc var p2 id steps src : Nat} :
    s₀.Completes (execAnnounceReceive p p1 cls acc var p2 id steps src s) :=
  .ite (.next (.applyGm (.setPort h))) (.next h)

theorem execReferenceTimeout_completes {announce : Bool} : s₀.Completes (execReferenceTimeout announce s) := by
  unfold execReferenceTimeout
  split
  · exact .next h
  · exact .next (.ite (.applyGm (.setPort (.enterHoldover h))) (.enterHoldover h))

theorem execSyncTransmit_completes {p : Nat} {cap : Int} {rate : Nat} : s₀.Completes (execSyncTransmit p cap rate s) :=
  .ite (.next (.drew (.upd h))) (.next h)

theorem execPpsEdge_completes : s₀.Completes (execPpsEdge s) :=
  .ite (.ite (.next (.reference (.raise (.upd h)))) (.next (.raise (.upd h)))) (.next h)

theorem execPpsTimeout_completes : s₀.Completes (execPpsTimeout s) :=
  .ite (.next (.ite (.enterHoldover (.upd h)) (.upd h))) (.next h)

theorem execHoldoverExpired_completes : s₀.Completes (execHoldoverExpired s) := .ite (.next (.upd h)) (.next h)

theorem execTimeSet_completes : s₀.Completes (execTimeSet s) := .ite (.next (.upd h)) (.next (.upd h))

theorem State.Keeps.stepTo {units source : Nat} : s₀.Keeps (s.stepTo units source) :=
  .fusionAcquire (.record (.raise (.upd h)))

theorem execTimeStepApply_completes : s₀.Completes (execTimeStepApply s) := by
  refine .ite (.ite (.next (.upd h)) (.next (.stepTo h))) ?_
  split
  · exact .ite (.next (.stepTo h)) (.next (.upd h))
  · exact .next h

theorem execReacquire_completes : s₀.Completes (execReacquire s) := .ite (.next (.upd h)) (.next (.upd h))

theorem execTmTickPhaseWrite_completes {v : Nat} : s₀.Completes (execTmTickPhaseWrite v s) :=
  .ite (.next (.setReg (.upd h))) (.next (.upd h))

theorem State.Keeps.captureTime {pps : Bool} : s₀.Keeps (s.captureTime pps).2 := .upd h

theorem execTmNowCapture_completes {pps : Bool} : s₀.Completes (execTmNowCapture pps s) := .next (.upd (.captureTime h))

theorem execTimeCopyMismatch_completes {da db dc : Int} : s₀.Completes (execTimeCopyMismatch da db dc s) :=
  .ite
    (.ite (.next (.upd h))
      (.ite (.next (.record (.raise (.bump (.upd h)))))
        (.ite (.next (.record (.raise (.bump (.upd h)))))
          (.ite (.next (.record (.raise (.bump (.upd h))))) (.next (.stoCause (.upd h)))))))
    (.next h)

theorem execReplicaRealign_completes {p : Nat} : s₀.Completes (execReplicaRealign p s) := .ite (.next (.setPort h)) (.next h)

theorem execPtpMessageReceive_completes {p kind domain : Nat} {malformed : Bool} {cap : Int} :
    s₀.Completes (execPtpMessageReceive p kind domain malformed cap s) := by
  refine .ite (.ite (.next (.bump h)) ?_) (.next h)
  extract_lets
  split
  · exact .next (.upd h)
  · exact .next (.upd h)
  · exact .next h

theorem execAnnounceTransmit_completes {p : Nat} : s₀.Completes (execAnnounceTransmit p s) := .ite (.next (.upd h)) (.next h)

theorem execPdelayRequestTransmit_completes {p : Nat} {cap : Int} : s₀.Completes (execPdelayRequestTransmit p cap s) :=
  .ite (.next (.upd (.setPort h))) (.next h)

theorem State.Keeps.loseCapable {p : Nat} : s₀.Keeps (s.loseCapable p) :=
  .ite (.applyGm (.enterHoldover (.setPort h))) (.setPort h)

theorem execAsCapableLost_completes {p : Nat} : s₀.Completes (execAsCapableLost p s) :=
  .ite (.next (.loseCapable h)) (.next h)

theorem State.Keeps.timeLinkDown {p : Nat} : s₀.Keeps (s.timeLinkDown p) := .setPort (.loseCapable h)

theorem State.Keeps.timeLinkUp {p : Nat} : s₀.Keeps (s.timeLinkUp p) := .setPort h

theorem execTmCtrlSourceWrite_completes {v : Nat} : s₀.Completes (execTmCtrlSourceWrite v s) :=
  .ite (.next (.applyGm (.upd (.setReg h)))) (.ite (.next (.setReg h)) (.next (.applyGm (.enterHoldover (.setReg h)))))

theorem State.Keeps.placeVoted {p time : Nat} {frame : List Nat} : s₀.Keeps (s.placeVoted p time frame) :=
  .ite (.setQueue h) h

theorem State.Keeps.admitWaiting {p : Nat} : s₀.Keeps (s.admitWaiting p) := by
  unfold State.admitWaiting
  split
  · exact h
  · exact .ite (.upd (.setQueue h)) h

theorem execLaunchEntryPlace_completes {p time ref : Nat} : s₀.Completes (execLaunchEntryPlace p time ref s) :=
  .ite (.next (.admitWaiting (.upd h))) (.next h)

theorem State.Keeps.launchLate {p : Nat} : s₀.Keeps (s.launchLate p) := by
  unfold State.launchLate
  extract_lets s₁
  have h₁ : s₀.Keeps s₁ := .raise (.bump h)
  exact .ite (.record (.upd h₁)) (.upd h₁)

theorem State.Keeps.cyclicSent {p : Nat} {e : LaunchEntry} : s₀.Keeps (s.cyclicSent p e) := .upd h

theorem execTorqueLaunch_completes {p : Nat} {err : Int} : s₀.Completes (execTorqueLaunch p err s) := by
  unfold execTorqueLaunch
  split
  · exact .next h
  · next e _ =>
    have h₁ : s₀.Keeps ((s.setQueue p (dropEntry e (s.queue p))).admitWaiting p) := .admitWaiting (.setQueue h)
    exact .ite (.next h) (.ite (.next (.launchLate h₁))
      (.next (.ite (.cyclicSent (.upd (.ite (.setReg h₁) h₁))) (.upd (.ite (.setReg h₁) h₁)))))

/-! ### Machine, Weirs -/

theorem State.Keeps.takeTokensOf {w r n : Nat} : s₀.Keeps (s.takeTokensOf w r n) := .bump (.upd h)

theorem State.Keeps.takeToken {w r : Nat} : s₀.Keeps (s.takeToken w r) := .takeTokensOf h

theorem State.Keeps.passWeir {w cls ctx n : Nat} : s₀.Keeps (s.passWeir w cls ctx n).2 := by
  unfold State.passWeir
  split
  · exact h
  · exact .ite h (.takeTokensOf h)

/-! ### Machine, Phirov -/

theorem State.Keeps.setPeer {m : Nat} {x : Peer} : s₀.Keeps (s.setPeer m x) := .upd h

theorem State.Keeps.pxSent {p : Nat} {f : PxFrame} : s₀.Keeps (s.pxSent p f) := .bump (.upd h)

theorem State.Keeps.tryJoin {m : Nat} : s₀.Keeps (s.tryJoin m) := .ite (.setPeer h) h

theorem State.Keeps.joinPort {p : Nat} : s₀.Keeps (s.joinPort p) := .foldl (fun _ _ h => .ite (.tryJoin h) h) h

theorem State.Keeps.endRemote {mill stage id status : Nat} : s₀.Keeps (s.endRemote mill stage id status) := by
  unfold State.endRemote
  extract_lets
  split
  · exact .tierEnd (.upd h)
  · exact .upd h

theorem State.Keeps.collEnd {g status tag : Nat} : s₀.Keeps (s.collEnd g status tag) := by
  unfold State.collEnd
  split
  · exact h
  · extract_lets _ _ s₁
    have h₁ : s₀.Keeps s₁ := .ite (.upd h) (.raise (.upd h))
    split
    · exact .tierEnd h₁
    · exact h₁

theorem State.Keeps.collFail {g status : Nat} : s₀.Keeps (s.collFail g status) := by
  unfold State.collFail
  split
  · exact h
  · exact .collEnd (.foldl (fun _ _ h => .ite (.upd h) h) (.putMem h))

theorem State.Keeps.loseePool {m p c : Nat} : s₀.Keeps (s.loseePool m p c) := .setPeer (.resize (.releasePool (.reclaim h)))

theorem State.Keeps.losePeer {m cause : Nat} : s₀.Keeps (s.losePeer m cause) :=
  .ite h
    (.ite (.setPeer h)
      (.tryJoin
        (.foldl (fun _ _ h => .ite (.collFail h) h)
          (.foldl (fun _ _ h => .endRemote h)
            (.upd (.record (.raise (.bump (.setPeer (.foldl (fun _ _ h => .loseePool h) (.setPeer h)))))))))))

theorem State.Keeps.losePort {p cause : Nat} : s₀.Keeps (s.losePort p cause) := .foldl (fun _ _ h => .ite (.losePeer h) h) h

theorem State.Keeps.slotsIn {p m : Nat} {f : PxFrame} : s₀.Keeps (s.slotsIn p m f) :=
  .ite (.setPeer (.move h)) (.setPeer (.move h))

theorem State.Keeps.slotsOut {p m : Nat} {f : PxFrame} : s₀.Keeps (s.slotsOut p m f) :=
  .ite (.move h) (.ite (.setPeer (.move h)) (.move h))

theorem State.Keeps.pxAccept {p m : Nat} {f : PxFrame} : s₀.Keeps (s.pxAccept p m f).2 := by
  unfold State.pxAccept
  dsimp only
  split
  · exact h
  · split
    · exact .snd (.bump h)
    · split
      · exact .snd (.bump (.bump h))
      · split
        · exact .snd (.losePeer (.bump h))
        · exact .snd (.setPeer (.bump h))

theorem State.Keeps.enqueue {m : Nat} {f : PxFrame} : s₀.Keeps (s.enqueue m f) := .upd h

theorem State.Keeps.serveWrite {m : Nat} {f : PxFrame} : s₀.Keeps (s.serveWrite m f) := .enqueue (.ite (.putMem h) h)

theorem State.Keeps.serveRead {m : Nat} {f : PxFrame} : s₀.Keeps (s.serveRead m f) :=
  .ite (.enqueue h) (.foldl (fun _ _ h => .enqueue h) h)

theorem State.Keeps.collSend {g : Nat} {gr : Group} {ranks : List Nat} {lo : Nat} {bs : Bytes} {tags : List Nat} :
    s₀.Keeps (s.collSend g gr ranks lo bs tags) :=
  .foldl (fun _ _ h => .foldl (fun _ _ h => .enqueue h) h) h

theorem State.Keeps.collFinal {g : Nat} {gr : Group} {r j : Nat} {bs : Bytes} {tags : List Nat} {sendOn : Bool} :
    s₀.Keeps (s.collFinal g gr r j bs tags sendOn) := by
  unfold State.collFinal
  split
  · exact h
  · exact .ite (.upd h) (.ite (.collSend (.upd h)) (.collSend (.upd h)))

theorem State.Keeps.directSum {g : Nat} {gr : Group} {r : Nat} : s₀.Keeps (s.directSum g gr r) := by
  unfold State.directSum
  split
  · exact h
  · exact .ite h (.collFinal (.drew h))

theorem State.Keeps.collStart {g : Nat} {gr : Group} {r : Nat} : s₀.Keeps (s.collStart g gr r) := by
  unfold State.collStart
  extract_lets
  split
  · exact .collFinal h
  · exact .ite (.collFinal h) (.collSend (.collFinal h))
  · exact .ite (.collSend h) (.foldl (fun _ _ h => .collSend h) h)

theorem State.Keeps.collTake {m : Nat} {f : PxFrame} : s₀.Keeps (s.collTake m f) := by
  unfold State.collTake
  extract_lets
  split
  · exact .ite (.collFail h)
      (.ite (.ite (.directSum (.upd h)) (.ite (.ite (.collFinal (.upd h)) (.collSend (.upd h))) (.upd h)))
        (.ite (.collSend (.upd h)) (.upd h)))
  · exact h

theorem State.Keeps.collStore {gr : Group} {k : Coll} {r : Nat} : s₀.Keeps (s.collStore gr k r).1 :=
  .foldlFst (fun _ _ h => .putMem (.putMem h)) h

theorem State.Keeps.takeResponse {f : PxFrame} : s₀.Keeps (s.takeResponse f) := by
  unfold State.takeResponse
  split
  · exact h
  · refine .ite (.endRemote h) ?_
    extract_lets s₁
    have h₁ : s₀.Keeps s₁ := by
      unfold s₁
      split
      · exact .ite h (.putMem h)
      · exact h
    exact .ite (.ite (.upd h₁) (.endRemote (.upd h₁))) (.upd h₁)

theorem State.Keeps.unusedSlots {m p c : Nat} : s₀.Keeps (s.unusedSlots m p c) := .ite h (.setPeer (.move h))

theorem State.Keeps.pxHandle {p m : Nat} {f : PxFrame} : s₀.Keeps (s.pxHandle p m f) := by
  unfold State.pxHandle
  extract_lets s₁
  have h₁ : s₀.Keeps s₁ := by
    unfold s₁
    split
    · exact .serveWrite h
    · exact .serveRead h
    · exact .unusedSlots (.takeResponse h)
    · exact .collTake h
    · exact h
  exact .slotsOut h₁

theorem State.Keeps.pxOne {x : RxHeld} : s₀.Keeps (s.pxOne x) :=
  .ite h (.ite (.pxHandle (.upd (.passWeir h))) (.upd (.passWeir h)))

theorem State.Keeps.pxDrain {p : Nat} : s₀.Keeps (s.pxDrain p) := .foldl (fun _ _ h => .pxOne h) h

theorem State.Keeps.pxDrainAll : s₀.Keeps s.pxDrainAll := .foldl (fun _ _ h => .pxDrain h) h

theorem State.Keeps.pxReceive {p m : Nat} {f : PxFrame} : s₀.Keeps (s.pxReceive p m f) :=
  .ite (.pxDrain (.upd (.slotsIn (.pxAccept h)))) (.pxAccept h)

theorem execPxModuleIdWrite_completes {v : Nat} : s₀.Completes (execPxModuleIdWrite v s) :=
  .ite (.next h) (.next (.setReg h))

theorem execPhirovPortEnable_completes {p v : Nat} : s₀.Completes (execPhirovPortEnable p v s) :=
  .ite (.next h) (.ite (.next (.setReg h)) (.next (.joinPort (.foldl (fun _ _ h => .sizePool h) (.setReg h)))))

theorem execPhirovPortDisable_completes {p v : Nat} : s₀.Completes (execPhirovPortDisable p v s) :=
  .ite (.next h) (.next (.losePort (.setReg h)))

theorem execPxPeerWrite_completes {m v : Nat} : s₀.Completes (execPxPeerWrite m v s) :=
  .ite (.next h) (.next (.tryJoin (.setPeer h)))

theorem State.Keeps.linkUp {t : Nat} : s₀.Keeps (s.linkUp t) :=
  .ite (.joinPort (.upd (.upd (.timeLinkUp h))))
    (.ite (.upd (.upd (.timeLinkUp h))) (.ite (.upd (.upd (.timeLinkUp h))) (.upd (.upd (.timeLinkUp h)))))

theorem execLinkUp_completes {t : Nat} : s₀.Completes (execLinkUp t s) := .ite (.next (.linkUp h)) (.next h)

theorem execHelloTimer_completes {m : Nat} : s₀.Completes (execHelloTimer m s) := .ite (.next (.pxSent h)) (.next h)

theorem State.Keeps.pairUp {m own : Nat} : s₀.Keeps (s.pairUp m own) :=
  .ite (.upd h) (.pxSent (.raise (.upd (.foldl (fun _ _ h => .setPeer (.move (.resize h))) (.setPeer h)))))

theorem execHelloReceive_completes {p m dst own echo : Nat} : s₀.Completes (execHelloReceive p m dst own echo s) := by
  refine .ite (.next h) (.ite (.next (.bump h)) ?_)
  extract_lets
  split
  · exact .next (.bump h)
  · exact .ite (.next (.pairUp (.setPeer (.bump h)))) (.next (.setPeer (.bump h)))
  · exact .ite (.next (.bump h)) (.next (.losePeer (.bump h)))

theorem execCreditReceive_completes {p m : Nat} {f : PxFrame} : s₀.Completes (execCreditReceive p m f s) :=
  .ite (.next (.setPeer (.pxAccept h))) (.next (.pxAccept h))

theorem execPhirovFrameSend_completes {m c : Nat} : s₀.Completes (execPhirovFrameSend m c s) := by
  unfold execPhirovFrameSend
  split
  · exact .next h
  · refine .ite ?_ (.next h)
    extract_lets _ _ _ _ _ _ _ _ _ s₁
    have h₁ : s₀.Keeps s₁ := by
      unfold s₁
      split
      · exact .ite (.upd (.upd (.setPeer (.move h)))) (.upd (.setPeer (.move h)))
      · exact .upd (.setPeer (.move h))
    exact .next (.pxSent h₁)

theorem execCreditReturnSend_completes {m : Nat} : s₀.Completes (execCreditReturnSend m s) :=
  .ite (.next (.pxSent (.setPeer (.foldl (fun _ _ h => .move h) h)))) (.next h)

theorem execWriteFrameReceive_completes {p m : Nat} {f : PxFrame} : s₀.Completes (execWriteFrameReceive p m f s) :=
  .next (.pxReceive h)

theorem execReadFrameReceive_completes {p m : Nat} {f : PxFrame} : s₀.Completes (execReadFrameReceive p m f s) :=
  .next (.pxReceive h)

theorem execResponseReceive_completes {p m : Nat} {f : PxFrame} : s₀.Completes (execResponseReceive p m f s) :=
  .next (.pxReceive h)

theorem execCollectReceive_completes {p m : Nat} {f : PxFrame} : s₀.Completes (execCollectReceive p m f s) :=
  .next (.pxReceive h)

theorem execPfcReceive_completes {p mask : Nat} : s₀.Completes (execPfcReceive p mask s) := .ite (.next (.upd h)) (.next h)

theorem execPeerLost_completes {m cause : Nat} : s₀.Completes (execPeerLost m cause s) := .next (.losePeer h)

theorem execPeerTimeout_completes {m : Nat} : s₀.Completes (execPeerTimeout m s) := .ite (.next (.losePeer h)) (.next h)

theorem State.Keeps.linkDown {t : Nat} : s₀.Keeps (s.linkDown t) :=
  .ite (.losePort (.upd (.timeLinkDown h)))
    (.ite (.upd (.timeLinkDown h)) (.ite (.upd (.timeLinkDown h)) (.upd (.timeLinkDown h))))

theorem execLinkDownEvent_completes {t : Nat} : s₀.Completes (execLinkDownEvent t s) := .ite (.next (.linkDown h)) (.next h)

theorem execCollectiveRequest_completes {mill stage id g : Nat} :
    s₀.Completes (execCollectiveRequest mill stage id g s) := by
  unfold execCollectiveRequest
  extract_lets
  split
  · exact .next h
  · exact .ite (.next h) (.ite (.next (.collFail (.upd (.move h)))) (.next (.pxDrainAll (.collStart (.upd (.move h))))))

theorem execCollectiveDone_completes {g : Nat} : s₀.Completes (execCollectiveDone g s) := by
  unfold execCollectiveDone
  extract_lets
  split
  · exact .ite (.next (.collEnd (.collStore h))) (.next h)
  · exact .next h

theorem execFrameDiscard_completes {t : Nat} : s₀.Completes (execFrameDiscard t s) :=
  .ite (.next (.bump h)) (.ite (.next (.bump h)) (.ite (.next (.bump h)) (.next h)))

theorem State.Keeps.pxRequest {q : TierReq} {m : Nat} : s₀.Keeps (s.pxRequest q m) :=
  .ite (.endRemote h) (.ite (.endRemote h) (.ite (.foldl (fun _ _ h => .enqueue (.upd h)) h) (.enqueue (.upd h))))

/-! ### Machine, Sensors -/

theorem State.Keeps.setStream {n : Nat} {x : SnStream} : s₀.Keeps (s.setStream n x) := .upd h

theorem State.Keeps.snErr {n torn gap : Nat} : s₀.Keeps (s.snErr n torn gap) := .setReg h

theorem State.Keeps.tear {n : Nat} : s₀.Keeps (s.tear n) := by
  unfold State.tear
  extract_lets
  split
  · exact h
  · exact .snErr (.setStream h)

theorem State.Keeps.snAdmit {n : Nat} {b : Binding} {a : Assembly} {port : Int} : s₀.Keeps (s.snAdmit n b a port) :=
  .ite (.upd (.upd (.setStream (.snErr h)))) (.upd (.setStream (.snErr h)))

theorem State.Keeps.snJoin {n : Nat} {b : Binding} {a : Assembly} {last : Bool} {port : Int} :
    s₀.Keeps (s.snJoin n b a last port) :=
  .ite (.ite (.snAdmit (.setStream h)) (.tear (.setStream h))) (.ite (.tear (.setStream h)) (.setStream h))

theorem execFragmentReceive_completes {l stream format number index offset src bytes : Nat} {first last : Bool} {cap : Int}
    {payload : Bytes} :
    s₀.Completes (execFragmentReceive l stream format number index offset src bytes first last cap payload s) := by
  unfold execFragmentReceive
  split
  · exact .next (.bump h)
  · refine .ite (.next (.bump h))
      (.ite
        (.ite (.ite (.next (.snJoin (.tear h))) (.next (.bump (.setStream (.tear h)))))
          (.next (.snErr (.setStream (.tear h))))) ?_)
    split
    · exact .ite (.next (.snJoin h)) (.next (.tear h))
    · exact .ite (.next (.snErr (.setStream h))) (.next h)

theorem State.Keeps.tearLanes {p : Nat → Bool} : s₀.Keeps (s.tearLanes p) := .foldl (fun _ _ h => .ite (.tear h) h) h

theorem State.Keeps.resetLaneStreams {l : Nat} : s₀.Keeps (s.resetLaneStreams l) :=
  .foldl (fun _ _ h => .ite (.setStream (.tear h)) h) h

theorem execMrCfgWrite_completes {v : Nat} : s₀.Completes (execMrCfgWrite v s) := .ite (.next (.setReg h)) (.next (.raise h))

/-! ### Machine, Recorder -/

theorem State.Keeps.setLatch {k : Nat} {x : Latch} : s₀.Keeps (s.setLatch k x) := .upd h

theorem execLiveRecordEnter_completes : s₀.Completes (execLiveRecordEnter s) := by
  unfold execLiveRecordEnter
  split
  · exact .next h
  · exact .next (.raise (.enterRec (.upd h)))

theorem State.Keeps.flushOne : s₀.Keeps s.flushOne := by
  unfold State.flushOne
  split
  · exact h
  · exact .upd h

theorem execRecordFlush_completes : s₀.Completes (execRecordFlush s) := .ite (.next (.flushOne h)) (.next h)

theorem execCoalescedRecord_completes {ch : Nat} : s₀.Completes (execCoalescedRecord ch s) :=
  .ite (.next h) (.next (.raise (.enterRec (.upd h))))

theorem execOpSecondsSave_completes : s₀.Completes (execOpSecondsSave s) := .next (.upd h)

theorem execEvRdSeqHiWrite_completes {v : Nat} : s₀.Completes (execEvRdSeqHiWrite v s) :=
  .ite (.next h) (.next (.setLatch (.setReg h)))

theorem execEvCtxSelHiWrite_completes {ctx v : Nat} : s₀.Completes (execEvCtxSelHiWrite ctx v s) :=
  .ite (.next h) (.next (.setLatch (.setReg h)))

theorem execRecordLatchDone_completes {k : Nat} : s₀.Completes (execRecordLatchDone k s) :=
  .ite (.next (.setLatch h)) (.next h)

theorem State.Keeps.dataWrite {off : Nat} {bs : Bytes} : s₀.Keeps (s.dataWrite off bs) := .updMem h Memories.wf_writeSram

theorem State.Keeps.captureFrom {first off n : Nat} : s₀.Keeps (s.captureFrom first off n) := by
  induction n with
  | zero => exact h
  | succ n ih => exact .dataWrite ih

theorem execEvCapture_completes {idx : Nat} : s₀.Completes (execEvCapture idx s) := by
  unfold execEvCapture
  split
  · exact .next h
  · exact .ite (.next (.finish h)) (.next (.finish (.captureFrom h)))

theorem State.Keeps.retrainStart {t : Nat} : s₀.Keeps (s.retrainStart t) :=
  .linkDown (.ite (.tearLanes (.record (.upd h))) (.record (.upd h)))

theorem execPortRetrain_completes {t : Nat} : s₀.Completes (execPortRetrain t s) :=
  .ite (.next h) (.ite (.ite (.next (.retrainStart h)) (.next (.raise h))) (.ite (.next (.upd h)) (.next (.retrainStart h))))

theorem State.Keeps.retrainNext {g : Nat} : s₀.Keeps (s.retrainNext g) := by
  unfold State.retrainNext
  split
  · exact .ite h (.retrainStart h)
  · exact h

theorem execPortRetrainEnd_completes {t : Nat} {up : Bool} : s₀.Completes (execPortRetrainEnd t up s) :=
  .ite (.next h)
    (.ite (.next (.retrainNext (.linkUp (.raise (.record (.upd h))))))
      (.ite (.next (.retrainNext (.raise (.record (.upd (.upd h)))))) (.next (.upd h))))

/-! ### Machine, Security -/

theorem State.Keeps.setOtp {g : Nat} {x : OtpGroup} : s₀.Keeps (s.setOtp g x) := .upd h

theorem State.Keeps.issue {r : Request} {purpose off : Nat} : s₀.Keeps (s.issue r purpose off) :=
  .finish (.dataWrite (.upd (.free h)))

theorem State.Keeps.tokenReject {r : Request} : s₀.Keeps (s.tokenReject r) := .finish (.raise (.bump h))

theorem execChallenge_completes {idx : Nat} : s₀.Completes (execChallenge idx s) := by
  unfold execChallenge
  split
  · exact .next h
  · exact .ite (.next (.finish h)) (.ite (.next (.finish h)) (.next (.issue h)))

theorem execOtpChallenge_completes {idx : Nat} : s₀.Completes (execOtpChallenge idx s) := by
  unfold execOtpChallenge
  split
  · exact .next h
  · exact .ite (.next (.finish h)) (.ite (.next (.finish h)) (.next (.issue h)))

theorem execEvClear_completes {idx : Nat} : s₀.Completes (execEvClear idx s) := by
  unfold execEvClear
  split
  · exact .next h
  · exact .ite (.next (.finish h))
      (.ite (.next (.finish h)) (.ite (.next (.tokenReject h)) (.next (.finish (.raise (.record (.upd h)))))))

theorem State.Keeps.otpAsk {g : Nat} {data : Bytes} {req : Option Nat} : s₀.Keeps (s.otpAsk g data req) := .upd h

theorem State.Keeps.flushAll : s₀.Keeps s.flushAll := .foldl (fun _ _ h => .flushOne h) h

theorem execReturnEnter_completes {idx : Nat} : s₀.Completes (execReturnEnter idx s) := by
  unfold execReturnEnter
  split
  · exact .next h
  · exact .ite (.next h)
      (.ite (.next (.finish h))
        (.ite (.next (.finish h)) (.ite (.next (.tokenReject h)) (.next (.begin (.otpAsk (.flushAll (.record h))))))))

theorem execOtpWrite_completes {idx : Nat} : s₀.Completes (execOtpWrite idx s) := by
  unfold execOtpWrite
  split
  · exact .next h
  · exact .ite (.next h)
      (.ite (.next (.finish h))
        (.ite (.next (.finish h))
          (.ite (.next (.tokenReject h))
            (.ite (.next (.finish h))
              (.ite (.next (.finish h)) (.ite (.next (.tokenReject h)) (.next (.begin (.otpAsk h)))))))))

theorem execOtpWriteStart_completes : s₀.Completes (execOtpWriteStart s) := by
  unfold execOtpWriteStart
  split
  · exact .next h
  · refine .ite (.next h) (.ite ?_ (.next (.upd (.setOtp h))))
    extract_lets
    split
    · exact .next (.finishAt (.upd h))
    · exact .next (.upd (.upd h))

theorem execOtpWriteDone_completes : s₀.Completes (execOtpWriteDone s) := by
  unfold execOtpWriteDone
  split
  · exact .next h
  · refine .ite (.next h) ?_
    extract_lets _ _ _ s₁ _ _ _ s₂
    have h₁ : s₀.Keeps s₁ := .raise (.setOtp h)
    have h₂ : s₀.Keeps s₂ := .ite (.upd (.upd h₁)) (.upd h₁)
    split
    · exact .next (.finishAt (.record h₂))
    · exact .next (.upd (.record (.record h₂)))

theorem execOtpRead_completes {idx : Nat} : s₀.Completes (execOtpRead idx s) := by
  unfold execOtpRead
  split
  · exact .next h
  · refine .ite (.next (.finish h)) ?_
    extract_lets
    split
    · exact .ite (.next (.finish (.dataWrite h))) (.next (.finish h))
    · exact .next (.finish h)

theorem execCertRead_completes {idx : Nat} : s₀.Completes (execCertRead idx s) := by
  unfold execCertRead
  split
  · exact .next h
  · exact .ite (.next (.finish h)) (.next (.finish (.dataWrite h)))

theorem execAttest_completes {idx : Nat} : s₀.Completes (execAttest idx s) := by
  unfold execAttest
  split
  · exact .next h
  · exact .ite (.next h) (.ite (.next (.finish h)) (.next (.finish (.dataWrite h))))

theorem State.Keeps.fwRecord {phase status : Nat} : s₀.Keeps (s.fwRecord phase status) := by
  unfold State.fwRecord
  exact .record h

theorem State.Keeps.setFw {u : FwUpdate} : s₀.Keeps (s.setFw u) := .upd h

theorem execFwStage_completes {idx : Nat} : s₀.Completes (execFwStage idx s) := by
  unfold execFwStage
  split
  · exact .next h
  · refine .ite (.next (.finish h)) (.ite (.next (.finish h)) ?_)
    extract_lets _ _ _ _ _ _ _ s₁
    have h₁ : s₀.Keeps s₁ := .fwRecord (.setFw h)
    exact .next (.finish (.ite h₁ (.setFw h₁)))

theorem State.Keeps.fwLaneTurn : s₀.Keeps s.fwLaneTurn := .ite (.ite (.isolate h) (.foldl (fun _ _ h => .isolate h) h)) h

theorem State.Keeps.fwCommit : s₀.Keeps s.fwCommit := by
  unfold State.fwCommit
  extract_lets _ _ _ _ s₁ s₂
  have h₁ : s₀.Keeps s₁ := .raise (.fwRecord (.upd h))
  have h₂ : s₀.Keeps s₂ := by
    unfold s₂
    split
    · exact .finishAt h₁
    · exact h₁
  exact .setFw h₂

theorem State.Keeps.fwAborted : s₀.Keeps s.fwAborted := by
  unfold State.fwAborted
  extract_lets _ s₁ s₂
  have h₁ : s₀.Keeps s₁ := .raise (.fwRecord h)
  have h₂ : s₀.Keeps s₂ := by
    unfold s₂
    split
    · exact .finishAt h₁
    · exact h₁
  exact .setFw h₂

theorem State.Keeps.fwAbort : s₀.Keeps s.fwAbort := .ite (.fwAborted h) (.fwLaneTurn (.setFw h))

theorem State.Keeps.fwLost : s₀.Keeps s.fwLost := .ite (.fwAborted (.upd h)) h

theorem State.Keeps.enterStage {k : Nat} : s₀.Keeps (s.enterStage k) := .upd h

/-! ### Machine, HostCore -/

theorem State.Keeps.setRing {c : Nat} {r : Ring} : s₀.Keeps (s.setRing c r) := .upd h

theorem State.Keeps.pondWrite {off : Nat} {bs : Bytes} : s₀.Keeps (s.pondWrite off bs) := .updMem h Memories.wf_writeSram

theorem State.Keeps.settlePool {c : Nat} : s₀.Keeps (s.settlePool c) := .ite (.resize (.releasePool h)) h

theorem State.Keeps.orphanRequests : s₀.Keeps s.orphanRequests := .upd h

theorem State.Keeps.resetRing {c : Nat} : s₀.Keeps (s.resetRing c) :=
  .ite h (.setRing (.record (.ite (.reclaim (.reclaim h)) (.raise (.reclaim (.reclaim h))))))

theorem State.Keeps.resetHost {pin : Bool} : s₀.Keeps (s.resetHost pin) :=
  .updMem (.setRing (.orphanRequests (.foldl (fun _ _ h => .resetRing h) (.clearRegs h)))) Memories.wf_loseSram

theorem State.Keeps.dropRequests : s₀.Keeps s.dropRequests := .upd (.bump h)

/-! ### Machine, Resets -/

theorem State.Keeps.reclaimTwo {p n f code : Nat} : s₀.Keeps (s.reclaimTwo p n f code) :=
  .ite h (.record (.upd (.move (.move h))))

theorem State.Keeps.resetMill {m : Nat} {keep : MillState} : s₀.Keeps (s.resetMill m keep) :=
  .setMill (.upd (.clearRegs (.foldl (fun _ _ h => .reclaimTwo h) h)))

theorem State.Keeps.holdDomain {d : Nat} : s₀.Keeps (s.holdDomain d) := .upd h

theorem State.Keeps.resetLane {l : Nat} : s₀.Keeps (s.resetLane l) :=
  .foldl (fun _ _ h => .ite (.setStream h) h) (.upd (.linkDown (.resetLaneStreams h)))

theorem State.Keeps.resetPort {p : Nat} : s₀.Keeps (s.resetPort p) := .foldl (fun _ _ h => .faultReconcile h) (.linkDown h)

theorem State.Keeps.resetDomain {d : Nat} : s₀.Keeps (s.resetDomain d) :=
  .ite h
    (.ite (.isolate h)
      (.ite (.holdDomain h)
        (.ite (.holdDomain (.resetHost h))
          (.ite (.holdDomain (.setMill (.resetMill h)))
            (.ite (.holdDomain (.resetPort h)) (.ite (.holdDomain (.resetLane h)) h))))))

theorem State.Keeps.fabricClear : s₀.Keeps s.fabricClear := .updMem (.clearRegs (.clearRegs h)) Memories.wf_loseFabric

theorem State.Keeps.groupPool {p : Nat} : s₀.Keeps (s.groupPool p) := .resize (.move (.releasePool (.reclaimAll h)))

theorem State.Keeps.groupGovPool {q : Nat} : s₀.Keeps (s.groupGovPool q) := .resize (.move (.releasePool (.reclaimTwo h)))

theorem State.Keeps.resetFabric : s₀.Keeps s.resetFabric :=
  .ite h
    (.upd
      (.fabricClear
        (.fwLost
          (.foldl (fun _ _ h => .groupGovPool h)
            (.foldl (fun _ _ h => .ite h (.groupPool h))
              (.dropRequests
                (.resetHost
                  (.foldl (fun _ _ h => .timeLinkDown h)
                    (.foldl (fun _ _ h => .resetLane h) (.foldl (fun _ _ h => .losePort h) h))))))))))

theorem State.Keeps.fabricUp : s₀.Keeps s.fabricUp := .ite (.upd (.upd h)) (.upd h)

theorem State.Keeps.releaseMills : s₀.Keeps s.releaseMills :=
  .foldl (fun _ _ h => .releasePool h) (.foldl (fun _ _ h => .ite h (.releasePool h)) h)

theorem State.Keeps.resetDone {d : Nat} : s₀.Keeps (s.resetDone d) := .ite (.upd h) h

theorem State.Keeps.releaseDomain {d : Nat} : s₀.Keeps (s.releaseDomain d) :=
  .ite (.ite h (.resetDone (.fabricUp h)))
    (.ite h
      (.resetDone
        (.ite (.releaseMills (.setMill (.upd h)))
          (.ite (.upd (.upd h))
            (.ite (.upd (.upd h)) (.ite (.upd (.foldl (fun _ _ h => .ite h (.settlePool h)) (.upd h))) (.upd h)))))))

theorem State.Keeps.logSupply {e : LogEntry} : s₀.Keeps (s.logSupply e) := .upd h

theorem State.Keeps.powerOff : s₀.Keeps s.powerOff := ⟨fun h₀ => Memories.wf_losePower (h.memOk h₀), h.pending⟩

theorem State.Keeps.clockFailure {noRef : Bool} : s₀.Keeps (s.clockFailure noRef) :=
  .ite (.upd (.powerOff (.upd (.logSupply h)))) h

/-! ### Machine, LoaderCore -/

theorem State.Keeps.ldAccept : s₀.Keeps s.ldAccept := .upd h

theorem State.Keeps.ldIgnore : s₀.Keeps s.ldIgnore := .upd h

theorem State.Keeps.ldDone : s₀.Keeps s.ldDone := .raise (.upd h)

theorem State.Keeps.ldFail {result cause status : Nat} {sec : Option Nat} {op : Nat} {source : Option Nat} {p : Plan}
    {mask : Nat} :
    s₀.Keeps (s.ldFail result cause status sec op source p mask) := by
  unfold State.ldFail
  exact .record (.raise (.upd (.ite h (.free h))))

theorem State.Keeps.uncharge : s₀.Keeps s.uncharge := .upd (.foldl (fun _ _ h => .move h) h)

theorem State.Keeps.discardStaged : s₀.Keeps s.discardStaged := .upd (.uncharge h)

theorem State.Keeps.targetFault {m : Nat} : s₀.Keeps (s.targetFault m) := .ite (.ldFail (.discardStaged h)) h

theorem State.Keeps.ledgerRequests {nodes : List Node} : s₀.Keeps (s.ledgerRequests nodes) :=
  .foldl (fun _ _ h => .finish h) h

theorem State.Keeps.ledgerFault {p : Nat} : s₀.Keeps (s.ledgerFault p) :=
  .ledgerRequests
    (.stopPipelines (.ite (.targetFault (.millFault (.flagFault h))) (.ite (.upd (.flagFault h)) (.flagFault h))))

/-! ### Machine, StageOps -/

theorem State.Keeps.countBlock {m i : Nat} {b : OutBlock} : s₀.Keeps (s.countBlock m i b) := by
  unfold State.countBlock
  extract_lets s₁ s₂ s₃
  have h₁ : s₀.Keeps s₁ := .ite (.bump h) h
  have h₂ : s₀.Keeps s₂ := .ite (.bump h₁) h₁
  have h₃ : s₀.Keeps s₃ := .ite (.bump h₂) h₂
  exact .ite (.ite h₃ (.setReg h₃)) h₃

theorem State.Keeps.storeBlocks {fmt : Nat} {at' : Nat × Nat × Nat} {bs : List OutBlock} :
    s₀.Keeps (s.storeBlocks fmt at' bs) :=
  .putMem (.ite (.putMem (.putMem h)) (.putMem h))

/-! ### Machine, Fabric -/

theorem State.Keeps.setCredits {p w n : Nat} : s₀.Keeps (s.setCredits p w n) := .upd h

theorem State.Keeps.takeCredit {w d : Nat} : s₀.Keeps (s.takeCredit w d) := by
  unfold State.takeCredit
  split
  · exact .move (.setCredits h)
  · exact h

theorem State.KeepsSome.takeCredits {w : Nat} {ds : List Nat} : s₀.KeepsSome (s.takeCredits w ds) := by
  induction ds generalizing s with
  | nil => exact .some h
  | cons d ds ih => exact .ite (ih (.takeCredit h)) .none

theorem State.Keeps.recallKey {p w : Nat} : s₀.Keeps (s.recallKey p w) := .ite h (.move (.upd h))

theorem State.Keeps.recallPool {p : Nat} : s₀.Keeps (s.recallPool p) :=
  .ite (.foldl (fun _ _ h => .ite h (.recallKey h)) h) h

theorem State.Keeps.setChan {n : Nat} {x : Chan} : s₀.Keeps (s.setChan n x) := .upd h

theorem State.Keeps.hoistPass {ch n : Nat} : s₀.Keeps (s.hoistPass ch n) := by
  refine .ite h (.setChan ?_)
  split
  · exact h
  · exact .passWeir h

theorem State.Keeps.setBuf {k input c : Nat} {l : List Parcel} : s₀.Keeps (s.setBuf k input c l) := .upd h

theorem State.Keeps.enterLeat {w : Nat} {p : Parcel} : s₀.Keeps (s.enterLeat w p) := .setBuf h

theorem State.Keeps.arrive {p : Parcel} : s₀.Keeps (s.arrive p) := .upd h

theorem State.Keeps.countHop {k out c : Nat} {both : Bool} : s₀.Keeps (s.countHop k out c both) := .upd h

theorem execRouterHop_completes {k out input wait : Nat} : s₀.Completes (execRouterHop k out input wait s) := by
  unfold execRouterHop
  dsimp only
  split
  · exact .next (.bump h)
  · split
    · exact .next (.bump h)
    · refine .ite (.next (.arrive (.countHop (.setBuf (.bump h))))) ?_
      split
      · exact .next (.setBuf (.countHop (.setBuf (.bump h))))
      · exact .next (.bump h)

theorem State.Keeps.loopCopies {m : Nat} {t : TailSlot} : s₀.Keeps (s.loopCopies m t) := .setMill h

theorem execTailraceEmit_completes {m i wait : Nat} : s₀.Completes (execTailraceEmit m i wait s) := by
  refine .ite (.next (.bump h)) ?_
  split
  · exact .next (.bump h)
  · refine .ite (.next (.bump h)) (.ite (.next (.bump h)) ?_)
    split
    · extract_lets s₁
      have h₁ : s₀.Keeps s₁ := .loopCopies (State.KeepsSome.takeCredits (.bump h) _ ‹_›)
      exact .next (.ite (.foldl (fun _ _ h => .recallPool h) (.setMill h₁)) (.setMill h₁))
    · exact .next (.bump h)

theorem State.Keeps.admitMill {m dest : Nat} : s₀.Keeps (s.admitMill m dest) := by
  unfold State.admitMill
  split
  · exact h
  · exact .ite (.setMill (.enterLeat (.takeToken h))) h

theorem State.Keeps.setWaiting {w : Nat} {l : List Parcel} : s₀.Keeps (s.setWaiting w l) := .upd h

theorem State.Keeps.admitEdge {w dest : Nat} : s₀.Keeps (s.admitEdge w dest) := by
  unfold State.admitEdge
  split
  · exact h
  · split
    · exact h
    · refine .ite ?_ h
      extract_lets _ s₁
      have h₁ : s₀.Keeps s₁ := .enterLeat (.takeToken (.takeCredit (.setWaiting h)))
      split
      · exact .recallPool h₁
      · exact h₁

theorem execWeirAdmit_completes {w dest wait : Nat} : s₀.Completes (execWeirAdmit w dest wait s) :=
  .ite (.next h)
    (.ite (.ite (.next (.admitMill (.bump (.bump h)))) (.next (.bump (.bump h))))
      (.ite (.next (.hoistPass (.bump h))) (.ite (.next (.pxDrain (.bump h))) (.next (.admitEdge (.bump h))))))

theorem State.Keeps.latPeak {cls w cycles : Nat} : s₀.Keeps (s.latPeak cls w cycles) := .ite (.ite h (.setReg h)) h

theorem State.Keeps.hopperWrite {p : Parcel} {w : Nat} : s₀.Keeps (s.hopperWrite p w) :=
  .ite (.reclaim h) (.move (.setMill h))

theorem State.Keeps.itemResult {p : Parcel} : s₀.Keeps (s.itemResult p) := by
  unfold State.itemResult
  split
  · exact h
  · exact .ite (.finish (.pondWrite h)) (.upd (.pondWrite h))

theorem execHopperWrite_completes {dest : Nat} {loop : Bool} {m cycles : Nat} :
    s₀.Completes (execHopperWrite dest loop m cycles s) := by
  refine .ite ?_ ?_
  · split
    · exact .next h
    · exact .ite (.next (.hopperWrite (.setMill h))) (.next h)
  · split
    · exact .next h
    · exact .ite (.next (.hopperWrite (.latPeak (.upd h)))) (.ite (.next (.itemResult (.upd h))) (.next h))

theorem State.Keeps.slotBack {m q : Nat} {p : Parcel} : s₀.Keeps (s.slotBack m q p) :=
  .ite (.move (.upd (.move h))) (.move (.upd (.move h)))

theorem execSlotFree_completes {m q : Nat} : s₀.Completes (execSlotFree m q s) := by
  unfold execSlotFree
  extract_lets
  split
  · exact .next h
  · exact .next (.slotBack (.setMill h))

theorem State.Keeps.dropParcels {m q : Nat} {f : Parcel → Bool} : s₀.Keeps (s.dropParcels m q f) :=
  .foldl (fun _ _ h => .slotBack h) (.setMill h)

theorem execCreditArrive_completes {p w : Nat} : s₀.Completes (execCreditArrive p w s) :=
  .ite (.next h) (.ite (.next (.move (.upd (.upd h)))) (.next (.move (.setCredits (.upd h)))))

theorem execParcelHeaderError_completes : s₀.Completes (execParcelHeaderError s) :=
  .ite (.next (.resetFabric (.bump h))) (.next h)

theorem execCoreHeartbeat_completes {m : Nat} : s₀.Completes (execCoreHeartbeat m s) := .ite (.next (.setMill h)) (.next h)

theorem execWatchdogExpiry_completes {m : Nat} : s₀.Completes (execWatchdogExpiry m s) :=
  .ite (.next (.targetFault (.millFault h))) (.next h)

theorem execMillUncorrectable_completes {m : Nat} : s₀.Completes (execMillUncorrectable m s) :=
  .ite (.next (.targetFault (.millFault (.bump h)))) (.next h)

theorem State.Keeps.reseed {m : Nat} {pass : Bool} : s₀.Keeps (s.reseed m pass) := by
  unfold State.reseed
  extract_lets _ _ _ s₁
  have h₁ : s₀.Keeps s₁ := .ite (.setReg h) (.bump (.setReg h))
  exact .ite (.record (.setMill h₁)) (.setMill h₁)

theorem execSrReseed_completes {m : Nat} {pass : Bool} : s₀.Completes (execSrReseed m pass s) :=
  .ite (.next (.reseed h)) (.next h)

/-! ### Machine, Tiers -/

theorem State.Keeps.holdRun {c first n : Nat} {k : PageKind} : s₀.Keeps (s.holdRun c first n k) := .move (.upd h)

theorem State.Keeps.dropRun {c first n : Nat} : s₀.Keeps (s.dropRun c first n) := .move (.upd h)

theorem State.Keeps.setMap {p : Nat} {e : MapEntry} : s₀.Keeps (s.setMap p e) := .upd h

theorem State.Keeps.mapTouch {p : Nat} : s₀.Keeps (s.mapTouch p) := .ite h (.bump (.drew (.upd h)))

theorem State.Keeps.mapTouchRun {p n : Nat} : s₀.Keeps (s.mapTouchRun p n) := .foldl (fun _ _ h => .mapTouch h) h

theorem execAlloc_completes {ctx idx first : Nat} : s₀.Completes (execAlloc ctx idx first s) := by
  unfold execAlloc
  split
  · exact .next h
  · refine .ite (.next h)
      (.ite (.next (.finish h))
        (.ite ?_
          (.ite (.next (.finish h))
            (.ite (.ite (.next (.finish (.move (.foldl (fun _ _ h => .setMap h) (.mapTouchRun h))))) (.next (.finish h))) ?_))))
    · split
      · exact .ite (.next (.finish h)) (.next (.finish (.holdRun h)))
      · exact .next (.finish h)
    · split
      · exact .next (.finish (.move (.foldl (fun _ _ h => .setMap h) (.mapTouchRun h))))
      · exact .next (.finish h)

theorem execFree_completes {ctx idx : Nat} : s₀.Completes (execFree ctx idx s) := by
  unfold execFree
  split
  · exact .next h
  · exact .ite (.next h)
      (.ite (.next (.finish h))
        (.ite (.next (.finish h))
          (.ite (.next (.finish (.dropRun h)))
            (.next (.finish (.move (.foldl (fun _ _ h => .setMap h) (.mapTouchRun h))))))))

theorem execHoist_completes {ctx idx : Nat} : s₀.Completes (execHoist ctx idx s) := by
  unfold execHoist
  split
  · exact .next h
  · exact .ite (.next h) (.ite (.next (.finish h)) (.next (.begin (.upd h))))

theorem State.Keeps.pageBegins {ch : Nat} : s₀.Keeps (s.pageBegins ch) :=
  .ite h (.ite (.setChan h) (.ite (.pxRequest (.upd h)) (.ite (.setMap h) h)))

theorem execTierCmdStart_completes {ctx idx ch : Nat} : s₀.Completes (execTierCmdStart ctx idx ch s) := by
  unfold execTierCmdStart
  split
  · exact .next h
  · refine .ite (.next h) ?_
    extract_lets
    split
    · exact .next (.finish (.countStatus (.upd h)))
    · exact .ite (.next (.finish (.upd h))) (.next (.pageBegins (.setChan (.upd h))))

theorem State.Keeps.pageFault {x : Chan} {fault line src dst : Nat} : s₀.Keeps (s.pageFault x fault line src dst).2 := by
  unfold State.pageFault
  dsimp only
  split
  · exact .snd (.record (.setMap h))
  · split
    · exact .snd (.record (.setMap h))
    · split
      · exact h
      · split
        · exact .snd (.upd h)
        · repeat' split
          all_goals exact h

theorem State.Keeps.pageStore {dst slot : Nat} {bs : Bytes} : s₀.Keeps (s.pageStore dst slot bs) :=
  .ite (.setMap (.setLocal h)) (.putMem h)

theorem State.Keeps.pageOver {ch status : Nat} : s₀.Keeps (s.pageOver ch status) :=
  .ite (.pageBegins (.setChan (.countStatus h))) (.ite (.setChan (.countStatus h)) (.finishAt (.setChan (.countStatus h))))

theorem State.Keeps.mapTouchIf {c : Prop} [Decidable c] {p : Nat} : s₀.Keeps (if c then s.mapTouch p else s) :=
  .ite (.mapTouch h) h

theorem execHoistPageDone_completes {ch fault line slot : Nat} : s₀.Completes (execHoistPageDone ch fault line slot s) := by
  unfold execHoistPageDone
  have h₁ : s₀.Keeps (s.hoistPass ch 2048) := .hoistPass h
  refine .ite (.next h₁) (.ite (.next h₁) (.ite ?_ ?_))
  · dsimp only
    split
    · exact .next (.pageOver (.ite (.drew (.putMem (.upd h₁))) (.upd h₁)))
    · exact .ite (.next (.pageOver (.ite (.drew (.putMem (.upd (.endRemote h₁)))) (.upd (.endRemote h₁))))) (.next h₁)
  · exact .ite (.next (.pageOver (.pageStore (.mapTouchIf (.mapTouchIf h₁)))))
      (.next (.pageOver (.ite (.setMap (.pageFault (.mapTouchIf (.mapTouchIf h₁))))
        (.drew (.putMem (.pageFault (.mapTouchIf (.mapTouchIf h₁))))))))

theorem execTierRequest_completes {mill stage id cls : Nat} {write : Bool} {hbm pond len : Nat} :
    s₀.Completes (execTierRequest mill stage id cls write hbm pond len s) := by
  unfold execTierRequest
  refine .ite (.next h) (.ite (.next (.tierEnd (.upd (.ite (.move h) (.move h))))) ?_)
  split
  · exact .next (.pxRequest (.upd (.ite (.move h) (.move h))))
  · exact .next (.upd (.ite (.move h) (.move h)))

theorem execTierRequestDone_completes {mill stage id : Nat} {ue : Option Nat} :
    s₀.Completes (execTierRequestDone mill stage id ue s) := by
  unfold execTierRequestDone
  split
  · exact .next h
  · refine .ite (.next h) (.ite (.next (.tierEnd (.putMem h))) ?_)
    split
    · exact .next (.tierEnd (.upd h))
    · exact .ite (.next (.tierEnd h)) (.next (.tierEnd (.putMem h)))

theorem execTierLateExpiry_completes {mill stage id : Nat} : s₀.Completes (execTierLateExpiry mill stage id s) := by
  unfold execTierLateExpiry
  split
  · exact .next h
  · refine .ite (.next h) ?_
    split
    · exact .next (.collFail h)
    · exact .ite (.next (.endRemote h)) (.ite (.next (.tierEnd (.putMem h))) (.next (.tierEnd h)))

theorem execPurge_completes {ctx : Nat} : s₀.Completes (execPurge ctx s) :=
  .ite (.next h) (.ite (.next (.upd h)) (.next (.upd (.foldl (fun _ _ h => .mapTouch h) h))))

theorem execCommit_completes : s₀.Completes (execCommit s) :=
  .ite (.next h) (.ite (.next (.upd h)) (.next (.otpAsk (.upd h))))

theorem State.Keeps.retire {station a : Nat} : s₀.Keeps (s.retire station a) := by
  unfold State.retire
  split
  · exact h
  · exact .ite h (.record (.upd h))

theorem execHbmRowRepair_completes {station channel bank row : Nat} {lines : List Nat} :
    s₀.Completes (execHbmRowRepair station channel bank row lines s) := by
  refine .ite (.next h) ?_
  split
  · exact .next (.upd h)
  · exact .next (.foldl (fun _ _ h => .retire h) h)

theorem execHbmRepairDone_completes : s₀.Completes (execHbmRepairDone s) := by
  unfold execHbmRepairDone
  split
  · exact .next h
  · exact .next (.record (.upd h))

/-! ### Machine, Vision -/

theorem State.Keeps.setStripe {n : Node} {x : StripePos} : s₀.Keeps (s.setStripe n x) := .upd h

theorem State.Keeps.setFrameBuf {a : Nat} {x : FrameBuf} : s₀.Keeps (s.setFrameBuf a x) := .upd h

theorem execFrameBufferStart_completes {ingress : Bool} {m i wait : Nat} :
    s₀.Completes (execFrameBufferStart ingress m i wait s) := by
  refine .ite ?_ (.ite (.next (.setStripe (.setFrameBuf (.bump h)))) (.next (.bump h)))
  split
  · exact .next h
  · exact .ite (.next (.upd (.setFrameBuf h))) (.next h)

theorem execStripeStart_completes {m i wait : Nat} : s₀.Completes (execStripeStart m i wait s) :=
  .ite (.next (.setStripe (.bump (.bump h)))) (.next (.bump h))

theorem State.Keeps.tail {m i : Nat} {job : StageJob} {rs : List Res} : s₀.Keeps (s.tail m i job rs).2 :=
  .setMill (.drew (.foldl (fun _ _ h => .countBlock h) h))

theorem State.KeepsSome.takeParcels {m i : Nat} {qs : List Nat} : s₀.KeepsSome (s.takeParcels m i qs) := by
  induction qs generalizing s with
  | nil => exact .some h
  | cons q qs ih =>
    unfold State.takeParcels
    split
    · exact .none
    · exact .ite (ih (.setMill h)) .none

theorem State.Keeps.dropTokens {m i : Nat} {ids : List Nat} : s₀.Keeps (s.dropTokens m i ids) := .upd h

theorem State.KeepsSome.stageOut {m i : Nat} {job : StageJob} {seq : Nat} {bs : List OutBlock} :
    s₀.KeepsSome (s.stageOut m i job seq bs) := by
  unfold State.stageOut
  split
  · exact .some (.storeBlocks h)
  · exact .ite (.some h) (.ite (.some (.setMill h)) .none)

theorem State.Keeps.countCycles {m : Nat} {job : StageJob} : s₀.Keeps (s.countCycles m job) := .bump (.bump (.bump h))

theorem State.Keeps.tails {m i : Nat} {job : StageJob} {rs : List (List Res)} : s₀.Keeps (s.tails m i job rs).2 := by
  induction rs generalizing s with
  | nil => exact h
  | cons r rs ih => exact ih (.tail h)

theorem State.KeepsSome.stageEmit {m i : Nat} {job : StageJob} {next : Nat} {blocks : State → List OutBlock × State}
    (hb : ∀ t, s₀.Keeps t → s₀.Keeps (blocks t).2) :
    s₀.KeepsSome (s.stageEmit m i job next blocks) :=
  .ite (.bind (.takeParcels h) fun _ h => .stageOut (.countCycles (hb _ (.drew (.dropTokens h))))) .none

theorem State.KeepsSome.stageStep {m i : Nat} {job : StageJob} : s₀.KeepsSome (s.stageStep m i job) :=
  .bindOf fun _ => .stageEmit h fun _ h => .tails h

theorem State.Keeps.stripePlane {m i : Nat} {job : StageJob} {t : Tensor} {a : Nat} {rs : List Res} :
    s₀.Keeps (s.stripePlane m i job t a rs) :=
  .storeBlocks (.tail h)

theorem State.Keeps.stripePlanes {m i : Nat} {job : StageJob} {t : Tensor} {a : Nat} {rs : List (List Res)} :
    s₀.Keeps (s.stripePlanes m i job t a rs) := by
  induction rs generalizing s t with
  | nil => exact h
  | cons r rs ih => exact ih (.stripePlane h)

theorem State.KeepsSome.stripeStep {m i : Nat} {job : StageJob} : s₀.KeepsSome (s.stripeStep m i job) := by
  unfold State.stripeStep
  dsimp only
  split
  · exact .ite .none (.some (.ite (.setStripe (.countCycles (.setFrameBuf (.stripePlanes (.drew (.dropTokens h))))))
      (.setStripe (.countCycles (.setFrameBuf (.stripePlanes (.drew (.dropTokens h))))))))
  · exact .none

theorem State.Keeps.freeSnSlot {n : Nat} : s₀.Keeps (s.freeSnSlot n) := .setStream h

theorem execIngressDeliveryDone_completes {stream : Nat} : s₀.Completes (execIngressDeliveryDone stream s) := by
  unfold execIngressDeliveryDone
  split
  · split
    · exact .ite (.next h) (.next (.freeSnSlot h))
    · exact .ite (.next (.freeSnSlot (.upd (.setFrameBuf (.putMem (.putMem h)))))) (.next h)
    · exact .next (.freeSnSlot h)
  · exact .next h

/-! ### Machine, Attention -/

theorem State.Keeps.setSeq {k : Nat} {d : SeqDesc} : s₀.Keeps (s.setSeq k d) := .putMem (.upd h)

theorem State.Keeps.takeCache {ctx : Nat} {want : List Nat} {n : Nat} : s₀.Keeps (s.takeCache ctx want n).2 := by
  induction n generalizing s want with
  | zero => exact h
  | succ n ih =>
    unfold State.takeCache
    split
    · exact h
    · exact ih (.holdRun h)

theorem State.Keeps.fillList {d : SeqDesc} {es : List (Nat × Nat)} {ps : List Nat} : s₀.Keeps (s.fillList d es ps) := by
  induction es generalizing s ps with
  | nil => exact h
  | cons e es ih =>
    cases ps with
    | nil => exact h
    | cons p ps => exact ih (.putMem (.putMem h))

theorem State.KeepsSome.addPages {k : Nat} {d : SeqDesc} {need : List (Nat × Nat)} {want : List Nat} :
    s₀.KeepsSome (s.addPages k d need want) :=
  .ite .none (.ite .none (.some (.setSeq (.fillList (.takeCache h)))))

theorem State.KeepsSome.openSeq {k m : Nat} {p : AttnP} {layer seqId maxTokens : Nat} {want : List Nat} :
    s₀.KeepsSome (s.openSeq k m p layer seqId maxTokens want) := by
  refine .ite .none ?_
  split
  · exact .none
  · exact .ite (.addPages (.setSeq (.putMem (.holdRun h)))) (.some (.setSeq (.putMem (.holdRun h))))

theorem State.Keeps.closeSeq {k : Nat} : s₀.Keeps (s.closeSeq k) :=
  .ite (.setSeq (.upd (.dropRun (.foldl (fun _ _ h => .dropRun h) h)))) h

theorem State.Keeps.endReads {m i k : Nat} : s₀.Keeps (s.endReads m i k) := .closeSeq (.upd h)

theorem State.Keeps.endMillReads {m : Nat} : s₀.Keeps (s.endMillReads m) := .foldl (fun _ _ h => .closeSeq h) (.upd h)

theorem State.Keeps.advance {k : Nat} {p : AttnP} : s₀.Keeps (s.advance k p) := .ite h (.ite (.drew (.setSeq h)) (.setSeq h))

theorem execKvReadResume_completes {m i slot pos granules idx wait : Nat} :
    s₀.Completes (execKvReadResume m i slot pos granules idx wait s) := by
  unfold execKvReadResume
  split
  · exact .next h
  · refine .ite (.next h) ?_
    extract_lets _ _ s₁
    have h₁ : s₀.Keeps s₁ := .advance (.bump h)
    exact .ite (.next (.finishAt (.upd h₁))) (.ite (.next (.upd (.upd h₁))) (.next (.bump (.upd (.upd h₁)))))

theorem execSequenceClose_completes {m i slot : Nat} : s₀.Completes (execSequenceClose m i slot s) := by
  unfold execSequenceClose
  split
  · exact .next h
  · exact .ite (.next (.closeSeq (.setSeq h))) (.next h)

theorem State.Keeps.kvBlock {p : AttnP} {d : SeqDesc} {r pos cb : Nat} {b : OutBlock} :
    s₀.Keeps (s.kvBlock p d r pos cb b) :=
  .ite h (.putMem (.putMem h))

theorem State.Keeps.kvBlocks {p : AttnP} {d : SeqDesc} {p0 count : Nat} {bs : List OutBlock} :
    s₀.Keeps (s.kvBlocks p d p0 count bs) :=
  .foldl (fun _ _ h => .kvBlock h) h

theorem State.Keeps.seqEnd {m idx status : Nat} : s₀.Keeps (s.seqEnd m idx status) := .finishAt h

theorem execKvWriteStep_completes {m i slot seqId layer maxTokens p0 count idx : Nat} {decode fail : Bool}
    {pages : List Nat} {job : StageJob} :
    s₀.Completes (execKvWriteStep m i slot seqId layer maxTokens p0 count idx decode fail pages job s) := by
  unfold execKvWriteStep
  split
  · exact .next h
  · refine .ite (.next h) ?_
    split
    · exact .next h
    · extract_lets _ _ _ s₁
      have h₁ : s₀.Keeps s₁ :=
        .dropTokens (.ite (.bump (State.KeepsSome.takeParcels h _ ‹_›)) (State.KeepsSome.takeParcels h _ ‹_›))
      refine .ite (.next (.seqEnd h₁)) ?_
      split
      · exact .next (.seqEnd h₁)
      · refine .ite (.next (.seqEnd h₁)) (.ite (.next h) ?_)
        split
        · exact .next (.seqEnd h₁)
        · extract_lets _ _ s₂
          have h₂ : s₀.Keeps s₂ :=
            .kvBlocks
              (.tail
                (State.KeepsSome.addPages (State.KeepsSome.ite (.some h₁) (.openSeq h₁) _ ‹_›) _ ‹_›))
          exact .ite (.next (.seqEnd h₂)) (.next (.upd (.advance (.ite (.setSeq (.bump h₂)) (.bump h₂)))))

theorem State.Keeps.setPrefill {m b : Nat} {l : List PrefillItem} : s₀.Keeps (s.setPrefill m b l) := .upd h

theorem execPrefillDispatch_completes {m b : Nat} {join : List (Nat × Nat × Nat)} :
    s₀.Completes (execPrefillDispatch m b join s) := by
  unfold execPrefillDispatch
  extract_lets _ s₁
  have h₁ : s₀.Keeps s₁ := .foldl (fun _ _ h => .ite (.finishAt h) (.setPrefill h)) h
  exact .ite (.next h₁) (.next (.bump (.setPrefill h₁)))

theorem State.KeepsSome.scoreStep {m i : Nat} {p : AttnP} {job : StageJob} {q : Source} {slot : Nat} :
    s₀.KeepsSome (s.scoreStep m i p job q slot) :=
  .ite .none
    (.map (.stageEmit h (fun _ h => .tails h))
      (fun _ h => by
          extract_lets s₁
          have h₁ : s₀.Keeps s₁ := .ite (.bump h) h
          exact .ite (.endReads h₁) h₁))

theorem State.KeepsSome.softStep {m i : Nat} {p : AttnP} {job : StageJob} {n : Nat} {x : Source} :
    s₀.KeepsSome (s.softStep m i p job n x) :=
  .ite .none (.map (.stageEmit h (fun _ h => .tails h)) (fun _ h => .ite (.upd h) h))

theorem State.Keeps.partialTails {m i : Nat} {job : StageJob} {rs : List (List Res × Side)} :
    s₀.Keeps (s.partialTails m i job rs).2 := by
  induction rs generalizing s with
  | nil => exact h
  | cons r rs ih => exact ih (.tail h)

theorem State.KeepsSome.valueStep {m i : Nat} {p : AttnP} {job : StageJob} {x : Source} {slot : Nat} :
    s₀.KeepsSome (s.valueStep m i p job x slot) :=
  .ite .none
    (.ite (.map (.stageEmit h fun _ h => .partialTails h) fun _ h => .ite (.endReads (.upd h)) (.upd h))
      (.map (.stageEmit h fun _ h => .tails h) fun _ h => .ite (.endReads (.upd h)) (.upd h)))

theorem State.KeepsSome.rotaryStep {m i : Nat} {p : AttnP} {job : StageJob} {x : Source} {pos : List Nat} :
    s₀.KeepsSome (s.rotaryStep m i p job x pos) := by
  unfold State.rotaryStep
  exact .stageEmit h fun _ h => .tails h

theorem State.Keeps.addPartial {m i step head : Nat} {p : Partial} : s₀.Keeps (s.addPartial m i step head p) := by
  unfold State.addPartial
  extract_lets
  split
  · exact .upd h
  · exact .upd h

theorem State.KeepsSome.collectPartial {m i : Nat} {p : AttnP} {job : StageJob} {xs : List Source} :
    s₀.KeepsSome (s.collectPartial m i p job xs) :=
  .ite .none (.map (.takeParcels h) (fun _ h => .foldl (fun _ _ h => .addPartial h) (.dropTokens h)))

theorem execAttnMergeEmit_completes {m i step head wait : Nat} {down : Bool} {job : StageJob} :
    s₀.Completes (execAttnMergeEmit m i step head wait down job s) := by
  unfold execAttnMergeEmit
  split
  · exact .next h
  · refine .ite (.next h) ?_
    extract_lets
    split
    · exact .next (.bump h)
    · extract_lets _ s₁
      have h₁ : s₀.Keeps s₁ := .upd (State.KeepsSome.stageOut (.tail (.drew (.bump h))) _ ‹_›)
      exact .next (.ite (.seqEnd h₁) h₁)

theorem State.Keeps.discardMerges {steps : List Nat} : s₀.Keeps (s.discardMerges steps) :=
  .foldl
    (fun _ _ h => by
        split
        · exact .ite h (.foldl (fun _ _ h => .ite (.dropParcels h) h) h)
        · exact h)
    (.upd (.foldl (fun _ _ h => .bump h) h))

/-! ### Machine, Ledger -/

theorem execLgSnapCtrl_completes {v : Nat} : s₀.Completes (execLgSnapCtrl v s) := .ite (.next (.upd h)) (.next (.upd h))

theorem execSnapCaptureDone_completes : s₀.Completes (execSnapCaptureDone s) := .ite (.next (.upd h)) (.next h)

/-! ### Machine, Streams -/

theorem State.Keeps.setStrm {n : Nat} {x : Stream} : s₀.Keeps (s.setStrm n x) := .upd h

theorem State.Keeps.zeroLayer {n : Nat} {c : StreamCfg} {i gen : Nat} : s₀.Keeps (s.zeroLayer n c i gen) := by
  unfold State.zeroLayer
  split
  · exact h
  · exact .setStrm (.putMem h)

theorem State.Keeps.zeroLayers {n : Nat} {c : StreamCfg} {gen : Nat} : s₀.Keeps (s.zeroLayers n c gen) :=
  .foldl (fun _ _ h => .zeroLayer h) h

theorem State.Keeps.chunkDone {k : Chunk} {status : Nat} : s₀.Keeps (s.chunkDone k status) := by
  unfold State.chunkDone
  split
  · exact .finishAt h
  · exact h

theorem State.Keeps.staleChunk {k : Chunk} : s₀.Keeps (s.staleChunk k) := .chunkDone (.bump h)

theorem State.Keeps.queuePages {ctx : Nat} {c : StreamCfg} {n : Nat} : s₀.Keeps (s.queuePages ctx c n) := .move h

theorem State.Keeps.staleQueue {n ctx : Nat} {c : StreamCfg} : s₀.Keeps (s.staleQueue n ctx c) :=
  .foldl (fun _ _ h => .staleChunk h) (.queuePages (.setStrm h))

theorem State.Keeps.streamCmd {ctx idx op : Nat} {states : List StreamState} {gen : Bool}
    {k : Request → Nat → StreamCfg → State} (hk : ∀ r n c, s₀.Keeps (k r n c)) :
    s₀.Keeps (s.streamCmd ctx idx op states gen k) := by
  unfold State.streamCmd
  split
  · exact h
  · refine .ite (.finish h) ?_
    split
    · exact .finish h
    · exact .ite (.finish h) (.ite (.finish h) (.ite (.finish h) (hk _ _ _)))

theorem execStreamStart_completes {ctx idx : Nat} : s₀.Completes (execStreamStart ctx idx s) :=
  .next (.streamCmd h (fun _ _ _ => .finish (.zeroLayers (.setStrm h))))

theorem execStreamPause_completes {ctx idx : Nat} : s₀.Completes (execStreamPause ctx idx s) :=
  .next (.streamCmd h (fun _ _ _ => .finish (.setStrm h)))

theorem execStreamResume_completes {ctx idx : Nat} : s₀.Completes (execStreamResume ctx idx s) :=
  .next (.streamCmd h (fun _ _ _ => .finish (.setStrm h)))

theorem State.Keeps.raiseGen {n ctx : Nat} {c : StreamCfg} : s₀.Keeps (s.raiseGen n ctx c) := .setStrm (.staleQueue h)

theorem execStreamReset_completes {ctx idx : Nat} : s₀.Completes (execStreamReset ctx idx s) :=
  .next (.streamCmd h (fun _ _ _ => .finish (.raiseGen h)))

theorem execStreamEnd_completes {ctx idx : Nat} : s₀.Completes (execStreamEnd ctx idx s) :=
  .next (.streamCmd h (fun _ _ _ => .setStrm (.begin (.raiseGen h))))

theorem execStreamExport_completes {ctx idx : Nat} : s₀.Completes (execStreamExport ctx idx s) :=
  .next (.streamCmd h (fun _ _ _ => .ite (.finish h) (.setStrm (.begin h))))

theorem State.Keeps.packageRemote {n ctx : Nat} {write : Bool} {a len : Nat} :
    s₀.Keeps (s.packageRemote n ctx write a len) :=
  .foldl (fun _ _ h => .pxRequest (.upd h)) h

theorem State.Keeps.packageClear {n : Nat} : s₀.Keeps (s.packageClear n) := .upd h

theorem State.Keeps.countMove {imports : Bool} : s₀.Keeps (s.countMove imports) := .setReg h

theorem State.Keeps.releaseStream {n : Nat} : s₀.Keeps (s.releaseStream n) := .setStrm h

theorem State.Keeps.exported {n : Nat} {c : StreamCfg} {w : StreamWait} : s₀.Keeps (s.exported n c w) := by
  unfold State.exported
  extract_lets
  split
  · exact .countMove h
  · exact .ite (.finish (.setStrm (.countMove h))) (.finish (.releaseStream (.upd (.queuePages (.countMove h)))))

theorem State.Keeps.exportFailed {n : Nat} {w : StreamWait} {status : Nat} : s₀.Keeps (s.exportFailed n w status) :=
  .finishAt (.setStrm h)

theorem State.Keeps.exportStep {n : Nat} {c : StreamCfg} {w : StreamWait} : s₀.Keeps (s.exportStep n c w) :=
  .ite (.ite h (.ite (.exported (.packageClear h)) (.exportFailed (.packageClear h))))
    (.ite (.exportFailed h) (.ite (.setStrm (.packageRemote (.setLocal h))) (.exported (.putMem h))))

theorem State.Keeps.importLayers {n : Nat} {c : StreamCfg} {gen : Nat} {b : Bytes} {k : Nat} :
    s₀.Keeps (s.importLayers n c gen b k) := by
  induction k generalizing s b with
  | zero => exact h
  | succ k ih =>
    unfold State.importLayers
    dsimp only
    split
    · exact h
    · exact ih (.setStrm (.putMem h))

theorem State.Keeps.importPackage {n ctx : Nat} {c : StreamCfg} {r : Request} {b : Bytes} :
    s₀.Keeps (s.importPackage n ctx c r b) :=
  .ite (.finish (.setStrm h))
    (.ite (.finish (.setStrm h))
      (.ite (.finish (.setStrm h))
        (.finish (.countMove (.move (.foldl (fun _ _ h => .putMem h) (.importLayers (.setStrm h))))))))

theorem execStreamImport_completes {ctx idx : Nat} : s₀.Completes (execStreamImport ctx idx s) :=
  .next
    (.streamCmd h
      (fun _ _ _ => .ite (.finish h) (.ite (.setStrm (.packageRemote (.begin h))) (.ite (.finish h) (.importPackage h)))))

theorem State.Keeps.importStep {n : Nat} {c : StreamCfg} {w : StreamWait} : s₀.Keeps (s.importStep n c w) := by
  unfold State.importStep
  extract_lets
  split
  · exact h
  · exact .ite h (.ite (.importPackage (.packageClear h)) (.finish (.setStrm (.packageClear h))))

theorem execChunkBoundary_completes {stream : Nat} : s₀.Completes (execChunkBoundary stream s) := by
  unfold execChunkBoundary
  extract_lets
  split
  · exact .next h
  · refine .ite (.next h) ?_
    split
    · exact .ite (.next (.importStep h))
        (.ite (.next (.exportStep h)) (.next (.finishAt (.releaseStream (.staleQueue h)))))
    · exact .ite (.next (.releaseStream (.raiseGen h))) (.next h)

theorem execChunk_completes {ctx idx : Nat} : s₀.Completes (execChunk ctx idx s) := by
  unfold execChunk
  split
  · exact .next h
  · refine .ite (.next h) (.ite (.next (.finish h)) (.ite (.next (.finish h)) ?_))
    extract_lets
    split
    · exact .next (.finish h)
    · exact .ite (.next (.finish h)) (.ite (.next (.finish h)) (.next (.begin h)))

theorem execChunkEnqueue_completes {host : Bool} {ctx idx : Nat} {chunk : Bytes} :
    s₀.Completes (execChunkEnqueue host ctx idx chunk s) := by
  refine .ite (.next h) ?_
  extract_lets
  split
  · exact .next h
  · exact .ite (.next h) (.ite (.next (.staleChunk h)) (.ite (.next h) (.next (.setStrm (.putMem (.move h))))))

theorem State.Keeps.dropChunk {n : Nat} {l : Layer} {k : Chunk} : s₀.Keeps (s.dropChunk n l k) :=
  .foldl (fun _ _ h => .ite (.dropParcels h) h) h

theorem execLayerChunkStart_completes {stream layer : Nat} : s₀.Completes (execLayerChunkStart stream layer s) := by
  unfold execLayerChunkStart
  split
  · exact .next h
  · refine .ite (.next h) (.ite ?_ ?_)
    · split
      · exact .next h
      · refine .ite (.next h) ?_
        split
        · exact .next (.staleChunk (.queuePages (.setStrm h)))
        · exact .next (.setStrm (.ite (.zeroLayer h) h))
    · split
      · exact .next h
      · split
        · extract_lets _ s₁
          have h₁ : s₀.Keeps s₁ := by
            unfold s₁
            split
            · exact .dropChunk (.setStrm h)
            · exact .setStrm h
          exact .next (.bump h₁)
        · exact .next (.setStrm (.ite (.zeroLayer h) h))

theorem State.Keeps.layerRan {n layer : Nat} {c : StreamCfg} {l : Layer} {r : ChunkRun} {steps : Nat} {st : RecState} :
    s₀.Keeps (s.layerRan n layer c l r steps st) :=
  .ite (.chunkDone (.bump (.queuePages (.setStrm (.putMem h))))) (.setStrm (.putMem h))

theorem State.KeepsSome.scanStep {m i : Nat} {job : StageJob} {n : Nat} {ins : List Source} :
    s₀.KeepsSome (s.scanStep m i job n ins) :=
  .bindOf fun _ => .bindOf fun _ => .bindOf fun _ => .bindOf fun _ => .bindOf fun _ =>
    .ite .none (.bind (.stageEmit h fun _ h => .tails h) fun _ h => .some (.layerRan h))

/-! ### Machine, Fusion -/

theorem State.Keeps.setTrack {n : Nat} {x : Track} : s₀.Keeps (s.setTrack n x) := .upd h

theorem State.Keeps.trackRec {stream event : Nat} {off o : Int} : s₀.Keeps (s.trackRec stream event off o) := .record h

theorem State.Keeps.desync {stream : Nat} {x : Track} {o : Int} : s₀.Keeps (s.desync stream x o) :=
  .trackRec (.bump (.setTrack h))

theorem State.Keeps.sampleFrame {c : FuCfg} {f : FuFrame} {t : Int} : s₀.Keeps (s.sampleFrame c f t) :=
  .foldl (fun _ _ h => .upd h) h

theorem State.Keeps.trackFrame {c : FuCfg} {e : FuSrc} {f : FuFrame} : s₀.Keeps (s.trackFrame c e f) := by
  unfold State.trackFrame
  dsimp only
  split
  · exact .ite (.ite (.desync (.bump h)) (.setTrack (.bump h))) (.ite (.desync h) (.sampleFrame (.setTrack h)))
  · exact .ite (.ite (.ite (.trackRec (.sampleFrame (.setTrack h))) (.sampleFrame (.setTrack h))) (.setTrack h))
      (.setTrack h)

theorem State.Keeps.phaseSeen {stream : Nat} {us : Int} : s₀.Keeps (s.phaseSeen stream us) := by
  unfold State.phaseSeen
  extract_lets
  split
  · exact .setReg h
  · exact .setReg h

theorem State.Keeps.fuseFrame {c : FuCfg} {tick : Nat} {f : FuFrame} : s₀.Keeps (s.fuseFrame c tick f) := by
  unfold State.fuseFrame
  extract_lets
  split
  · exact .setTrack (.phaseSeen h)
  · exact .ite (.bump (.phaseSeen h)) (.ite (.phaseSeen h) (.trackFrame (.phaseSeen h)))

theorem State.Keeps.countLate {c : FuCfg} {lo hi : Int} {fs : List FuFrame} : s₀.Keeps (s.countLate c lo hi fs) :=
  .foldl (fun _ _ h => .ite (.ite (.setTrack h) (.bump (.setTrack h))) h) h

theorem State.Keeps.propagate {c : FuCfg} {ego : Option Nat} {t : Int} : s₀.Keeps (s.propagate c ego t) := by
  unfold State.propagate
  split
  · exact .upd h
  · split
    · exact h
    · extract_lets
      split
      · exact .upd h
      · exact .upd h

theorem State.Keeps.setGate {i : Nat} {x : Gate} : s₀.Keeps (s.setGate i x) := .upd h

theorem State.Keeps.runGate {g : FuGate} {i : Nat} {al : List (Option Aligned)} {before : Fusion} {ego : Bool} {u : Int} :
    s₀.Keeps (s.runGate g i al before ego u) := by
  unfold State.runGate
  dsimp only
  split
  · refine .ite (.ite (.ite (.setGate h) (.setGate h)) (.setGate h)) (.ite (.setGate h) (.ite (.setGate h) ?_))
    split
    · exact .record (.setGate (.bump h))
    · exact .record (.setGate (.bump h))
    · exact .record (.setGate (.bump h))
  · exact h

theorem State.Keeps.fuse {tick : Nat} : s₀.Keeps (s.fuse tick) :=
  .upd (.upd (.upd (.foldl (fun _ _ h => .runGate h) (.propagate (.ite h (.record h))))))

theorem State.Keeps.adoptFused {ws : List Nat} : s₀.Keeps (s.adoptFused ws) := .upd h

theorem execConflictLimitExpiry_completes : s₀.Completes (execConflictLimitExpiry s) := by
  unfold execConflictLimitExpiry
  dsimp only
  split
  · exact .next h
  · exact .ite (.next h) (.next (.holdCause (.upd h)))

/-! ### Machine, Planner -/

theorem State.Keeps.setBolter {b : Nat} {x : Bolter} : s₀.Keeps (s.setBolter b x) := .upd h

theorem State.Keeps.startBuild {b n : Nat} {stamp : Int} : s₀.Keeps (s.startBuild b n stamp) :=
  .ite (.setBolter (.record (.bump h))) (.move (.move (.setBolter h)))

theorem execGridPublish_completes {b n : Nat} {stamp : Int} : s₀.Completes (execGridPublish b n stamp s) :=
  .ite (.next h) (.ite (.next (.setBolter h)) (.next (.startBuild h)))

theorem execBatch_completes {ctx idx : Nat} : s₀.Completes (execBatch ctx idx s) := by
  unfold execBatch
  split
  · exact .next h
  · exact .ite (.next h)
      (.ite (.next (.finish h))
        (.ite (.next (.finish h))
          (.ite (.next (.finish h))
            (.ite (.next (.finish h)) (.ite (.next (.finish h)) (.ite (.next h) (.next (.begin (.setBolter h)))))))))

theorem State.Keeps.select {b : Nat} {cands : List Cand} {timeout stale : Bool} :
    s₀.Keeps (s.select b cands timeout stale) := by
  unfold State.select
  extract_lets
  split
  · exact h
  · exact .setBolter h

theorem execBatchStart_completes {b : Nat} : s₀.Completes (execBatchStart b s) := by
  unfold execBatchStart
  extract_lets
  split
  · exact .next h
  · exact .ite (.next h) (.ite (.next (.select (.setBolter h))) (.next (.setBolter h)))

theorem execCheckingEnd_completes {b : Nat} {late : List Nat} : s₀.Completes (execCheckingEnd b late s) := by
  unfold execCheckingEnd
  extract_lets
  split
  · exact .next h
  · exact .ite (.next h) (.next (.select h))

theorem execBatchDeadline_completes {b : Nat} {tested late : List Nat} :
    s₀.Completes (execBatchDeadline b tested late s) := by
  unfold execBatchDeadline
  extract_lets
  split
  · exact .next h
  · exact .ite (.next h) (.next (.select h))

theorem State.KeepsSome.bolterAdmit {b : Nat} {p : Parcel} : s₀.KeepsSome (s.bolterAdmit b p) :=
  .ite (.some (.admitEdge (.setWaiting h))) .none

theorem State.Keeps.resultOver {b : Nat} {r : Result} : s₀.Keeps (s.resultOver b r) := by
  unfold State.resultOver
  extract_lets _ s₁ _ s₂ s₃ s₄
  have h₁ : s₀.Keeps s₁ := .ite (.putMem h) h
  have h₂ : s₀.Keeps s₂ := .ite (.bump (.bump h₁)) (.bump h₁)
  have h₃ : s₀.Keeps s₃ := .ite (.bump h₂) h₂
  have h₄ : s₀.Keeps s₄ := .ite (.bump h₃) h₃
  split
  · exact .setBolter h₄
  · exact .finishAt (.setBolter h₄)

theorem State.Keeps.recheck {b : Nat} {x : Bolter} {r : Result} : s₀.Keeps (s.recheck b x r) := .setBolter (.bump h)

theorem State.Keeps.emitNext {b : Nat} {x : Bolter} {r : Result} : s₀.Keeps (s.emitNext b x r) := by
  unfold State.emitNext
  extract_lets
  split
  · exact .resultOver h
  · split
    · exact h
    · exact .ite (.resultOver (State.KeepsSome.bolterAdmit h _ ‹_›)) (.setBolter (State.KeepsSome.bolterAdmit h _ ‹_›))

theorem execResultEmit_completes {b : Nat} : s₀.Completes (execResultEmit b s) := by
  refine .ite (.next h) (.ite ?_ ?_)
  · split
    · exact .next (.recheck h)
    · exact .next (.setBolter h)
  · split
    · split
      · exact .next (.setBolter (State.KeepsSome.bolterAdmit h _ ‹_›))
      · exact .next h
    · refine .ite (.next h) ?_
      split
      · exact .ite (.next (.emitNext h)) (.next h)
      · exact .next h

theorem State.Keeps.watch {b : Nat} : s₀.Keeps (s.watch b) := by
  unfold State.watch
  extract_lets
  split
  · split
    · exact .setBolter h
    · exact .setBolter (.bump h)
  · exact h

theorem State.Keeps.activate {b : Nat} {p : Pyramid} : s₀.Keeps (s.activate b p) := by
  unfold State.activate
  extract_lets
  split
  · exact .ite (.startBuild (.watch (.setBolter h))) (.watch (.setBolter h))
  · exact .watch (.setBolter h)

theorem execPyramidActivate_completes {b : Nat} : s₀.Completes (execPyramidActivate b s) := by
  unfold execPyramidActivate
  extract_lets
  split
  · exact .next h
  · exact .ite (.next h) (.next (.activate h))

theorem execPyramidBuildDone_completes {b : Nat} {failed : List Nat} : s₀.Completes (execPyramidBuildDone b failed s) := by
  unfold execPyramidBuildDone
  extract_lets
  split
  · exact .next h
  · exact .ite (.next h) (.ite (.next (.setBolter (.move h))) (.next (.activate (.setBolter (.move h)))))

theorem execClearWatch_completes {ctx idx : Nat} : s₀.Completes (execClearWatch ctx idx s) := by
  unfold execClearWatch
  split
  · exact .next h
  · exact .ite (.next h) (.ite (.next (.finish h)) (.ite (.next (.finish h)) (.next (.finish (.setBolter h)))))

theorem execRepairBatch_completes {b addr : Nat} : s₀.Completes (execRepairBatch b addr s) := by
  unfold execRepairBatch
  extract_lets
  split
  · exact .next h
  · exact .ite (.next h) (.next (.setBolter h))

/-! ### Machine, Governor -/

theorem State.Keeps.setGq {q : Nat} {x : GovQueue} : s₀.Keeps (s.setGq q x) := .upd h

theorem State.Keeps.freeGovSlot {q : Nat} {p : Parcel} : s₀.Keeps (s.freeGovSlot q p) :=
  .ite (.move (.upd (.move h))) (.move (.upd (.move h)))

theorem State.Keeps.freeRecord {q : Nat} {ps : List Parcel} : s₀.Keeps (s.freeRecord q ps) :=
  .foldl (fun _ _ h => .freeGovSlot h) (.setGq h)

theorem State.Keeps.govTake {q kind cycles : Nat} {r : Parcel × State} (hr : s.govTake q kind cycles = some r) :
    s₀.Keeps r.2 := by
  unfold State.govTake at hr
  dsimp only at hr
  split at hr
  · exact absurd hr (Option.some_ne_none r).symm
  · split at hr
    · exact absurd hr (Option.some_ne_none r).symm
    · rw [← Option.some.inj hr]
      exact .setGq (.move (.latPeak (.upd h)))

theorem execGovifRecordArrive_completes {q cycles : Nat} : s₀.Completes (execGovifRecordArrive q cycles s) := by
  unfold execGovifRecordArrive
  split
  · exact .next h
  · next p t ht =>
    have h₁ : s₀.Keeps t := .govTake h ht
    exact .ite (.next h₁) (.ite (.next (.freeRecord (.bump h₁))) (.ite (.next h₁) (.next (.freeRecord (.bump h₁)))))

theorem execPlanRecordArrive_completes {q cycles : Nat} : s₀.Completes (execPlanRecordArrive q cycles s) := by
  unfold execPlanRecordArrive
  split
  · exact .next h
  · next p t ht =>
    have h₁ : s₀.Keeps t := .govTake h ht
    exact .ite (.next h₁)
      (.ite (.next (.upd h₁)) (.ite (.next (.holdCause (.upd (.freeRecord (.bump h₁))))) (.next (.freeRecord (.bump h₁)))))

theorem State.Keeps.queueCauses : s₀.Keeps s.queueCauses := .setWheel h

theorem State.KeepsSome.fuseRecord {c : FuCfg} {es : List (Int × Nat × Nat)} {v : List Int} :
    s₀.KeepsSome (s.fuseRecord c es v) :=
  .ite (.some (.foldl (fun _ _ h => .upd h) h)) .none

theorem State.Keeps.applyRecord {c : FuCfg} {q : Nat} {p : Parcel} : s₀.Keeps (s.applyRecord c q p) := by
  unfold State.applyRecord
  dsimp only
  split
  · exact .freeRecord h
  · next t ht =>
    have h₁ : s₀.Keeps t := State.KeepsSome.ite (.fuseRecord h) (.some h) t ht
    exact .setGq (.freeRecord h₁)

theorem State.Keeps.closeQueue {c : FuCfg} {q : Nat} : s₀.Keeps (s.closeQueue c q) :=
  .ite h (.ite (.setGq h) (.setGq (.foldl (fun _ _ h => .applyRecord h) (.setGq h))))

theorem execAcceptanceWindowClose_completes : s₀.Completes (execAcceptanceWindowClose s) :=
  .ite (.next h)
    (.next
      (.upd (.queueCauses (.foldl (fun _ _ h => .closeQueue h) (.upd (.countLate (.foldl (fun _ _ h => .fuseFrame h) h)))))))

theorem execHoldLastExpiry_completes {q : Nat} : s₀.Completes (execHoldLastExpiry q s) :=
  .ite (.next h) (.next (.queueCauses (.setGq h)))

theorem State.Keeps.passTick {t : Nat} : s₀.Keeps (s.passTick t) := .upd h

theorem execInnerTick_completes : s₀.Completes (execInnerTick s) :=
  .ite (.next h) (.ite (.next (.passTick h)) (.next (.passTick (.fuse (.upd h)))))

theorem State.Keeps.shadowStray {l : Nat} : s₀.Keeps (s.shadowStray l) := .ite (.fwAbort (.setFw h)) h

theorem State.Keeps.noMajority : s₀.Keeps s.noMajority := by
  unfold State.noMajority
  extract_lets s₁
  have h₁ : s₀.Keeps s₁ := .raise (.bump h)
  exact .upd (.ite (.stoCause h₁) h₁)

theorem State.Keeps.shadowStrayIf {c : Prop} [Decidable c] {l : Nat} : s₀.Keeps (if c then s.shadowStray l else s) :=
  .ite (.shadowStray h) h

theorem State.Keeps.vote {point base : Nat} {ws : List Nat} {d : Strays} : s₀.Keeps (s.vote point base ws d).2 := by
  unfold State.vote
  dsimp only
  split
  · exact h
  · split
    · exact .snd (.noMajority h)
    · refine .snd (.foldl (fun t l ht => .shadowStrayIf (.ite (.isolate ht) ?_)) (.upd (.ite h (.bump h))))
      split
      · exact .isolate ht
      · exact ht

theorem execVoteV1_completes {dev : Strays} : s₀.Completes (execVoteV1 dev s) := by
  refine .ite (.next h) ?_
  extract_lets _ _ _ s₁
  have h₁ : s₀.Keeps s₁ := .upd (.vote h)
  exact .ite (.next h₁) (.next (.setWheel (.adoptFused h₁)))

theorem State.Keeps.takeCommands {cs : List JointCfg} {out : List SliceOut} {words : List Nat} :
    s₀.Keeps (s.takeCommands cs out words) :=
  .upd h

theorem State.Keeps.adoptWheel {x : Nat} : s₀.Keeps (s.adoptWheel x) := .ite h (.wheelTo (.upd h))

theorem execVoteV2_completes {cycles : Nat} {dev : Strays} : s₀.Completes (execVoteV2 cycles dev s) := by
  refine .ite (.next h) ?_
  extract_lets _ _ _ _ s₁ _ s₂ _ _ _ _ _ _ _ s₃ _ _ _ s₄
  have h₁ : s₀.Keeps s₁ := .ite (.upd h) h
  have h₂ : s₀.Keeps s₂ := .ite (.bump (.bump h₁)) h₁
  have h₃ : s₀.Keeps s₃ := by
    unfold s₃
    split
    · exact .takeCommands (.vote (.peakReg h₂))
    · exact .vote (.peakReg h₂)
  have h₄ : s₀.Keeps s₄ := by
    unfold s₄
    split
    · exact .adoptWheel (.vote h₃)
    · exact .vote h₃
  exact .ite (.next (.upd h₄)) (.next (.placeVoted (.placeVoted (.upd h₄))))

theorem execVoteV4_completes {r : Nat} {dev : Strays} : s₀.Completes (execVoteV4 r dev s) := by
  unfold execVoteV4
  refine .ite (.next h) ?_
  dsimp only
  split
  · exact .next (.upd (.vote h))
  · exact .next (.foldl (fun _ _ h => .admitEdge h) (.setWaiting (.upd (.vote h))))

theorem State.Keeps.takeGovernor {x : Section} : s₀.Keeps (s.takeGovernor x) := .upd h

theorem State.Keeps.cmdTaken : s₀.Keeps s.cmdTaken := .upd h

theorem State.Keeps.cmdDenied : s₀.Keeps s.cmdDenied := .upd h

theorem execEnable_completes : s₀.Completes (execEnable s) :=
  .ite (.next h) (.ite (.next (.cmdDenied h)) (.next (.wheelTo (.upd (.cmdTaken h)))))

theorem execHold_completes : s₀.Completes (execHold s) :=
  .ite (.next h) (.ite (.next (.cmdDenied h)) (.next (.holdCause (.cmdTaken h))))

theorem execRelease_completes : s₀.Completes (execRelease s) :=
  .ite (.next h) (.ite (.next (.holdCause (.cmdTaken h))) (.next (.cmdDenied h)))

theorem execStop_completes : s₀.Completes (execStop s) :=
  .ite (.next h) (.ite (.next (.cmdDenied h)) (.next (.stoCause (.cmdTaken h))))

theorem execClearSto_completes : s₀.Completes (execClearSto s) :=
  .ite (.next h) (.ite (.next (.cmdDenied h)) (.next (.wheelTo (.upd (.cmdTaken h)))))

theorem execReadmit_completes {l : Nat} : s₀.Completes (execReadmit l s) :=
  .ite (.next h) (.ite (.next (.cmdDenied h)) (.next (.setLane (.cmdTaken h))))

theorem execLaneResetDone_completes {l : Nat} : s₀.Completes (execLaneResetDone l s) :=
  .ite (.next h) (.ite (.next (.fwAbort (.setLane h))) (.next (.setLane h)))

theorem State.Keeps.copyImage {l : Nat} : s₀.Keeps (s.copyImage l) := by
  unfold State.copyImage
  refine .ite (.drew (.updMem h fun hm => Memories.wf_ram hm (s.mem.ram.writeBytes_wf _ _))) ?_
  split
  · exact .updMem h fun hm => Memories.wf_ram hm (s.mem.ram.writeBytes_wf _ _)
  · exact h

theorem execLaneCopyDone_completes {l : Nat} {ok : Bool} : s₀.Completes (execLaneCopyDone l ok s) :=
  .ite (.next h) (.ite (.next (.setLane (.copyImage h))) (.next (.record (.raise (.setLane h)))))

theorem execShadowPass_completes {l : Nat} : s₀.Completes (execShadowPass l s) :=
  .ite (.next h) (.next (.laneCount (.raise (.setLane h))))

theorem execSingleLaneTimeout_completes : s₀.Completes (execSingleLaneTimeout s) := by
  unfold execSingleLaneTimeout
  split
  · exact .next h
  · exact .ite (.next h) (.next (.stoCause h))

theorem execLaneWatchdogExpiry_completes {l : Nat} : s₀.Completes (execLaneWatchdogExpiry l s) :=
  .ite (.next (.isolate h)) (.next h)

/-! ### Machine, Solver -/

theorem State.Keeps.cycleFails : s₀.Keeps s.cycleFails := .ite (.holdCause (.upd h)) (.upd h)

theorem State.Keeps.cycleOk {p : SetPoint} {fb : List SetPoint} : s₀.Keeps (s.cycleOk p fb) :=
  .ite (.holdCause (.upd h)) (.upd h)

theorem State.Keeps.adoptPlan : s₀.Keeps s.adoptPlan := by
  unfold State.adoptPlan
  extract_lets s₁
  have h₁ : s₀.Keeps s₁ := .foldl (fun _ _ h => .ite h (.foldl (fun _ _ h => .freeRecord h) h)) h
  split
  · exact h₁
  · exact .ite (.bump (.upd h₁)) (.holdCause (.upd (.upd h₁)))

theorem State.Keeps.nextLaw : s₀.Keeps s.nextLaw := .upd (.ite (.bump h) h)

theorem execCycleBoundary_completes {qp : List QpStage} : s₀.Completes (execCycleBoundary qp s) := by
  refine .ite (.next h) ?_
  extract_lets s₁
  have h₁ : s₀.Keeps s₁ := by
    unfold s₁
    split
    · exact .takeGovernor h
    · exact h
  exact .ite (.next (.upd h₁)) (.next (.upd (.adoptPlan (.nextLaw (.ite (.cycleFails (.upd h₁)) (.upd h₁))))))

theorem execVoteV3_completes {assembly iter extract : Nat} {out : Extract} {dev : Strays} :
    s₀.Completes (execVoteV3 assembly iter extract out dev s) := by
  unfold execVoteV3
  extract_lets _ _ _ _ _ _ _ _ _ s₁ s₂ s₃
  have h₁ : s₀.Keeps s₁ := .bump (.bump (.free h))
  have h₂ : s₀.Keeps s₂ := .ite (.bump h₁) h₁
  have h₃ : s₀.Keeps s₃ := .ite h₂ (.bump h₂)
  refine .ite (.next h) ?_
  split
  · exact .next (.cycleFails (.upd (.vote (.upd h₃))))
  · exact .next (.ite (.cycleOk (.upd (.upd (.vote (.upd h₃))))) (.cycleFails (.upd (.upd (.vote (.upd h₃))))))

/-! ### Machine, Loader -/

theorem State.Keeps.ldStart {k : State → State} (hk : ∀ t, s₀.Keeps t → s₀.Keeps (k t)) : s₀.Keeps (s.ldStart k) :=
  .ite (hk _ (.ldAccept h)) (.ldIgnore h)

theorem execCopyVerify_completes : s₀.Completes (execCopyVerify s) :=
  .next (.ldStart h (fun _ h => .ite (.ldFail h) (.ite (.ldFail h) (.upd (.discardStaged h)))))

theorem State.Keeps.copyPass : s₀.Keeps s.copyPass := by
  unfold State.copyPass
  extract_lets
  split
  · exact .upd h
  · exact .upd (.takeTokensOf h)

theorem execCopyDone_completes : s₀.Completes (execCopyDone s) :=
  .ite (.next h) (.ite (.next (.copyPass h)) (.next (.upd (.setLocal (.copyPass h)))))

theorem execVerifyDone_completes : s₀.Completes (execVerifyDone s) := by
  refine .ite (.next h) ?_
  extract_lets
  split
  · exact .next (.ldFail h)
  · exact .next (.upd (.ldDone h))

theorem State.Keeps.chargePond {c n : Nat} : s₀.Keeps (s.chargePond c n) := .move h

theorem State.Keeps.releasePond {c n : Nat} : s₀.Keeps (s.releasePond c n) := .move h

theorem State.Keeps.copyPage {src dst : Nat} : s₀.Keeps (s.copyPage src dst) := .ite (.setLocal (.drew h)) (.setLocal h)

theorem State.Keeps.chargePage {c : Nat} : s₀.Keeps (s.chargePage c) := .upd (.chargePond h)

theorem State.Keeps.preloadPage {k : Nat} {e : PreloadPage} : s₀.Keeps (s.preloadPage k e) :=
  .ite h (.ite (.upd (.copyPage (.ite (.chargePage (.upd (.passWeir h))) (.upd (.passWeir h)))))
    (.ite (.chargePage (.upd (.passWeir h))) (.upd (.passWeir h))))

theorem State.Keeps.preloadRun {k : Nat} {es : List PreloadPage} : s₀.Keeps (s.preloadRun k es) := by
  induction es generalizing s k with
  | nil => exact h
  | cons e es ih => exact .ite (ih (.preloadPage h)) (.preloadPage h)

theorem State.Keeps.preloadOn {xs : List Section} : s₀.Keeps (s.preloadOn xs) := .preloadRun h

theorem State.Keeps.preloadFrom {n : Nat} : s₀.Keeps (s.preloadFrom n) := .upd h

theorem State.Keeps.parkKey {p w : Nat} : s₀.Keeps (s.parkKey p w) := .move (.move (.upd h))

theorem State.Keeps.parkPool {p : Nat} : s₀.Keeps (s.parkPool p) := .foldl (fun _ _ h => .parkKey h) h

theorem State.Keeps.parkSection {x : Section} : s₀.Keeps (s.parkSection x) :=
  .foldl (fun _ _ h => .ite (.parkKey h) (.ite (.parkPool h) (.move (.move h)))) h

theorem State.Keeps.unparkKey {p w : Nat} {now : Bool} : s₀.Keeps (s.unparkKey p w now) :=
  .ite h (.ite (.move (.setCredits (.upd h))) (.move (.upd (.upd h))))

theorem State.Keeps.unparkSection {x : Section} : s₀.Keeps (s.unparkSection x) :=
  .foldl (fun _ _ h => .ite (.unparkKey h) (.ite (.foldl (fun _ _ h => .unparkKey h) h) (.move h))) h

theorem State.Keeps.grantItems {p w n : Nat} : s₀.Keeps (s.grantItems p w n) := .ite (.setCredits (.move h)) (.move h)

theorem State.Keeps.regrant {old new : List Section} : s₀.Keeps (s.regrant old new) :=
  .foldl (fun _ _ h => .foldl (fun _ _ h => .grantItems h) h)
    (.foldl
      (fun _ _ h => by
          extract_lets _ s₁ _ _ s₂
          have h₁ : s₀.Keeps s₁ := .ite (.foldl (fun _ _ h => .move (.upd h)) h) (.move h)
          have h₂ : s₀.Keeps s₂ := by
            unfold s₂
            split
            · exact .sizePool (.releasePool h₁)
            · exact .ite (.sizePool (.move (.upd (.releasePool h₁)))) (.releasePool h₁)
          exact .ite (.foldl (fun _ _ h => .foldl (fun _ _ h => .grantItems h) h) (.upd h₂))
            (.ite (.foldl (fun _ _ h => .unparkKey h) h₂) h₂))
      h)

theorem State.Keeps.writeMill {x : Section} {fb : Option Nat} : s₀.Keeps (s.writeMill x fb) :=
  .reseed (.upd (.setMill (.free h)))

theorem State.Keeps.writeWeir {x : Section} : s₀.Keeps (s.writeWeir x) := .upd h

theorem State.Keeps.closeEdge {x : Section} : s₀.Keeps (s.closeEdge x) := .upd h

theorem State.Keeps.openEdge : s₀.Keeps s.openEdge := .upd h

theorem State.Keeps.writeLeat {x : Section} : s₀.Keeps (s.writeLeat x) := .upd (.foldl (fun _ _ h => .tear h) h)

theorem State.Keeps.boundShown : s₀.Keeps s.boundShown := .upd h

theorem State.Keeps.staleStream {n ctx : Nat} {c : StreamCfg} : s₀.Keeps (s.staleStream n ctx c) := by
  unfold State.staleStream
  extract_lets s₁
  have h₁ : s₀.Keeps s₁ := by
    unfold s₁
    split
    · exact .finishAt h
    · exact h
  exact .staleQueue (.setStrm h₁)

theorem State.Keeps.renewStream {n ctx : Nat} {c : StreamCfg} : s₀.Keeps (s.renewStream n ctx c) :=
  .zeroLayers (.setStrm (.staleStream h))

theorem State.Keeps.wakeStreams : s₀.Keeps s.wakeStreams :=
  .foldl
    (fun _ _ h => by
        split
        · exact h
        · exact .ite (.renewStream h) h)
    h

theorem State.Keeps.dropStarted {n ctx : Nat} {c : StreamCfg} : s₀.Keeps (s.dropStarted n ctx c) :=
  .queuePages
    (.setStrm
      (.foldl
        (fun _ _ h => by
            split
            · exact .finishAt h
            · exact h)
        h))

theorem State.Keeps.openQuota {xs : List Section} {c : Nat} : s₀.Keeps (s.openQuota xs c) :=
  .move (.upd (.move (.sizePool (.sizePool (.sizePool h)))))

theorem State.Keeps.writeGovif {x : Section} : s₀.Keeps (s.writeGovif x) := .setGq h

theorem State.Keeps.writeGovernor {x : Section} : s₀.Keeps (s.writeGovernor x) := .ite (.takeGovernor h) (.upd h)

theorem State.Keeps.loadOpen {p : Plan} : s₀.Keeps (s.loadOpen p) :=
  .foldl (fun _ _ h => .writeWeir h) (.foldl (fun _ _ h => .openQuota h) h)

theorem State.Keeps.loadPlan {p : Plan} : s₀.Keeps (s.loadPlan p) :=
  .setLocal
    (.boundShown
      (.wakeStreams
        (.regrant
          (.foldl (fun _ _ h => .writeGovernor h)
            (.foldl (fun _ _ h => .writeGovif h)
              (.upd
                (.foldl (fun _ _ h => .setBolter h)
                  (.foldl (fun _ _ h => .writeLeat h) (.foldl (fun _ _ h => .writeMill (.chargePond h)) (.upd h))))))))))

theorem State.Keeps.emptyPool {p : Nat} : s₀.Keeps (s.emptyPool p) := .resize (.move (.move (.move (.releasePool h))))

theorem State.Keeps.unloadStreams : s₀.Keeps s.unloadStreams :=
  .foldl
    (fun _ _ h => by
        split
        · exact h
        · exact .ite h (.setStrm (.staleStream (.dropStarted h))))
    h

theorem State.Keeps.unloadPlan : s₀.Keeps s.unloadPlan :=
  .upd
    (.foldl (fun _ _ h => .emptyPool h)
      (.foldl (fun _ _ h => .emptyPool h)
        (.foldl (fun _ _ h => .emptyPool h) (.foldl (fun _ _ h => .setMill h) (.unloadStreams h)))))

theorem State.Keeps.loadFail {sec : Option Nat} : s₀.Keeps (s.loadFail sec) := .ldFail (.upd (.unloadPlan h))

theorem State.Keeps.loadStep : s₀.Keeps s.loadStep := by
  unfold State.loadStep
  split
  · exact h
  · exact .ite h (.ite (.loadFail h) (.upd (.ldDone (.loadPlan h))))

theorem execLoad_completes : s₀.Completes (execLoad s) := by
  exact .next
    (.ldStart h
      (fun _ h =>
        .ite (.ldFail h) (by
            split
            · exact .ldFail h
            · exact .ite (.ldFail h) (.ite (.ldFail h) (.loadStep (.upd (.preloadFrom (.loadOpen h))))))))

theorem State.Keeps.closeMill {m : Nat} : s₀.Keeps (s.closeMill m) :=
  .ite (.foldl (fun _ _ h => .recallPool h) (.setMill h)) h

theorem State.Keeps.drainMill {m : Nat} : s₀.Keeps (s.drainMill m) := by
  unfold State.drainMill
  extract_lets s₁
  have h₁ : s₀.Keeps s₁ := by
    unfold s₁
    split
    · exact .parkSection h
    · exact h
  exact .setMill h₁

theorem State.Keeps.reopen {m : Nat} : s₀.Keeps (s.reopen m) := by
  unfold State.reopen
  extract_lets s₁
  have h₁ : s₀.Keeps s₁ := by
    unfold s₁
    split
    · exact .unparkSection h
    · exact h
  exact .setMill h₁

theorem State.Keeps.ldTimed {kind : Nat} : s₀.Keeps (s.ldTimed kind) := .upd h

theorem State.Keeps.ldRun {st : LoaderState} {step m : Nat} : s₀.Keeps (s.ldRun st step m) := .upd h

theorem State.Keeps.adopted {x : Section} : s₀.Keeps (s.adopted x) := .upd h

theorem State.Keeps.replacedRec {x : Section} {kind : Nat} {stripe : Bytes} : s₀.Keeps (s.replacedRec x kind stripe) :=
  .record h

theorem State.Keeps.swapFinish {x : Section} : s₀.Keeps (s.swapFinish x) := by
  unfold State.swapFinish
  refine .ldDone (.replacedRec (.ldTimed (.boundShown (.wakeStreams (.regrant (.writeMill (.adopted (.chargePond ?_))))))))
  split
  · exact .ite h (.releasePond h)
  · exact h

theorem State.Keeps.swapAbort {cause m : Nat} : s₀.Keeps (s.swapAbort cause m) := .ldFail (.ite (.reopen h) h)

theorem State.Keeps.replaceStart {x : Section} : s₀.Keeps (s.replaceStart x) := by
  unfold State.replaceStart
  split
  · exact .closeEdge h
  · exact .upd h
  · exact .recallPool (.setGq h)
  · exact h

theorem State.Keeps.swapStart : s₀.Keeps s.swapStart := by
  unfold State.swapStart
  extract_lets
  split
  · exact .ldFail h
  · exact .ite (.ldFail h) (.ite (.ldFail h) (.ite (.ite (.ldFail h) (.closeMill (.ldRun h))) (.replaceStart (.ldRun h))))

theorem execSwap_completes : s₀.Completes (execSwap s) := .next (.ldStart h (fun _ h => .swapStart h))

theorem execPreload_completes : s₀.Completes (execPreload s) :=
  .next
    (.ldStart h
      (fun _ h => by
          extract_lets
          split
          · exact .ldFail h
          · exact .ite (.ldFail h) (.ite (.ldDone h) (.ite (.ldFail h) (.preloadFrom (.ldRun h))))))

theorem State.Keeps.abandon {m : Nat} : s₀.Keeps (s.abandon m) :=
  .upd
    (.endMillReads
      (.foldl
        (fun _ _ h => by
            split
            · exact .ite (.finish h) h
            · exact h)
        h))

theorem State.Keeps.loseStream {n ctx : Nat} {c : StreamCfg} : s₀.Keeps (s.loseStream n ctx c) := by
  unfold State.loseStream
  exact .record (.upd (.renewStream (.dropStarted h)))

theorem State.Keeps.loseStreams {ms : List Nat} : s₀.Keeps (s.loseStreams ms) :=
  .foldl
    (fun _ _ h => by
        split
        · exact .ite (.loseStream h) h
        · exact h)
    h

theorem State.Keeps.cutFrames {xs : List Section} : s₀.Keeps (s.cutFrames xs) :=
  .foldl (fun _ _ h => .foldl (fun _ _ h => .ite h (.setStripe (.setFrameBuf h))) h) h

theorem State.Keeps.moveFrames {old new : List Section} : s₀.Keeps (s.moveFrames old new) :=
  .foldl
    (fun _ _ h => by
        split
        · exact .setStripe h
        · exact h)
    h

theorem State.Keeps.forceDrain {m : Nat} : s₀.Keeps (s.forceDrain m) := by
  unfold State.forceDrain
  dsimp only
  refine .setMill ?_
  split
  · exact .parkSection (.setMill (.resetMill (.abandon h)))
  · exact .resetMill (.abandon h)

theorem State.Keeps.reclaimedPond {c n : Nat} : s₀.Keeps (s.reclaimedPond c n) := .ite h (.record (.move h))

theorem State.Keeps.freePond {c n : Nat} : s₀.Keeps (s.freePond c n) := .move (.reclaimedPond h)

theorem State.Keeps.lostPond {x : Section} : s₀.Keeps (s.lostPond x) := by
  refine .ite h ?_
  split
  · exact .reclaimedPond h
  · exact h

theorem State.Keeps.chargeRest {news : List Section} : s₀.Keeps (s.chargeRest news) :=
  .upd (.foldl (fun _ _ h => .chargePond h) h)

theorem State.Keeps.purgeTo {f : Nat} : s₀.Keeps (s.purgeTo f) :=
  .foldl
    (fun _ _ h => by
        split
        · exact .reclaim h
        · exact h)
    (.upd h)

theorem State.Keeps.evacFinish : s₀.Keeps s.evacFinish := by
  unfold State.evacFinish
  extract_lets _ _ _ _ _ _ _ _ _ _ _ moved _ _ _ _ charged _ _ _ _ written _ _ _ _ _ timed _ _ noted
  have hm : s₀.Keeps moved :=
    .ite (.moveFrames (.purgeTo (.cutFrames h))) (.foldl (fun _ _ h => .parkPool h) (.moveFrames (.purgeTo (.cutFrames h))))
  have hc : s₀.Keeps charged :=
    .upd (.chargeRest (.foldl (fun _ _ h => .lostPond h) (.foldl (fun _ _ h => .freePond h)
      (.foldl (fun _ _ h => .parkSection h) hm))))
  have hw : s₀.Keeps written :=
    .foldl (fun _ _ h => .writeLeat h) (.foldl (fun _ _ h => .writeWeir h)
      (.foldl (fun _ _ h => .writeMill h) (.foldl (fun _ _ h => .setMill h) hc)))
  have ht : s₀.Keeps timed :=
    .ldTimed (.boundShown (.openEdge (.discardMerges (.loseStreams (.wakeStreams (.regrant hw))))))
  have hn : s₀.Keeps noted := .record (.setMill ht)
  exact .ite (.ldDone (.record ht)) (.ldDone (.raise (.upd hn)))

theorem State.Keeps.evacClose : s₀.Keeps s.evacClose := by
  unfold State.evacClose
  extract_lets _ s₁
  have h₁ : s₀.Keeps s₁ := .foldl (fun _ _ h => .closeEdge h) (.foldl (fun _ _ h => .closeMill h) h)
  exact .ite (.evacFinish (.upd h₁)) (.upd h₁)

theorem State.Keeps.evacPreload : s₀.Keeps s.evacPreload := .ite (.evacClose (.upd (.preloadFrom h))) (.upd (.preloadFrom h))

theorem State.Keeps.evacStart {f : Nat} : s₀.Keeps (s.evacStart f) := .evacPreload (.ldRun (.resetMill (.abandon (.upd h))))

theorem State.Keeps.noSpare {f : Nat} {ends : Bool} : s₀.Keeps (s.noSpare f ends) := by
  unfold State.noSpare
  extract_lets _ _ _ s₁
  have h₁ : s₀.Keeps s₁ := .releaseMills (.resetMill (.discardMerges (.abandon (.stopPipelines h))))
  exact .ite (.ldFail (.raise (.upd h₁))) (.record (.upd (.raise (.upd h₁))))

theorem State.Keeps.unloadStep : s₀.Keeps s.unloadStep :=
  .ite (.ldDone (.unloadPlan (.foldl (fun _ _ h => .resetMill (.endMillReads h)) h))) h

theorem State.Keeps.drainsOver : s₀.Keeps s.drainsOver := by
  unfold State.drainsOver
  split
  · exact .ite (.evacFinish h) h
  · exact .ite (.evacFinish h) h
  · exact .unloadStep h
  · exact h

/-- An evacuation starts, or no spare mill takes the section's place. -/
theorem State.Keeps.evacOr {c : Prop} [Decidable c] {f : Nat} {ends : Bool} :
    s₀.Keeps (if c then s.evacStart f else s.noSpare f ends) :=
  .ite (.evacStart h) (.noSpare h)

theorem State.Keeps.discardStagedIf {c : Prop} [Decidable c] : s₀.Keeps (if c then s.discardStaged else s) :=
  .ite (.discardStaged h) h

theorem State.Keeps.evacAsk {f : Nat} {host : Bool} : s₀.Keeps (s.evacAsk f host) := by
  unfold State.evacAsk
  split
  · exact .ite (.evacStart (.ldAccept h)) (.noSpare (.ldAccept h))
  · exact .evacOr (.ldFail h)
  · exact .evacOr (.ldFail h)
  · exact .evacOr (.discardStagedIf (.ldFail h))
  · exact .ite (.upd h) (.evacOr (.discardStagedIf (.ite (.swapAbort h) (.ldFail (.upd (.openEdge h))))))
  · exact .loadFail h
  · exact .ite (.ldIgnore h) (.unloadStep h)
  · exact .ite (.ite (.ldIgnore h) h) (.ite (.evacFinish (.noSpare h)) (.noSpare h))
  · exact .ite (.ldFail (.noSpare (.uncharge (.openEdge (.foldl (fun _ _ h => .ite (.reopen h) h) h))))) (.noSpare h)

theorem execEvacuate_completes {m : Nat} : s₀.Completes (execEvacuate m s) :=
  .ite (.next h) (.ite (.next (.ldStart h (fun _ h => .ldFail h))) (.next (.evacAsk h)))

theorem execAutoEvacuate_completes {m : Nat} : s₀.Completes (execAutoEvacuate m s) := .ite (.next h) (.next (.evacAsk h))

theorem execRestore_completes {m : Nat} : s₀.Completes (execRestore m s) :=
  .next (.ldStart h (fun _ h => .ite (.ldFail h) (.evacPreload (.ldRun h))))

theorem State.Keeps.takeQueued : s₀.Keeps s.takeQueued := by
  unfold State.takeQueued
  split
  · exact .ite (.evacAsk (.upd h)) (.upd h)
  · exact h

theorem execPreloadDone_completes : s₀.Completes (execPreloadDone s) := by
  refine .ite (.next h) ?_
  split
  · split
    · exact .next h
    · exact .ite (.next (.preloadOn h))
        (.next (.ite (.swapStart (.ldAccept (.upd (.ldDone (.preloadOn h))))) (.upd (.ldDone (.preloadOn h)))))
  · split
    · exact .ite (.next (.ite (.takeQueued (.swapFinish (.preloadOn h))) (.preloadOn h))) (.next h)
    · exact .next h
  · exact .ite (.next (.ite (.evacClose (.preloadOn h)) (.preloadOn h))) (.next h)
  · exact .ite (.next (.ite (.evacClose (.preloadOn h)) (.preloadOn h))) (.next h)
  · split
    · exact .next (.loadStep (.preloadOn h))
    · exact .next h
  · exact .next h

theorem execUnload_completes : s₀.Completes (execUnload s) :=
  .next
    (.ldStart h (fun _ h => .ite (.ldDone h) (.unloadStep (.foldl (fun _ _ h => .closeMill h) (.ldRun (.discardStaged h))))))

theorem execDiscard_completes : s₀.Completes (execDiscard s) := .next (.ldStart h (fun _ h => .ldDone (.discardStaged h)))

theorem execDrainComplete_completes {m : Nat} : s₀.Completes (execDrainComplete m s) := by
  refine .ite (.next h) (.ite (.next (.drainsOver h)) (.ite (.next h) ?_))
  split
  · split
    · refine .ite (.next (.ite (.drainMill h) h)) ?_
      extract_lets
      split
      · exact .next (.ledgerFault (.swapAbort (.drainMill h)))
      · exact .ite (.next (.upd (.setMill (.preloadFrom (.releasePond (.drainMill h))))))
          (.next (.takeQueued (.swapFinish (.drainMill h))))
    · exact .next h
  · exact .next (.drainsOver (.drainMill h))
  · exact .next (.drainsOver (.drainMill h))
  · exact .next (.drainsOver (.drainMill h))
  · exact .next (.ite (.drainMill h) h)

theorem execDrainTimeout_completes {m : Nat} : s₀.Completes (execDrainTimeout m s) := by
  refine .ite (.next h) (.ite (.next (.drainsOver h)) ?_)
  split
  · exact .ite (.next (.swapAbort h)) (.next h)
  · exact .next (.drainsOver (.forceDrain h))
  · exact .next (.drainsOver (.forceDrain h))
  · exact .next (.drainsOver (.forceDrain h))
  · exact .next h

theorem State.Keeps.resetBehindSluice {m : Nat} : s₀.Keeps (s.resetBehindSluice m) :=
  .ite (.targetFault (.setMill (.endMillReads h))) (.ite (.endMillReads h) (.drainsOver (.endMillReads h)))

theorem State.Keeps.applyLeat {x : Section} : s₀.Keeps (s.applyLeat x) := .openEdge (.adopted (.writeLeat h))

theorem State.Keeps.applyQuota {x : Section} : s₀.Keeps (s.applyQuota x) :=
  .adopted (.upd (.move (.sizePool (.sizePool (.sizePool (.move h))))))

theorem State.Keeps.applyBolter {x : Section} : s₀.Keeps (s.applyBolter x) := by
  unfold State.applyBolter
  extract_lets _ _ _ _ _ _ _ _ s₁
  have h₁ : s₀.Keeps s₁ := .regrant (.adopted (.parkSection (.ite (.move h) h)))
  exact .ite (.record (.setBolter h₁)) (.setBolter h₁)

theorem execSectionReplaceApply_completes : s₀.Completes (execSectionReplaceApply s) := by
  refine .ite (.next h) ?_
  split
  · exact .next h
  · extract_lets
    split
    · exact .ite (.next (.takeQueued (.ldDone (.replacedRec (.boundShown (.applyLeat h)))))) (.next h)
    · exact .next (.takeQueued (.ldDone (.replacedRec (.boundShown (.writeWeir (.adopted h))))))
    · exact .ite (.next (.ldFail h)) (.next (.takeQueued (.ldDone (.replacedRec (.boundShown (.applyQuota h))))))
    · exact .ite (.next (.takeQueued (.ldDone (.replacedRec (.boundShown (.applyBolter h)))))) (.next h)
    · exact .ite
        (.next (.takeQueued (.ldDone (.replacedRec (.boundShown (.regrant (.setGq (.adopted (.parkPool h)))))))))
        (.next h)
    · exact .next (.takeQueued (.ldDone (.replacedRec (.boundShown (.writeGovernor (.adopted h))))))
    · exact .ite (.next (.takeQueued (.ldDone (.replacedRec (.boundShown (.wakeStreams (.adopted h)))))))
        (.next (.ldFail h))
    · exact .next (.takeQueued (.ldDone (.replacedRec (.boundShown (.adopted h)))))
    · exact .ite (.next (.ldFail h)) (.next (.takeQueued (.ldDone (.replacedRec (.boundShown (.adopted h))))))
    · exact .next h

/-! ### Machine, Supply -/

theorem State.Completes.volts {v : Nat} (hv : v ≤ 8000) {k : State → State} (hk : ∀ t, s₀.Keeps t → s₀.Keeps (k t)) :
    s₀.Completes (s.volts v k) := by
  unfold State.volts
  rw [if_neg (Nat.not_lt.mpr hv)]
  exact .next (hk _ (.upd (.ite (.setReg h) h)))

theorem State.Keeps.pauseFabric : s₀.Keeps s.pauseFabric := .upd h

theorem State.Keeps.skipPause : s₀.Keeps s.skipPause := .upd h

theorem State.Keeps.resumeFabric : s₀.Keeps s.resumeFabric := by
  unfold State.resumeFabric
  extract_lets _ s₁
  have h₁ : s₀.Keeps s₁ := .ite (.skipPause h) h
  exact .pxDrainAll
    (.foldl (fun _ _ h => .ite (.pageBegins (.setChan h)) h)
      (.foldl (fun _ _ h => .ite (.closeMill h) h) (.ite (.foldl (fun _ _ h => .closeMill h) (.upd h₁)) (.upd h₁))))

theorem State.Keeps.supplyCause {on : Bool} : s₀.Keeps (s.supplyCause on) := .setWheel h

theorem State.Keeps.startShutdown : s₀.Keeps s.startShutdown :=
  .fabricClear (.fwLost (.updMem (.setWheel h) Memories.wf_loseSram))

theorem execSupplyWarning_completes {v : Nat} (hv : v ≤ 8000) : s₀.Completes (execSupplyWarning v s) := by
  exact .volts h hv
    (fun _ h =>
      .ite h (by
          extract_lets _ _ _ s₁
          have h₁ : s₀.Keeps s₁ := .pauseFabric (.supplyCause (.bump (.raise (.upd h))))
          exact .ite (.startShutdown h₁) h₁))

theorem execSupplyRise_completes {v : Nat} (hv : v ≤ 8000) : s₀.Completes (execSupplyRise v s) :=
  .volts h hv fun _ h => .ite (.upd h) h

theorem execSupplyFall_completes {v : Nat} (hv : v ≤ 8000) : s₀.Completes (execSupplyFall v s) :=
  .volts h hv fun _ h => .ite (.upd h) h

theorem execRecoveryQualified_completes {v lowest below left : Nat} (hv : v ≤ 8000) :
    s₀.Completes (execRecoveryQualified v lowest below left s) :=
  .volts h hv fun _ h => .ite h (.resumeFabric (.supplyCause (.logSupply (.record (.raise (.upd h))))))

theorem State.Keeps.qualifyReset : s₀.Keeps s.qualifyReset := .ite (.startShutdown h) h

theorem execHoldupTakeover_completes {v : Nat} (hv : v ≤ 8000) : s₀.Completes (execHoldupTakeover v s) :=
  .volts h hv fun _ h => .ite h (.ite (.qualifyReset (.upd h)) (.upd h))

theorem execHoldupEnd_completes {v left : Nat} (hv : v ≤ 8000) : s₀.Completes (execHoldupEnd v left s) :=
  .volts h hv fun _ h => .ite (.upd h) h

theorem execHoldupLowChange_completes {left : Nat} : s₀.Completes (execHoldupLowChange left s) := by
  refine .ite (.next h) ?_
  extract_lets _ _ _ _ s₁
  have h₁ : s₀.Keeps s₁ := .ite (.raise (.upd h)) (.upd h)
  exact .next (.ite (.qualifyReset h₁) h₁)

theorem execSupplyReset_completes {v : Nat} (hv : v ≤ 8000) : s₀.Completes (execSupplyReset v s) :=
  .volts h hv fun _ h => .ite (.qualifyReset h) h

theorem execShutdownStoDone_completes {lowest below left : Nat} : s₀.Completes (execShutdownStoDone lowest below left s) :=
  .ite (.next h) (.next (.upd (.powerOff (.upd (.logSupply h)))))

theorem execStartQualified_completes {v : Nat} {cold : Bool} (hv : v ≤ 8000) : s₀.Completes (execStartQualified v cold s) :=
  .volts h hv fun _ h => .ite h (.enterStage (.upd h))

theorem execOverVoltageNotice_completes {v : Nat} (hv : v ≤ 8000) : s₀.Completes (execOverVoltageNotice v s) :=
  .volts h hv fun _ h => .ite h (.record (.raise h))

theorem execThrottleUpdate_completes {p : Nat} {fabric motion face : Int} :
    s₀.Completes (execThrottleUpdate p fabric motion face s) :=
  .ite (.next h) (.ite (.next (.record (.raise (.upd h)))) (.next (.upd h)))

theorem execPwCap_completes {v : Nat} : s₀.Completes (execPwCap v s) := .ite (.next (.upd (.setReg h))) (.next (.setReg h))

theorem State.Keeps.thermalRecord {t : Int} {row : Nat} : s₀.Keeps (s.thermalRecord t row) := .record h

theorem execThermalThrottle_completes {t : Int} : s₀.Completes (execThermalThrottle t s) :=
  .ite (.next h) (.next (.thermalRecord (.raise (.upd h))))

theorem execThermalFabricReset_completes {t : Int} : s₀.Completes (execThermalFabricReset t s) :=
  .ite (.next h) (.next (.resetFabric (.thermalRecord (.raise (.upd h)))))

theorem execThermalShutdown_completes {t : Int} : s₀.Completes (execThermalShutdown t s) :=
  .ite (.next h) (.next (.startShutdown (.thermalRecord (.upd h))))

theorem execThermalRelease_completes {motion : Bool} {t : Int} : s₀.Completes (execThermalRelease motion t s) :=
  .ite (.ite (.next (.upd h)) (.next h)) (.ite (.next (.upd h)) (.next h))

theorem State.Keeps.pllRecord {source unit : Nat} : s₀.Keeps (s.pllRecord source unit) := .record h

theorem State.Keeps.portFails {t : Nat} : s₀.Keeps (s.portFails t) :=
  .ite (.resetDomain h) (.ite (.resetDomain h) (.linkDown h))

theorem execClockCheckFail_completes {clock unit : Nat} : s₀.Completes (execClockCheckFail clock unit s) := by
  refine .ite (.next h) ?_
  split
  · exact .next (.clockFailure h)
  · exact .next (.resetFabric (.upd (.pllRecord (.raise h))))
  · exact .ite (.next (.resetFabric (.upd (.pllRecord (.raise h))))) (.next h)
  · exact .ite (.next (.portFails (.upd (.pllRecord (.raise h))))) (.next h)
  · exact .next h

theorem execReferenceAbsent_completes : s₀.Completes (execReferenceAbsent s) := .next (.clockFailure h)

theorem execClockRestartAttempt_completes {present : Bool} : s₀.Completes (execClockRestartAttempt present s) :=
  .ite (.next (.enterStage (.upd h))) (.next h)

theorem State.Keeps.cdcAction {c side : Nat} : s₀.Keeps (s.cdcAction c side) :=
  .ite (.isolate h)
    (.ite (.clockFailure h)
      (.ite (.ite (.clockFailure h) (.resetFabric h))
        (.ite (.resetFabric h) (.ite (.upd (.resetDomain h)) (.ite (.resetDomain h) (.portFails h))))))

theorem execCdcTimeout_completes {crossing side : Nat} : s₀.Completes (execCdcTimeout crossing side s) :=
  .ite (.next h) (.next (.cdcAction (.record (.upd (.raise (.bump h))))))

theorem execDomainReset_completes {d : Nat} : s₀.Completes (execDomainReset d s) :=
  .ite (.next h) (.ite (.next (.resetBehindSluice (.resetDomain h))) (.next (.resetDomain h)))

theorem execFabricGroupReset_completes : s₀.Completes (execFabricGroupReset s) := .ite (.next (.resetFabric h)) (.next h)

theorem execDomainRelease_completes {d : Nat} : s₀.Completes (execDomainRelease d s) := .next (.releaseDomain h)

theorem execPwResetCmd_completes {v : Nat} : s₀.Completes (execPwResetCmd v s) :=
  .ite (.next h) (.ite (.next (.ite (.resetFabric (.upd h)) (.resetDomain (.upd h)))) (.next (.upd h)))

theorem State.Keeps.otpLoad {g : Nat} : s₀.Keeps (s.otpLoad g) := .foldl (fun _ _ h => .record (.raise h)) (.setOtp h)

theorem State.Keeps.romCheck {bad k : Nat} : s₀.Keeps (s.romCheck bad k) := .ite (.record (.upd h)) (.upd h)

theorem State.Keeps.copyLog {e : LogEntry} : s₀.Keeps (s.copyLog e) := .ite h (.enterRec (.upd (.bump h)))

theorem State.Keeps.replaceBad : s₀.Keeps s.replaceBad := .foldl (fun _ _ h => .record h) (.upd h)

theorem State.Keeps.stageDone {bad : Nat} : s₀.Keeps (s.stageDone bad) := by
  unfold State.stageDone
  split
  · exact .ite h (.enterStage (.upd h))
  · exact .enterStage (.upd h)
  · exact .enterStage (.upd (.foldl (fun _ _ h => .otpLoad h) h))
  · exact .enterStage (.upd (.foldl (fun _ _ h => .romCheck h) h))
  · exact .enterStage (.upd (.free h))
  · exact .enterStage (.flushAll (.replaceBad (.upd (.foldl (fun _ _ h => .copyLog h) (.fabricUp (.upd h))))))
  · exact .ite (.enterStage h) h
  · exact h

theorem execBootStageDone_completes {bad : Nat} : s₀.Completes (execBootStageDone bad s) :=
  .ite (.next h) (.next (.stageDone h))

theorem execBootStageOverrun_completes : s₀.Completes (execBootStageOverrun s) := .ite (.next h) (.next (.upd h))

/-! ### Machine, HostPort -/

omit h in
theorem State.Keeps.released (h : s₀.Keeps t) : s₀.Keeps (s.released t) := .ite (.upd h) h

theorem execAlertHoldoffExpiry_completes : s₀.Completes (execAlertHoldoffExpiry s) := .next (.upd h)

theorem execResetNAssert_completes : s₀.Completes (execResetNAssert s) :=
  .ite (.next (.upd h)) (.next (.upd (.holdDomain (.resetHost h))))

theorem execHostPortInitReady_completes {ms : Nat} : s₀.Completes (execHostPortInitReady ms s) :=
  .ite (.next h) (.next (.upd (.ite (.releaseDomain h) h)))

theorem State.Keeps.writeHpCtrl {v : Nat} : s₀.Keeps (s.writeHpCtrl v) :=
  .ite h (.ite (.upd (.setRing (.setReg h))) (.setReg h))

theorem execHpCtrlService_completes {v : Nat} : s₀.Completes (execHpCtrlService v s) := .next (.writeHpCtrl h)

theorem execHostPortDomainReset_completes : s₀.Completes (execHostPortDomainReset s) :=
  .ite (.next (.resetDomain h)) (.next h)

theorem execModeRegisterWrite_completes {ch r v : Nat} : s₀.Completes (execModeRegisterWrite ch r v s) :=
  .ite (.next (.upd h)) (.next h)

theorem execModeRegisterRead_completes {ch r : Nat} : s₀.Completes (execModeRegisterRead ch r s) :=
  .ite (.next (.upd (.ite (.drew h) h))) (.next h)

theorem State.Keeps.trained {bit rate : Nat} : s₀.Keeps (s.trained bit rate) := .upd h

theorem execTraining_completes {kind rate : Nat} {data : Bytes} : s₀.Completes (execTraining kind rate data s) := by
  refine .ite (.next h) ?_
  split
  · exact .next (.trained h)
  · exact .next (.trained h)
  · exact .next (.upd (.trained h))
  · exact .next (.upd h)
  · extract_lets
    split
    · exact .next (.upd (.trained h))
    · exact .next (.trained h)
  · exact .next h

theorem execRefresh_completes : s₀.Completes (execRefresh s) := .next h

theorem execPowerDown_completes : s₀.Completes (execPowerDown s) := .ite (.next h) (.next (.upd h))

theorem execPowerDownExit_completes : s₀.Completes (execPowerDownExit s) := .next (.upd h)

theorem State.Keeps.ringError {c cause : Nat} : s₀.Keeps (s.ringError c cause) :=
  .ite (.setRing h) (.raise (.raise (.setRing h)))

theorem State.Keeps.announce {c v : Nat} : s₀.Keeps (s.announce c v) :=
  .ite h (.ite (.ringError h) (.ite (.ringError h) (.setRing h)))

theorem execHpCtxSqDb_completes {ctx v : Nat} : s₀.Completes (execHpCtxSqDb ctx v s) := .ite (.next (.announce h)) (.next h)

theorem execHpMbSqDb_completes {v : Nat} : s₀.Completes (execHpMbSqDb v s) := .next (.announce h)

theorem State.Keeps.acceptEntry {c : Nat} : s₀.Keeps (s.acceptEntry c) :=
  .ite (.ringError h) (.ite (.finish (.upd (.setRing h))) (.ite (.upd (.setRing h)) (.finish (.upd (.setRing h)))))

theorem execEntryAccept_completes {ctx : Nat} : s₀.Completes (execEntryAccept ctx s) :=
  .ite (.next (.acceptEntry h)) (.next h)

theorem execSealWaitTimeout_completes {ctx : Nat} : s₀.Completes (execSealWaitTimeout ctx s) :=
  .ite (.next (.raise h)) (.next h)

theorem State.Keeps.drainEnd {c : Nat} : s₀.Keeps (s.drainEnd c) := .ite (.settlePool (.move (.setRing h))) h

theorem State.Keeps.orphanDone {d : Done} : s₀.Keeps (s.orphanDone d) :=
  .ite (.bump h) (.settlePool (.move (.setRing (.bump h))))

theorem State.Keeps.complete {d : Done} : s₀.Keeps (s.complete d) := by
  have written {s : State} (h : s₀.Keeps s) {c : Nat} {r : Ring} {a : Nat} {bs : Bytes} :
      s₀.Keeps (({ s with mem := { s.mem with sram := s.mem.sram.writeBytes a bs } }).setRing c r) :=
    .setRing (.updMem h Memories.wf_writeSram)
  have h₁ : s₀.Keeps (if d.req.ctx = mb then s else s.move (hostPool d.req.ctx) .held .returned (1 + d.extra)) :=
    .ite h (.move h)
  exact .ite (.drainEnd (.bump (.setRing h₁))) (.ite (.raise (written h₁)) (.ite (.raise (written h₁)) (written h₁)))

theorem execCompletionWrite_completes : s₀.Completes (execCompletionWrite s) := by
  unfold execCompletionWrite
  split
  · exact .next h
  · exact .ite (.next (.orphanDone (.upd h))) (.next (.complete (.upd h)))

theorem State.Keeps.acknowledge {c v : Nat} : s₀.Keeps (s.acknowledge c v) :=
  .ite h (.ite (.ite h (.raise h)) (.ite (.setRing h) (.drainEnd (.move (.setRing h)))))

theorem execHpCtxCqDb_completes {ctx v : Nat} : s₀.Completes (execHpCtxCqDb ctx v s) :=
  .ite (.next (.acknowledge h)) (.next h)

theorem execHpMbCqDb_completes {v : Nat} : s₀.Completes (execHpMbCqDb v s) := .next (.acknowledge h)

theorem State.Keeps.cmdResult {n : Nat} : s₀.Keeps (s.cmdResult n) := .upd h

theorem State.Keeps.ctxEnable {c : Nat} : s₀.Keeps (s.ctxEnable c) :=
  .ite (.cmdResult (.setRing (.updMem (.move (.move (.sizePool h))) Memories.wf_writeSram))) (.cmdResult h)

theorem State.Keeps.ctxDisable {c : Nat} : s₀.Keeps (s.ctxDisable c) :=
  .ite (.cmdResult (.drainEnd (.setRing h))) (.cmdResult h)

theorem State.Keeps.ctxReset {c : Nat} : s₀.Keeps (s.ctxReset c) := .ite (.cmdResult h) (.cmdResult (.drainEnd (.setRing h)))

theorem execCtxEnable_completes {ctx : Nat} : s₀.Completes (execCtxEnable ctx s) := .ite (.next (.ctxEnable h)) (.next h)

theorem execCtxDisable_completes {ctx : Nat} : s₀.Completes (execCtxDisable ctx s) := .ite (.next (.ctxDisable h)) (.next h)

theorem execCtxReset_completes {ctx : Nat} : s₀.Completes (execCtxReset ctx s) := .ite (.next (.ctxReset h)) (.next h)

theorem execItem_completes {ctx idx fmt : Nat} : s₀.Completes (execItem ctx idx fmt s) := by
  unfold execItem
  split
  · exact .next h
  · exact .ite (.next h) (.ite (.next (.finish h)) (.ite (.next (.finish h)) (.next (.setWaiting (.begin h)))))

/-! ### Machine, Ring -/

theorem State.Keeps.takeSlot {tick copy n : Nat} {x : DriveSlot} : s₀.Keeps (s.takeSlot tick copy n x) := .ite (.upd h) h

theorem execRingCopyReturn_completes {tick copy port traversal : Nat} {slots : List (Nat × DriveSlot)} :
    s₀.Completes (execRingCopyReturn tick copy port traversal slots s) :=
  .ite (.next h)
    (.next (.ite (.upd (.foldl (fun _ _ h => .takeSlot h) h)) (.raise (.upd (.foldl (fun _ _ h => .takeSlot h) h)))))

theorem State.Keeps.ringTo {st : RingHealth} {tick : Nat} : s₀.Keeps (s.ringTo st tick) := .ite h (.record (.raise (.upd h)))

theorem execRingReturnDeadline_completes {tick : Nat} : s₀.Completes (execRingReturnDeadline tick s) :=
  .ite (.next h) (.next (.ringTo (.upd (.ite (.bump h) h))))

/-! ### Machine, HostRegs -/

omit h in
theorem State.Keeps.stateOf {o : Out} (ho : s₀.Completes o) {u : State} : s₀.Keeps (stateOf o u) := by
  obtain ⟨t, rfl, ht⟩ := ho
  exact ht

theorem State.Keeps.writeRw {a v mask : Nat} : s₀.Keeps (s.writeRw a v mask) := by
  refine .ite (.writeHpCtrl h)
    (.ite (.stateOf (execTmCtrlSourceWrite_completes h))
      (.ite (.stateOf (execTmTickPhaseWrite_completes h))
        (.ite (.stateOf (execPxModuleIdWrite_completes h))
          (.ite (.stateOf (execMrCfgWrite_completes h))
            (.ite (.stateOf (execPwCap_completes h)) (.ite (.stateOf (execEvRdSeqHiWrite_completes h)) (.ite (.setReg h) ?_)))))))
  split
  · exact .ite (.setReg h) h
  · exact .ite (.setReg h) h
  · exact .stateOf (execEvCtxSelHiWrite_completes h)
  · exact .stateOf (.ite (execPhirovPortEnable_completes h) (execPhirovPortDisable_completes h))
  · exact .ite h (.setReg h)
  · exact .ite h (.setReg h)
  · exact .stateOf (execPxPeerWrite_completes h)
  · exact .setReg h
  · exact .setReg h

theorem State.Keeps.ctxCmd {v : Nat} : s₀.Keeps (s.ctxCmd v) := by
  unfold State.ctxCmd
  split
  · exact .ctxEnable h
  · exact .ctxDisable h
  · exact .ctxReset h
  · exact h

theorem State.Keeps.loaderCmd {v : Nat} : s₀.Keeps (s.loaderCmd v) := by
  unfold State.loaderCmd
  extract_lets
  split
  · exact .stateOf (execCopyVerify_completes h)
  · exact .stateOf (execLoad_completes h)
  · exact .stateOf (execPreload_completes h)
  · exact .stateOf (execSwap_completes h)
  · exact .stateOf (execDiscard_completes h)
  · exact .stateOf (execUnload_completes h)
  · exact .stateOf (execEvacuate_completes h)
  · exact .stateOf (execRestore_completes h)
  · exact h

theorem State.Keeps.tierCmd {v : Nat} : s₀.Keeps (s.tierCmd v) := by
  unfold State.tierCmd
  split
  · exact .stateOf (execPurge_completes h)
  · exact .stateOf (execCommit_completes h)
  · exact h

theorem State.Keeps.govCmd {v : Nat} : s₀.Keeps (s.govCmd v) := by
  unfold State.govCmd
  split
  · exact .stateOf (execEnable_completes h)
  · exact .stateOf (execHold_completes h)
  · exact .stateOf (execRelease_completes h)
  · exact .stateOf (execStop_completes h)
  · exact .stateOf (execClearSto_completes h)
  · exact .stateOf (execReadmit_completes h)
  · exact .upd h

theorem State.Keeps.timeCmd {v : Nat} : s₀.Keeps (s.timeCmd v) := by
  unfold State.timeCmd
  split
  · exact .stateOf (execTimeSet_completes h)
  · exact .stateOf (execReacquire_completes h)
  · exact .upd h

theorem State.Keeps.writeWo {a v : Nat} : s₀.Keeps (s.writeWo a v) := by
  refine .ite (.stateOf (execLgSnapCtrl_completes h))
    (.ite (.ctxCmd h)
      (.ite (.announce h)
        (.ite (.acknowledge h)
          (.ite (.loaderCmd h)
            (.ite (.tierCmd h) (.ite (.govCmd h) (.ite (.timeCmd h) (.ite (.stateOf (execPwResetCmd_completes h)) ?_))))))))
  split
  · exact .announce h
  · exact .acknowledge h
  · exact h

theorem State.Keeps.clearBits {a v ev : Nat} : s₀.Keeps (s.clearBits a v ev) :=
  .ite (.upd (.setReg h)) (.ite (.upd (.setReg h)) (.setReg h))

theorem State.Keeps.writeReg {a v : Nat} : s₀.Keeps (s.writeReg a v) := by
  unfold State.writeReg
  extract_lets
  split
  · exact .writeRw h
  · exact .writeWo h
  · exact .clearBits h
  · exact .setReg h
  · exact h

theorem State.Keeps.clearRc {r ev : Nat} : s₀.Keeps (s.clearRc r ev) := .ite (.upd h) (.setReg h)

theorem State.Keeps.readReg {a ev : Nat} : s₀.Keeps (s.readReg a ev).2 := by
  unfold State.readReg
  extract_lets
  split
  · exact .captureTime h
  · split
    · exact .captureTime h
    · split
      · exact .upd h
      · split
        · exact .upd h
        · split
          · exact .clearRc h
          · exact h

theorem State.Keeps.answer {ws : List Word} : s₀.Keeps (s.answer ws) := .upd h

theorem execRegisterWrite_completes {a v : Nat} : s₀.Completes (execRegisterWrite a v s) := by
  unfold execRegisterWrite
  split
  · exact .next (.released (.writeRw h))
  · exact .next h

theorem execW1cWrite_completes {a v ev : Nat} : s₀.Completes (execW1cWrite a v ev s) := by
  unfold execW1cWrite
  split
  · exact .next (.released (.clearBits h))
  · exact .next h

theorem execW1sWrite_completes {a v : Nat} : s₀.Completes (execW1sWrite a v s) := by
  unfold execW1sWrite
  split
  · exact .next (.released (.setReg h))
  · exact .next h

theorem execRcRead_completes {a ev : Nat} : s₀.Completes (execRcRead a ev s) := by
  unfold execRcRead
  split
  · exact .next (.answer (.clearRc h))
  · exact .next h

theorem execCaptureReadLowWord_completes {a : Nat} : s₀.Completes (execCaptureReadLowWord a s) :=
  .ite (.next (.answer (.readReg h))) (.next h)

theorem execLgFaultClear_completes {v : Nat} : s₀.Completes (execLgFaultClear v s) := .next (.released (.clearBits h))

/-! ### Machine, Burst -/

theorem State.Keeps.strayAt {a : Nat} : s₀.Keeps (s.strayAt a) := by
  unfold State.strayAt
  extract_lets _ _ s₁
  have h₁ : s₀.Keeps s₁ := .raise (.bump (.ite h (.setReg h)))
  exact .ite (.upd (.record (.upd h₁))) (.upd h₁)

theorem State.Keeps.readWords {a n : Nat} : s₀.Keeps (s.readWords a n).2 := by
  induction n generalizing s a with
  | zero => exact h
  | succ n ih => exact ih (.readReg h)

theorem State.Keeps.readAt {a : Nat} : s₀.Keeps (s.readAt a) := by
  unfold State.readAt
  extract_lets _ s₁
  have h₁ : s₀.Keeps s₁ := by
    unfold s₁
    split
    · exact .ite (.answer h) (.answer h)
    · exact .ite (.answer h) (.answer h)
    · exact .ite (.answer (.readWords h)) (.ite (.ite (.answer h) (.answer h)) (.answer (.strayAt h)))
  exact .ite (.answer (.raise h₁)) h₁

theorem execReadBurst_completes {row bank ch col : Nat} : s₀.Completes (execReadBurst row bank ch col s) :=
  .ite (.next (.answer h)) (.ite (.next (.answer h)) (.next (.released (.readAt h))))

theorem State.Keeps.writeWord {a : Nat} {data : Bytes} {mask : Nat} {only : Option Nat} {i : Nat} :
    s₀.Keeps (s.writeWord a data mask only i) :=
  .ite h (.ite (.writeReg h) (.ite (.raise (.bump h)) h))

theorem State.Keeps.writeWords {a : Nat} {data : Bytes} {mask : Nat} {only : Option Nat} :
    s₀.Keeps (s.writeWords a data mask only) :=
  .foldl (fun _ _ h => .writeWord h) h

theorem State.Keeps.writeRam {a : Nat} {data : Bytes} {mask : Nat} : s₀.Keeps (s.writeRam a data mask) :=
  .updMem h Memories.wf_writeSram

theorem State.Keeps.writeAt {a : Nat} {data : Bytes} {mask : Nat} : s₀.Keeps (s.writeAt a data mask) := by
  unfold State.writeAt
  split
  · exact .ite (.ite (.setRing (.writeRam h)) (.writeRam h)) h
  · exact h
  · exact .ite (.ite (.upd (.writeWords h)) (.writeWords h)) (.ite (.writeRam h) (.strayAt h))

theorem execWriteBurst_completes {row bank ch col : Nat} {data : Bytes} {mask : Nat} :
    s₀.Completes (execWriteBurst row bank ch col data mask s) :=
  .ite (.next h) (.ite (.next (.ite (.writeWords h) h)) (.next (.released (.writeAt h))))

/-! ### Machine, Dependability -/

theorem execLedgerFault_completes {p held inFlight parked returned reclaimed : Nat} :
    s₀.Completes (execLedgerFault p held inFlight parked returned reclaimed s) :=
  .ite (.next h) (.next (.ledgerFault (.setPool h)))

theorem State.Keeps.losePage {p ev : Nat} : s₀.Keeps (s.losePage p ev) := .record (.setMap h)

theorem State.Keeps.strike {code unit addr : Nat} : s₀.Keeps (s.strike code unit addr) := by
  unfold State.strike
  split
  · exact .ite (.targetFault (.millFault h)) h
  · exact .ite (.targetFault (.millFault h)) h
  · extract_lets
    split
    · exact .upd h
    · exact h
  · exact .resetFabric h
  · exact .ite (.upd h) h
  · exact .ite (.losePage h) h
  · exact .ite (.losePage h) h
  · exact .upd h
  · exact .ite h (.ledgerFault h)
  · exact .ite h (.record (.setBolter h))
  · split
    · exact .freeRecord h
    · exact h
  · exact .ite (.isolate h) h
  · exact .ite (.isolate h) h
  · exact .upd h
  · exact h

theorem execScrubPass_completes {code unit addr corrected : Nat} {ue : Bool} :
    s₀.Completes (execScrubPass code unit addr corrected ue s) := by
  unfold execScrubPass
  extract_lets s₁
  have h₁ : s₀.Keeps s₁ := by
    unfold s₁
    split
    · exact .bump h
    · exact h
  exact .ite (.next (.strike (.bump h₁))) (.next h₁)

theorem State.Keeps.mapRow {m : Nat} {row : Nat × Nat} : s₀.Keeps (s.mapRow m row).2 := by
  unfold State.mapRow
  dsimp only
  split
  · exact .snd (.record (.upd h))
  · exact h

theorem State.Keeps.mapRows {m : Nat} {rows : List (Nat × Nat)} : s₀.Keeps (s.mapRows m rows).2 := by
  induction rows generalizing s with
  | nil => exact h
  | cons r rows ih => exact ih (.mapRow h)

theorem execMillTest_completes {idx : Nat} {passed : Bool} {rows : List (Nat × Nat)} :
    s₀.Completes (execMillTest idx passed rows s) := by
  unfold execMillTest
  split
  · exact .next h
  · exact .ite (.next (.finish h))
      (.ite (.next (.finish h)) (.next (.finish (.raise (.record (.releaseMills (.setMill (.mapRows (.resetMill h)))))))))

theorem execHbmStackFailure_completes {station ch stack : Nat} : s₀.Completes (execHbmStackFailure station ch stack s) :=
  .ite (.next (.resetFabric (.record h))) (.next h)

/-! ### Machine, Firmware -/

theorem State.Keeps.retrainAll : s₀.Keeps s.retrainAll := .foldl (fun _ _ h => .ite h (.retrainNext h)) (.upd h)

theorem State.Keeps.fwTurn : s₀.Keeps s.fwTurn := by
  unfold State.fwTurn
  extract_lets
  split
  · exact .closeMill h
  · exact .fwLaneTurn h
  · exact .upd h
  · exact .retrainAll h
  · exact h

theorem State.Keeps.fwTurnEnd : s₀.Keeps s.fwTurnEnd := by
  unfold State.fwTurnEnd
  extract_lets
  split
  · exact .ite (.reopen h) h
  · exact .ite (.upd h) h
  · exact .ite (.upd h) h
  · exact h

theorem State.Keeps.fwStop : s₀.Keeps s.fwStop := by
  unfold State.fwStop
  extract_lets s₁
  have h₁ : s₀.Keeps s₁ := .fwAbort (.fwTurnEnd h)
  exact .ite (.fwTurn h₁) h₁

theorem execFwApply_completes {idx : Nat} : s₀.Completes (execFwApply idx s) := by
  unfold execFwApply
  split
  · exact .next h
  · refine .ite (.next (.finish h)) ?_
    extract_lets s₁
    have h₁ : s₀.Keeps s₁ := .begin (.setFw h)
    exact .ite (.next (.enterStage (.upd (.fwCommit (.fwRecord h₁)))))
      (.ite (.next (.fwCommit (.fwRecord h₁))) (.next (.fwTurn (.fwRecord h₁))))

theorem State.Keeps.fwReturned {k : Nat} {rest : List Nat} : s₀.Keeps (s.fwReturned k rest) :=
  .ite (.fwAborted (.setFw (.upd (.fwTurnEnd h))))
    (.ite (.setFw (.upd (.fwTurnEnd h))) (.fwTurn (.setFw (.upd (.fwTurnEnd h)))))

theorem State.Keeps.fwUpdated : s₀.Keeps s.fwUpdated :=
  .ite (.fwCommit (.setFw (.upd (.fwTurnEnd h)))) (.fwTurn (.setFw (.upd (.fwTurnEnd h))))

theorem execFwUnitDone_completes {ok : Bool} : s₀.Completes (execFwUnitDone ok s) := by
  refine .ite (.next h)
    (.ite ?_
      (.ite (.ite (.next (.fwCommit (.setFw h))) (.next (.fwTurn (.setFw h))))
        (.ite (.ite (.next (.fwUpdated h)) (.ite (.next (.fwTurn h)) (.next h)))
          (.ite (.next (.fwStop h)) (.next (.setFw h))))))
  split
  · exact .next (.fwAborted h)
  · exact .ite (.next (.fwReturned h)) (.next (.fwTurn h))

theorem execFwAbort_completes {idx : Nat} : s₀.Completes (execFwAbort idx s) := by
  unfold execFwAbort
  split
  · exact .next h
  · exact .ite (.next (.finish h)) (.next (.finish (.fwStop h)))

/-! ### Machine, Stage -/

theorem State.KeepsSome.roleStep {m i : Nat} {job : StageJob} : s₀.KeepsSome (s.roleStep m i job) := by
  unfold State.roleStep
  split
  · exact .scanStep h
  · exact .stageStep h
  · exact .ite (.scoreStep h) .none
  · exact .ite (.softStep h) .none
  · exact .ite (.valueStep h) .none
  · exact .ite (.collectPartial h) .none
  · exact .ite (.rotaryStep h) .none
  · exact .none

theorem State.Keeps.markItem {m i : Nat} {last : Bool} : s₀.Keeps (s.markItem m i last) := .setMill h

theorem execStageItem_completes {m i : Nat} {job : StageJob} : s₀.Completes (execStageItem m i job s) := by
  unfold execStageItem
  refine .ite (.next h) (.ite (.ite (.next (.getD (.stripeStep h) h)) (.next h)) (.ite (.next h) ?_))
  split
  · next t ht => exact .next (.markItem (State.KeepsSome.roleStep h t ht))
  · exact .next h

/-! ### Machine, Tick -/

theorem State.Keeps.edge : s₀.Keeps s.edge := .upd h

/-! ### Machine, Step -/

theorem State.Keeps.withFetchWord {nbits w : Nat} : s₀.Keeps (s.withFetchWord nbits w) := h

end

/-! ### Commands and steps -/

/-- Every command but a supply event above the absolute maximum completes. -/
theorem exec_completes (c : Instr) (s : State) (hc : overRated c = false) : s.Completes (exec c s) := by
  cases c with
  | registerWrite => exact execRegisterWrite_completes (.refl s)
  | w1cWrite => exact execW1cWrite_completes (.refl s)
  | w1sWrite => exact execW1sWrite_completes (.refl s)
  | rcRead => exact execRcRead_completes (.refl s)
  | captureReadLowWord => exact execCaptureReadLowWord_completes (.refl s)
  | ledgerFault => exact execLedgerFault_completes (.refl s)
  | lgFaultClear => exact execLgFaultClear_completes (.refl s)
  | lgSnapCtrl => exact execLgSnapCtrl_completes (.refl s)
  | snapCaptureDone => exact execSnapCaptureDone_completes (.refl s)
  | innerTick => exact execInnerTick_completes (.refl s)
  | conflictLimitExpiry => exact execConflictLimitExpiry_completes (.refl s)
  | acceptanceWindowClose => exact execAcceptanceWindowClose_completes (.refl s)
  | cycleBoundary => exact execCycleBoundary_completes (.refl s)
  | voteV1 => exact execVoteV1_completes (.refl s)
  | voteV2 => exact execVoteV2_completes (.refl s)
  | voteV3 => exact execVoteV3_completes (.refl s)
  | voteV4 => exact execVoteV4_completes (.refl s)
  | torqueLaunch => exact execTorqueLaunch_completes (.refl s)
  | launchEntryPlace => exact execLaunchEntryPlace_completes (.refl s)
  | supplyWarning => exact execSupplyWarning_completes (.refl s) (Nat.le_of_not_lt (of_decide_eq_false hc))
  | supplyRise => exact execSupplyRise_completes (.refl s) (Nat.le_of_not_lt (of_decide_eq_false hc))
  | supplyFall => exact execSupplyFall_completes (.refl s) (Nat.le_of_not_lt (of_decide_eq_false hc))
  | recoveryQualified => exact execRecoveryQualified_completes (.refl s) (Nat.le_of_not_lt (of_decide_eq_false hc))
  | holdupTakeover => exact execHoldupTakeover_completes (.refl s) (Nat.le_of_not_lt (of_decide_eq_false hc))
  | supplyReset => exact execSupplyReset_completes (.refl s) (Nat.le_of_not_lt (of_decide_eq_false hc))
  | shutdownStoDone => exact execShutdownStoDone_completes (.refl s)
  | startQualified => exact execStartQualified_completes (.refl s) (Nat.le_of_not_lt (of_decide_eq_false hc))
  | overVoltageNotice => exact execOverVoltageNotice_completes (.refl s) (Nat.le_of_not_lt (of_decide_eq_false hc))
  | throttleUpdate => exact execThrottleUpdate_completes (.refl s)
  | pwCap => exact execPwCap_completes (.refl s)
  | thermalThrottle => exact execThermalThrottle_completes (.refl s)
  | thermalFabricReset => exact execThermalFabricReset_completes (.refl s)
  | thermalShutdown => exact execThermalShutdown_completes (.refl s)
  | thermalRelease => exact execThermalRelease_completes (.refl s)
  | srReseed => exact execSrReseed_completes (.refl s)
  | stageItem => exact execStageItem_completes (.refl s)
  | tailraceEmit => exact execTailraceEmit_completes (.refl s)
  | weirAdmit => exact execWeirAdmit_completes (.refl s)
  | routerHop => exact execRouterHop_completes (.refl s)
  | hopperWrite => exact execHopperWrite_completes (.refl s)
  | slotFree => exact execSlotFree_completes (.refl s)
  | creditArrive => exact execCreditArrive_completes (.refl s)
  | parcelHeaderError => exact execParcelHeaderError_completes (.refl s)
  | coreHeartbeat => exact execCoreHeartbeat_completes (.refl s)
  | watchdogExpiry => exact execWatchdogExpiry_completes (.refl s)
  | millUncorrectable => exact execMillUncorrectable_completes (.refl s)
  | scrubPass => exact execScrubPass_completes (.refl s)
  | copyVerify => exact execCopyVerify_completes (.refl s)
  | copyDone => exact execCopyDone_completes (.refl s)
  | verifyDone => exact execVerifyDone_completes (.refl s)
  | load => exact execLoad_completes (.refl s)
  | preload => exact execPreload_completes (.refl s)
  | preloadDone => exact execPreloadDone_completes (.refl s)
  | swap => exact execSwap_completes (.refl s)
  | drainComplete => exact execDrainComplete_completes (.refl s)
  | drainTimeout => exact execDrainTimeout_completes (.refl s)
  | sectionReplaceApply => exact execSectionReplaceApply_completes (.refl s)
  | discard => exact execDiscard_completes (.refl s)
  | unload => exact execUnload_completes (.refl s)
  | evacuate => exact execEvacuate_completes (.refl s)
  | autoEvacuate => exact execAutoEvacuate_completes (.refl s)
  | restore => exact execRestore_completes (.refl s)
  | stripeStart => exact execStripeStart_completes (.refl s)
  | frameBufferStart => exact execFrameBufferStart_completes (.refl s)
  | kvWriteStep => exact execKvWriteStep_completes (.refl s)
  | kvReadResume => exact execKvReadResume_completes (.refl s)
  | sequenceClose => exact execSequenceClose_completes (.refl s)
  | prefillDispatch => exact execPrefillDispatch_completes (.refl s)
  | attnMergeEmit => exact execAttnMergeEmit_completes (.refl s)
  | streamStart => exact execStreamStart_completes (.refl s)
  | streamPause => exact execStreamPause_completes (.refl s)
  | streamResume => exact execStreamResume_completes (.refl s)
  | streamReset => exact execStreamReset_completes (.refl s)
  | streamEnd => exact execStreamEnd_completes (.refl s)
  | streamExport => exact execStreamExport_completes (.refl s)
  | streamImport => exact execStreamImport_completes (.refl s)
  | chunkBoundary => exact execChunkBoundary_completes (.refl s)
  | chunkEnqueue => exact execChunkEnqueue_completes (.refl s)
  | layerChunkStart => exact execLayerChunkStart_completes (.refl s)
  | hoist => exact execHoist_completes (.refl s)
  | alloc => exact execAlloc_completes (.refl s)
  | free => exact execFree_completes (.refl s)
  | tierCmdStart => exact execTierCmdStart_completes (.refl s)
  | hoistPageDone => exact execHoistPageDone_completes (.refl s)
  | tierRequest => exact execTierRequest_completes (.refl s)
  | tierRequestDone => exact execTierRequestDone_completes (.refl s)
  | tierLateExpiry => exact execTierLateExpiry_completes (.refl s)
  | purge => exact execPurge_completes (.refl s)
  | commit => exact execCommit_completes (.refl s)
  | hbmRowRepair => exact execHbmRowRepair_completes (.refl s)
  | hbmRepairDone => exact execHbmRepairDone_completes (.refl s)
  | batch => exact execBatch_completes (.refl s)
  | batchStart => exact execBatchStart_completes (.refl s)
  | checkingEnd => exact execCheckingEnd_completes (.refl s)
  | batchDeadline => exact execBatchDeadline_completes (.refl s)
  | gridPublish => exact execGridPublish_completes (.refl s)
  | pyramidBuildDone => exact execPyramidBuildDone_completes (.refl s)
  | pyramidActivate => exact execPyramidActivate_completes (.refl s)
  | resultEmit => exact execResultEmit_completes (.refl s)
  | clearWatch => exact execClearWatch_completes (.refl s)
  | repairBatch => exact execRepairBatch_completes (.refl s)
  | enable => exact execEnable_completes (.refl s)
  | hold => exact execHold_completes (.refl s)
  | release => exact execRelease_completes (.refl s)
  | stop => exact execStop_completes (.refl s)
  | clearSto => exact execClearSto_completes (.refl s)
  | readmit => exact execReadmit_completes (.refl s)
  | laneResetDone => exact execLaneResetDone_completes (.refl s)
  | laneCopyDone => exact execLaneCopyDone_completes (.refl s)
  | shadowPass => exact execShadowPass_completes (.refl s)
  | singleLaneTimeout => exact execSingleLaneTimeout_completes (.refl s)
  | govifRecordArrive => exact execGovifRecordArrive_completes (.refl s)
  | holdLastExpiry => exact execHoldLastExpiry_completes (.refl s)
  | planRecordArrive => exact execPlanRecordArrive_completes (.refl s)
  | syncReceive => exact execSyncReceive_completes (.refl s)
  | pdelayExchange => exact execPdelayExchange_completes (.refl s)
  | announceReceive => exact execAnnounceReceive_completes (.refl s)
  | referenceTimeout => exact execReferenceTimeout_completes (.refl s)
  | syncTransmit => exact execSyncTransmit_completes (.refl s)
  | ppsEdge => exact execPpsEdge_completes (.refl s)
  | ppsTimeout => exact execPpsTimeout_completes (.refl s)
  | holdoverExpired => exact execHoldoverExpired_completes (.refl s)
  | timeSet => exact execTimeSet_completes (.refl s)
  | timeStepApply => exact execTimeStepApply_completes (.refl s)
  | reacquire => exact execReacquire_completes (.refl s)
  | tmTickPhaseWrite => exact execTmTickPhaseWrite_completes (.refl s)
  | tmNowCapture => exact execTmNowCapture_completes (.refl s)
  | timeCopyMismatch => exact execTimeCopyMismatch_completes (.refl s)
  | replicaRealign => exact execReplicaRealign_completes (.refl s)
  | resetNAssert => exact execResetNAssert_completes (.refl s)
  | hostPortInitReady => exact execHostPortInitReady_completes (.refl s)
  | hpCtrlService => exact execHpCtrlService_completes (.refl s)
  | hostPortDomainReset => exact execHostPortDomainReset_completes (.refl s)
  | modeRegisterWrite => exact execModeRegisterWrite_completes (.refl s)
  | modeRegisterRead => exact execModeRegisterRead_completes (.refl s)
  | training => exact execTraining_completes (.refl s)
  | refresh => exact execRefresh_completes (.refl s)
  | powerDown => exact execPowerDown_completes (.refl s)
  | readBurst => exact execReadBurst_completes (.refl s)
  | writeBurst => exact execWriteBurst_completes (.refl s)
  | hpCtxSqDb => exact execHpCtxSqDb_completes (.refl s)
  | entryAccept => exact execEntryAccept_completes (.refl s)
  | sealWaitTimeout => exact execSealWaitTimeout_completes (.refl s)
  | hpCtxCqDb => exact execHpCtxCqDb_completes (.refl s)
  | completionWrite => exact execCompletionWrite_completes (.refl s)
  | ctxEnable => exact execCtxEnable_completes (.refl s)
  | ctxDisable => exact execCtxDisable_completes (.refl s)
  | ctxReset => exact execCtxReset_completes (.refl s)
  | chunk => exact execChunk_completes (.refl s)
  | item => exact execItem_completes (.refl s)
  | alertHoldoffExpiry => exact execAlertHoldoffExpiry_completes (.refl s)
  | hpMbSqDb => exact execHpMbSqDb_completes (.refl s)
  | hpMbCqDb => exact execHpMbCqDb_completes (.refl s)
  | pxModuleIdWrite => exact execPxModuleIdWrite_completes (.refl s)
  | phirovPortEnable => exact execPhirovPortEnable_completes (.refl s)
  | pxPeerWrite => exact execPxPeerWrite_completes (.refl s)
  | linkUp => exact execLinkUp_completes (.refl s)
  | helloTimer => exact execHelloTimer_completes (.refl s)
  | helloReceive => exact execHelloReceive_completes (.refl s)
  | creditReceive => exact execCreditReceive_completes (.refl s)
  | phirovFrameSend => exact execPhirovFrameSend_completes (.refl s)
  | creditReturnSend => exact execCreditReturnSend_completes (.refl s)
  | writeFrameReceive => exact execWriteFrameReceive_completes (.refl s)
  | readFrameReceive => exact execReadFrameReceive_completes (.refl s)
  | responseReceive => exact execResponseReceive_completes (.refl s)
  | collectReceive => exact execCollectReceive_completes (.refl s)
  | pfcReceive => exact execPfcReceive_completes (.refl s)
  | peerLost => exact execPeerLost_completes (.refl s)
  | peerTimeout => exact execPeerTimeout_completes (.refl s)
  | linkDownEvent => exact execLinkDownEvent_completes (.refl s)
  | collectiveRequest => exact execCollectiveRequest_completes (.refl s)
  | collectiveDone => exact execCollectiveDone_completes (.refl s)
  | fragmentReceive => exact execFragmentReceive_completes (.refl s)
  | ingressDeliveryDone => exact execIngressDeliveryDone_completes (.refl s)
  | ptpMessageReceive => exact execPtpMessageReceive_completes (.refl s)
  | ringCopyReturn => exact execRingCopyReturn_completes (.refl s)
  | ringReturnDeadline => exact execRingReturnDeadline_completes (.refl s)
  | mrCfgWrite => exact execMrCfgWrite_completes (.refl s)
  | clockCheckFail => exact execClockCheckFail_completes (.refl s)
  | referenceAbsent => exact execReferenceAbsent_completes (.refl s)
  | clockRestartAttempt => exact execClockRestartAttempt_completes (.refl s)
  | cdcTimeout => exact execCdcTimeout_completes (.refl s)
  | domainReset => exact execDomainReset_completes (.refl s)
  | fabricGroupReset => exact execFabricGroupReset_completes (.refl s)
  | domainRelease => exact execDomainRelease_completes (.refl s)
  | pwResetCmd => exact execPwResetCmd_completes (.refl s)
  | bootStageDone => exact execBootStageDone_completes (.refl s)
  | bootStageOverrun => exact execBootStageOverrun_completes (.refl s)
  | portRetrain => exact execPortRetrain_completes (.refl s)
  | portRetrainEnd => exact execPortRetrainEnd_completes (.refl s)
  | millTest => exact execMillTest_completes (.refl s)
  | evCapture => exact execEvCapture_completes (.refl s)
  | challenge => exact execChallenge_completes (.refl s)
  | evClear => exact execEvClear_completes (.refl s)
  | returnEnter => exact execReturnEnter_completes (.refl s)
  | liveRecordEnter => exact execLiveRecordEnter_completes (.refl s)
  | recordFlush => exact execRecordFlush_completes (.refl s)
  | coalescedRecord => exact execCoalescedRecord_completes (.refl s)
  | opSecondsSave => exact execOpSecondsSave_completes (.refl s)
  | evRdSeqHiWrite => exact execEvRdSeqHiWrite_completes (.refl s)
  | evCtxSelHiWrite => exact execEvCtxSelHiWrite_completes (.refl s)
  | recordLatchDone => exact execRecordLatchDone_completes (.refl s)
  | attest => exact execAttest_completes (.refl s)
  | certRead => exact execCertRead_completes (.refl s)
  | fwStage => exact execFwStage_completes (.refl s)
  | fwApply => exact execFwApply_completes (.refl s)
  | fwUnitDone => exact execFwUnitDone_completes (.refl s)
  | fwAbort => exact execFwAbort_completes (.refl s)
  | otpChallenge => exact execOtpChallenge_completes (.refl s)
  | otpWrite => exact execOtpWrite_completes (.refl s)
  | otpWriteStart => exact execOtpWriteStart_completes (.refl s)
  | otpWriteDone => exact execOtpWriteDone_completes (.refl s)
  | otpRead => exact execOtpRead_completes (.refl s)
  | holdupEnd => exact execHoldupEnd_completes (.refl s) (Nat.le_of_not_lt (of_decide_eq_false hc))
  | holdupLowChange => exact execHoldupLowChange_completes (.refl s)
  | laneWatchdogExpiry => exact execLaneWatchdogExpiry_completes (.refl s)
  | asCapableLost => exact execAsCapableLost_completes (.refl s)
  | announceTransmit => exact execAnnounceTransmit_completes (.refl s)
  | pdelayRequestTransmit => exact execPdelayRequestTransmit_completes (.refl s)
  | powerDownExit => exact execPowerDownExit_completes (.refl s)
  | frameDiscard => exact execFrameDiscard_completes (.refl s)
  | phirovPortDisable => exact execPhirovPortDisable_completes (.refl s)
  | tmCtrlSourceWrite => exact execTmCtrlSourceWrite_completes (.refl s)
  | hbmStackFailure => exact execHbmStackFailure_completes (.refl s)

/-- The absolute maximum of R495 stops the model by log entry 10, which is DEDUCED. -/
theorem exec_of_overRated (c : Instr) (s : State) (hc : overRated c = true) : exec c s = .fault .ratingExceeded := by
  cases c with
  | supplyWarning => exact if_pos (of_decide_eq_true hc)
  | supplyRise => exact if_pos (of_decide_eq_true hc)
  | supplyFall => exact if_pos (of_decide_eq_true hc)
  | recoveryQualified => exact if_pos (of_decide_eq_true hc)
  | holdupTakeover => exact if_pos (of_decide_eq_true hc)
  | supplyReset => exact if_pos (of_decide_eq_true hc)
  | startQualified => exact if_pos (of_decide_eq_true hc)
  | overVoltageNotice => exact if_pos (of_decide_eq_true hc)
  | holdupEnd => exact if_pos (of_decide_eq_true hc)
  | _ => exact absurd hc Bool.false_ne_true

theorem exec_memOk {c : Instr} {s t : State} (h : s.memOk) (ht : exec c s = .next t) : t.memOk := by
  cases hc : overRated c with
  | true => exact absurd ((exec_of_overRated c s hc).symm.trans ht) (by simp)
  | false =>
    obtain ⟨u, hu, hk⟩ := exec_completes c s hc
    have : u = t := Host.Outcome.next.inj (hu.symm.trans ht)
    exact this ▸ hk.memOk h

/-- A step is an edge, which leaves the memories as they are, or the command at the front of the queue. -/
theorem step_memOk {s t : State} (h : s.memOk) (ht : step s = .next t) : t.memOk := by
  cases hq : s.pending with
  | nil =>
    have : s.edge = t := by simpa [step, hq] using ht
    exact this ▸ h
  | cons c rest => exact exec_memOk (s := { s with pending := rest }) h (step_pending s c rest hq ▸ ht)

/-- Settles O60: each command's meaning is built from operations that keep the canonical form and the queue. -/
theorem stepKeepsMemory : Obligations.StepKeepsMemory := by
  refine ⟨fun _ _ => step_memOk, fun c s hc => ?_, exec_of_overRated⟩
  obtain ⟨t, ht, hk⟩ := exec_completes c s hc
  exact ⟨t, ht, hk.pending⟩

end Sys2Proof.Machine
end

section
/-!
PROOF. The state right after reset (O59).
-/
namespace Sys2Proof.Machine

/-- Settles O59: reset empties every table, so each entry of one is its default. -/
theorem resetState : Obligations.ResetState :=
  ⟨State.reset_memOk, rfl, rfl, rfl, rfl, rfl, fun _ _ => rfl, rfl, rfl, rfl, fun _ _ => ⟨rfl, rfl⟩, rfl, rfl, rfl, rfl, rfl,
    rfl, rfl, rfl, .inl rfl⟩

end Sys2Proof.Machine
end

section
/-!
PROOF. A read of the low word of a 64-bit pair (O4): the high word stands 4 above the low word, through a view as well, and is no
low word itself.
-/
namespace Sys2Proof.Machine

/-! ### The addresses of low words -/

theorem elemOf_isSome_iff {base stride count a : Nat} :
    (elemOf base stride count a).isSome = true ↔ base ≤ a ∧ (a - base) % stride = 0 ∧ (a - base) / stride < count := by
  simp [elemOf]

/-- The low words, by their addresses: the single ones, then BL_GRID_TIME, EV_CTX_HEAD, EV_CTX_SEL and HP_CTX_CRED. -/
theorem lowWord_iff (r : Nat) : lowWord r = true ↔
    (r = 0x20030 ∨ r = 0xB00010 ∨ r = 0x300034 ∨ r = 0x500020 ∨ r = 0x503004 ∨ r = 0x600044 ∨ r = 0x10010 ∨ r = 0x900004 ∨
      r = 0x90000C ∨ r = 4 ∨ r = 0x900028) ∨
    (0x400008 ≤ r ∧ (r - 0x400008) % 0x10000 = 0 ∧ (r - 0x400008) / 0x10000 < 2) ∨
    (0x1000800 ≤ r ∧ (r - 0x1000800) % 0x100000 = 0 ∧ (r - 0x1000800) / 0x100000 < 64) ∨
    (0x1000808 ≤ r ∧ (r - 0x1000808) % 0x100000 = 0 ∧ (r - 0x1000808) / 0x100000 < 64) ∨
    (0x1100C ≤ r ∧ (r - 0x1100C) % 0x100 = 0 ∧ (r - 0x1100C) / 0x100 < 64) := by
  simp only [lowWord, Bool.or_eq_true, elemOf_isSome_iff, Reg.lgReclaimTotalLo, Reg.mpPlanIdLo,
    Reg.mtMapEntryLo, Reg.gvCycleLo, Reg.fuDesyncLo, Reg.tmGmIdLo, Reg.hpPendingLo, Reg.evHeadLo, Reg.evOldestLo,
    Reg.scIdSerialLo, Reg.blGridTimeLo, Reg.evCtxHeadLo, Reg.evRdSeqLo, Reg.evCtxSelLo, Reg.hpCtxCredA, Nat.mul_zero,
    Nat.add_zero]
  grind

theorem lowWord_add_four {r : Nat} (h : lowWord r = true) : lowWord (r + 4) = false := by
  rw [← Bool.not_eq_true, lowWord_iff]
  rw [lowWord_iff] at h
  omega

/-- The low words of a view stand at 0x0C, 0x800 and 0x808, so four bytes on is the same part of the same view. -/
theorem regAddr_add_four {a : Nat} (h : lowWord (regAddr a) = true) : regAddr (a + 4) = regAddr a + 4 := by
  rw [lowWord_iff] at h
  simp only [regAddr] at h ⊢
  split_ifs at h ⊢ <;> omega

/-! ### What a read does -/

theorem readReg_of_lowWord {a : Nat} (h : lowWord (regAddr a) = true) (s : State) (ev : Nat) :
    s.readReg a ev = (s.regValue a, { s with hold := Tbl.set s.hold (regAddr a + 4) (s.regValue (a + 4)) }) := by
  have hnow : regAddr a ≠ Reg.tmNowNs := fun he => absurd (he ▸ h) (by decide)
  have hpps : regAddr a ≠ Reg.tmPpsCapNs := fun he => absurd (he ▸ h) (by decide)
  simp only [State.readReg, hnow, hpps, h, if_false, if_true]

/-- A high word with a captured value reads as what was captured. -/
theorem readReg_of_held {a : Nat} {w : Word} {s : State} (hl : lowWord (regAddr a) = false) (hnow : regAddr a ≠ Reg.tmNowNs)
    (hpps : regAddr a ≠ Reg.tmPpsCapNs) (hw : Tbl.find s.hold (regAddr a) = some w) (ev : Nat) : (s.readReg a ev).1 = w := by
  simp only [State.readReg, hnow, hpps, hl, hw, if_false, Bool.false_eq_true]

theorem execCaptureReadLowWord_of_lowWord {a : Nat} (h : lowWord (regAddr a) = true) (s : State) :
    exec (.captureReadLowWord a) s =
      .next (State.answer { s with hold := Tbl.set s.hold (regAddr a + 4) (s.regValue (a + 4)) } [s.regValue a]) := by
  show execCaptureReadLowWord a s = _
  simp only [execCaptureReadLowWord, h, readReg_of_lowWord h, Bool.true_or, if_true]

/-- Settles O4: the low word's read holds the high word at the address of the high word, where the next read finds it. -/
theorem lowWordCaptures : Obligations.LowWordCaptures := by
  intro a s h
  refine ⟨_, execCaptureReadLowWord_of_lowWord h s, rfl, fun p hp => ?_, fun u hu => ?_⟩
  · cases p with
    | hold => exact absurd (by decide) hp
    | hp => exact absurd (by decide) hp
    | _ => rfl
  · have hlow := (lowWord_iff _).mp h
    have haddr := regAddr_add_four h
    refine readReg_of_held (haddr ▸ lowWord_add_four h) ?_ ?_ ?_ 0
    · unfold Reg.tmNowNs
      omega
    · unfold Reg.tmPpsCapNs
      omega
    · rw [hu, haddr]
      exact Tbl.find_set_same ..

end Sys2Proof.Machine
end

section
/-!
PROOF. A hardware event in the cycle of a W1C_WRITE or RC_READ (O3).
-/
namespace Sys2Proof.Machine

theorem accessAt_pwSupplyMin : accessAt Reg.pwSupplyMin = some .rc := by decide

/-- After reset, an RC_READ of PW_SUPPLY_MIN without an event leaves its Reset value, 0xFFFF, and not 0 (log entry 2). -/
theorem clearRc_pwSupplyMin : (State.reset.clearRc Reg.pwSupplyMin 0).reg (regAddr Reg.pwSupplyMin) = 0xFFFF := by decide

theorem execRcRead_of_rc {a : Nat} (ha : accessAt a = some .rc) (ev : Nat) (s : State) :
    exec (.rcRead a ev) s = .next ((s.clearRc (regAddr a) ev).answer [s.regValue a]) := by
  show execRcRead a ev s = _
  simp only [execRcRead, ha]

/-- Refutes O3: PW_SUPPLY_MIN, read after reset with no event in the cycle, holds its Reset value 0xFFFF and not the events, 0. -/
theorem not_hardwareEventWins : ¬ Obligations.HardwareEventWins := by
  unfold Obligations.HardwareEventWins
  rintro ⟨-, hread⟩
  obtain ⟨t, ht, -, hreg, -⟩ := hread Reg.pwSupplyMin 0 State.reset accessAt_pwSupplyMin
  have hnext := Host.Outcome.next.inj ((execRcRead_of_rc accessAt_pwSupplyMin 0 State.reset).symm.trans ht)
  subst hnext
  have hkept : (State.reset.clearRc Reg.pwSupplyMin 0).reg (regAddr Reg.pwSupplyMin) = word 0 := hreg
  exact absurd (clearRc_pwSupplyMin.symm.trans hkept) (by decide)

end Sys2Proof.Machine
end

section
/-!
PROOF. REGISTER_WRITE and W1S_WRITE (O2): the rows of the map that the statement names, the branch that `State.writeRw` takes for
each, and the rule of R399 that follows, which leaves the register bank as it is.
-/
namespace Sys2Proof.Machine

/-! ### After the access (R399) -/

theorem State.released_eq (s t : State) : ∃ x, s.released t = { t with hp := x } := by
  unfold State.released
  split
  · exact ⟨_, rfl⟩
  · exact ⟨t.hp, rfl⟩

@[simp] theorem State.released_regs (s t : State) : (s.released t).regs = t.regs := by
  obtain ⟨x, hx⟩ := s.released_eq t
  rw [hx]

@[simp] theorem State.reg_released (s t : State) (a : Nat) : (s.released t).reg a = t.reg a := by
  obtain ⟨x, hx⟩ := s.released_eq t
  rw [hx]
  rfl

/-! ### One register set -/

theorem State.regsBut_released_setReg (s : State) (a : Nat) (w : Word) : s.regsBut (s.released (s.setReg a w)) [a] := by
  intro b hb
  rw [State.reg_released, State.reg_setReg_other _ _ _ _ (List.ne_of_not_mem_cons hb)]

theorem State.onlyChanges_released_setReg (s : State) (a : Nat) (w : Word) :
    s.onlyChanges (s.released (s.setReg a w)) [.regs, .hp] := by
  intro p hp
  obtain ⟨x, hx⟩ := s.released_eq (s.setReg a w)
  rw [hx]
  cases p with
  | regs => exact absurd (by decide) hp
  | hp => exact absurd (by decide) hp
  | _ => rfl

/-! ### Rows of the register map -/

/-- The access type and the mask of the register at an address. -/
def rowKind (a : Nat) : Option (Access × Nat) := (regRow a).map (fun r => (r.access, r.mask))

theorem regAddr_of_lt {a : Nat} (h : a < 0x1000000) : regAddr a = a := if_neg (by omega)

theorem exec_registerWrite {a mask : Nat} (hlt : a < 0x1000000) (hrw : rowKind a = some (.rw, mask)) (v : Nat) (s : State) :
    exec (.registerWrite a v) s = .next (s.released (s.writeRw a v mask)) := by
  obtain ⟨row, hrow, hkind⟩ := Option.map_eq_some_iff.mp hrw
  obtain ⟨hacc, hmask⟩ := Prod.mk.inj hkind
  have hat : accessAt a = some .rw := by simp [accessAt, regAddr_of_lt hlt, hrow, hacc, Nat.not_le.mpr hlt]
  show execRegisterWrite a v s = _
  simp only [execRegisterWrite, hat, regAddr_of_lt hlt, hrow, hmask]

theorem exec_registerWrite_of_not_rw {a : Nat} (h : accessAt a ≠ some .rw) (v : Nat) (s : State) :
    exec (.registerWrite a v) s = .next s := by
  show execRegisterWrite a v s = _
  unfold execRegisterWrite
  split
  · next hacc _ => exact absurd hacc h
  · rfl

theorem regMap_access_ne_w1s : ∀ r ∈ regMap, r.access ≠ .w1s := by decide +kernel

theorem accessAt_ne_w1s (a : Nat) : accessAt a ≠ some .w1s := by
  intro h
  obtain ⟨r, hr, hacc⟩ := Option.map_eq_some_iff.mp h
  have hne := regMap_access_ne_w1s r (List.mem_of_find?_eq_some hr)
  split at hacc
  · exact absurd hacc (by decide)
  · exact hne hacc

theorem exec_w1sWrite (a v : Nat) (s : State) : exec (.w1sWrite a v) s = .next s := by
  show execW1sWrite a v s = _
  unfold execW1sWrite
  split
  · next hacc _ => exact absurd hacc (accessAt_ne_w1s a)
  · rfl

/-! ### Registers with no rule of their own -/

/-- The single registers for which `State.writeRw` has a branch. -/
def singleRules : List Nat :=
  [Reg.hpCtrl, Reg.tmCtrl, Reg.tmTickPhase, Reg.pxModuleId, Reg.mrCfg, Reg.pwCap, Reg.evRdSeqHi, Reg.hpEventEn]

/-- `State.writeRw` has a branch for the register at an address, or for its array. -/
def ownRule (a : Nat) : Bool :=
  a ∈ singleRules ||
  (elemOf (Reg.hpCtxCfg 0) 0x100 64 a).isSome || (elemOf (Reg.hpCtxPond 0) 0x100 64 a).isSome ||
  (elemOf (Reg.evCtxSelHi 0) 0x100000 64 a).isSome || (elemOf (Reg.pxPortCfg 0) 0x100 8 a).isSome ||
  (elemOf (Reg.pxGrantA 0) 0x100 8 a).isSome || (elemOf (Reg.pxGrantB 0) 0x100 8 a).isSome ||
  (elemOf (Reg.pxPeer 0) 4 1024 a).isSome || (elemOf (Reg.tmPortCfg 0) 0x20 26 a).isSome

theorem State.writeRw_of_not_ownRule {a : Nat} (h : ownRule a = false) (s : State) (v mask : Nat) :
    s.writeRw a v mask = s.setReg a (word v &&& word mask) := by
  simp only [ownRule, singleRules, Bool.or_eq_false_iff, Option.isSome_eq_false_iff, Option.isNone_iff_eq_none,
    decide_eq_false_iff_not, List.mem_cons, List.not_mem_nil, or_false, not_or] at h
  simp only [State.writeRw, h, if_false]

/-- Registers with no rule of their own, with the bits that their field maps make writable. -/
def plainRegs : List (Nat × Nat) :=
  [(Reg.mpSrcOffset, 0xFFFFFFFF), (Reg.mpSrcLength, 0xFFFFFFFF), (Reg.mpCtrl, 3), (Reg.mtMapIndex, 0x3FFFFF),
    (Reg.tmSetNs, 0xFFFFFFFF), (Reg.tmSetSecLo, 0xFFFFFFFF), (Reg.tmSetSecHi, 0xFFFF), (Reg.tmServo, 0xFFFFFF),
    (Reg.tmStepThreshold, 0xFFFFFFFF), (Reg.tmClockQuality, 0xFFFFFFFF), (Reg.tmPpsDelay, 0xFFFFFFFF),
    (Reg.tmUtcOffset, 0x1FFFF), (Reg.evRdSeqLo, 0xFFFFFFFF)]

theorem plainRegs_rw : ∀ e ∈ plainRegs, e.1 < 0x1000000 ∧ rowKind e.1 = some (.rw, e.2) ∧ ownRule e.1 = false := by decide

/-! ### Registers whose write is a command of the table -/

/-- The registers with the commands that a write of `v` to them is. -/
def commandRegs (v : Nat) : List (Nat × Instr) :=
  [(Reg.hpCtrl, .hpCtrlService v), (Reg.tmCtrl, .tmCtrlSourceWrite v), (Reg.tmTickPhase, .tmTickPhaseWrite v),
    (Reg.pxModuleId, .pxModuleIdWrite v), (Reg.mrCfg, .mrCfgWrite v), (Reg.pwCap, .pwCap v), (Reg.evRdSeqHi, .evRdSeqHiWrite v)]

theorem commandRegs_rw (v : Nat) {a : Nat} {c : Instr} (h : (a, c) ∈ commandRegs v) :
    a < 0x1000000 ∧ ∃ mask, rowKind a = some (.rw, mask) := by
  have hrw : ∀ a ∈ [Reg.hpCtrl, Reg.tmCtrl, Reg.tmTickPhase, Reg.pxModuleId, Reg.mrCfg, Reg.pwCap, Reg.evRdSeqHi],
      a < 0x1000000 ∧ (rowKind a).map (·.1) = some .rw := by decide
  obtain ⟨hlt, hk⟩ := hrw a (List.mem_map_of_mem (f := (·.1)) h)
  obtain ⟨⟨acc, mask⟩, hk, rfl⟩ := Option.map_eq_some_iff.mp hk
  exact ⟨hlt, mask, hk⟩

theorem State.writeRw_commandRegs {a v mask : Nat} {c : Instr} (h : (a, c) ∈ commandRegs v) (s : State) :
    s.writeRw a v mask = stateOf (exec c s) s := by
  simp only [commandRegs, List.mem_cons, Prod.mk.injEq, List.not_mem_nil, or_false] at h
  rcases h with ⟨rfl, rfl⟩ | ⟨rfl, rfl⟩ | ⟨rfl, rfl⟩ | ⟨rfl, rfl⟩ | ⟨rfl, rfl⟩ | ⟨rfl, rfl⟩ | ⟨rfl, rfl⟩ <;> rfl

/-! ### HP_CTX_CFG and HP_CTX_POND -/

theorem elemOf_of_lt {base stride count i : Nat} (hs : 0 < stride) (hi : i < count) :
    elemOf base stride count (base + stride * i) = some i := by
  simp [elemOf, Nat.mul_div_cancel_left i hs, hi]

/-- A row with a register in the range of the context rings, 0x11000 to 0x14FFF. -/
def RegRow.inRings (r : RegRow) : Bool :=
  r.base < 0x15000 && 0x11000 < r.base + r.stride1 * (r.count1 - 1) + r.stride2 * (r.count2 - 1) + 4

/-- The rows of the context rings, HP_CTX_STATUS to HP_CTX_POND. -/
def ringRows : List RegRow := (regMap5.drop 6).take 9

theorem regMap_filter_inRings : regMap.filter (·.inRings) = ringRows := by decide +kernel

theorem regRow_of_inRings {a : Nat} (hlo : 0x11000 ≤ a) (hhi : a < 0x15000) : regRow a = ringRows.find? (·.covers a) := by
  rw [← regMap_filter_inRings, List.find?_filter]
  have hin (r : RegRow) (hc : r.covers a = true) : r.inRings = true := by
    simp only [RegRow.covers, Bool.and_eq_true, decide_eq_true_eq] at hc
    simp only [RegRow.inRings, Bool.and_eq_true, decide_eq_true_eq]
    omega
  simp only [regRow, and_iff_right_of_imp (hin _), Bool.decide_eq_true]

theorem singleRules_outside : ∀ a ∈ singleRules, a < 0x11000 ∨ 0x15000 ≤ a := by decide

theorem hpCtx_lt {a c : Nat} (hc : c < 64) (ha : a = Reg.hpCtxCfg c ∨ a = Reg.hpCtxPond c) : a < 0x1000000 := by
  unfold Reg.hpCtxCfg Reg.hpCtxPond at ha
  omega

theorem rowKind_hpCtx {a c : Nat} (hc : c < 64) (ha : a = Reg.hpCtxCfg c ∨ a = Reg.hpCtxPond c) :
    rowKind a = some (.rw, 0x1FFFFF) := by
  have hrows : ∀ c < 64, ∀ a ∈ [Reg.hpCtxCfg c, Reg.hpCtxPond c],
      (ringRows.find? (·.covers a)).map (fun r => (r.access, r.mask)) = some (.rw, 0x1FFFFF) := by decide +kernel
  have hrow : regRow a = ringRows.find? (·.covers a) := by
    unfold Reg.hpCtxCfg Reg.hpCtxPond at ha
    exact regRow_of_inRings (by omega) (by omega)
  rw [rowKind, hrow]
  exact hrows c hc a (by simpa using ha)

/-- Both registers are written only while their ring is DISABLED. -/
theorem State.writeRw_hpCtx {a c : Nat} (hc : c < 64) (ha : a = Reg.hpCtxCfg c ∨ a = Reg.hpCtxPond c) (s : State)
    (v mask : Nat) :
    s.writeRw a v mask = if (s.ring c).state = .disabled then s.setReg a (word v &&& word mask) else s := by
  have hsingle : a ∉ singleRules := by
    unfold Reg.hpCtxCfg Reg.hpCtxPond at ha
    intro hmem
    have hout := singleRules_outside a hmem
    omega
  simp only [singleRules, List.mem_cons, List.not_mem_nil, or_false, not_or] at hsingle
  rcases ha with rfl | rfl
  · have hcfg : elemOf (Reg.hpCtxCfg 0) 0x100 64 (Reg.hpCtxCfg c) = some c := elemOf_of_lt (by decide) hc
    simp only [State.writeRw, hsingle, if_false, hcfg]
  · have hcfg : elemOf (Reg.hpCtxCfg 0) 0x100 64 (Reg.hpCtxPond c) = none := by
      refine if_neg ?_
      unfold Reg.hpCtxCfg Reg.hpCtxPond
      omega
    have hpond : elemOf (Reg.hpCtxPond 0) 0x100 64 (Reg.hpCtxPond c) = some c := elemOf_of_lt (by decide) hc
    simp only [State.writeRw, hsingle, if_false, hcfg, hpond]

/-- Settles O2: the branch of each register, then the rule of R399, which leaves the bank as it is. -/
theorem registerWrites : Obligations.RegisterWrites := by
  refine ⟨fun a v mask s h => ?_, fun a v s h => exec_registerWrite_of_not_rw h v s, fun a v c s t h ht => ?_,
    fun a c v s hc ha hs => ?_, fun a c v s hc ha hs => ?_, exec_w1sWrite⟩
  · obtain ⟨hlt, hrw, hown⟩ := plainRegs_rw (a, mask) h
    have hexec := exec_registerWrite hlt hrw v s
    rw [State.writeRw_of_not_ownRule hown] at hexec
    refine ⟨_, hexec, ?_, s.regsBut_released_setReg a _, s.onlyChanges_released_setReg a _⟩
    rw [State.reg_released, State.reg_setReg_same]
  · obtain ⟨hlt, mask, hrw⟩ := commandRegs_rw v h
    have hexec := exec_registerWrite hlt hrw v s
    rw [State.writeRw_commandRegs h, ht] at hexec
    exact hexec
  · have hexec := exec_registerWrite (hpCtx_lt hc ha) (rowKind_hpCtx hc ha) v s
    rw [State.writeRw_hpCtx hc ha, if_pos hs] at hexec
    refine ⟨_, hexec, ?_, s.regsBut_released_setReg a _⟩
    rw [State.reg_released, State.reg_setReg_same]
    rfl
  · have hexec := exec_registerWrite (hpCtx_lt hc ha) (rowKind_hpCtx hc ha) v s
    rw [State.writeRw_hpCtx hc ha, if_neg hs] at hexec
    exact ⟨_, hexec, s.released_regs s⟩

end Sys2Proof.Machine
end

section
/-!
PROOF. LEDGER_FAULT, LG_FAULT_CLEAR and the snapshot of a pool (O5).

What a ledger fault shows is written by `State.flagFault`. `State.KeepsFaults s t` says of a state `t` that comes after `s` that it
shows the same ledger faults, and that a mill in FAULT is still in FAULT: every operation by which the owners of the pool then stop
has this property, one lemma for each.
-/
namespace Sys2Proof.Machine

/-! ### Registers and records -/

/-- A register of the bank depends on the registers written and, for its reset value, on the OTP groups. -/
theorem State.reg_congr {s t : State} (hr : t.regs = s.regs) (hs : t.sec = s.sec) (a : Nat) : t.reg a = s.reg a := by
  simp only [State.reg, regReset, latReset, hr, hs]

theorem State.record_regs (s : State) (ch event status ctx source : Nat) (detail : Bytes) :
    (s.record ch event status ctx source detail).regs = (s.bump (Reg.evChCount ch) 1).regs := by
  unfold State.record
  extract_lets
  split
  · rfl
  · split <;> rfl

/-- Of the registers, a record changes the counter of its channel alone. -/
theorem State.reg_record_other (s : State) {a ch : Nat} (h : a ≠ Reg.evChCount ch) (event status ctx source : Nat) (detail : Bytes) :
    (s.record ch event status ctx source detail).reg a = s.reg a := by
  rw [State.reg_congr (s.record_regs ch event status ctx source detail) (State.record_sec ..), State.reg_bump_other _ _ _ _ h]

/-- No channel's counter is LG_FAULT. -/
theorem lgFault_ne_evChCount (ch : Nat) : Reg.lgFault ≠ Reg.evChCount ch := by
  unfold Reg.lgFault Reg.evChCount
  omega

theorem fld_bit (w : Word) (i : Nat) : fld w i i = (w.getLsbD i).toNat := by
  rw [fld, fldN, Nat.add_sub_cancel_left, pow_one, BitVec.getLsbD, Nat.toNat_testBit]

/-! ### What a ledger fault shows -/

@[simp] theorem State.flagFault_ledger (s : State) (p : Nat) : (s.flagFault p).ledger =
    { s.ledger with faulted := addN s.ledger.faulted p
                    faultPool := if fld (s.reg Reg.lgFault) 0 0 = 1 then s.ledger.faultPool else some p } :=
  State.record_ledger ..

theorem State.reg_flagFault (s : State) (p : Nat) : (s.flagFault p).reg Reg.lgFault =
    s.reg Reg.lgFault ||| word (if fld (s.reg Reg.lgFault) 0 0 = 1 then 2 else 1) :=
  (State.reg_record_other _ (lgFault_ne_evChCount 63) ..).trans (State.reg_raise_same ..)

theorem has_addN (l : List Nat) (n : Nat) : has (addN l n) n = true := by
  unfold addN
  split
  · assumption
  · simp [has]

theorem State.flagFault_poolFault (s : State) (p : Nat) : (s.flagFault p).poolFault p = true := by
  rw [State.poolFault, State.flagFault_ledger]
  exact has_addN ..

/-- The first fault is named, and LG_FAULT bit 0 set. -/
theorem State.flagFault_first {s : State} (h : fld (s.reg Reg.lgFault) 0 0 = 0) (p : Nat) :
    (s.flagFault p).ledger.faultPool = some p ∧ fld ((s.flagFault p).reg Reg.lgFault) 0 0 = 1 := by
  simp [State.reg_flagFault, h, fld_bit (_ ||| _), word]

/-- A fault while LG_FAULT shows one sets bit 1, and the pool named stays. -/
theorem State.flagFault_further {s : State} (h : fld (s.reg Reg.lgFault) 0 0 = 1) (p : Nat) :
    (s.flagFault p).ledger.faultPool = s.ledger.faultPool ∧ fld ((s.flagFault p).reg Reg.lgFault) 1 1 = 1 := by
  simp [State.reg_flagFault, h, fld_bit (_ ||| _), word]

/-! ### What the stop of the owners keeps -/

/-- The ledger faults shown are the same, and a mill in FAULT is still in FAULT. -/
structure State.KeepsFaults (s t : State) : Prop where
  faulted : t.ledger.faulted = s.ledger.faulted
  faultPool : t.ledger.faultPool = s.ledger.faultPool
  lgFault : t.reg Reg.lgFault = s.reg Reg.lgFault
  mill : ∀ m, (s.mill m).state = .fault → (t.mill m).state = .fault

theorem State.KeepsFaults.refl (s : State) : s.KeepsFaults s := ⟨rfl, rfl, rfl, fun _ => id⟩

theorem State.KeepsFaults.ite {s₀ s t : State} {c : Prop} [Decidable c] (hs : s₀.KeepsFaults s) (ht : s₀.KeepsFaults t) :
    s₀.KeepsFaults (if c then s else t) := by
  split
  · exact hs
  · exact ht

section
variable {s₀ s : State} (h : s₀.KeepsFaults s)
include h

/-- An update of parts that hold no fault. -/
theorem State.KeepsFaults.upd {hp loader streams bolters freeN} :
    s₀.KeepsFaults { s with hp, loader, streams, bolters, freeN } :=
  ⟨h.faulted, h.faultPool, h.lgFault, h.mill⟩

theorem State.KeepsFaults.setReg {a : Nat} {w : Word} (ha : Reg.lgFault ≠ a) : s₀.KeepsFaults (s.setReg a w) :=
  ⟨h.faulted, h.faultPool, (s.reg_setReg_other a _ w ha).trans h.lgFault, h.mill⟩

theorem State.KeepsFaults.setMill {m : Nat} {x : Mill} (hx : (s.mill m).state = .fault → x.state = .fault) :
    s₀.KeepsFaults (s.setMill m x) where
  faulted := h.faulted
  faultPool := h.faultPool
  lgFault := h.lgFault
  mill k hk := by
    by_cases hkm : k = m
    · subst hkm
      rw [State.mill_setMill_same]
      exact hx (h.mill k hk)
    · rw [State.mill_setMill_other _ _ _ _ hkm]
      exact h.mill k hk

theorem State.KeepsFaults.record {ch event status ctx source : Nat} {detail : Bytes} :
    s₀.KeepsFaults (s.record ch event status ctx source detail) where
  faulted := by rw [State.record_ledger, h.faulted]
  faultPool := by rw [State.record_ledger, h.faultPool]
  lgFault := by rw [State.reg_record_other _ (lgFault_ne_evChCount ch), h.lgFault]
  mill m hm := by
    rw [State.mill, State.record_mills]
    exact h.mill m hm

theorem State.KeepsFaults.move {p : Nat} {a b : Place} {n : Nat} : s₀.KeepsFaults (s.move p a b n) :=
  ⟨h.faulted, h.faultPool, h.lgFault, h.mill⟩

theorem State.KeepsFaults.millFault {m cause pool : Nat} : s₀.KeepsFaults (s.millFault m cause pool) :=
  .ite h (.record (.setMill h fun _ => rfl))

theorem State.KeepsFaults.ldFail {result cause status : Nat} {sec : Option Nat} {op : Nat} {source : Option Nat} {p : Plan}
    {mask : Nat} : s₀.KeepsFaults (s.ldFail result cause status sec op source p mask) := by
  unfold State.ldFail
  exact .record (.setReg (.upd (.ite h (.upd h))) (by decide))

theorem State.KeepsFaults.discardStaged : s₀.KeepsFaults s.discardStaged :=
  .upd (.upd (List.foldlRecOn _ _ h fun _ h _ _ => .move h))

theorem State.KeepsFaults.targetFault {m : Nat} : s₀.KeepsFaults (s.targetFault m) := .ite (.ldFail (.discardStaged h)) h

theorem State.KeepsFaults.stopStages {l : List Node} : s₀.KeepsFaults (s.stopStages l) :=
  List.foldlRecOn _ _ h fun _ h _ _ => .setMill h id

theorem State.KeepsFaults.stopPipelines {l : List Node} : s₀.KeepsFaults (s.stopPipelines l) := .upd (.stopStages h)

theorem State.KeepsFaults.ledgerRequests {nodes : List Node} : s₀.KeepsFaults (s.ledgerRequests nodes) :=
  List.foldlRecOn _ _ h fun _ h _ _ => .upd h

end

/-! ### The whole of a ledger fault -/

theorem State.ledgerFault_keepsFaults (s : State) (p : Nat) : (s.flagFault p).KeepsFaults (s.ledgerFault p) :=
  .ledgerRequests (.stopPipelines (.ite (.targetFault (.millFault (.refl _))) (.ite (.upd (.refl _)) (.refl _))))

theorem State.millFault_state {s : State} {m : Nat} (h : (s.mill m).state ≠ .evacuated) (cause pool : Nat) :
    ((s.millFault m cause pool).mill m).state = .fault := by
  by_cases hf : (s.mill m).state = .fault
  · simp only [State.millFault, hf, true_or, if_true]
  · simp only [State.millFault, hf, h, or_self, if_false]
    rw [State.mill, State.record_mills]
    exact congrArg Mill.state (State.mill_setMill_same ..)

/-- The fault of a hopper pool's mill stands at the end. -/
theorem State.ledgerFault_mill {s : State} {p : Nat} (hp : p < 128) (h : (s.mill (p / 8)).state ≠ .evacuated) :
    ((s.ledgerFault p).mill (p / 8)).state = .fault := by
  have hstop : ((s.flagFault p).millFault (p / 8) 1 p).KeepsFaults (s.ledgerFault p) := by
    simp only [State.ledgerFault, if_pos (show p < 144 by omega), if_pos hp]
    exact .ledgerRequests (.stopPipelines (.targetFault (.refl _)))
  refine hstop.mill _ (State.millFault_state ?_ ..)
  rwa [State.mill, State.flagFault_mills]

/-- Counts that break R39, of a pool that is not reserved and not in fault, raise its fault. -/
theorem execLedgerFault_of_unbalanced {p h f k r c : Nat} {s : State} (hres : poolReserved p = false)
    (hok : s.poolFault p = false) (hsum : (s.pool p).size ≠ h + f + k + r + c) :
    exec (.ledgerFault p h f k r c) s =
      .next ((s.setPool p { size := (s.pool p).size, held := h, inFlight := f, parked := k, returned := r
                            reclaimed := c }).ledgerFault p) := by
  show execLedgerFault p h f k r c s = _
  simp only [execLedgerFault, Pool.balanced, hsum, hres, hok, decide_false, Bool.false_eq_true, or_self, if_false]

/-- A reserved pool, a pool in fault and balanced counts raise nothing (log entry 24). -/
theorem execLedgerFault_eq_self {p h f k r c : Nat} {s : State}
    (hnone : poolReserved p = true ∨ s.poolFault p = true ∨ (s.pool p).size = h + f + k + r + c) :
    exec (.ledgerFault p h f k r c) s = .next s := by
  show execLedgerFault p h f k r c s = _
  unfold execLedgerFault
  refine if_pos ?_
  rcases hnone with hres | hfault | hsum
  · exact .inr (.inl hres)
  · exact .inr (.inr hfault)
  · exact .inl (decide_eq_true hsum)

/-! ### LG_FAULT_CLEAR -/

theorem State.clearBits_lgFault (s : State) (v : Nat) : s.clearBits Reg.lgFault v 0 =
    { s.setReg Reg.lgFault (s.reg Reg.lgFault &&& ~~~ word v) with
      ledger := { s.ledger with faultPool := if bitN v 0 = true then none else s.ledger.faultPool } } := by
  have hne : Reg.lgFault ≠ Reg.ckEvents := by decide
  have hno : bitN 0 0 = false := by decide
  have hzero : s.reg Reg.lgFault &&& ~~~word v ||| word 0 = s.reg Reg.lgFault &&& ~~~word v := BitVec.or_zero
  by_cases hv : bitN v 0 = true
  · simp only [State.clearBits, hzero, hv, hno, and_self, if_true, State.setReg_ledger]
  · simp only [State.clearBits, hzero, hv, hne, and_false, false_and, if_false, Bool.false_eq_true]
    rfl

/-! ### The snapshot (R42) -/

theorem State.onlyChanges_ledger (s : State) (x : Ledger) : s.onlyChanges { s with ledger := x } [.ledger] := by
  intro p hp
  cases p with
  | ledger => exact absurd (by decide) hp
  | _ => rfl

theorem execLgSnapCtrl_of_busy {s : State} (h : s.ledger.snap.busy = true) (v : Nat) : exec (.lgSnapCtrl v) s =
    .next { s with ledger := { s.ledger with snap := { s.ledger.snap with ignored := true } } } := if_pos h

theorem execLgSnapCtrl_of_idle {s : State} (h : s.ledger.snap.busy = false) (v : Nat) : exec (.lgSnapCtrl v) s =
    .next { s with ledger := { s.ledger with snap := { s.ledger.snap with busy := true, valid := false, ignored := false }
                                             snapReq := v % 512 } } := if_neg (Bool.eq_false_iff.mp h)

theorem execSnapCaptureDone_of_busy {s : State} (h : s.ledger.snap.busy = true) : exec .snapCaptureDone s =
    .next { s with ledger := { s.ledger with snap :=
      { busy := false, valid := true, ignored := s.ledger.snap.ignored, pool := s.ledger.snapReq
        counts := if poolReserved s.ledger.snapReq then {} else s.pool s.ledger.snapReq } } } := if_pos h

/-- Settles O5: the flags are set first, and what stops the owners of the pool keeps them and the fault of a mill. -/
theorem ledgerFaults : Obligations.LedgerFaults := by
  refine ⟨fun p h f k r c s hres hok hsum => ?_, fun p h f k r c s hnone => execLedgerFault_eq_self hnone, fun v s => ?_,
    fun v s hbusy => ⟨_, execLgSnapCtrl_of_busy hbusy v, rfl, rfl⟩,
    fun v s hidle => ⟨_, execLgSnapCtrl_of_idle hidle v, rfl, rfl, rfl, rfl, s.onlyChanges_ledger _⟩,
    fun s hbusy => ⟨_, execSnapCaptureDone_of_busy hbusy, rfl, rfl, rfl, rfl, s.onlyChanges_ledger _⟩⟩
  · refine ⟨_, execLedgerFault_of_unbalanced hres hok hsum, ?_⟩
    generalize hs : s.setPool p _ = s₁
    have hreg : s₁.reg Reg.lgFault = s.reg Reg.lgFault := hs ▸ rfl
    have hpool : s₁.ledger.faultPool = s.ledger.faultPool := hs ▸ rfl
    have hmill : s₁.mill (p / 8) = s.mill (p / 8) := hs ▸ rfl
    obtain ⟨hfaulted, hfaultPool, hlgFault, -⟩ := s₁.ledgerFault_keepsFaults p
    rw [State.poolFault, hfaulted, hfaultPool, hlgFault, ← hreg, ← hpool, ← hmill]
    exact ⟨s₁.flagFault_poolFault p, fun h0 => State.flagFault_first h0 p, fun h1 => State.flagFault_further h1 p,
      State.ledgerFault_mill⟩
  · obtain ⟨x, hx⟩ := s.released_eq (s.clearBits Reg.lgFault v 0)
    refine ⟨_, congrArg Host.Outcome.next hx, ?_⟩
    rw [State.clearBits_lgFault]
    refine ⟨s.reg_setReg_same Reg.lgFault _, fun hv => if_pos hv, rfl, rfl, fun a ha => ?_, fun q hq => ?_⟩
    · exact s.reg_setReg_other _ _ _ (List.ne_of_not_mem_cons ha)
    · cases q with
      | regs => exact absurd (by decide) hq
      | ledger => exact absurd (by decide) hq
      | hp => exact absurd (by decide) hq
      | _ => rfl

end Sys2Proof.Machine
end

section
/-!
PROOF. What an operation may change, as `State.onlyChanges` says it. `State.onlyChanges.f` says of an operation `f` of the model that
the state after it differs from an earlier one in listed parts alone, where the state before it did and the parts that `f` may change
are listed: it names, branch by branch, the operations of which `f` is made. The operations stand under the headings of the model's
files.
-/
namespace Sys2Proof.Machine

/-- A fusion record changes the samples of the fusion units alone. -/
theorem State.fuseRecord_eq {s t : State} {c : FuCfg} {es : List (Int × Nat × Nat)} {v : List Int}
    (h : s.fuseRecord c es v = some t) : ∃ x, t = { s with fus := { s.fus with samples := x } } := by
  unfold State.fuseRecord at h
  extract_lets at h
  split at h
  · rw [← Option.some.inj h]
    refine List.foldlRecOn (motive := fun t : State => ∃ x, t = { s with fus := { s.fus with samples := x } })
      _ _ ⟨s.fus.samples, rfl⟩ ?_
    rintro _ ⟨x, rfl⟩ i -
    exact ⟨_, rfl⟩
  · exact absurd h (Option.some_ne_none t).symm

/-! ### Footprints -/

theorem State.samePart.trans {s t u : State} {p : Part} (h : s.samePart t p) (h' : t.samePart u p) : s.samePart u p := by
  cases p <;> exact Eq.trans h' h

theorem State.onlyChanges.refl (s : State) {ps : List Part} : s.onlyChanges s ps := fun p _ => by cases p <;> rfl

section
variable {s₀ s t : State} {ps : List Part}

/-- What an operation changes lies in what may change in all. -/
theorem State.onlyChanges.then {qs : List Part} (h : s₀.onlyChanges s ps) (h' : s.onlyChanges t qs) (hq : qs ⊆ ps) :
    s₀.onlyChanges t ps :=
  fun p hp => (h p hp).trans (h' p fun hm => hp (hq hm))

theorem State.onlyChanges.mono {qs : List Part} (h : s.onlyChanges t qs) (hq : qs ⊆ ps := by decide) : s.onlyChanges t ps :=
  (State.onlyChanges.refl s).then h hq

theorem State.onlyChanges.ite {c : Prop} [Decidable c] (hs : s₀.onlyChanges s ps) (ht : s₀.onlyChanges t ps) :
    s₀.onlyChanges (if c then s else t) ps := by
  split
  · exact hs
  · exact ht

theorem State.onlyChanges.foldl {α : Type} {f : State → α → State} {l : List α}
    (hf : ∀ s a, s₀.onlyChanges s ps → s₀.onlyChanges (f s a) ps) (h : s₀.onlyChanges s ps) :
    s₀.onlyChanges (l.foldl f s) ps :=
  List.foldlRecOn l f h fun s h a _ => hf s a h

end

section
variable {s₀ s : State} {ps : List Part} (h : s₀.onlyChanges s ps)
include h

/-! ### One part set -/

theorem State.onlyChanges.setReg {a : Nat} {w : Word} (hp : .regs ∈ ps := by decide) : s₀.onlyChanges (s.setReg a w) ps := by
  intro p hn
  cases p with
  | regs => exact absurd hp hn
  | _ => exact h _ hn

theorem State.onlyChanges.setEv {x : Recorder} (hp : .ev ∈ ps := by decide) : s₀.onlyChanges { s with ev := x } ps := by
  intro p hn
  cases p with
  | ev => exact absurd hp hn
  | _ => exact h _ hn

theorem State.onlyChanges.setLedger {x : Ledger} (hp : .ledger ∈ ps := by decide) :
    s₀.onlyChanges { s with ledger := x } ps := by
  intro p hn
  cases p with
  | ledger => exact absurd hp hn
  | _ => exact h _ hn

theorem State.onlyChanges.setLeat {x : Leat} (hp : .leat ∈ ps := by decide) : s₀.onlyChanges { s with leat := x } ps := by
  intro p hn
  cases p with
  | leat => exact absurd hp hn
  | _ => exact h _ hn

theorem State.onlyChanges.setGov {x : Gov} (hp : .gov ∈ ps := by decide) : s₀.onlyChanges { s with gov := x } ps := by
  intro p hn
  cases p with
  | gov => exact absurd hp hn
  | _ => exact h _ hn

theorem State.onlyChanges.setFus {x : Fusion} (hp : .fus ∈ ps := by decide) : s₀.onlyChanges { s with fus := x } ps := by
  intro p hn
  cases p with
  | fus => exact absurd hp hn
  | _ => exact h _ hn

theorem State.onlyChanges.setSol {x : Solver} (hp : .sol ∈ ps := by decide) : s₀.onlyChanges { s with sol := x } ps := by
  intro p hn
  cases p with
  | sol => exact absurd hp hn
  | _ => exact h _ hn

theorem State.onlyChanges.setTm {x : TimeBase} (hp : .tm ∈ ps := by decide) : s₀.onlyChanges { s with tm := x } ps := by
  intro p hn
  cases p with
  | tm => exact absurd hp hn
  | _ => exact h _ hn

/-! ### Machine, Ops and Shared -/

theorem State.onlyChanges.bump {a n : Nat} (hp : .regs ∈ ps := by decide) : s₀.onlyChanges (s.bump a n) ps := .setReg h hp

theorem State.onlyChanges.raise {a mask : Nat} (hp : .regs ∈ ps := by decide) : s₀.onlyChanges (s.raise a mask) ps :=
  .setReg h hp

theorem State.onlyChanges.move {p : Nat} {a b : Place} {n : Nat} (hp : .ledger ∈ ps := by decide) :
    s₀.onlyChanges (s.move p a b n) ps := .setLedger h hp

theorem State.onlyChanges.record {ch event status ctx source : Nat} {detail : Bytes} (hq : [.regs, .ev] ⊆ ps := by decide) :
    s₀.onlyChanges (s.record ch event status ctx source detail) ps :=
  have hbump : s.onlyChanges (s.bump (Reg.evChCount ch) 1) [.regs, .ev] := .bump (.refl s)
  h.then (.ite (.setEv hbump) (.ite (.setEv hbump) (.setEv (.setEv hbump)))) hq

theorem State.onlyChanges.wheelTo {t : Wheel} (hq : [.regs, .ev, .gov] ⊆ ps := by decide) :
    s₀.onlyChanges (s.wheelTo t) ps :=
  h.then (.ite (.refl s) (.record (.raise (.setGov (.refl s))))) hq

theorem State.onlyChanges.setWheel {w : BrakeWheel} (hq : [.regs, .ev, .gov] ⊆ ps := by decide) :
    s₀.onlyChanges (s.setWheel w) ps :=
  h.then (.wheelTo (.setGov (.refl s))) hq

theorem State.onlyChanges.holdCause {c : Nat} {on : Bool} (hq : [.regs, .ev, .gov] ⊆ ps := by decide) :
    s₀.onlyChanges (s.holdCause c on) ps :=
  .setWheel h hq

/-! ### Machine, Fusion -/

theorem State.onlyChanges.desync {stream : Nat} {x : Track} {o : Int} (hq : [.regs, .ev, .fus] ⊆ ps := by decide) :
    s₀.onlyChanges (s.desync stream x o) ps :=
  h.then (.record (.bump (.setFus (.refl s)))) hq

theorem State.onlyChanges.sampleFrame {c : FuCfg} {f : FuFrame} {t : Int} (hp : .fus ∈ ps := by decide) :
    s₀.onlyChanges (s.sampleFrame c f t) ps :=
  .foldl (fun _ _ h => .setFus h hp) h

theorem State.onlyChanges.trackFrame {c : FuCfg} {e : FuSrc} {f : FuFrame} (hq : [.regs, .ev, .fus] ⊆ ps := by decide) :
    s₀.onlyChanges (s.trackFrame c e f) ps := by
  refine h.then ?_ hq
  have hs := State.onlyChanges.refl s (ps := [.regs, .ev, .fus])
  unfold State.trackFrame
  dsimp only
  split
  · exact .ite (.ite (.desync (.bump hs)) (.setFus (.bump hs))) (.ite (.desync hs) (.sampleFrame (.setFus hs)))
  · exact .ite (.ite (.ite (.record (.sampleFrame (.setFus hs))) (.sampleFrame (.setFus hs))) (.setFus hs)) (.setFus hs)

theorem State.onlyChanges.phaseSeen {stream : Nat} {us : Int} (hp : .regs ∈ ps := by decide) :
    s₀.onlyChanges (s.phaseSeen stream us) ps := by
  unfold State.phaseSeen
  extract_lets
  split
  · exact .setReg h hp
  · exact .setReg h hp

theorem State.onlyChanges.fuseFrame {c : FuCfg} {tick : Nat} {f : FuFrame} (hq : [.regs, .ev, .fus] ⊆ ps := by decide) :
    s₀.onlyChanges (s.fuseFrame c tick f) ps := by
  refine h.then ?_ hq
  unfold State.fuseFrame
  extract_lets s₁
  have h₁ : s.onlyChanges s₁ [.regs, .ev, .fus] := .phaseSeen (.refl s)
  split
  · exact .setFus h₁
  · exact .ite (.bump h₁) (.ite h₁ (.trackFrame h₁))

theorem State.onlyChanges.countLate {c : FuCfg} {lo hi : Int} {fs : List FuFrame} (hq : [.regs, .fus] ⊆ ps := by decide) :
    s₀.onlyChanges (s.countLate c lo hi fs) ps :=
  h.then (.foldl (fun _ _ h => .ite (.ite (.setFus h) (.bump (.setFus h))) h) (.refl s)) hq

theorem State.onlyChanges.propagate {c : FuCfg} {ego : Option Nat} {t : Int} (hp : .fus ∈ ps := by decide) :
    s₀.onlyChanges (s.propagate c ego t) ps := by
  unfold State.propagate
  split
  · exact .setFus h hp
  · split
    · exact h
    · extract_lets
      split
      · exact .setFus h hp
      · exact .setFus h hp

theorem State.onlyChanges.runGate {g : FuGate} {i : Nat} {al : List (Option Aligned)} {before : Fusion} {ego : Bool} {t : Int}
    (hq : [.regs, .ev, .fus] ⊆ ps := by decide) : s₀.onlyChanges (s.runGate g i al before ego t) ps := by
  refine h.then ?_ hq
  have hgate (x : Gate) : s.onlyChanges (s.setGate i x) [.regs, .ev, .fus] := .setFus (.refl s)
  unfold State.runGate
  dsimp only
  split
  · refine .ite (.ite (.ite (hgate _) (hgate _)) (hgate _)) (.ite (hgate _) (.ite (hgate _) ?_))
    split
    · exact .record (.setFus (.bump (.refl s)))
    · exact .record (.setFus (.bump (.refl s)))
    · exact .record (.setFus (.bump (.refl s)))
  · exact .refl s

/-! ### Machine, Governor -/

theorem State.onlyChanges.setGq {q : Nat} {x : GovQueue} (hp : .gov ∈ ps := by decide) : s₀.onlyChanges (s.setGq q x) ps :=
  .setGov h hp

theorem State.onlyChanges.freeGovSlot {q : Nat} {p : Parcel} (hq : [.ledger, .leat] ⊆ ps := by decide) :
    s₀.onlyChanges (s.freeGovSlot q p) ps :=
  h.then (.ite (.move (.setLeat (.move (.refl s)))) (.move (.setLeat (.move (.refl s))))) hq

theorem State.onlyChanges.freeRecord {q : Nat} {l : List Parcel} (hq : [.ledger, .leat, .gov] ⊆ ps := by decide) :
    s₀.onlyChanges (s.freeRecord q l) ps :=
  h.then (.foldl (fun _ _ h => .freeGovSlot h) (.setGov (.refl s))) hq

theorem State.onlyChanges.latPeak {cls w cycles : Nat} (hp : .regs ∈ ps := by decide) :
    s₀.onlyChanges (s.latPeak cls w cycles) ps :=
  .ite (.ite h (.setReg h hp)) h

theorem State.onlyChanges.govTake {q kind cycles : Nat} {r : Parcel × State} (hr : s.govTake q kind cycles = some r)
    (hq : [.regs, .ledger, .leat, .gov] ⊆ ps := by decide) : s₀.onlyChanges r.2 ps := by
  unfold State.govTake at hr
  dsimp only at hr
  split at hr
  · exact absurd hr (Option.some_ne_none r).symm
  · split at hr
    · exact absurd hr (Option.some_ne_none r).symm
    · rw [← Option.some.inj hr]
      exact h.then (.setGov (.move (.latPeak (.setLeat (.refl s))))) hq

theorem State.onlyChanges.queueCauses (hq : [.regs, .ev, .gov] ⊆ ps := by decide) : s₀.onlyChanges s.queueCauses ps :=
  .setWheel h hq

theorem State.onlyChanges.applyRecord {c : FuCfg} {q : Nat} {p : Parcel} (hq : [.ledger, .leat, .gov, .fus] ⊆ ps := by decide) :
    s₀.onlyChanges (s.applyRecord c q p) ps := by
  refine h.then ?_ hq
  have hs := State.onlyChanges.refl s (ps := [.ledger, .leat, .gov, .fus])
  unfold State.applyRecord
  dsimp only
  split
  · exact .freeRecord hs
  · next t ht =>
    split at ht
    · obtain ⟨x, rfl⟩ := State.fuseRecord_eq ht
      exact .setGq (.freeRecord (.setFus hs))
    · rw [← Option.some.inj ht]
      exact .setGq (.freeRecord hs)

theorem State.onlyChanges.closeQueue {c : FuCfg} {q : Nat} (hq : [.ledger, .leat, .gov, .fus] ⊆ ps := by decide) :
    s₀.onlyChanges (s.closeQueue c q) ps :=
  have hs := State.onlyChanges.refl s
  h.then (.ite hs (.ite (.setGq hs) (.setGq (.foldl (fun _ _ h => .applyRecord h) (.setGq hs))))) hq

/-! ### Machine, Solver -/

theorem State.onlyChanges.takeGovernor {x : Section} (hq : [.gov, .fus] ⊆ ps := by decide) :
    s₀.onlyChanges (s.takeGovernor x) ps := by
  unfold State.takeGovernor
  extract_lets f
  have hfus : s.onlyChanges { s with fus := f } [.gov, .fus] := .setFus (.refl s)
  exact h.then (.setGov hfus) hq

theorem State.onlyChanges.cycleFails (hq : [.regs, .ev, .gov] ⊆ ps := by decide) : s₀.onlyChanges s.cycleFails ps :=
  h.then (.ite (.holdCause (.setGov (.refl s))) (.setGov (.refl s))) hq

theorem State.onlyChanges.nextLaw (hq : [.regs, .gov] ⊆ ps := by decide) : s₀.onlyChanges s.nextLaw ps :=
  h.then (.setGov (.ite (.bump (.refl s)) (.refl s))) hq

theorem State.onlyChanges.adoptPlan (hq : [.regs, .ledger, .ev, .leat, .gov] ⊆ ps := by decide) :
    s₀.onlyChanges s.adoptPlan ps := by
  refine h.then ?_ hq
  unfold State.adoptPlan
  extract_lets s₁
  have h₁ : s.onlyChanges s₁ [.regs, .ledger, .ev, .leat, .gov] :=
    .foldl (fun _ _ h => .ite h (.foldl (fun _ _ h => .freeRecord h) h)) (.refl s)
  split
  · exact h₁
  · exact .ite (.bump (.setGov h₁)) (.holdCause (.setGov (.setGov h₁)))

end

end Sys2Proof.Machine
end

section
/-!
PROOF. Ticks, acceptance windows, cycle boundaries and the records of the interface queues (O56).

`exec…_answers` says which parts a command may change. The equations `exec…_of_…` give the state that a command answers under the
hypotheses of a clause, and the clauses then follow from what each operation writes of the governor: the lemmas `…_gov` say that of it.
-/
namespace Sys2Proof.Machine

/-! ### Parts -/

theorem State.onlyChanges.reg {s t : State} {ps : List Part} (h : s.onlyChanges t ps) (a : Nat) (hr : .regs ∉ ps := by decide)
    (hs : .sec ∉ ps := by decide) : t.reg a = s.reg a :=
  State.reg_congr (h .regs hr) (h .sec hs) a

theorem State.wheelTo_gov (s : State) (t : Wheel) :
    (s.wheelTo t).gov = { s.gov with wheel := { s.gov.wheel with state := t } } := by
  by_cases h : t = s.gov.wheel.state
  · subst h
    simp only [State.wheelTo, if_true]
  · simp only [State.wheelTo, h, if_false, State.record_gov, State.raise_gov]

theorem State.setWheel_gov (s : State) (w : BrakeWheel) : (s.setWheel w).gov =
    { s.gov with wheel := { w with state := BrakeWheel.target { w with state := s.gov.wheel.state } } } :=
  State.wheelTo_gov _ _

theorem mem_addN (l : List Nat) (n : Nat) : n ∈ addN l n := List.contains_iff_mem.mp (has_addN l n)

theorem not_mem_remN (l : List Nat) (n : Nat) : n ∉ remN l n := by simp [remN]

theorem State.holdCause_gov (s : State) (c : Nat) (on : Bool) :
    ∃ w, (s.holdCause c on).gov = { s.gov with wheel := w } ∧
      w.hold = if on then addN s.gov.wheel.hold c else remN s.gov.wheel.hold c :=
  ⟨_, s.setWheel_gov _, rfl⟩

@[simp] theorem State.gq_setGq_same (s : State) (q : Nat) (x : GovQueue) : (s.setGq q x).gq q = x := by
  simp [State.gq, State.setGq]

theorem State.gq_setGq_other (s : State) (q k : Nat) (x : GovQueue) (h : k ≠ q) : (s.setGq q x).gq k = s.gq k := by
  simp [State.gq, State.setGq, Tbl.getD_set_other _ _ _ _ _ h]

theorem State.gq_congr {s t : State} (h : t.gov.queues = s.gov.queues) (q : Nat) : t.gq q = s.gq q := by
  simp only [State.gq, h]

theorem State.freeRecord_gov (s : State) (q : Nat) (ps : List Parcel) : (s.freeRecord q ps).gov =
    (s.setGq q { s.gq q with slots := (s.gq q).slots.filter (fun x => !ps.contains x) }).gov :=
  State.onlyChanges.foldl (ps := [.ledger, .leat]) (fun _ _ h => .freeGovSlot h) (.refl _) .gov (by decide)

theorem State.fuse_eq (s : State) (tick : Nat) :
    ∃ u ws, s.onlyChanges u [.regs, .ev, .fus] ∧ s.fuse tick = { u with gov := { u.gov with tickFused := ws } } :=
  ⟨_, _, .setFus (.setFus (.foldl (fun _ _ h => .runGate h) (.propagate (.ite (.refl s) (.record (.refl s)))))), rfl⟩

/-! ### Commands -/

/-- The answer is a next state that differs in the listed parts alone. -/
def State.Answers (s : State) (o : Out) (ps : List Part) : Prop := ∃ t, o = .next t ∧ s.onlyChanges t ps

theorem State.Answers.next {s t : State} {ps : List Part} (h : s.onlyChanges t ps) : s.Answers (.next t) ps := ⟨t, rfl, h⟩

theorem State.Answers.ite {s : State} {ps : List Part} {c : Prop} [Decidable c] {a b : Out} (ha : s.Answers a ps)
    (hb : s.Answers b ps) : s.Answers (if c then a else b) ps := by
  split
  · exact ha
  · exact hb

theorem execInnerTick_answers (s : State) : s.Answers (execInnerTick s) [.regs, .ev, .gov, .fus, .tm] := by
  refine .ite (.next (.refl s)) (.ite (.next (.setTm (.refl s))) ?_)
  extract_lets t g s₁
  obtain ⟨u, ws, hu, hfuse⟩ := s₁.fuse_eq t
  rw [hfuse]
  have h₁ : s.onlyChanges s₁ [.regs, .ev, .gov, .fus, .tm] := .setGov (.refl s)
  exact .next (.setTm (.setGov (h₁.then hu (by decide))))

theorem execAcceptanceWindowClose_answers (s : State) :
    s.Answers (execAcceptanceWindowClose s) [.regs, .ledger, .ev, .leat, .gov, .fus] :=
  .ite (.next (.refl s)) (.next (.setGov (.queueCauses (.foldl (fun _ _ h => .closeQueue h)
    (.setFus (.countLate (.foldl (fun _ _ h => .fuseFrame h) (.refl s))))))))

/-- A boundary first takes a waiting GOVERNOR section (R137). -/
def State.atBoundary (s : State) : State :=
  match s.gov.nextSec with
  | some x => s.takeGovernor x
  | none => s

/-- Lanes go on at a boundary (R295). -/
def State.stepLanes (s : State) : State :=
  { s with gov := { s.gov with lanes := s.gov.lanes.map (fun (e : Nat × Lane) => (e.1, e.2.boundary)) } }

/-- The set-point of the cycle that begins (R291, R340). -/
def State.stepLaw (s : State) : State :=
  (if s.sol.stages ≠ [] ∧ s.gov.v3Done = false then s.cycleFails else s).nextLaw

/-- The brake wheel is in a state in which the solver runs. -/
def State.drives (s : State) : Bool :=
  match s.gov.wheel.state with
  | .standby | .sto => false
  | _ => true

/-- The governor as the next cycle begins. -/
def State.nextCycle (s : State) : Gov :=
  let hold : Bool := s.gov.wheel.state = .hold
  { s.gov with
    cycle := if s.gov.wheel.state = .standby then s.gov.cycle else (s.gov.cycle + 1) % 2 ^ 64
    latch := if hold then (if s.gov.latch = [] then s.votedQ else s.gov.latch) else []
    holdTarget := hold, v3Done := false }

/-- The solver as the next cycle begins. -/
def State.nextSolve (s : State) (qp : List QpStage) : Solver :=
  { s.sol with stages := if s.drives then qp.map (normStage (qpCfg s.govBody)) else [], slots := s.measured }

/-- The next cycle begins. -/
def State.startCycle (s : State) (qp : List QpStage) : State := { s with gov := s.nextCycle, sol := s.nextSolve qp }

theorem execCycleBoundary_eq (qp : List QpStage) (s : State) : execCycleBoundary qp s =
    if s.pw.motionOn = false ∨ s.tm.running = false then .next s
    else if s.atBoundary.gov.sec.isNone then .next s.atBoundary.stepLanes
    else .next (s.atBoundary.stepLanes.stepLaw.adoptPlan.startCycle qp) := by
  unfold execCycleBoundary
  refine ite_congr rfl (fun _ => rfl) fun _ => ?_
  extract_lets s₁ _ s₂ _ s₄
  have h₁ : s.atBoundary = s₁ := rfl
  have h₂ : s₁.stepLanes = s₂ := rfl
  have h₄ : s₂.stepLaw.adoptPlan = s₄ := rfl
  rw [h₁, h₂, h₄]
  clear_value s₄
  rfl

section
variable {s₀ s : State} {ps : List Part} (h : s₀.onlyChanges s ps)
include h

theorem State.onlyChanges.atBoundary (hq : [.gov, .fus] ⊆ ps := by decide) : s₀.onlyChanges s.atBoundary ps := by
  unfold State.atBoundary
  split
  · exact .takeGovernor h hq
  · exact h

theorem State.onlyChanges.stepLanes (hp : .gov ∈ ps := by decide) : s₀.onlyChanges s.stepLanes ps := .setGov h hp

theorem State.onlyChanges.stepLaw (hq : [.regs, .ev, .gov] ⊆ ps := by decide) : s₀.onlyChanges s.stepLaw ps :=
  h.then (.nextLaw (.ite (.cycleFails (.refl s)) (.refl s))) hq

theorem State.onlyChanges.startCycle {qp : List QpStage} (hq : [.gov, .sol] ⊆ ps := by decide) :
    s₀.onlyChanges (s.startCycle qp) ps :=
  have hgov : s.onlyChanges { s with gov := s.nextCycle } [.gov, .sol] := .setGov (.refl s)
  h.then (.setSol hgov) hq

end

theorem execCycleBoundary_answers (qp : List QpStage) (s : State) :
    s.Answers (execCycleBoundary qp s) [.regs, .ledger, .ev, .leat, .gov, .fus, .sol] := by
  rw [execCycleBoundary_eq]
  exact .ite (.next (.refl s)) (.ite (.next (.stepLanes (.atBoundary (.refl s))))
    (.next (.startCycle (.adoptPlan (.stepLaw (.stepLanes (.atBoundary (.refl s))))))))

theorem execGovifRecordArrive_answers (q cycles : Nat) (s : State) :
    s.Answers (execGovifRecordArrive q cycles s) [.regs, .ledger, .leat, .gov] := by
  unfold execGovifRecordArrive
  split
  · exact .next (.refl s)
  · next p t ht =>
    have h₁ : s.onlyChanges t [.regs, .ledger, .leat, .gov] := .govTake (.refl s) ht
    exact .ite (.next h₁) (.ite (.next (.freeRecord (.bump h₁))) (.ite (.next h₁) (.next (.freeRecord (.bump h₁)))))

theorem execPlanRecordArrive_answers (q cycles : Nat) (s : State) :
    s.Answers (execPlanRecordArrive q cycles s) [.regs, .ledger, .ev, .leat, .gov] := by
  unfold execPlanRecordArrive
  split
  · exact .next (.refl s)
  · next p t ht =>
    have h₁ : s.onlyChanges t [.regs, .ledger, .ev, .leat, .gov] := .govTake (.refl s) ht
    exact .ite (.next h₁) (.ite (.next (.setGov h₁))
      (.ite (.next (.holdCause (.setGov (.freeRecord (.bump h₁))))) (.next (.freeRecord (.bump h₁)))))

theorem execHoldLastExpiry_answers (q : Nat) (s : State) : s.Answers (execHoldLastExpiry q s) [.regs, .ev, .gov] :=
  .ite (.next (.refl s)) (.next (.queueCauses (.setGq (.refl s))))

theorem execConflictLimitExpiry_answers (s : State) : s.Answers (execConflictLimitExpiry s) [.regs, .ev, .gov, .fus] := by
  unfold execConflictLimitExpiry
  dsimp only
  split
  · exact .next (.refl s)
  · exact .ite (.next (.refl s)) (.next (.holdCause (.setFus (.refl s))))

/-! ### Module time and lanes -/

theorem Tbl.getD_map {α : Type} (t : Tbl α) (f : α → α) (k : Nat) {d : α} (hd : f d = d) :
    Tbl.getD (t.map (fun e => (e.1, f e.2))) k d = f (Tbl.getD t k d) := by
  have hfind : Tbl.find (t.map (fun e => (e.1, f e.2))) k = (Tbl.find t k).map f := by
    induction t with
    | nil => rfl
    | cons e t ih =>
      by_cases he : e.1 = k
      · simp [Tbl.find, he]
      · simp [Tbl.find, he, ih]
  rw [Tbl.getD, Tbl.getD, hfind]
  cases Tbl.find t k with
  | none => exact hd.symm
  | some a => rfl

theorem State.lane_stepLanes (s : State) (l : Nat) : s.stepLanes.lane l = (s.lane l).boundary :=
  Tbl.getD_map s.gov.lanes Lane.boundary l rfl

/-- Module time depends on the copies and on which lanes are in service. -/
theorem State.now_congr {s t : State} (htm : t.tm = s.tm)
    (hl : ∀ l, (t.lane l).state = .inService ↔ (s.lane l).state = .inService) : t.now = s.now := by
  simp only [State.lane] at hl
  simp only [State.now, State.timeUnits, htm, hl]

theorem State.phaseNow_congr {s t : State} (htm : t.tm = s.tm) (hl : t.gov.lanes = s.gov.lanes) : t.phaseNow = s.phaseNow := by
  have hnow : t.now = s.now := State.now_congr htm fun l => by rw [State.lane, State.lane, hl]
  simp only [State.phaseNow, State.armedTick, htm, hnow]

theorem Lane.boundary_inService (x : Lane) : x.boundary.state = .inService ↔ x.state = .inService := by
  unfold Lane.boundary
  split
  · simp [*]
  · split
    · simp [*]
    · rfl

/-! ### The tick -/

theorem execInnerTick_of_running {s : State} (hon : s.pw.motionOn = true) (hrun : s.tm.running = true)
    (hsec : s.gov.sec.isSome = true) (harm : s.armedTick = none) :
    ∃ u, exec .innerTick s = .next (u.passTick s.tickNow) ∧ s.onlyChanges u [.regs, .ev, .gov, .fus] ∧
      u.gov.tick = s.gov.tick + 1 ∧ u.gov.windowClosed = false ∧ u.gov.lanes = s.gov.lanes := by
  show ∃ u, execInnerTick s = _ ∧ _
  have hsec' : s.gov.sec.isNone = false := Option.isNone_eq_false_iff.mpr hsec
  simp only [execInnerTick, hon, hrun, harm, hsec', Option.isSome_none, Bool.true_eq_false, Bool.false_eq_true, or_self, if_false]
  generalize hs₁ : State.mk .. = s₁
  obtain ⟨u, ws, hu, hfuse⟩ := s₁.fuse_eq s.tickNow
  have hgov : u.gov = s₁.gov := hu .gov (by decide)
  have h₁ : s.onlyChanges s₁ [.regs, .ev, .gov, .fus] := hs₁ ▸ .setGov (.refl s)
  refine ⟨_, by rw [hfuse], .setGov (h₁.then hu (by decide)), ?_⟩
  show u.gov.tick = _ ∧ u.gov.windowClosed = _ ∧ u.gov.lanes = _
  rw [hgov, ← hs₁]
  exact ⟨rfl, rfl, rfl⟩

/-! ### The close of a window -/

theorem State.applyRecord_inbox (s : State) (c : FuCfg) (q : Nat) (p : Parcel) :
    (s.applyRecord c q p).fus.inbox = s.fus.inbox := by
  have hfree (t : State) (l : List Parcel) : (t.freeRecord q l).fus = t.fus :=
    (State.onlyChanges.freeRecord (ps := [.ledger, .leat, .gov]) (.refl t)) .fus (by decide)
  unfold State.applyRecord
  dsimp only
  split
  · rw [hfree]
  · next t ht =>
    rw [State.setGq_fus, hfree]
    split at ht
    · obtain ⟨x, rfl⟩ := State.fuseRecord_eq ht
      rfl
    · rw [Option.some.inj ht]

theorem State.closeQueue_inbox (s : State) (c : FuCfg) (q : Nat) : (s.closeQueue c q).fus.inbox = s.fus.inbox := by
  unfold State.closeQueue
  dsimp only
  split
  · rfl
  · split
    · rfl
    · exact List.foldlRecOn (motive := fun t : State => t.fus.inbox = s.fus.inbox) _ _ rfl
        fun t ht p _ => (t.applyRecord_inbox c q p).trans ht

/-- What the close of a window leaves while the supply cause holds (R321): the brake wheel, the sections and the slots, and no
queue that was dropped is taken back. -/
structure State.DropsQueues (s t : State) : Prop where
  wheel : t.gov.wheel = s.gov.wheel
  sec : ∀ q, (t.gq q).sec = (s.gq q).sec
  slots : ∀ q, (t.gq q).slots = (s.gq q).slots
  dropped : ∀ q, (s.gq q).dropped = true → (t.gq q).dropped = true

theorem State.DropsQueues.refl (s : State) : s.DropsQueues s := ⟨rfl, fun _ => rfl, fun _ => rfl, fun _ => id⟩

theorem State.DropsQueues.trans {s t u : State} (h : s.DropsQueues t) (h' : t.DropsQueues u) : s.DropsQueues u :=
  ⟨h'.wheel.trans h.wheel, fun q => (h'.sec q).trans (h.sec q), fun q => (h'.slots q).trans (h.slots q),
    fun q hq => h'.dropped q (h.dropped q hq)⟩

theorem State.DropsQueues.setGq {s : State} {q : Nat} {x : GovQueue} (hsec : x.sec = (s.gq q).sec)
    (hslots : x.slots = (s.gq q).slots) (hdrop : x.dropped = true) : s.DropsQueues (s.setGq q x) where
  wheel := rfl
  sec k := by
    by_cases hk : k = q
    · subst hk
      rwa [State.gq_setGq_same]
    · rw [State.gq_setGq_other _ _ _ _ hk]
  slots k := by
    by_cases hk : k = q
    · subst hk
      rwa [State.gq_setGq_same]
    · rw [State.gq_setGq_other _ _ _ _ hk]
  dropped k h := by
    by_cases hk : k = q
    · subst hk
      rwa [State.gq_setGq_same]
    · rwa [State.gq_setGq_other _ _ _ _ hk]

theorem GovQueue.tickPeriod_kept (x : GovQueue) : x.tickPeriod.sec = x.sec ∧ x.tickPeriod.slots = x.slots := by
  unfold GovQueue.tickPeriod
  split
  · exact ⟨rfl, rfl⟩
  · split
    · exact ⟨rfl, rfl⟩
    · exact ⟨rfl, rfl⟩

section
variable {s : State} (h : s.gov.wheel.supply = true) (c : FuCfg)
include h

theorem State.closeQueue_drops (q : Nat) : s.DropsQueues (s.closeQueue c q) := by
  obtain ⟨hsec, hslots⟩ := (s.gq q).tickPeriod_kept
  simp only [State.closeQueue, h, if_true]
  split
  · exact .refl s
  · exact .setGq hsec hslots rfl

theorem State.closeQueue_dropped {q : Nat} (hsec : (s.gq q).sec.isSome = true) (hkind : (s.gq q).cfg.kind = 1) :
    ((s.closeQueue c q).gq q).dropped = true := by
  have hsec' : (s.gq q).sec.isNone = false := Option.isNone_eq_false_iff.mpr hsec
  simp only [State.closeQueue, h, if_true, hsec', hkind, ne_eq, not_true_eq_false, Bool.false_eq_true, or_self, if_false,
    State.gq_setGq_same]

theorem State.closeQueues_drops (l : List Nat) : s.DropsQueues (l.foldl (fun s q => s.closeQueue c q) s) :=
  List.foldlRecOn _ _ (.refl s) fun _ ht q _ => ht.trans (State.closeQueue_drops (by rw [ht.wheel, h]) c q)

theorem State.closeQueues_dropped {l : List Nat} {q : Nat} (hq : q ∈ l) (hsec : (s.gq q).sec.isSome = true)
    (hkind : (s.gq q).cfg.kind = 1) : ((l.foldl (fun s q => s.closeQueue c q) s).gq q).dropped = true := by
  obtain ⟨before, after, rfl⟩ := List.append_of_mem hq
  rw [List.foldl_append, List.foldl_cons]
  have hbefore := State.closeQueues_drops h c before
  generalize before.foldl _ s = t at hbefore
  have hsupply : t.gov.wheel.supply = true := by rw [hbefore.wheel, h]
  have hround := State.closeQueue_drops hsupply c q
  refine (State.closeQueues_drops (by rw [hround.wheel, hsupply]) c after).dropped q
    (State.closeQueue_dropped hsupply c (by rw [hbefore.sec, hsec]) ?_)
  rw [GovQueue.cfg, hbefore.sec]
  exact hkind

end

/-- The inputs of the tick to come are fixed (R269). -/
def State.closeWindow (s : State) : State := { s with gov := { s.gov with windowClosed := true } }

@[simp] theorem State.closeWindow_fus (s : State) : s.closeWindow.fus = s.fus := rfl

@[simp] theorem State.closeWindow_gq (s : State) (q : Nat) : s.closeWindow.gq q = s.gq q := rfl

/-- The miss_action of some queue acts (R286). -/
def State.queueActs (s : State) (a : Nat) : Bool := s.queuesOn.any (fun q => (s.gq q).acting && (s.gq q).cfg.action = a)

theorem State.queueCauses_gov (s : State) : ∃ w, s.queueCauses.gov = { s.gov with wheel := w } ∧ w.capQueue = s.queueActs 1 ∧
    w.hold = if s.queueActs 2 then addN s.gov.wheel.hold 2 else remN s.gov.wheel.hold 2 :=
  ⟨_, s.setWheel_gov _, rfl, rfl⟩

/-- The frames of a window are taken (R309, R323 step 1). -/
def State.takeFrames (s : State) : State :=
  let t : Int := (s.tickNext : Int)
  let u := (s.fus.inbox.foldl (fun v f => v.fuseFrame s.fuCfg s.tickNext f) s)
  let u := u.countLate s.fuCfg (t - 1000 * (leadUs u.govBody : Int)) (t - 1000 * (guardUs u.govBody : Int)) s.fus.inbox
  { u with fus := { u.fus with inbox := [] } }

/-- The records of a window are taken (R286). -/
def State.takeRecords (s : State) (c : FuCfg) : State :=
  ((List.range 16).foldl (fun v q => v.closeQueue c q) s).queueCauses

theorem State.takeFrames_onlyChanges (s : State) : s.onlyChanges s.takeFrames [.regs, .ev, .fus] :=
  .setFus (.countLate (.foldl (fun _ _ h => .fuseFrame h) (.refl s)))

theorem State.takeRecords_onlyChanges (s : State) (c : FuCfg) :
    s.onlyChanges (s.takeRecords c) [.regs, .ledger, .ev, .leat, .gov, .fus] :=
  .queueCauses (.foldl (fun _ _ h => .closeQueue h) (.refl s))

theorem State.takeRecords_inbox (s : State) (c : FuCfg) : (s.takeRecords c).fus.inbox = s.fus.inbox := by
  rw [State.takeRecords, State.queueCauses, State.setWheel_fus]
  exact List.foldlRecOn (motive := fun t : State => t.fus.inbox = s.fus.inbox) _ _ rfl
    fun t ht q _ => (t.closeQueue_inbox c q).trans ht

theorem State.takeRecords_gq (s : State) (c : FuCfg) (q : Nat) :
    (s.takeRecords c).gq q = ((List.range 16).foldl (fun v q => v.closeQueue c q) s).gq q := by
  obtain ⟨w, hw, -⟩ := State.queueCauses_gov ((List.range 16).foldl (fun v q => v.closeQueue c q) s)
  exact State.gq_congr (by rw [State.takeRecords, hw]) q

theorem execAcceptanceWindowClose_of_open {s : State} (hon : s.pw.motionOn = true) (hrun : s.tm.running = true)
    (hsec : s.gov.sec.isSome = true) (hopen : s.gov.windowClosed = false) : exec .acceptanceWindowClose s =
      .next (s.takeFrames.takeRecords s.fuCfg).closeWindow := by
  have hsec' : s.gov.sec.isNone = false := Option.isNone_eq_false_iff.mpr hsec
  show execAcceptanceWindowClose s = _
  unfold execAcceptanceWindowClose
  rw [if_neg (by simp [hon, hrun, hopen, hsec'])]
  extract_lets _ c _ _ _ _ _ s₃ s₄
  have hframes : s.takeFrames = s₃ := rfl
  have hrecords : s₃.takeRecords c = s₄ := rfl
  rw [hframes, hrecords]
  rfl

/-! ### The plan at a boundary -/

/-- The slots of complete plan records are freed (R288). -/
def State.freePlans (s : State) : State :=
  (List.range 16).foldl (fun s q =>
    let x := s.gq q
    if x.sec.isNone ∨ x.cfg.kind ≠ 0 then s
    else (x.slots.filter (fun p => p.last)).foldl (fun s p => s.freeRecord q ((s.gq q).recordOf p)) s) s

theorem State.freePlans_onlyChanges (s : State) : s.onlyChanges s.freePlans [.ledger, .leat, .gov] :=
  .foldl (fun _ _ h => .ite h (.foldl (fun _ _ h => .freeRecord h) h)) (.refl s)

theorem State.freePlans_gov (s : State) : ∃ qs, s.freePlans.gov = { s.gov with queues := qs } := by
  have hfree (u : State) (q : Nat) (ps : List Parcel) (hu : ∃ qs, u.gov = { s.gov with queues := qs }) :
      ∃ qs, (u.freeRecord q ps).gov = { s.gov with queues := qs } := by
    obtain ⟨qs, hqs⟩ := hu
    exact ⟨_, by rw [u.freeRecord_gov q ps, State.setGq, hqs]⟩
  refine List.foldlRecOn (motive := fun u : State => ∃ qs, u.gov = { s.gov with queues := qs }) _ _ ⟨s.gov.queues, rfl⟩ ?_
  intro u hu q _
  dsimp only
  split
  · exact hu
  · exact List.foldlRecOn (motive := fun u : State => ∃ qs, u.gov = { s.gov with queues := qs }) _ _ hu
      fun v hv p _ => hfree v q _ hv

theorem State.adoptPlan_of_none {s : State} (h : s.gov.newPlan = none) : s.adoptPlan = s.freePlans := by
  obtain ⟨qs, hqs⟩ := s.freePlans_gov
  have hnew : s.freePlans.gov.newPlan = none := by rw [hqs, ← h]
  unfold State.adoptPlan
  extract_lets u
  have hu : s.freePlans = u := rfl
  rw [← hu, hnew]

theorem State.freePlans_now (s : State) : s.freePlans.now = s.now := by
  obtain ⟨qs, hqs⟩ := s.freePlans_gov
  exact State.now_congr (s.freePlans_onlyChanges .tm (by decide)) fun l => by rw [State.lane, State.lane, hqs]

theorem State.adoptPlan_of_some {s : State} {p : CurPlan} (h : s.gov.newPlan = some p) : s.adoptPlan =
    if p.lastNs < s.now then ({ s.freePlans with gov := { s.freePlans.gov with newPlan := none } } : State).bump Reg.gvPlanSkip 1
    else ({ s.freePlans with gov := { s.freePlans.gov with newPlan := none, plan := some p } } : State).holdCause 0 false := by
  obtain ⟨qs, hqs⟩ := s.freePlans_gov
  have hnew : s.freePlans.gov.newPlan = some p := by rw [hqs, ← h]
  rw [← s.freePlans_now]
  unfold State.adoptPlan
  generalize hu : s.freePlans = u at *
  unfold State.freePlans at hu
  rw [hu]
  simp only [hnew]
  rfl

/-- Of the governor, the adoption of a plan changes the queues, the brake wheel and the plans. -/
theorem State.adoptPlan_gov (s : State) :
    ∃ queues wheel plan, s.adoptPlan.gov = { s.gov with queues, wheel, plan, newPlan := none } := by
  obtain ⟨qs, hqs⟩ := s.freePlans_gov
  cases h : s.gov.newPlan with
  | none => exact ⟨qs, s.gov.wheel, s.gov.plan, by rw [State.adoptPlan_of_none h, hqs, ← h]⟩
  | some p =>
    rw [State.adoptPlan_of_some h]
    split
    · exact ⟨qs, s.gov.wheel, s.gov.plan, by rw [State.bump_gov, hqs]⟩
    · obtain ⟨w, hw, -⟩ := State.holdCause_gov
        { s.freePlans with gov := { s.freePlans.gov with newPlan := none, plan := some p } } 0 false
      exact ⟨qs, w, some p, by rw [hw, hqs]⟩

/-! ### The set-point at a boundary -/

theorem State.cycleFails_gov (s : State) :
    ∃ failRun nextSet wheel, s.cycleFails.gov = { s.gov with failRun, nextSet, wheel, okRun := 0 } := by
  unfold State.cycleFails
  extract_lets n _ s₁
  split
  · obtain ⟨w, hw, -⟩ := s₁.holdCause_gov 1 true
    exact ⟨_, _, w, hw⟩
  · exact ⟨_, _, s.gov.wheel, rfl⟩

theorem State.nextLaw_gov (s : State) : ∃ setPoint fallbackStep frozenTau,
    s.nextLaw.gov = { s.gov with setPoint, fallbackStep, frozenTau, nextSet := none } ∧
    (s.gov.wheel.state ≠ .hold → setPoint = s.gov.nextSet) := by
  unfold State.nextLaw
  extract_lets j hold on s₁
  have hregs : ∃ x, s₁ = { s with regs := x } := by
    unfold s₁
    split
    · exact ⟨_, rfl⟩
    · exact ⟨s.regs, rfl⟩
  clear_value s₁
  obtain ⟨x, rfl⟩ := hregs
  exact ⟨_, _, _, rfl, fun h => if_neg fun hc => h (of_decide_eq_true hc.1)⟩

/-- What the set-point of the next cycle leaves of the governor. -/
theorem State.stepLaw_kept (s : State) : s.stepLaw.gov.lanes = s.gov.lanes ∧ s.stepLaw.gov.sec = s.gov.sec ∧
    s.stepLaw.gov.nextSec = s.gov.nextSec ∧ s.stepLaw.gov.newPlan = s.gov.newPlan ∧ s.stepLaw.gov.plan = s.gov.plan := by
  unfold State.stepLaw
  split
  · obtain ⟨_, _, _, hfails⟩ := s.cycleFails_gov
    obtain ⟨_, _, _, hlaw, -⟩ := s.cycleFails.nextLaw_gov
    rw [hlaw, hfails]
    exact ⟨rfl, rfl, rfl, rfl, rfl⟩
  · obtain ⟨_, _, _, hlaw, -⟩ := s.nextLaw_gov
    rw [hlaw]
    exact ⟨rfl, rfl, rfl, rfl, rfl⟩

/-! ### The count of skipped plans -/

/-- A register that no event of the brake wheel touches. -/
theorem State.reg_wheelTo_other (s : State) (t : Wheel) {a : Nat} (hev : a ≠ Reg.gvEvents) (hch : a ≠ Reg.evChCount 62) :
    (s.wheelTo t).reg a = s.reg a := by
  unfold State.wheelTo
  extract_lets
  split
  · rfl
  · rw [State.reg_record_other _ hch, State.reg_raise_other _ _ _ _ hev]
    rfl

theorem State.stepLaw_gvPlanSkip (s : State) : s.stepLaw.reg Reg.gvPlanSkip = s.reg Reg.gvPlanSkip := by
  have hlaw (u : State) : u.nextLaw.reg Reg.gvPlanSkip = u.reg Reg.gvPlanSkip := by
    unfold State.nextLaw
    extract_lets j hold on u₁
    show u₁.reg Reg.gvPlanSkip = _
    unfold u₁
    split
    · exact State.reg_bump_other _ _ _ _ (by decide)
    · rfl
  have hfails : s.cycleFails.reg Reg.gvPlanSkip = s.reg Reg.gvPlanSkip := by
    unfold State.cycleFails
    extract_lets
    split
    · exact State.reg_wheelTo_other _ _ (by decide) (by decide)
    · rfl
  rw [State.stepLaw, hlaw]
  split
  · exact hfails
  · rfl

/-! ### CYCLE_BOUNDARY -/

theorem execCycleBoundary_of_running {s : State} (hon : s.pw.motionOn = true) (hrun : s.tm.running = true)
    (hsec : s.atBoundary.gov.sec.isSome = true) (qp : List QpStage) :
    exec (.cycleBoundary qp) s = .next (s.atBoundary.stepLanes.stepLaw.adoptPlan.startCycle qp) := by
  have hsec' : s.atBoundary.gov.sec.isNone = false := Option.isNone_eq_false_iff.mpr hsec
  show execCycleBoundary qp s = _
  rw [execCycleBoundary_eq, if_neg (by simp [hon, hrun]), if_neg (by simp [hsec'])]

theorem State.atBoundary_of_none {s : State} (h : s.gov.nextSec = none) : s.atBoundary = s := by
  rw [State.atBoundary, h]

theorem State.atBoundary_of_some {s : State} {x : Section} (h : s.gov.nextSec = some x) : s.atBoundary = s.takeGovernor x := by
  rw [State.atBoundary, h]

section
variable (s : State) (qp : List QpStage)

@[simp] theorem State.startCycle_lane (l : Nat) : (s.startCycle qp).lane l = s.lane l := rfl
@[simp] theorem State.startCycle_sec : (s.startCycle qp).gov.sec = s.gov.sec := rfl
@[simp] theorem State.startCycle_nextSec : (s.startCycle qp).gov.nextSec = s.gov.nextSec := rfl
@[simp] theorem State.startCycle_newPlan : (s.startCycle qp).gov.newPlan = s.gov.newPlan := rfl
@[simp] theorem State.startCycle_plan : (s.startCycle qp).gov.plan = s.gov.plan := rfl
@[simp] theorem State.startCycle_wheel : (s.startCycle qp).gov.wheel = s.gov.wheel := rfl
@[simp] theorem State.startCycle_regN (a : Nat) : (s.startCycle qp).regN a = s.regN a := rfl

end

/-- The lanes, the sections and the waiting plan as the next cycle begins. -/
theorem State.boundary_kept (s : State) (l : Nat) : s.stepLanes.stepLaw.adoptPlan.lane l = (s.lane l).boundary ∧
    s.stepLanes.stepLaw.adoptPlan.gov.sec = s.gov.sec ∧ s.stepLanes.stepLaw.adoptPlan.gov.nextSec = s.gov.nextSec ∧
    s.stepLanes.stepLaw.adoptPlan.gov.newPlan = none := by
  obtain ⟨_, _, _, hadopt⟩ := s.stepLanes.stepLaw.adoptPlan_gov
  obtain ⟨hlanes, hsec, hnext, -⟩ := s.stepLanes.stepLaw_kept
  rw [State.lane, hadopt, ← s.lane_stepLanes l]
  exact ⟨congrArg (Tbl.getD · l {}) hlanes, hsec, hnext, rfl⟩

theorem State.lane_takeGovernor (s : State) (x : Section) {l : Nat} (h : (s.lane l).state = .reloading) :
    (s.takeGovernor x).lane l = { s.lane l with copied := false, copyStart := s.now } := by
  have hmap := Tbl.getD_map s.gov.lanes
    (fun e => if e.state = LaneState.reloading then { e with copied := false, copyStart := s.now } else e) l (d := {}) rfl
  exact hmap.trans (if_pos h)

/-! ### A parcel of a record -/

/-- The head parcel of queue q's link, put into a slot. -/
def State.govTaken (s : State) (q cycles : Nat) (p : Parcel) (rest : List Parcel) : State :=
  ((({ s with leat := { s.leat with arrived := Tbl.set s.leat.arrived (govDest q) rest } } : State).latPeak p.cls p.weir
    cycles).move (448 + q) .inFlight .held 1).setGq q { s.gq q with slots := (s.gq q).slots ++ [p] }

/-- The parcels of the record that parcel p ends. -/
def State.recordWith (s : State) (q : Nat) (p : Parcel) : List Parcel :=
  ({ s.gq q with slots := (s.gq q).slots ++ [p] } : GovQueue).recordOf p

/-- The blocks that R80 rejects of the record that parcel p ends. -/
def State.badWith (s : State) (q : Nat) (p : Parcel) : Nat := badBlocks (s.gq q).cfg.tagLimit (s.recordWith q p)

/-- The record that parcel p ends is rejected: its blocks are counted and its slots freed. -/
def State.govRejected (s : State) (q cycles : Nat) (p : Parcel) (rest : List Parcel) : State :=
  ((s.govTaken q cycles p rest).bump (Reg.gvTagReject q) (s.badWith q p)).freeRecord q (s.recordWith q p)

theorem State.govTaken_onlyChanges (s : State) (q cycles : Nat) (p : Parcel) (rest : List Parcel) :
    s.onlyChanges (s.govTaken q cycles p rest) [.regs, .ledger, .leat, .gov] :=
  .setGq (.move (.latPeak (.setLeat (.refl s))))

theorem State.govRejected_onlyChanges (s : State) (q cycles : Nat) (p : Parcel) (rest : List Parcel) :
    s.onlyChanges (s.govRejected q cycles p rest) [.regs, .ledger, .leat, .gov] :=
  .freeRecord (.bump (s.govTaken_onlyChanges q cycles p rest))

/-- What precedes the slot leaves the governor and the link as they are. -/
theorem State.latPeak_onlyChanges (s : State) (cls w cycles : Nat) : s.onlyChanges (s.latPeak cls w cycles) [.regs] :=
  .latPeak (.refl s)

theorem State.govTaken_gov (s : State) (q cycles : Nat) (p : Parcel) (rest : List Parcel) :
    (s.govTaken q cycles p rest).gov = (s.setGq q { s.gq q with slots := (s.gq q).slots ++ [p] }).gov := by
  rw [State.govTaken, State.setGq, State.setGq, State.move_gov, State.latPeak_onlyChanges _ _ _ _ .gov (by decide)]

theorem State.govTaken_gq (s : State) (q cycles : Nat) (p : Parcel) (rest : List Parcel) :
    (s.govTaken q cycles p rest).gq q = { s.gq q with slots := (s.gq q).slots ++ [p] } :=
  State.gq_setGq_same ..

theorem State.govTaken_arrived (s : State) (q cycles : Nat) (p : Parcel) (rest : List Parcel) :
    Tbl.getD (s.govTaken q cycles p rest).leat.arrived (govDest q) [] = rest := by
  rw [State.govTaken, State.setGq_leat, State.move_leat, State.latPeak_onlyChanges _ _ _ _ .leat (by decide)]
  exact Tbl.getD_set_same ..

theorem State.govTaken_reg (s : State) (q cycles : Nat) (p : Parcel) (rest : List Parcel) {a : Nat} (ha : a ≠ Reg.ltMLatPeak) :
    (s.govTaken q cycles p rest).reg a = s.reg a := by
  show State.reg (State.latPeak { s with leat := _ } p.cls p.weir cycles) a = _
  unfold State.latPeak
  dsimp only
  split
  · split
    · rfl
    · exact State.reg_setReg_other _ _ _ _ ha
  · rfl

theorem gvTagReject_ne_ltMLatPeak {q : Nat} : Reg.gvTagReject q ≠ Reg.ltMLatPeak := by
  unfold Reg.gvTagReject Reg.ltMLatPeak
  omega

theorem State.govRejected_gov (s : State) (q cycles : Nat) (p : Parcel) (rest : List Parcel) :
    ∃ qs, (s.govRejected q cycles p rest).gov = { s.gov with queues := qs } :=
  ⟨_, by rw [State.govRejected, State.freeRecord_gov, State.setGq, State.bump_gov, State.govTaken_gov, State.setGq]⟩

/-- The slots that a rejected record leaves are those of other records. -/
theorem GovQueue.filter_recordOf (x : GovQueue) (p : Parcel) :
    x.slots.filter (fun y => !(x.recordOf p).contains y) = x.slots.filter (fun y => !sameRecord p y) := by
  refine List.filter_congr fun y hy => ?_
  simp [GovQueue.recordOf, hy]

theorem sameRecord_self (p : Parcel) : sameRecord p p = true := by simp [sameRecord]

theorem State.govRejected_slots (s : State) (q cycles : Nat) (p : Parcel) (rest : List Parcel) :
    ((s.govRejected q cycles p rest).gq q).slots = (s.gq q).slots.filter (fun x => !sameRecord p x) := by
  have hq : (s.govRejected q cycles p rest).gq q = _ := State.gq_congr (congrArg Gov.queues (State.freeRecord_gov ..)) q
  have htaken : ((s.govTaken q cycles p rest).bump (Reg.gvTagReject q) (s.badWith q p)).gq q =
    { s.gq q with slots := (s.gq q).slots ++ [p] } := s.govTaken_gq q cycles p rest
  rw [hq, State.gq_setGq_same, htaken]
  refine (GovQueue.filter_recordOf _ p).trans ?_
  simp [List.filter_append, sameRecord_self]

theorem State.govRejected_count (s : State) (q cycles : Nat) (p : Parcel) (rest : List Parcel) :
    (s.govRejected q cycles p rest).regN (Reg.gvTagReject q) =
      min (s.regN (Reg.gvTagReject q) + s.badWith q p) 0xFFFFFFFF := by
  have hfree (t : State) (l : List Parcel) : (t.freeRecord q l).reg (Reg.gvTagReject q) = t.reg (Reg.gvTagReject q) :=
    (State.onlyChanges.freeRecord (ps := [.ledger, .leat, .gov]) (.refl t)).reg _
  rw [State.regN, State.govRejected, hfree]
  refine (State.regN_bump_same ..).trans ?_
  rw [State.regN, State.govTaken_reg _ _ _ _ _ gvTagReject_ne_ltMLatPeak, State.regN]

section
variable {s : State} {q cycles kind : Nat} {p : Parcel} {rest : List Parcel} (hq : q < 16) (hsec : (s.gq q).sec.isSome = true)
  (harr : Tbl.getD s.leat.arrived (govDest q) [] = p :: rest) (hcls : p.cls = 0)
include hq hsec harr hcls

theorem State.govTake_eq_some (hkind : (s.gq q).cfg.kind = kind) :
    s.govTake q kind cycles = some (p, s.govTaken q cycles p rest) := by
  have hsec' : (s.gq q).sec.isNone = false := Option.isNone_eq_false_iff.mpr hsec
  have hno : ¬(16 ≤ q ∨ (s.gq q).sec.isNone = true ∨ (s.gq q).cfg.kind ≠ kind ∨ p.cls ≠ 0) := by
    simp [hq, hsec', hkind, hcls]
  simp only [State.govTake, harr, if_neg hno]
  rfl

theorem execGovifRecordArrive_of_more (hkind : (s.gq q).cfg.kind = 1) (hlast : p.last = false) :
    exec (.govifRecordArrive q cycles) s = .next (s.govTaken q cycles p rest) := by
  show execGovifRecordArrive q cycles s = _
  simp only [execGovifRecordArrive, State.govTake_eq_some hq hsec harr hcls hkind, hlast, if_true]

theorem execGovifRecordArrive_of_bad (hkind : (s.gq q).cfg.kind = 1) (hlast : p.last = true) (hbad : s.badWith q p ≠ 0) :
    exec (.govifRecordArrive q cycles) s = .next (s.govRejected q cycles p rest) := by
  show execGovifRecordArrive q cycles s = _
  simp only [execGovifRecordArrive, State.govTake_eq_some hq hsec harr hcls hkind, hlast, State.govTaken_gq, Bool.true_eq_false,
    if_false]
  exact if_pos hbad

theorem execPlanRecordArrive_of_plan (hkind : (s.gq q).cfg.kind = 0) (hlast : p.last = true) (hbad : s.badWith q p = 0)
    (hstatus : leAt (recordBytes (s.recordWith q p)) 0 1 = 0) : exec (.planRecordArrive q cycles) s =
      .next { s.govTaken q cycles p rest with
              gov := { (s.govTaken q cycles p rest).gov with newPlan := some (planOf (recordBytes (s.recordWith q p))) } } := by
  show execPlanRecordArrive q cycles s = _
  simp only [execPlanRecordArrive, State.govTake_eq_some hq hsec harr hcls hkind, hlast, State.govTaken_gq, Bool.true_eq_false,
    if_false]
  exact if_pos ⟨hbad, hstatus⟩

end

/-- The record's bolter is that of the current plan. -/
def State.plansFor (s : State) (rec : Bytes) : Bool :=
  match s.gov.plan with
  | some c => c.bolter = leAt rec 2 1
  | none => false

section
variable {s : State} {q cycles kind : Nat} {p : Parcel} {rest : List Parcel} (hq : q < 16) (hsec : (s.gq q).sec.isSome = true)
  (harr : Tbl.getD s.leat.arrived (govDest q) [] = p :: rest) (hcls : p.cls = 0)
include hq hsec harr hcls

theorem execPlanRecordArrive_of_rejected (hkind : (s.gq q).cfg.kind = 0) (hlast : p.last = true)
    (hbad : ¬(s.badWith q p = 0 ∧ leAt (recordBytes (s.recordWith q p)) 0 1 = 0)) : exec (.planRecordArrive q cycles) s =
      if watchNotice (s.gq q).cfg.tagLimit (recordBytes (s.recordWith q p)) (s.recordWith q p) = true ∧
        s.plansFor (recordBytes (s.recordWith q p)) = true
      then .next (({ s.govRejected q cycles p rest with gov := { (s.govRejected q cycles p rest).gov with plan := none } } :
        State).holdCause 0 true)
      else .next (s.govRejected q cycles p rest) := by
  obtain ⟨qs, hqs⟩ := s.govRejected_gov q cycles p rest
  have hplan : s.plansFor = (s.govRejected q cycles p rest).plansFor := by
    unfold State.plansFor
    rw [hqs]
  rw [hplan]
  show execPlanRecordArrive q cycles s = _
  simp only [execPlanRecordArrive, State.govTake_eq_some hq hsec harr hcls hkind, hlast, State.govTaken_gq, Bool.true_eq_false,
    if_false]
  exact if_neg hbad

end

/-! ### Limits -/

theorem execHoldLastExpiry_of_missed {s : State} {q : Nat} (hq : q < 16) (hsec : (s.gq q).sec.isSome = true)
    (hkind : (s.gq q).cfg.kind = 1) (hsupply : s.gov.wheel.supply = false) (hact : (s.gq q).acting = false)
    (hmiss : (s.gq q).cfg.holdLast < (s.gq q).missCount) : exec (.holdLastExpiry q) s =
      .next ((s.setGq q { s.gq q with dropped := true, acting := true }).queueCauses) := by
  have hsec' : (s.gq q).sec.isNone = false := Option.isNone_eq_false_iff.mpr hsec
  exact if_neg (by simp [hq, hsec', hkind, hsupply, hact, hmiss])

/-- The miss_action of a queue with a section, once it acts. -/
theorem State.queueActs_of_acting {s : State} {q : Nat} (hq : q < 16) (hsec : (s.gq q).sec.isSome = true)
    (hact : (s.gq q).acting = true) : s.queueActs (s.gq q).cfg.action = true := by
  refine List.any_eq_true.mpr ⟨q, ?_, by simp [hact]⟩
  simp [State.queuesOn, hq, hsec]

theorem foldl_min_le {x y : Int} {xs : List Int} (h : y ∈ x :: xs) : xs.foldl min x ≤ y :=
  (List.min?_eq_some_iff.mp (List.min?_cons' (x := x) (xs := xs))).2 y h

theorem execConflictLimitExpiry_of_due {s : State} {g : Nat} {e : Gate} {since : Int} (hgate : (g, e) ∈ s.fus.gates)
    (hsince : e.since = some since) (hsec : s.gov.sec.isSome = true)
    (hdue : since + 1000000 * (s.fuCfg.limitMs : Int) ≤ (s.now : Int)) : ∃ ms, exec .conflictLimitExpiry s =
      .next (({ s with fus := { s.fus with usable := false, conflictMs := ms } } : State).holdCause 5 true) := by
  have hsec' : s.gov.sec.isNone = false := Option.isNone_eq_false_iff.mpr hsec
  have hmem : since ∈ s.fus.gates.filterMap (fun (e : Nat × Gate) => e.2.since) :=
    List.mem_filterMap.mpr ⟨(g, e), hgate, hsince⟩
  show ∃ ms, execConflictLimitExpiry s = _
  unfold execConflictLimitExpiry
  dsimp only
  split
  · next hnil => exact absurd hmem (by simp [hnil])
  · next x xs hcons =>
    have hmin := foldl_min_le (hcons ▸ hmem)
    refine ⟨_, if_neg ?_⟩
    rintro (hnone | hshort)
    · exact absurd (hsec'.symm.trans hnone) Bool.false_ne_true
    · omega

/-! ### The clauses of O56 -/

theorem innerTick_numbers {s : State} (hon : s.pw.motionOn = true) (hrun : s.tm.running = true)
    (hsec : s.gov.sec.isSome = true) (harm : s.armedTick = none) : Does .innerTick s fun t =>
      t.gov.tick = s.gov.tick + 1 ∧ t.gov.windowClosed = false ∧ t.tm.phase = s.phaseNow ∧ t.tm.newPhase = none ∧
      t.tm.armed = s.tm.newPhase.map (fun v => (v, s.tickNow + 250000)) ∧
      t.tm.copies = s.tm.copies ∧ s.onlyChanges t [.ev, .fus, .gov, .regs, .tm] := by
  obtain ⟨u, hexec, hu, htick, hopen, hlanes⟩ := execInnerTick_of_running hon hrun hsec harm
  have htm : u.tm = s.tm := hu .tm (by decide)
  refine ⟨_, hexec, htick, hopen, State.phaseNow_congr htm hlanes, rfl, ?_, ?_, .setTm hu.mono⟩
  · rw [State.passTick, htm]
  · rw [State.passTick, htm]

theorem acceptanceWindowClose_fixes {s : State} (hon : s.pw.motionOn = true) (hrun : s.tm.running = true)
    (hsec : s.gov.sec.isSome = true) (hopen : s.gov.windowClosed = false) : Does .acceptanceWindowClose s fun t =>
      t.gov.windowClosed = true ∧ t.fus.inbox = [] ∧
      (∀ q, q < 16 → s.gov.wheel.supply = true → (s.gq q).sec.isSome = true → (s.gq q).cfg.kind = 1 →
        (t.gq q).dropped = true ∧ (t.gq q).slots = (s.gq q).slots) ∧
      s.onlyChanges t [.ev, .fus, .gov, .leat, .ledger, .regs] := by
  have hframes := s.takeFrames_onlyChanges
  have hgov : s.takeFrames.gov = s.gov := hframes .gov (by decide)
  have hinbox : s.takeFrames.fus.inbox = [] := rfl
  have hexec := execAcceptanceWindowClose_of_open hon hrun hsec hopen
  generalize s.takeFrames = u at hframes hgov hinbox hexec
  have hgq (q : Nat) : u.gq q = s.gq q := State.gq_congr (congrArg Gov.queues hgov) q
  refine ⟨_, hexec, rfl, ?_, fun q hq hsup hs hk => ?_,
    .setGov (hframes.mono.then (u.takeRecords_onlyChanges s.fuCfg) (by decide))⟩
  · rw [State.closeWindow_fus, State.takeRecords_inbox, hinbox]
  · rw [← hgov] at hsup
    rw [← hgq] at hs hk ⊢
    rw [State.closeWindow_gq, State.takeRecords_gq]
    exact ⟨State.closeQueues_dropped hsup _ (List.mem_range.mpr hq) hs hk, (State.closeQueues_drops hsup _ _).slots q⟩

theorem cycleBoundary_takesSection (qp : List QpStage) {x : Section} {s : State} (hon : s.pw.motionOn = true)
    (hrun : s.tm.running = true) (hnext : s.gov.nextSec = some x) : Does (.cycleBoundary qp) s fun t =>
      t.gov.sec = some x ∧ t.gov.nextSec = none ∧
      (∀ l, (s.lane l).state = .reloading →
        (t.lane l).state = .reloading ∧ (t.lane l).copied = false ∧ (t.lane l).copyStart = s.now) ∧
      s.onlyChanges t [.ev, .fus, .gov, .leat, .ledger, .regs, .sol] := by
  have hexec := execCycleBoundary_of_running hon hrun (by rw [State.atBoundary_of_some hnext]; rfl) qp
  rw [State.atBoundary_of_some hnext] at hexec
  obtain ⟨-, hsec, hnone, -⟩ := (s.takeGovernor x).boundary_kept 0
  refine ⟨_, hexec, (State.startCycle_sec ..).trans hsec, (State.startCycle_nextSec ..).trans hnone, fun l hl => ?_,
    .startCycle (.adoptPlan (.stepLaw (.stepLanes (.takeGovernor (.refl s)))))⟩
  obtain ⟨hlane, -⟩ := (s.takeGovernor x).boundary_kept l
  rw [State.startCycle_lane, hlane, State.lane_takeGovernor s x hl]
  simp [Lane.boundary, hl]

theorem govifRecordArrive_takesSlot {q : Nat} (cycles : Nat) {p : Parcel} {rest : List Parcel} {s : State} (hq : q < 16)
    (hsec : (s.gq q).sec.isSome = true) (hkind : (s.gq q).cfg.kind = 1)
    (harr : Tbl.getD s.leat.arrived (govDest q) [] = p :: rest) (hcls : p.cls = 0) (hlast : p.last = false) :
    Does (.govifRecordArrive q cycles) s fun t =>
      (t.gq q).slots = (s.gq q).slots ++ [p] ∧ Tbl.getD t.leat.arrived (govDest q) [] = rest ∧
      s.onlyChanges t [.gov, .leat, .ledger, .regs] :=
  ⟨_, execGovifRecordArrive_of_more hq hsec harr hcls hkind hlast, congrArg GovQueue.slots (State.govTaken_gq ..),
    State.govTaken_arrived .., (s.govTaken_onlyChanges q cycles p rest).mono⟩

theorem planRecordArrive_waits {q : Nat} (cycles : Nat) {p : Parcel} {rest : List Parcel} {s : State} (hq : q < 16)
    (hsec : (s.gq q).sec.isSome = true) (hkind : (s.gq q).cfg.kind = 0)
    (harr : Tbl.getD s.leat.arrived (govDest q) [] = p :: rest) (hcls : p.cls = 0) (hlast : p.last = true)
    (hbad : s.badWith q p = 0) (hstatus : leAt (recordBytes (s.recordWith q p)) 0 1 = 0) :
    Does (.planRecordArrive q cycles) s fun t =>
      t.gov.newPlan = some (planOf (recordBytes (s.recordWith q p))) ∧ t.gov.plan = s.gov.plan ∧
      (t.gq q).slots = (s.gq q).slots ++ [p] ∧ s.onlyChanges t [.gov, .leat, .ledger, .regs] := by
  have hplan : (s.govTaken q cycles p rest).gov.plan = s.gov.plan := by
    rw [State.govTaken_gov]
    rfl
  exact ⟨_, execPlanRecordArrive_of_plan hq hsec harr hcls hkind hlast hbad hstatus, rfl, hplan,
    congrArg GovQueue.slots (State.govTaken_gq s q cycles p rest), .setGov (s.govTaken_onlyChanges q cycles p rest).mono⟩

theorem planRecordArrive_rejects {q : Nat} (cycles : Nat) {p : Parcel} {rest : List Parcel} {s : State} (hq : q < 16)
    (hsec : (s.gq q).sec.isSome = true) (hkind : (s.gq q).cfg.kind = 0)
    (harr : Tbl.getD s.leat.arrived (govDest q) [] = p :: rest) (hcls : p.cls = 0) (hlast : p.last = true)
    (hbad : s.badWith q p ≠ 0)
    (hwatch : watchNotice (s.gq q).cfg.tagLimit (recordBytes (s.recordWith q p)) (s.recordWith q p) = false) :
    Does (.planRecordArrive q cycles) s fun t =>
      t.gov.plan = s.gov.plan ∧ t.gov.newPlan = s.gov.newPlan ∧
      t.regN (Reg.gvTagReject q) = min (s.regN (Reg.gvTagReject q) + s.badWith q p) 0xFFFFFFFF ∧
      (t.gq q).slots = (s.gq q).slots.filter (fun x => !sameRecord p x) ∧ s.onlyChanges t [.gov, .leat, .ledger, .regs] := by
  obtain ⟨qs, hqs⟩ := s.govRejected_gov q cycles p rest
  have hexec := execPlanRecordArrive_of_rejected (cycles := cycles) hq hsec harr hcls hkind hlast fun h => hbad h.1
  rw [if_neg (by simp [hwatch])] at hexec
  refine ⟨_, hexec, ?_, ?_, s.govRejected_count .., s.govRejected_slots .., (s.govRejected_onlyChanges q cycles p rest).mono⟩
  · rw [hqs]
  · rw [hqs]

theorem planRecordArrive_withdraws {q : Nat} (cycles : Nat) {p : Parcel} {rest : List Parcel} {s : State} (hq : q < 16)
    (hsec : (s.gq q).sec.isSome = true) (hkind : (s.gq q).cfg.kind = 0)
    (harr : Tbl.getD s.leat.arrived (govDest q) [] = p :: rest) (hcls : p.cls = 0) (hlast : p.last = true)
    (hwatch : watchNotice (s.gq q).cfg.tagLimit (recordBytes (s.recordWith q p)) (s.recordWith q p) = true) :
    Does (.planRecordArrive q cycles) s fun t =>
      (∀ c, s.gov.plan = some c → c.bolter = leAt (recordBytes (s.recordWith q p)) 2 1 →
        t.gov.plan = none ∧ 0 ∈ t.gov.wheel.hold) ∧
      (∀ c, s.gov.plan = some c → c.bolter ≠ leAt (recordBytes (s.recordWith q p)) 2 1 → t.gov.plan = some c) ∧
      (t.gq q).slots = (s.gq q).slots.filter (fun x => !sameRecord p x) ∧
      s.onlyChanges t [.ev, .gov, .leat, .ledger, .regs] := by
  obtain ⟨qs, hqs⟩ := s.govRejected_gov q cycles p rest
  have hchanges := s.govRejected_onlyChanges q cycles p rest
  have hslots := s.govRejected_slots q cycles p rest
  have hstatus : leAt (recordBytes (s.recordWith q p)) 0 1 = 7 := by
    simp only [watchNotice, Bool.and_eq_true, decide_eq_true_eq] at hwatch
    exact hwatch.1.1
  have hexec := execPlanRecordArrive_of_rejected (cycles := cycles) hq hsec harr hcls hkind hlast fun h => by omega
  have hmine : s.plansFor (recordBytes (s.recordWith q p)) = true ↔
      ∃ c, s.gov.plan = some c ∧ c.bolter = leAt (recordBytes (s.recordWith q p)) 2 1 := by
    unfold State.plansFor
    cases s.gov.plan <;> simp
  generalize s.govRejected q cycles p rest = u at hqs hchanges hslots hexec
  by_cases hplans : s.plansFor (recordBytes (s.recordWith q p)) = true
  · rw [if_pos ⟨hwatch, hplans⟩] at hexec
    obtain ⟨c, hc, hbolter⟩ := hmine.mp hplans
    obtain ⟨w, hw, hhold⟩ := State.holdCause_gov
      { u with gov := { u.gov with plan := none } } 0 true
    refine ⟨_, hexec, fun c' _ _ => ?_, fun c' hc' hne => ?_, ?_, .holdCause (.setGov hchanges.mono)⟩
    · rw [hw, hhold]
      exact ⟨rfl, mem_addN ..⟩
    · exact absurd (Option.some.inj (hc'.symm.trans hc) ▸ hbolter) hne
    · rw [← hslots]
      exact congrArg GovQueue.slots (State.gq_congr (s := u) (by rw [hw]) q)
  · rw [if_neg fun h => hplans h.2] at hexec
    refine ⟨_, hexec, fun c hc hbolter => absurd (hmine.mpr ⟨c, hc, hbolter⟩) hplans, fun c hc _ => ?_, hslots, hchanges.mono⟩
    rw [hqs]
    exact hc

theorem holdLastExpiry_acts {q : Nat} {s : State} (hq : q < 16) (hsec : (s.gq q).sec.isSome = true)
    (hkind : (s.gq q).cfg.kind = 1) (hsupply : s.gov.wheel.supply = false) (hact : (s.gq q).acting = false)
    (hmiss : (s.gq q).cfg.holdLast < (s.gq q).missCount) : Does (.holdLastExpiry q) s fun t =>
      (t.gq q).acting = true ∧ (t.gq q).dropped = true ∧ ((s.gq q).cfg.action = 1 → t.gov.wheel.capQueue = true) ∧
      ((s.gq q).cfg.action = 2 → 2 ∈ t.gov.wheel.hold) ∧ s.onlyChanges t [.ev, .gov, .regs] := by
  refine ⟨_, execHoldLastExpiry_of_missed hq hsec hkind hsupply hact hmiss, ?_⟩
  generalize hu : s.setGq q _ = u
  have hgq : u.gq q = { s.gq q with dropped := true, acting := true } := hu ▸ State.gq_setGq_same ..
  have hchanges : s.onlyChanges u [.ev, .gov, .regs] := hu ▸ .setGq (.refl s)
  have hacts : u.queueActs (s.gq q).cfg.action = true := by
    have hact := State.queueActs_of_acting (s := u) hq (by rw [hgq, hsec]) (by rw [hgq])
    rwa [hgq] at hact
  obtain ⟨w, hw, hcap, hhold⟩ := u.queueCauses_gov
  have hgq' : u.queueCauses.gq q = u.gq q := State.gq_congr (by rw [hw]) q
  rw [hgq', hgq, hw, hcap, hhold]
  refine ⟨rfl, rfl, fun h => h ▸ hacts, fun h => ?_, .queueCauses hchanges⟩
  rw [h] at hacts
  rw [if_pos hacts]
  exact mem_addN ..

theorem conflictLimitExpiry_holds {g : Nat} {e : Gate} {since : Int} {s : State} (hgate : (g, e) ∈ s.fus.gates)
    (hsince : e.since = some since) (hsec : s.gov.sec.isSome = true)
    (hdue : since + 1000000 * (s.fuCfg.limitMs : Int) ≤ (s.now : Int)) : Does .conflictLimitExpiry s fun t =>
      t.fus.usable = false ∧ 5 ∈ t.gov.wheel.hold ∧ s.onlyChanges t [.ev, .fus, .gov, .regs] := by
  obtain ⟨ms, hexec⟩ := execConflictLimitExpiry_of_due hgate hsince hsec hdue
  obtain ⟨w, hw, hhold⟩ := State.holdCause_gov { s with fus := { s.fus with usable := false, conflictMs := ms } } 5 true
  refine ⟨_, hexec, ?_, ?_, .holdCause (.setFus (.refl s))⟩
  · rw [State.holdCause_fus]
  · rw [hw, hhold]
    exact mem_addN ..

/-! ### CYCLE_BOUNDARY without a new section -/

/-- What precedes the plan at a boundary leaves the plan, the waiting plan, module time and the count of skipped plans. -/
theorem State.stepLaw_plans (s : State) :
    s.stepLanes.stepLaw.gov.newPlan = s.gov.newPlan ∧ s.stepLanes.stepLaw.gov.plan = s.gov.plan ∧
    s.stepLanes.stepLaw.now = s.now ∧ s.stepLanes.stepLaw.reg Reg.gvPlanSkip = s.reg Reg.gvPlanSkip := by
  obtain ⟨hlanes, -, -, hnew, hplan⟩ := s.stepLanes.stepLaw_kept
  have hchanges : s.onlyChanges s.stepLanes.stepLaw [.regs, .ev, .gov] := .stepLaw (.stepLanes (.refl s))
  refine ⟨hnew, hplan, State.now_congr (hchanges .tm (by decide)) fun l => ?_, s.stepLanes.stepLaw_gvPlanSkip⟩
  rw [State.lane, hlanes, ← State.lane, State.lane_stepLanes, Lane.boundary_inService]

/-- A waiting plan that is not past is adopted (R288). -/
theorem State.adoptPlan_adopts {s : State} {p : CurPlan} (h : s.gov.newPlan = some p) (hp : s.now ≤ p.lastNs) :
    s.adoptPlan.gov.plan = some p ∧ 0 ∉ s.adoptPlan.gov.wheel.hold := by
  rw [State.adoptPlan_of_some h, if_neg (Nat.not_lt.mpr hp)]
  obtain ⟨w, hw, hhold⟩ := State.holdCause_gov
    { s.freePlans with gov := { s.freePlans.gov with newPlan := none, plan := some p } } 0 false
  rw [hw, hhold]
  exact ⟨rfl, not_mem_remN _ _⟩

/-- A waiting plan that is past is counted, and the plan in force stays (R288). -/
theorem State.adoptPlan_skips {s : State} {p : CurPlan} (h : s.gov.newPlan = some p) (hp : p.lastNs < s.now) :
    s.adoptPlan.gov.plan = s.gov.plan ∧ s.adoptPlan.regN Reg.gvPlanSkip = min (s.regN Reg.gvPlanSkip + 1) 0xFFFFFFFF := by
  obtain ⟨qs, hqs⟩ := s.freePlans_gov
  have hreg : s.freePlans.reg Reg.gvPlanSkip = s.reg Reg.gvPlanSkip := s.freePlans_onlyChanges.reg _
  rw [State.adoptPlan_of_some h, if_pos hp, State.bump_gov, State.regN_bump_same]
  generalize s.freePlans = u at hqs hreg
  have hplan : u.gov.plan = s.gov.plan := by rw [hqs]
  refine ⟨hplan, ?_⟩
  rw [State.regN, State.regN, ← hreg]
  rfl

/-- In RUN, with the vote of the cycle held and no plan that waits, the voted set-point drives the next cycle. -/
theorem State.startCycle_run {s : State} (qp : List QpStage) (hrun : s.gov.wheel.state = .run) (hdone : s.gov.v3Done = true)
    (hnew : s.gov.newPlan = none) :
    (s.stepLanes.stepLaw.adoptPlan.startCycle qp).gov.cycle = (s.gov.cycle + 1) % 2 ^ 64 ∧
    (s.stepLanes.stepLaw.adoptPlan.startCycle qp).gov.setPoint = s.gov.nextSet ∧
    (s.stepLanes.stepLaw.adoptPlan.startCycle qp).sol.stages.length = qp.length := by
  have hlaw : s.stepLanes.stepLaw = s.stepLanes.nextLaw := congrArg State.nextLaw (if_neg fun h => by
    exact absurd (hdone.symm.trans h.2) (by decide))
  obtain ⟨a, b, c, hgov, hset⟩ := s.stepLanes.nextLaw_gov
  have hset : a = s.gov.nextSet := hset fun h => by
    exact absurd (hrun.symm.trans h) (by decide)
  have hnew' : s.stepLanes.nextLaw.gov.newPlan = none := by
    rw [hgov]
    exact hnew
  obtain ⟨qs, hqs⟩ := s.stepLanes.nextLaw.freePlans_gov
  rw [hlaw, State.adoptPlan_of_none hnew']
  rw [hgov] at hqs
  generalize s.stepLanes.nextLaw.freePlans = u at hqs
  have hstate : u.gov.wheel.state = .run := by
    rw [hqs]
    exact hrun
  have hcycle : u.gov.cycle = s.gov.cycle := by
    rw [hqs]
    rfl
  have hpoint : u.gov.setPoint = s.gov.nextSet := by
    rw [hqs]
    exact hset
  refine ⟨?_, hpoint, ?_⟩
  · simp [State.startCycle, State.nextCycle, hstate, hcycle]
  · simp [State.startCycle, State.nextSolve, State.drives, hstate]

theorem cycleBoundary_drives (qp : List QpStage) {s : State} (hon : s.pw.motionOn = true) (hrun : s.tm.running = true)
    (hnext : s.gov.nextSec = none) (hsec : s.gov.sec.isSome = true) : Does (.cycleBoundary qp) s fun t =>
      t.gov.sec = s.gov.sec ∧ t.gov.v3Done = false ∧ t.gov.newPlan = none ∧
      (∀ l, (s.lane l).state = .reloading → (s.lane l).copied = true → (t.lane l).state = .shadow) ∧
      (∀ p, s.gov.newPlan = some p → s.now ≤ p.lastNs → t.gov.plan = some p ∧ 0 ∉ t.gov.wheel.hold) ∧
      (∀ p, s.gov.newPlan = some p → p.lastNs < s.now → t.gov.plan = s.gov.plan ∧
        t.regN Reg.gvPlanSkip = min (s.regN Reg.gvPlanSkip + 1) 0xFFFFFFFF) ∧
      (s.gov.wheel.state = .run → s.gov.v3Done = true → s.gov.newPlan = none →
        t.gov.cycle = (s.gov.cycle + 1) % 2 ^ 64 ∧ t.gov.setPoint = s.gov.nextSet ∧ t.sol.stages.length = qp.length) ∧
      s.onlyChanges t [.ev, .gov, .leat, .ledger, .regs, .sol] := by
  have hexec := execCycleBoundary_of_running hon hrun (by rwa [State.atBoundary_of_none hnext]) qp
  rw [State.atBoundary_of_none hnext] at hexec
  obtain ⟨-, hsec', -, hnone⟩ := s.boundary_kept 0
  obtain ⟨hnew, hplan, hnow, hskip⟩ := s.stepLaw_plans
  refine ⟨_, hexec, (State.startCycle_sec ..).trans hsec', rfl, (State.startCycle_newPlan ..).trans hnone,
    fun l hl hcopied => ?_, fun p hp htime => ?_, fun p hp htime => ?_, State.startCycle_run qp,
    .startCycle (.adoptPlan (.stepLaw (.stepLanes (.refl s))))⟩
  · obtain ⟨hlane, -⟩ := s.boundary_kept l
    rw [State.startCycle_lane, hlane]
    simp [Lane.boundary, hl, hcopied]
  · rw [State.startCycle_plan, State.startCycle_wheel]
    exact State.adoptPlan_adopts (hnew.trans hp) (hnow.trans_le htime)
  · rw [State.startCycle_plan, State.startCycle_regN]
    obtain ⟨hkept, hcount⟩ := State.adoptPlan_skips (hnew.trans hp) (hnow ▸ htime)
    refine ⟨hkept.trans hplan, hcount.trans ?_⟩
    rw [State.regN, State.regN, hskip]

/-- Settles O56: each command answers the state of its equation, whose governor is known part by part. -/
theorem ticksAndRecords : Obligations.TicksAndRecords := by
  refine ⟨fun _ => innerTick_numbers, fun s harm => if_pos (.inr (.inr harm)), fun _ => acceptanceWindowClose_fixes,
    fun s hclosed => if_pos (.inr (.inr (.inr hclosed))), fun qp _ _ => cycleBoundary_takesSection qp,
    fun qp _ => cycleBoundary_drives qp, fun _ cycles _ _ _ => govifRecordArrive_takesSlot cycles,
    fun q cycles p rest s hq hsec hkind harr hcls hlast hbad => ?_,
    fun q cycles p rest ps s hq hsec hkind harr hcls hlast hps hbad hstatus => ?_,
    fun q cycles p rest ps s hq hsec hkind harr hcls hlast hps hwatch => ?_,
    fun q cycles p rest ps s hq hsec hkind harr hcls hlast hps hbad hwatch => ?_,
    fun _ _ => holdLastExpiry_acts, fun _ _ _ _ => conflictLimitExpiry_holds,
    execInnerTick_answers, execAcceptanceWindowClose_answers, execCycleBoundary_answers, execGovifRecordArrive_answers,
    execPlanRecordArrive_answers, execHoldLastExpiry_answers, execConflictLimitExpiry_answers⟩
  · exact ⟨_, execGovifRecordArrive_of_bad hq hsec harr hcls hkind hlast hbad, s.govRejected_slots .., s.govRejected_count ..⟩
  · subst hps
    exact planRecordArrive_waits cycles hq hsec hkind harr hcls hlast hbad hstatus
  · subst hps
    exact planRecordArrive_withdraws cycles hq hsec hkind harr hcls hlast hwatch
  · subst hps
    exact planRecordArrive_rejects cycles hq hsec hkind harr hcls hlast hbad hwatch

end Sys2Proof.Machine
end

section
/-!
PROOF. CORE_HEARTBEAT, WATCHDOG_EXPIRY, MILL_UNCORRECTABLE and SR_RESEED (O42): the record of a reseed's transition counts in EV_CH_COUNT.
-/
namespace Sys2Proof.Machine

theorem exec_srReseed_of_due {m : Nat} {s : State} (hm : m < 16) (hdue : 2 ^ 24 ≤ (s.mill m).srDraws) (pass : Bool) :
    exec (.srReseed m pass) s = .next (s.reseed m pass) :=
  if_pos ⟨hm, hdue⟩

/-- A mill with SR degraded, due for its reseed (R65). -/
def degradedMill : State := State.reset.setMill 0 { srDraws := 2 ^ 24, srDegraded := true }

/-- The transition out of the degraded state has its record, which channel 3 counts (R467). -/
theorem degradedMill_evChCount : degradedMill.reg (Reg.evChCount 3) = 0 ∧ (degradedMill.reseed 0 true).reg (Reg.evChCount 3) = 1 := by
  decide

/-- Refutes O42: the reseed's clause leaves EV_CH_COUNT_3 out of the registers that change, and a transition's record raises it. -/
theorem not_millerCores : ¬ Obligations.MillerCores := by
  rintro ⟨-, -, -, -, hreseed, -⟩
  obtain ⟨t, ht, -, -, -, -, -, -, -, hregs, -⟩ := hreseed 0 true degradedMill (by decide) (by decide)
  have hnext := Host.Outcome.next.inj ((exec_srReseed_of_due (by decide) (by decide) true).symm.trans ht)
  subst hnext
  obtain ⟨hbefore, hafter⟩ := degradedMill_evChCount
  have hkept := hregs (Reg.evChCount 3) (by decide)
  rw [hbefore, hafter] at hkept
  exact absurd hkept (by decide)

end Sys2Proof.Machine
end

section
/-!
PROOF. What the operations on mills, parcels, credits, tier requests and Phirov frames may change: `State.onlyChanges.f` for them,
under the headings of the model's files.
-/
-- One proof at a time, as in the tests: proofs that wait for the kernel side by side each hold a thread and its stack.
set_option Elab.async false
namespace Sys2Proof.Machine

section
variable {s₀ s : State} {ps : List Part} (h : s₀.onlyChanges s ps)
include h

/-! ### One part set -/

theorem State.onlyChanges.setMem {x : Memories} (hp : .mem ∈ ps := by decide) : s₀.onlyChanges { s with mem := x } ps := by
  intro p hn
  cases p with
  | mem => exact absurd hp hn
  | _ => exact h _ hn

theorem State.onlyChanges.setHp {x : HostPort} (hp : .hp ∈ ps := by decide) : s₀.onlyChanges { s with hp := x } ps := by
  intro p hn
  cases p with
  | hp => exact absurd hp hn
  | _ => exact h _ hn

theorem State.onlyChanges.setMill {m : Nat} {x : Mill} (hp : .mills ∈ ps := by decide) :
    s₀.onlyChanges (s.setMill m x) ps := by
  intro p hn
  cases p with
  | mills => exact absurd hp hn
  | _ => exact h _ hn

theorem State.onlyChanges.setTiers {x : Tiers} (hp : .tiers ∈ ps := by decide) : s₀.onlyChanges { s with tiers := x } ps := by
  intro p hn
  cases p with
  | tiers => exact absurd hp hn
  | _ => exact h _ hn

theorem State.onlyChanges.setPx {x : Phirov} (hp : .px ∈ ps := by decide) : s₀.onlyChanges { s with px := x } ps := by
  intro p hn
  cases p with
  | px => exact absurd hp hn
  | _ => exact h _ hn

theorem State.onlyChanges.drew {n : Nat} (hp : .freeN ∈ ps := by decide) : s₀.onlyChanges (s.drew n) ps := by
  intro p hn
  cases p with
  | freeN => exact absurd hp hn
  | _ => exact h _ hn

/-! ### Machine, Ops and Shared -/

theorem State.onlyChanges.setLocal {a : Nat} {bs : Bytes} (hp : .mem ∈ ps := by decide) :
    s₀.onlyChanges (s.setLocal a bs) ps := .setMem h hp

theorem State.onlyChanges.reclaim {p : Nat} {a : Place} {n cause code peer : Nat} (hq : [.regs, .ledger, .ev] ⊆ ps := by decide) :
    s₀.onlyChanges (s.reclaim p a n cause code peer) ps :=
  h.then (.ite (.refl s) (.record (.setLedger (.move (.refl s))))) hq

theorem State.onlyChanges.finish {r : Request} {status result extra : Nat} (hp : .hp ∈ ps := by decide) :
    s₀.onlyChanges (s.finish r status result extra) ps := .setHp h hp

/-! ### Machine, TierOps -/

theorem State.onlyChanges.clearPoison {a n : Nat} (hp : .tiers ∈ ps := by decide) : s₀.onlyChanges (s.clearPoison a n) ps :=
  .ite (.ite (.setTiers h hp) h) h

theorem State.onlyChanges.keepDescs {a n : Nat} (hp : .mem ∈ ps := by decide) : s₀.onlyChanges (s.keepDescs a n) ps :=
  .foldl (fun _ _ h => .setLocal h hp) h

theorem State.onlyChanges.putMem {a : Nat} {bs : Bytes} (hq : [.mem, .tiers] ⊆ ps := by decide) :
    s₀.onlyChanges (s.putMem a bs) ps :=
  h.then (.keepDescs (.setTiers (.clearPoison (.setLocal (.refl s))))) hq

theorem State.onlyChanges.tokenBack {m : Nat} (hp : .ledger ∈ ps := by decide) : s₀.onlyChanges (s.tokenBack m) ps :=
  .ite h (.move h hp)

theorem State.onlyChanges.countStatus {ctx status : Nat} (hp : .regs ∈ ps := by decide) :
    s₀.onlyChanges (s.countStatus ctx status) ps :=
  .ite (.bump (.bump h hp) hp) (.ite (.bump (.bump h hp) hp) h)

theorem State.onlyChanges.tierEnd {r : TierReq} {status tag : Nat} (hq : [.regs, .ledger, .tiers] ⊆ ps := by decide) :
    s₀.onlyChanges (s.tierEnd r status tag) ps :=
  h.then (.ite (.tokenBack (.setTiers (.refl s))) (.countStatus (.tokenBack (.setTiers (.refl s))))) hq

/-! ### Machine, Weirs -/

theorem State.onlyChanges.takeTokensOf {w r n : Nat} (hq : [.regs, .leat] ⊆ ps := by decide) :
    s₀.onlyChanges (s.takeTokensOf w r n) ps :=
  h.then (.bump (.setLeat (.refl s))) hq

theorem State.onlyChanges.takeToken {w r : Nat} (hq : [.regs, .leat] ⊆ ps := by decide) :
    s₀.onlyChanges (s.takeToken w r) ps := .takeTokensOf h hq

theorem State.onlyChanges.passWeir {w cls ctx n : Nat} (hq : [.regs, .leat] ⊆ ps := by decide) :
    s₀.onlyChanges (s.passWeir w cls ctx n).2 ps := by
  unfold State.passWeir
  split
  · exact h
  · exact .ite h (.takeTokensOf h hq)

/-! ### Machine, Phirov -/

theorem State.onlyChanges.setPeer {m : Nat} {x : Peer} (hp : .px ∈ ps := by decide) : s₀.onlyChanges (s.setPeer m x) ps :=
  .setPx h hp

theorem State.onlyChanges.endRemote {mill stage id status : Nat} (hq : [.regs, .ledger, .tiers, .px] ⊆ ps := by decide) :
    s₀.onlyChanges (s.endRemote mill stage id status) ps := by
  refine h.then ?_ hq
  unfold State.endRemote
  extract_lets _ s₁
  have h₁ : s.onlyChanges s₁ [.regs, .ledger, .tiers, .px] := .setPx (.refl s)
  split
  · exact .tierEnd h₁
  · exact h₁

theorem State.onlyChanges.collEnd {g status tag : Nat} (hq : [.regs, .ledger, .tiers, .px] ⊆ ps := by decide) :
    s₀.onlyChanges (s.collEnd g status tag) ps := by
  refine h.then ?_ hq
  unfold State.collEnd
  split
  · exact .refl s
  · extract_lets _ s₁ s₂
    have h₁ : s.onlyChanges s₁ [.regs, .ledger, .tiers, .px] := .setPx (.refl s)
    have h₂ : s.onlyChanges s₂ [.regs, .ledger, .tiers, .px] := .ite h₁ (.raise h₁)
    split
    · exact .tierEnd h₂
    · exact h₂

theorem State.onlyChanges.collFail {g status : Nat} (hq : [.regs, .mem, .ledger, .tiers, .px] ⊆ ps := by decide) :
    s₀.onlyChanges (s.collFail g status) ps := by
  refine h.then ?_ hq
  unfold State.collFail
  split
  · exact .refl s
  · exact .collEnd (.foldl (fun _ _ h => .ite (.setPx h) h) (.putMem (.refl s)))

theorem State.onlyChanges.slotsOut {p m : Nat} {f : PxFrame} (hq : [.ledger, .px] ⊆ ps := by decide) :
    s₀.onlyChanges (s.slotsOut p m f) ps :=
  have hmove : s.onlyChanges (s.move (pxPool p f.cls) .held .returned f.slots) [.ledger, .px] := .move (.refl s)
  h.then (.ite hmove (.ite (.setPeer hmove) hmove)) hq

theorem State.onlyChanges.enqueue {m : Nat} {f : PxFrame} (hp : .px ∈ ps := by decide) : s₀.onlyChanges (s.enqueue m f) ps :=
  .setPx h hp

theorem State.onlyChanges.serveWrite {m : Nat} {f : PxFrame} (hq : [.mem, .tiers, .px] ⊆ ps := by decide) :
    s₀.onlyChanges (s.serveWrite m f) ps :=
  h.then (.enqueue (.ite (.putMem (.refl s)) (.refl s))) hq

theorem State.onlyChanges.serveRead {m : Nat} {f : PxFrame} (hp : .px ∈ ps := by decide) :
    s₀.onlyChanges (s.serveRead m f) ps :=
  .ite (.enqueue h hp) (.foldl (fun _ _ h => .enqueue h hp) h)

theorem State.onlyChanges.collSend {g : Nat} {gr : Group} {ranks : List Nat} {lo : Nat} {bs : Bytes} {tags : List Nat}
    (hp : .px ∈ ps := by decide) : s₀.onlyChanges (s.collSend g gr ranks lo bs tags) ps :=
  .foldl (fun _ _ h => .foldl (fun _ _ h => .enqueue h hp) h) h

theorem State.onlyChanges.collFinal {g : Nat} {gr : Group} {r j : Nat} {bs : Bytes} {tags : List Nat} {sendOn : Bool}
    (hp : .px ∈ ps := by decide) : s₀.onlyChanges (s.collFinal g gr r j bs tags sendOn) ps := by
  unfold State.collFinal
  split
  · exact h
  · extract_lets _ _ s₁
    have h₁ : s₀.onlyChanges s₁ ps := .setPx h hp
    exact .ite h₁ (.ite (.collSend h₁ hp) (.collSend h₁ hp))

theorem State.onlyChanges.directSum {g : Nat} {gr : Group} {r : Nat} (hq : [.px, .freeN] ⊆ ps := by decide) :
    s₀.onlyChanges (s.directSum g gr r) ps := by
  refine h.then ?_ hq
  unfold State.directSum
  split
  · exact .refl s
  · exact .ite (.refl s) (.collFinal (.drew (.refl s)))

theorem State.onlyChanges.collTake {m : Nat} {f : PxFrame}
    (hq : [.regs, .mem, .ledger, .tiers, .px, .freeN] ⊆ ps := by decide) : s₀.onlyChanges (s.collTake m f) ps := by
  refine h.then ?_ hq
  unfold State.collTake
  extract_lets
  split
  · refine .ite (.collFail (.refl s)) (.ite ?_ ?_)
    · extract_lets _ _ s₁
      have h₁ : s.onlyChanges s₁ [.regs, .mem, .ledger, .tiers, .px, .freeN] := .setPx (.refl s)
      exact .ite (.directSum h₁) (.ite (.ite (.collFinal h₁) (.collSend h₁)) h₁)
    · extract_lets _ _ _ s₁
      have h₁ : s.onlyChanges s₁ [.regs, .mem, .ledger, .tiers, .px, .freeN] := .setPx (.refl s)
      exact .ite (.collSend h₁) h₁
  · exact .refl s

theorem State.onlyChanges.takeResponse {f : PxFrame} (hq : [.regs, .mem, .ledger, .tiers, .px] ⊆ ps := by decide) :
    s₀.onlyChanges (s.takeResponse f) ps := by
  refine h.then ?_ hq
  unfold State.takeResponse
  split
  · exact .refl s
  · refine .ite (.endRemote (.refl s)) ?_
    extract_lets s₁ _ _ s₂
    have h₁ : s.onlyChanges s₁ [.regs, .mem, .ledger, .tiers, .px] := by
      unfold s₁
      split
      · exact .ite (.refl s) (.putMem (.refl s))
      · exact .refl s
    have h₂ : s.onlyChanges s₂ [.regs, .mem, .ledger, .tiers, .px] := .setPx h₁
    exact .ite (.ite h₂ (.endRemote h₂)) (.setPx h₁)

theorem State.onlyChanges.unusedSlots {m p c : Nat} (hq : [.ledger, .px] ⊆ ps := by decide) :
    s₀.onlyChanges (s.unusedSlots m p c) ps :=
  h.then (.ite (.refl s) (.setPeer (.move (.refl s)))) hq

theorem State.onlyChanges.pxHandle {p m : Nat} {f : PxFrame}
    (hq : [.regs, .mem, .ledger, .tiers, .px, .freeN] ⊆ ps := by decide) : s₀.onlyChanges (s.pxHandle p m f) ps := by
  refine h.then ?_ hq
  unfold State.pxHandle
  extract_lets s₁
  have h₁ : s.onlyChanges s₁ [.regs, .mem, .ledger, .tiers, .px, .freeN] := by
    unfold s₁
    split
    · exact .serveWrite (.refl s)
    · exact .serveRead (.refl s)
    · exact .unusedSlots (.takeResponse (.refl s))
    · exact .collTake (.refl s)
    · exact .refl s
  exact .slotsOut h₁

theorem State.onlyChanges.pxOne {x : RxHeld} (hq : [.regs, .mem, .ledger, .leat, .tiers, .px, .freeN] ⊆ ps := by decide) :
    s₀.onlyChanges (s.pxOne x) ps :=
  h.then (.ite (.refl s) (.ite (.pxHandle (.setPx (.passWeir (.refl s)))) (.setPx (.passWeir (.refl s))))) hq

theorem State.onlyChanges.pxDrain {p : Nat} (hq : [.regs, .mem, .ledger, .leat, .tiers, .px, .freeN] ⊆ ps := by decide) :
    s₀.onlyChanges (s.pxDrain p) ps :=
  .foldl (fun _ _ h => .pxOne h hq) h

/-! ### Machine, HostCore and Fabric -/

theorem State.onlyChanges.pondWrite {off : Nat} {bs : Bytes} (hp : .mem ∈ ps := by decide) :
    s₀.onlyChanges (s.pondWrite off bs) ps := .setMem h hp

theorem State.onlyChanges.setCredits {p w n : Nat} (hp : .leat ∈ ps := by decide) : s₀.onlyChanges (s.setCredits p w n) ps :=
  .setLeat h hp

theorem State.onlyChanges.takeCredit {w d : Nat} (hq : [.ledger, .leat] ⊆ ps := by decide) :
    s₀.onlyChanges (s.takeCredit w d) ps := by
  refine h.then ?_ hq
  unfold State.takeCredit
  split
  · exact .move (.setCredits (.refl s))
  · exact .refl s

theorem State.onlyChanges.takeCredits {w : Nat} {ds : List Nat} {t : State} (ht : s.takeCredits w ds = some t)
    (hq : [.ledger, .leat] ⊆ ps := by decide) : s₀.onlyChanges t ps := by
  induction ds generalizing s with
  | nil => exact Option.some.inj ht ▸ h
  | cons d ds ih =>
    unfold State.takeCredits at ht
    split at ht
    · exact ih (.takeCredit h hq) ht
    · exact absurd ht (Option.some_ne_none t).symm

theorem State.onlyChanges.recallKey {p w : Nat} (hq : [.ledger, .leat] ⊆ ps := by decide) :
    s₀.onlyChanges (s.recallKey p w) ps :=
  h.then (.ite (.refl s) (.move (.setLeat (.refl s)))) hq

theorem State.onlyChanges.recallPool {p : Nat} (hq : [.ledger, .leat] ⊆ ps := by decide) :
    s₀.onlyChanges (s.recallPool p) ps :=
  .ite (.foldl (fun _ _ h => .ite h (.recallKey h hq)) h) h

theorem State.onlyChanges.setChan {n : Nat} {x : Chan} (hp : .tiers ∈ ps := by decide) : s₀.onlyChanges (s.setChan n x) ps :=
  .setTiers h hp

theorem State.onlyChanges.hoistPass {ch n : Nat} (hq : [.regs, .leat, .tiers] ⊆ ps := by decide) :
    s₀.onlyChanges (s.hoistPass ch n) ps := by
  refine h.then (.ite (.refl s) (.setChan ?_)) hq
  split
  · exact .refl s
  · exact .passWeir (.refl s)

theorem State.onlyChanges.setBuf {k input c : Nat} {l : List Parcel} (hp : .leat ∈ ps := by decide) :
    s₀.onlyChanges (s.setBuf k input c l) ps := .setLeat h hp

theorem State.onlyChanges.enterLeat {w : Nat} {p : Parcel} (hp : .leat ∈ ps := by decide) :
    s₀.onlyChanges (s.enterLeat w p) ps := .setBuf h hp

theorem State.onlyChanges.arrive {p : Parcel} (hp : .leat ∈ ps := by decide) : s₀.onlyChanges (s.arrive p) ps := .setLeat h hp

theorem State.onlyChanges.countHop {k out c : Nat} {both : Bool} (hp : .leat ∈ ps := by decide) :
    s₀.onlyChanges (s.countHop k out c both) ps := .setLeat h hp

theorem State.onlyChanges.setWaiting {w : Nat} {l : List Parcel} (hp : .leat ∈ ps := by decide) :
    s₀.onlyChanges (s.setWaiting w l) ps := .setLeat h hp

theorem State.onlyChanges.loopCopies {m : Nat} {t : TailSlot} (hp : .mills ∈ ps := by decide) :
    s₀.onlyChanges (s.loopCopies m t) ps := .setMill h hp

theorem State.onlyChanges.admitMill {m dest : Nat} (hq : [.regs, .mills, .leat] ⊆ ps := by decide) :
    s₀.onlyChanges (s.admitMill m dest) ps := by
  refine h.then ?_ hq
  unfold State.admitMill
  split
  · exact .refl s
  · exact .ite (.setMill (.enterLeat (.takeToken (.refl s)))) (.refl s)

theorem State.onlyChanges.admitEdge {w dest : Nat} (hq : [.regs, .ledger, .leat] ⊆ ps := by decide) :
    s₀.onlyChanges (s.admitEdge w dest) ps := by
  refine h.then ?_ hq
  unfold State.admitEdge
  split
  · exact .refl s
  · split
    · exact .refl s
    · refine .ite ?_ (.refl s)
      extract_lets _ s₁
      have h₁ : s.onlyChanges s₁ [.regs, .ledger, .leat] := .enterLeat (.takeToken (.takeCredit (.setWaiting (.refl s))))
      split
      · exact .recallPool h₁
      · exact h₁

theorem State.onlyChanges.hopperWrite {p : Parcel} {w : Nat} (hq : [.regs, .ledger, .ev, .mills] ⊆ ps := by decide) :
    s₀.onlyChanges (s.hopperWrite p w) ps :=
  h.then (.ite (.reclaim (.refl s)) (.move (.setMill (.refl s)))) hq

theorem State.onlyChanges.itemResult {p : Parcel} (hq : [.mem, .hp] ⊆ ps := by decide) :
    s₀.onlyChanges (s.itemResult p) ps := by
  refine h.then ?_ hq
  unfold State.itemResult
  split
  · exact .refl s
  · exact .ite (.finish (.pondWrite (.refl s))) (.setHp (.pondWrite (.refl s)))

theorem State.onlyChanges.slotBack {m q : Nat} {p : Parcel} (hq : [.ledger, .leat] ⊆ ps := by decide) :
    s₀.onlyChanges (s.slotBack m q p) ps :=
  h.then (.ite (.move (.setLeat (.move (.refl s)))) (.move (.setLeat (.move (.refl s))))) hq

end

end Sys2Proof.Machine
end

section
/-!
PROOF. Parcels and their credits (O41): tailraces, weirs, router hops, hoppers and the sideband.

Each command has an equation that gives the state it answers under the hypotheses of its clause; what the clause says of that state
follows from the laws of the operations it is made of.
-/
-- One proof at a time, as in the tests: proofs that wait for the kernel side by side each hold a thread and its stack.
set_option Elab.async false
namespace Sys2Proof.Machine

/-! ### Lists without, or with another, first element -/

theorem dropFirst_eq_eraseP {α : Type} (f : α → Bool) (l : List α) : dropFirst f l = l.eraseP f := by
  induction l with
  | nil => rfl
  | cons x l ih => cases h : f x <;> simp [dropFirst, h, ih]

theorem length_dropFirst {α : Type} {f : α → Bool} {l : List α} {x : α} (hx : x ∈ l) (hf : f x = true) :
    (dropFirst f l).length + 1 = l.length := by
  rw [dropFirst_eq_eraseP, List.length_eraseP_of_mem hx hf]
  exact Nat.sub_add_cancel (List.length_pos_of_mem hx)

theorem mem_replaceFirst {α : Type} {f : α → Bool} {l : List α} {x : α} (hx : x ∈ l) (hf : f x = true) (y : α) :
    y ∈ replaceFirst f y l := by
  induction l with
  | nil => exact absurd hx List.not_mem_nil
  | cons z l ih =>
    unfold replaceFirst
    split
    · exact List.mem_cons_self
    · next hz => exact List.mem_cons_of_mem _ (ih ((List.mem_cons.mp hx).resolve_left fun h => hz (h ▸ hf)))

/-! ### Pools and credits -/

theorem State.pool_move_same (s : State) (p : Nat) (a b : Place) (n : Nat) : (s.move p a b n).pool p = (s.pool p).move a b n :=
  State.pool_setPool_same ..

theorem State.credits_setCredits_same (s : State) (p w n : Nat) : (s.setCredits p w n).credits p w = n :=
  Tbl.getD_set_same ..

/-- The pool of a hopper queue's slots. -/
theorem destPool_of_hopper {d : Nat} (hd : d < 256) (he : d % 32 < 16) : destPool d = some (8 * (d % 32) + d / 32) := by
  have hq : d / 32 % 8 = d / 32 := Nat.mod_eq_of_lt (by omega)
  simp only [destPool, hq, if_pos he]

theorem State.hasCredit_of_pool {d p : Nat} (h : destPool d = some p) (s : State) (w : Nat) :
    s.hasCredit w d = decide (1 ≤ s.credits p w) := by
  simp only [State.hasCredit, h]

theorem State.takeCredit_of_pool {d p : Nat} (h : destPool d = some p) (s : State) (w : Nat) :
    s.takeCredit w d = (s.setCredits p w (s.credits p w - 1)).move p .held .inFlight 1 := by
  simp only [State.takeCredit, h]

/-- Of the leat, a credit taken changes the credits alone. -/
theorem State.takeCredit_leat (s : State) (w d : Nat) : ∃ x, (s.takeCredit w d).leat = { s.leat with credits := x } := by
  unfold State.takeCredit
  split
  · exact ⟨_, rfl⟩
  · exact ⟨s.leat.credits, rfl⟩

/-! ### Credits sent back at the end of an item (R132) -/

/-- At the last parcel of an item its producer's credits go back where the sluice of the destination is closed. -/
def State.itemEnd (s : State) (last : Bool) (d : Nat) : State :=
  match last, destPool d with
  | true, some k => s.recallPool k
  | _, _ => s

theorem State.itemEnd_eq (s : State) (last : Bool) (e : Nat × Nat × Nat) :
    (if last = true then ([e].filterMap (fun e => destPool e.1)).foldl (fun s p => s.recallPool p) s else s) =
      s.itemEnd last e.1 := by
  unfold State.itemEnd
  cases last with
  | false => rfl
  | true => cases h : destPool e.1 <;> simp [h]

theorem State.recallPool_of_open {s : State} {p : Nat} (h : s.poolShut p = false) : s.recallPool p = s := by
  simp only [State.recallPool, h, if_false, Bool.false_eq_true]

/-- Of the leat, credits sent back change the credits held and parked alone. -/
theorem State.recallPool_leat (s : State) (p : Nat) :
    ∃ held parked, (s.recallPool p).leat = { s.leat with credits := held, parked := parked } := by
  unfold State.recallPool
  split
  · refine List.foldlRecOn
      (motive := fun t : State => ∃ held parked, t.leat = { s.leat with credits := held, parked := parked }) _ _
      ⟨s.leat.credits, s.leat.parked, rfl⟩ ?_
    rintro t ⟨held, parked, ht⟩ w -
    dsimp only
    split
    · exact ⟨held, parked, ht⟩
    · unfold State.recallKey
      dsimp only
      split
      · exact ⟨held, parked, ht⟩
      · exact ⟨_, _, by rw [State.move_leat, ht]⟩
  · exact ⟨s.leat.credits, s.leat.parked, rfl⟩

theorem State.itemEnd_leat (s : State) (last : Bool) (d : Nat) :
    ∃ held parked, (s.itemEnd last d).leat = { s.leat with credits := held, parked := parked } := by
  unfold State.itemEnd
  split
  · exact s.recallPool_leat _
  · exact ⟨s.leat.credits, s.leat.parked, rfl⟩

theorem State.itemEnd_onlyChanges (s : State) (last : Bool) (d : Nat) :
    s.onlyChanges (s.itemEnd last d) [.ledger, .leat] := by
  unfold State.itemEnd
  split
  · exact .recallPool (.refl s)
  · exact .refl s

theorem State.itemEnd_of_open {s : State} {d p : Nat} (hd : destPool d = some p) (h : s.poolShut p = false) (last : Bool) :
    s.itemEnd last d = s := by
  unfold State.itemEnd
  split
  · next k hk =>
    rw [hd] at hk
    rw [← Option.some.inj hk]
    exact State.recallPool_of_open h
  · rfl

/-! ### TAILRACE_EMIT -/

/-- A parcel of a tailrace with its credits taken: its copies to its own mill are in loopback, and its stage is in the midst of its
item or past it. -/
def State.sendOn (s : State) (m i : Nat) (x : TailSlot) : State :=
  let v := s.loopCopies m x
  let y := v.mill m
  v.setMill m { y with emitting := if x.parcel.last then remN y.emitting i else addN y.emitting i }

theorem State.sendOn_tail {s : State} {m i d c r : Nat} {x : TailSlot} (h : x ∈ (s.mill m).tail) (hwait : x.credited = false)
    (hdests : x.dests = [(d, c, r)]) (hm : d % 32 ≠ m) :
    { x with credited := true } ∈ ((s.sendOn m i x).mill m).tail := by
  have hkeep : x.dests.filter (fun e => e.1 % 32 ≠ m) = x.dests := by simp [hdests, hm]
  have hne : x.dests ≠ [] := by simp [hdests]
  have htail : ((s.sendOn m i x).mill m).tail =
      replaceFirst (fun y => y.stage = x.stage && !y.credited) { x with credited := true } (s.mill m).tail := by
    simp only [State.sendOn, State.loopCopies, State.mill_setMill_same, hkeep, if_neg hne]
  rw [htail]
  exact mem_replaceFirst h (by simp [hwait]) _

theorem State.mill_sendOn_other {s : State} {m k : Nat} (h : k ≠ m) (i : Nat) (x : TailSlot) :
    (s.sendOn m i x).mill k = s.mill k := by
  simp only [State.sendOn, State.loopCopies, State.mill_setMill_other _ _ _ _ h]

theorem Mill.toCredit_spec {x : Mill} {i : Nat} {t : TailSlot} (h : x.toCredit i = some t) : t ∈ x.tail ∧ t.credited = false := by
  have hfound := List.find?_some h
  simp only [Bool.and_eq_true, Bool.not_eq_true'] at hfound
  exact ⟨List.mem_of_find?_eq_some h, hfound.2⟩

/-- What holds back a parcel with one destination. -/
def State.holdsBack (s : State) (m : Nat) (x : TailSlot) (d c : Nat) : Prop :=
  s.hasCredit m d = false ∨ s.classFits c d = false ∨ x.first = true ∧ d % 32 ≠ m ∧ s.destClosed d = true

section
variable {m i d c r : Nat} {x : TailSlot} {s : State}

theorem execTailraceEmit_of_heldBack (wait : Nat) (htail : (s.mill m).toCredit i = some x) (hdests : x.dests = [(d, c, r)])
    (h : s.holdsBack m x d c) : exec (.tailraceEmit m i wait) s = .next (s.bump (Reg.mlTailStall (m % 16)) wait) := by
  show execTailraceEmit m i wait s = _
  unfold execTailraceEmit
  extract_lets b
  have htail' : (b.mill m).toCredit i = some x := htail
  have h' : b.holdsBack m x d c := h
  show _ = Host.Outcome.next b
  clear_value b
  rw [htail']
  simp only [hdests, List.any_cons, List.any_nil, Bool.or_false, List.map_cons, List.map_nil, State.takeCredits]
  rcases h' with hcredit | hfits | ⟨hfirst, hother, hclosed⟩
  · simp [hcredit]
  · simp [hfits]
  · simp [hfirst, hother, hclosed]

theorem execTailraceEmit_of_credit (wait : Nat) (hworks : s.millWorks m = true) (htail : (s.mill m).toCredit i = some x)
    (hdests : x.dests = [(d, c, r)]) (hopen : s.destClosed d = false) (hfits : s.classFits c d = true)
    (hcredit : s.hasCredit m d = true) : exec (.tailraceEmit m i wait) s =
      .next ((((s.bump (Reg.mlTailStall (m % 16)) wait).takeCredit m d).sendOn m i x).itemEnd x.parcel.last d) := by
  show execTailraceEmit m i wait s = _
  unfold execTailraceEmit
  extract_lets b
  have hworks' : b.millWorks m ≠ false := fun h => absurd (h.symm.trans hworks) (by decide)
  have htail' : (b.mill m).toCredit i = some x := htail
  have hopen' : b.destClosed d = false := hopen
  have hfits' : b.classFits c d = true := hfits
  have htake : b.takeCredits m [d] = some (b.takeCredit m d) := if_pos hcredit
  rw [if_neg hworks', htail']
  dsimp only
  rw [if_neg (by simp [hdests, hopen']), if_neg (by simp [hdests, hfits']), hdests, List.map_cons, List.map_nil, htake]
  exact congrArg Host.Outcome.next (State.itemEnd_eq ..)

end

theorem State.destClosed_of_hopper {d : Nat} (he : d % 32 < 16) (s : State) :
    s.destClosed d = decide ((s.mill (d % 32)).state = .closed) := by
  simp only [State.destClosed, if_pos he]

/-- The sluice of a hopper queue's pool is that of the queue's mill. -/
theorem State.poolShut_of_hopper {d : Nat} (hd : d < 256) (he : d % 32 < 16) (s : State) :
    s.poolShut (8 * (d % 32) + d / 32) = s.destClosed d := by
  have hlt : 8 * (d % 32) + d / 32 < 128 := by omega
  have hmill : (8 * (d % 32) + d / 32) / 8 = d % 32 := by omega
  rw [State.destClosed_of_hopper he]
  simp only [State.poolShut, if_pos hlt, hmill]

theorem tailraceEmit_takesCredit {m i d c r : Nat} (wait : Nat) {x : TailSlot} {s : State} (hworks : s.millWorks m = true)
    (htail : (s.mill m).toCredit i = some x) (hdests : x.dests = [(d, c, r)]) (hd : d < 256) (he : d % 32 < 16)
    (hm : d % 32 ≠ m) (hopen : s.destClosed d = false) (hfits : s.classFits c d = true)
    (hcredit : 1 ≤ s.credits (8 * (d % 32) + d / 32) m) : Does (.tailraceEmit m i wait) s fun t =>
      t.credits (8 * (d % 32) + d / 32) m + 1 = s.credits (8 * (d % 32) + d / 32) m ∧
      t.pool (8 * (d % 32) + d / 32) = (s.pool (8 * (d % 32) + d / 32)).move .held .inFlight 1 ∧
      (∃ y, y ∈ (t.mill m).tail ∧ y.parcel = x.parcel ∧ y.dests = x.dests ∧ y.credited = true) ∧
      s.onlyChanges t [.mills, .ledger, .leat, .regs] := by
  have hpool := destPool_of_hopper hd he
  have hexec := execTailraceEmit_of_credit wait hworks htail hdests hopen hfits
    ((s.hasCredit_of_pool hpool m).trans (decide_eq_true hcredit))
  have hshut := State.poolShut_of_hopper hd he
  generalize 8 * (d % 32) + d / 32 = p at *
  rw [State.takeCredit_of_pool hpool] at hexec
  generalize hu : State.move _ p _ _ 1 = u at hexec
  have hkept : u.mills = s.mills := hu ▸ rfl
  have hcredits : u.credits p m = s.credits p m - 1 := hu ▸ State.credits_setCredits_same ..
  have hmoved : u.pool p = (s.pool p).move .held .inFlight 1 := hu ▸ State.pool_move_same ..
  have hchanges : s.onlyChanges u [.mills, .ledger, .leat, .regs] := hu ▸ .move (.setCredits (.bump (.refl s)))
  have hclosed : (u.sendOn m i x).poolShut p = false := by
    rw [hshut, State.destClosed_of_hopper he, State.mill_sendOn_other hm, State.mill, hkept]
    exact (State.destClosed_of_hopper he s).symm.trans hopen
  rw [State.itemEnd_of_open hpool hclosed] at hexec
  obtain ⟨hmem, hwait⟩ := Mill.toCredit_spec htail
  refine ⟨_, hexec, ?_, hmoved, ⟨_, State.sendOn_tail ?_ hwait hdests hm, rfl, rfl, rfl⟩, .setMill (.loopCopies hchanges)⟩
  · show u.credits p m + 1 = s.credits p m
    rw [hcredits, Nat.sub_add_cancel hcredit]
  · rw [State.mill, hkept]
    exact hmem

theorem execTailraceEmit_answers (m i wait : Nat) (s : State) :
    s.Answers (execTailraceEmit m i wait s) [.regs, .ledger, .mills, .leat] := by
  unfold execTailraceEmit
  extract_lets b
  have hb : s.onlyChanges b [.regs, .ledger, .mills, .leat] := .bump (.refl s)
  refine .ite (.next hb) ?_
  split
  · exact .next hb
  · refine .ite (.next hb) (.ite (.next hb) ?_)
    split
    · next u hu =>
      extract_lets v
      have hv : s.onlyChanges v [.regs, .ledger, .mills, .leat] := .loopCopies (.takeCredits hb hu)
      exact .next (.ite (.foldl (fun _ _ h => .recallPool h) (.setMill hv)) (.setMill hv))
    · exact .next hb

/-! ### WEIR_ADMIT of an edge weir -/

/-- The first parcel that waits at an edge weir, admitted on its credit and a token of row r. -/
def State.edgeAdmitted (s : State) (w r : Nat) (p : Parcel) (rest : List Parcel) : State :=
  (((s.setWaiting w rest).takeCredit w p.dest).takeToken w r).enterLeat w { p with weir := w }

section
variable {w r : Nat} {p : Parcel} {rest : List Parcel} {s : State}

theorem State.edgeAdmitted_leat (s : State) (w r : Nat) (p : Parcel) (rest : List Parcel) :
    ∃ x, (s.edgeAdmitted w r p rest).leat =
      { s.leat with
        waiting := Tbl.set s.leat.waiting w rest, credits := x
        tokens := Tbl.set s.leat.tokens (rowKey w r) (Tbl.getD s.leat.tokens (rowKey w r) 0 - 1024)
        bufs := Tbl.set s.leat.bufs (bufKey (entryOf w).1 (entryOf w).2 p.cls)
          (s.buf (entryOf w).1 (entryOf w).2 p.cls ++ [{ p with weir := w }]) } := by
  obtain ⟨x, hx⟩ := (s.setWaiting w rest).takeCredit_leat w p.dest
  unfold State.edgeAdmitted
  generalize (s.setWaiting w rest).takeCredit w p.dest = u at hx
  refine ⟨x, ?_⟩
  simp only [State.enterLeat, State.setBuf, State.buf, State.takeToken, State.takeTokensOf, State.bump_leat, hx, State.setWaiting,
    Nat.mul_one]

theorem State.edgeAdmitted_onlyChanges (s : State) (w r : Nat) (p : Parcel) (rest : List Parcel) :
    s.onlyChanges (s.edgeAdmitted w r p rest) [.leat, .ledger, .regs] :=
  .enterLeat (.takeToken (.takeCredit (.setWaiting (.refl s))))

theorem State.edgeAdmitted_wrAdmit (s : State) (w r : Nat) (p : Parcel) (rest : List Parcel) :
    (s.edgeAdmitted w r p rest).regN (Reg.wrAdmit w) = min (s.regN (Reg.wrAdmit w) + 1) 0xFFFFFFFF := by
  have hbefore : s.onlyChanges ((s.setWaiting w rest).takeCredit w p.dest) [.leat, .ledger] := .takeCredit (.setWaiting (.refl s))
  unfold State.edgeAdmitted
  generalize (s.setWaiting w rest).takeCredit w p.dest = u at hbefore
  refine (State.regN_bump_same ..).trans ?_
  have hreg : u.reg (Reg.wrAdmit w) = s.reg (Reg.wrAdmit w) := hbefore.reg _
  rw [State.regN, State.regN, ← hreg]
  rfl

theorem State.admitEdge_of_admissible (hwait : s.waiting w = p :: rest) (hrow : s.edgeRow w p = some r)
    (hshut : has s.leat.shut w = false)
    (hfirst : p.off = 0 → (has s.leat.closing w = false ∨ has s.leat.leaving p.origin = true) ∧ s.destClosed p.dest = false)
    (hruns : s.pw.fabricPaused = false) (htoken : s.hasToken w r = true) (hcredit : s.hasCredit w p.dest = true)
    (hfits : s.classFits p.cls p.dest = true) (hroom : s.entryRoom w p.cls = true) :
    s.admitEdge w p.dest = (s.edgeAdmitted w r p rest).itemEnd p.last p.dest := by
  have hfind : (s.waiting w).find? (fun q => q.dest = p.dest) = some p := by simp [hwait]
  have hdrop : dropFirst (fun q => q.dest = p.dest) (s.waiting w) = rest := by simp [hwait, dropFirst]
  unfold State.admitEdge
  rw [hfind]
  dsimp only
  rw [hrow]
  dsimp only
  rw [if_pos ⟨hshut, hfirst, hruns, htoken, hcredit, hfits, hroom⟩, hdrop]
  rfl

/-- What the admission of the first parcel does, whatever the end of its item then sends back. -/
theorem State.edgeAdmitted_itemEnd (s : State) (p : Parcel) (rest : List Parcel) (htoken : s.hasToken w r = true) (last : Bool)
    (dest : Nat) :
    ((s.edgeAdmitted w r p rest).itemEnd last dest).waiting w = rest ∧
    ((s.edgeAdmitted w r p rest).itemEnd last dest).regN (Reg.wrAdmit w) = min (s.regN (Reg.wrAdmit w) + 1) 0xFFFFFFFF ∧
    Tbl.getD ((s.edgeAdmitted w r p rest).itemEnd last dest).leat.tokens (rowKey w r) 0 + 1024 =
      Tbl.getD s.leat.tokens (rowKey w r) 0 ∧
    ((s.edgeAdmitted w r p rest).itemEnd last dest).buf (entryOf w).1 (entryOf w).2 p.cls =
      s.buf (entryOf w).1 (entryOf w).2 p.cls ++ [{ p with weir := w }] ∧
    s.onlyChanges ((s.edgeAdmitted w r p rest).itemEnd last dest) [.leat, .ledger, .regs] := by
  have hchanges := (s.edgeAdmitted w r p rest).itemEnd_onlyChanges last dest
  obtain ⟨held, parked, hend⟩ := (s.edgeAdmitted w r p rest).itemEnd_leat last dest
  obtain ⟨x, hadmit⟩ := s.edgeAdmitted_leat w r p rest
  rw [hadmit] at hend
  refine ⟨?_, ?_, ?_, ?_, (s.edgeAdmitted_onlyChanges w r p rest).then hchanges (by decide)⟩
  · rw [State.waiting, hend]
    exact Tbl.getD_set_same ..
  · rw [State.regN, hchanges.reg, ← State.regN, State.edgeAdmitted_wrAdmit]
  · rw [hend]
    refine (congrArg (· + 1024) (Tbl.getD_set_same ..)).trans (Nat.sub_add_cancel ?_)
    exact of_decide_eq_true htoken
  · rw [State.buf, hend]
    exact Tbl.getD_set_same ..

theorem execWeirAdmit_of_edge (hlo : 17 ≤ w) (hhi : w < 42) (hpx : w < 31 ∨ 39 ≤ w) (dest wait : Nat) (s : State) :
    exec (.weirAdmit w dest wait) s = .next ((s.bump (Reg.wrWait w) wait).admitEdge w dest) := by
  show execWeirAdmit w dest wait s = _
  have hmill : ¬ w < 16 := by omega
  have hhoist : ¬ w = 16 := by omega
  have hport : ¬ (31 ≤ w ∧ w < 39) := by omega
  simp only [execWeirAdmit, if_neg (Nat.not_le.mpr hhi), if_neg hmill, if_neg hhoist, if_neg hport]

theorem wrAdmit_ne_wrWait (w : Nat) : Reg.wrAdmit w ≠ Reg.wrWait w := by
  unfold Reg.wrAdmit Reg.wrWait
  omega

theorem weirAdmit_admitsEdge (wait : Nat) (hlo : 17 ≤ w) (hhi : w < 42) (hpx : w < 31 ∨ 39 ≤ w)
    (hwait : s.waiting w = p :: rest) (hrow : s.edgeRow w p = some r) (hshut : has s.leat.shut w = false)
    (hitem : p.off ≠ 0 ∨ has s.leat.closing w = false ∧ s.destClosed p.dest = false) (hruns : s.pw.fabricPaused = false)
    (htoken : s.hasToken w r = true) (hcredit : s.hasCredit w p.dest = true) (hfits : s.classFits p.cls p.dest = true)
    (hroom : s.entryRoom w p.cls = true) : Does (.weirAdmit w p.dest wait) s fun t =>
      t.waiting w = rest ∧ t.regN (Reg.wrAdmit w) = min (s.regN (Reg.wrAdmit w) + 1) 0xFFFFFFFF ∧
      Tbl.getD t.leat.tokens (rowKey w r) 0 + 1024 = Tbl.getD s.leat.tokens (rowKey w r) 0 ∧
      t.buf (entryOf w).1 (entryOf w).2 p.cls = s.buf (entryOf w).1 (entryOf w).2 p.cls ++ [{ p with weir := w }] ∧
      s.onlyChanges t [.leat, .ledger, .regs] := by
  have hfirst : p.off = 0 → (has s.leat.closing w = false ∨ has s.leat.leaving p.origin = true) ∧ s.destClosed p.dest = false :=
    fun h => (hitem.resolve_left fun hne => hne h).imp_left .inl
  have hexec := execWeirAdmit_of_edge hlo hhi hpx p.dest wait s
  have hcount : (s.bump (Reg.wrWait w) wait).regN (Reg.wrAdmit w) = s.regN (Reg.wrAdmit w) :=
    congrArg BitVec.toNat (s.reg_bump_other _ _ wait (wrAdmit_ne_wrWait w))
  rw [State.admitEdge_of_admissible (s := s.bump (Reg.wrWait w) wait) hwait hrow hshut hfirst hruns htoken hcredit hfits
    hroom] at hexec
  obtain ⟨hwaiting, hadmit, htokens, hbuf, hchanges⟩ :=
    (s.bump (Reg.wrWait w) wait).edgeAdmitted_itemEnd p rest htoken p.last p.dest
  rw [hcount] at hadmit
  exact ⟨_, hexec, hwaiting, hadmit, htokens, hbuf, .then (.bump (.refl s)) hchanges fun _ => id⟩

end

/-! ### WEIR_ADMIT of a tailrace -/

theorem State.admitMill_of_admissible {w d c r : Nat} {x : TailSlot} {s : State} (hadmit : (s.mill w).toAdmit d = some x)
    (hdests : x.dests = [(d, c, r)]) (hfits : rowFits (s.rowWord w r) { x.parcel with dest := d, cls := c, weir := w } = true)
    (htoken : s.hasToken w r = true) (hroom : s.entryRoom w c = true) : s.admitMill w d =
      ((s.takeToken w r).enterLeat w { x.parcel with dest := d, cls := c, weir := w }).setMill w
        { s.mill w with tail := dropFirst (fun y => y = x) (s.mill w).tail } := by
  have hcopy : (x.dests.find? (fun e => e.1 = d)).getD (d, 0, 0) = (d, c, r) := by simp [hdests]
  have hlast : dropFirst (fun e => e.1 = d) x.dests = [] := by simp [hdests, dropFirst]
  unfold State.admitMill
  rw [hadmit]
  dsimp only
  rw [hcopy, hlast, if_pos ⟨hfits, htoken, hroom⟩, if_pos rfl]
  rfl

theorem execWeirAdmit_of_mill {w : Nat} {s : State} (hw : w < 16) (hworks : s.millWorks w = true)
    (hshut : has s.leat.shut w = false) (dest wait : Nat) : exec (.weirAdmit w dest wait) s =
      .next (((s.bump (Reg.wrWait w) wait).bump (Reg.mlTailStall w) wait).admitMill w dest) := by
  show execWeirAdmit w dest wait s = _
  have hlt : ¬ 42 ≤ w := by omega
  unfold execWeirAdmit
  rw [if_neg hlt]
  extract_lets b b'
  rw [if_pos hw]
  exact if_pos ⟨hworks, hshut⟩

theorem weirAdmit_admitsTailrace {w d c r : Nat} (wait : Nat) {x : TailSlot} {s : State} (hw : w < 16)
    (hworks : s.millWorks w = true) (hshut : has s.leat.shut w = false) (hadmit : (s.mill w).toAdmit d = some x) (hdests : x.dests = [(d, c, r)])
    (hfits : rowFits (s.rowWord w r) { x.parcel with dest := d, cls := c, weir := w } = true) (htoken : s.hasToken w r = true)
    (hroom : s.entryRoom w c = true) : Does (.weirAdmit w d wait) s fun t =>
      t.buf w 0 c = s.buf w 0 c ++ [{ x.parcel with dest := d, cls := c, weir := w }] ∧
      (t.mill w).tail.length + 1 = (s.mill w).tail.length ∧ s.onlyChanges t [.leat, .mills, .regs] := by
  have hexec := execWeirAdmit_of_mill hw hworks hshut d wait
  have hentry : entryOf w = (w, 0) := if_pos hw
  generalize hb : (s.bump (Reg.wrWait w) wait).bump (Reg.mlTailStall w) wait = b at hexec
  have hleat : b.leat = s.leat := hb ▸ rfl
  have hmills : b.mill w = s.mill w := hb ▸ rfl
  have hchanges : s.onlyChanges b [.leat, .mills, .regs] := hb ▸ .bump (.bump (.refl s))
  rw [State.admitMill_of_admissible (hb ▸ hadmit) hdests (hb ▸ hfits) (hb ▸ htoken) (hb ▸ hroom)] at hexec
  refine ⟨_, hexec, ?_, ?_, .setMill (.enterLeat (.takeToken hchanges))⟩
  · show State.buf (State.enterLeat _ w _) w 0 c = _
    simp only [State.enterLeat, hentry, State.buf, State.setBuf, Tbl.getD_set_same, ← hleat]
    rfl
  · rw [State.mill_setMill_same, hmills]
    exact length_dropFirst (List.mem_of_find?_eq_some hadmit) (decide_eq_true rfl)

theorem execWeirAdmit_answers (w dest wait : Nat) (s : State) :
    s.Answers (execWeirAdmit w dest wait s) [.regs, .mem, .ledger, .mills, .leat, .tiers, .px, .freeN] :=
  .ite (.next (.refl s)) (.ite (.ite (.next (.admitMill (.bump (.bump (.refl s))))) (.next (.bump (.bump (.refl s)))))
    (.ite (.next (.hoistPass (.bump (.refl s))))
      (.ite (.next (.pxDrain (.bump (.refl s)))) (.next (.admitEdge (.bump (.refl s)))))))

/-! ### ROUTER_HOP -/

/-- A neighbour is another router, and the parcel enters it at none of its inputs beyond 4. -/
theorem neighbour_spec {k out : Nat} {n : Nat × Nat} (h : neighbour k out = some n) : n.1 ≠ k ∧ n.2 < 5 := by
  unfold neighbour at h
  split at h
  case h_5 => exact absurd h (Option.some_ne_none n).symm
  all_goals
    obtain ⟨hk, hn⟩ := Option.ite_none_right_eq_some.mp h
    rw [← Option.some.inj hn]
    dsimp only
    omega

theorem bufKey_ne {k k' i i' : Nat} (hk : k' ≠ k) (hi : i < 5) (hi' : i' < 5) (c : Nat) : bufKey k' i' c ≠ bufKey k i c := by
  unfold bufKey
  omega

theorem State.neighbour_of_canHop {s : State} {k out input c : Nat} {p : Parcel} {rest : List Parcel}
    (hhead : s.buf k input c = p :: rest) (hcan : s.canHop k out input c = true) (hfar : (attachOf (p.dest % 32)).1 ≠ k) :
    ∃ n, neighbour k out = some n := by
  simp only [State.canHop, hhead, if_neg hfar, Bool.and_eq_true] at hcan
  cases h : neighbour k out with
  | none => exact absurd hcan.2 (by simp [h])
  | some n => exact ⟨n, rfl⟩

/-- Router k has sent the parcel at the head of an input's buffer: the rest stays there. -/
def State.sentHead (s : State) (k out input c : Nat) (rest : List Parcel) (both : Bool) : State :=
  (s.setBuf k input c rest).countHop k out c both

/-- A parcel that leaves router k goes to its destination's link, or to the neighbour's input (R97). -/
def State.passOn (s : State) (k out c : Nat) (p : Parcel) : State :=
  if (attachOf (p.dest % 32)).1 = k then s.arrive p
  else match neighbour k out with
    | some n => s.setBuf n.1 n.2 c (s.buf n.1 n.2 c ++ [p])
    | none => s

section
variable {k out input c : Nat} {p : Parcel} {rest : List Parcel} {s : State}

theorem execRouterHop_of_head (wait : Nat) (hclass : s.hopClass k out = some c) (hcan : s.canHop k out input c = true)
    (hhead : s.buf k input c = p :: rest) : ∃ both, exec (.routerHop k out input wait) s =
      .next (((s.bump (Reg.ltRouterStall (k % 16)) wait).sentHead k out input c rest both).passOn k out c p) := by
  show ∃ both, execRouterHop k out input wait s = _
  unfold execRouterHop
  extract_lets b
  have hclass' : b.hopClass k out = some c := hclass
  have hcan' : b.canHop k out input c = true := hcan
  have hhead' : b.buf k input c = p :: rest := hhead
  rw [hclass']
  dsimp only
  rw [if_pos hcan', hhead']
  dsimp only
  by_cases hnear : (attachOf (p.dest % 32)).1 = k
  · simp only [State.passOn, if_pos hnear]
    exact ⟨_, rfl⟩
  · obtain ⟨n, hn⟩ := State.neighbour_of_canHop hhead hcan hnear
    simp only [State.passOn, if_neg hnear, hn]
    exact ⟨_, rfl⟩

theorem routerHop_movesOne (wait : Nat) (hinput : input < 5) (hclass : s.hopClass k out = some c)
    (hcan : s.canHop k out input c = true) (hhead : s.buf k input c = p :: rest) : Does (.routerHop k out input wait) s fun t =>
      t.buf k input c = rest ∧
      ((attachOf (p.dest % 32)).1 = k → Tbl.getD t.leat.arrived p.dest [] = Tbl.getD s.leat.arrived p.dest [] ++ [p]) ∧
      (∀ n, (attachOf (p.dest % 32)).1 ≠ k → neighbour k out = some n → t.buf n.1 n.2 c = s.buf n.1 n.2 c ++ [p]) ∧
      s.onlyChanges t [.leat, .regs] := by
  obtain ⟨both, hexec⟩ := execRouterHop_of_head wait hclass hcan hhead
  generalize ht : State.sentHead _ k out input c rest both = t at hexec
  have hbufs : t.leat.bufs = Tbl.set s.leat.bufs (bufKey k input c) rest := ht ▸ rfl
  have harrived : t.leat.arrived = s.leat.arrived := ht ▸ rfl
  have hchanges : s.onlyChanges t [.leat, .regs] := ht ▸ .countHop (.setBuf (.bump (.refl s)))
  have hrest : t.buf k input c = rest := by rw [State.buf, hbufs, Tbl.getD_set_same]
  by_cases hnear : (attachOf (p.dest % 32)).1 = k
  · simp only [State.passOn, if_pos hnear] at hexec
    refine ⟨_, hexec, hrest, fun _ => ?_, fun n hfar => absurd hnear hfar, .arrive hchanges⟩
    rw [← harrived]
    exact Tbl.getD_set_same ..
  · obtain ⟨n, hn⟩ := State.neighbour_of_canHop hhead hcan hnear
    obtain ⟨hother, hside⟩ := neighbour_spec hn
    simp only [State.passOn, if_neg hnear, hn] at hexec
    refine ⟨_, hexec, ?_, fun h => absurd h hnear, fun n' _ hn' => ?_, .setBuf hchanges⟩
    · exact (Tbl.getD_set_other _ _ _ _ _ (bufKey_ne (Ne.symm hother) hside hinput c)).trans hrest
    · rw [← Option.some.inj (hn.symm.trans hn')]
      have hkept : t.buf n.1 n.2 c = s.buf n.1 n.2 c := by
        rw [State.buf, hbufs]
        exact Tbl.getD_set_other _ _ _ _ _ (bufKey_ne hother hinput hside c)
      rw [← hkept]
      exact Tbl.getD_set_same ..

end

theorem execRouterHop_answers (k out input wait : Nat) (s : State) :
    s.Answers (execRouterHop k out input wait s) [.regs, .leat] := by
  unfold execRouterHop
  extract_lets b
  have hb : s.onlyChanges b [.regs, .leat] := .bump (.refl s)
  split
  · exact .next hb
  · dsimp only
    split
    · exact .next hb
    · refine .ite (.next (.arrive (.countHop (.setBuf hb)))) ?_
      split
      · exact .next (.setBuf (.countHop (.setBuf hb)))
      · exact .next hb

/-! ### HOPPER_WRITE -/

/-- A parcel that came by weir w stands in a slot of its hopper queue. -/
def State.inSlot (s : State) (p : Parcel) (w : Nat) : State :=
  let x := s.mill (p.dest % 32)
  let q := p.dest / 32 % 8
  (s.setMill (p.dest % 32) { x with hopper := Tbl.set x.hopper q (Tbl.getD x.hopper q [] ++ [{ p with weir := w }]) }).move
    (8 * (p.dest % 32) + q) .inFlight .held 1

/-- A mill that takes parcels: neither failed nor holding nothing. -/
def Mill.takes (x : Mill) : Prop := x.state ≠ .fault ∧ x.state ≠ .empty ∧ x.state ≠ .evacuated

theorem State.hopperWrite_of_takes {s : State} {p : Parcel} (h : (s.mill (p.dest % 32)).takes) (w : Nat) :
    s.hopperWrite p w = s.inSlot p w := by
  obtain ⟨hfault, hempty, hevac⟩ := h
  exact if_neg fun hor => hor.elim hfault fun hor => hor.elim hempty hevac

theorem State.inSlot_spec {s : State} {p : Parcel} (hd : p.dest < 256) (w : Nat) :
    (s.inSlot p w).mill (p.dest % 32) =
      { s.mill (p.dest % 32) with
        hopper := Tbl.set (s.mill (p.dest % 32)).hopper (p.dest / 32)
          (Tbl.getD (s.mill (p.dest % 32)).hopper (p.dest / 32) [] ++ [{ p with weir := w }]) } ∧
    (s.inSlot p w).pool (8 * (p.dest % 32) + p.dest / 32) =
      (s.pool (8 * (p.dest % 32) + p.dest / 32)).move .inFlight .held 1 := by
  have hq : p.dest / 32 % 8 = p.dest / 32 := Nat.mod_eq_of_lt (by omega)
  simp only [State.inSlot, hq]
  exact ⟨State.mill_setMill_same .., State.pool_move_same ..⟩

theorem State.inSlot_onlyChanges (s : State) (p : Parcel) (w : Nat) : s.onlyChanges (s.inSlot p w) [.mills, .ledger] :=
  .move (.setMill (.refl s))

theorem hopperWrite_fromLeat {d : Nat} (m cycles : Nat) {p : Parcel} {rest : List Parcel} {s : State} (hd : d < 256)
    (he : d % 32 < 16) (harr : Tbl.getD s.leat.arrived d [] = p :: rest) (hp : p.dest = d) (htakes : (s.mill (d % 32)).takes) :
    Does (.hopperWrite d false m cycles) s fun t =>
      Tbl.getD t.leat.arrived d [] = rest ∧
      Tbl.getD (t.mill (d % 32)).hopper (d / 32) [] = Tbl.getD (s.mill (d % 32)).hopper (d / 32) [] ++ [p] ∧
      t.pool (8 * (d % 32) + d / 32) = (s.pool (8 * (d % 32) + d / 32)).move .inFlight .held 1 ∧
      s.onlyChanges t [.mills, .ledger, .leat, .regs] := by
  subst hp
  show ∃ t, execHopperWrite p.dest false m cycles s = .next t ∧ _
  unfold execHopperWrite
  rw [if_neg Bool.false_ne_true, harr]
  dsimp only
  rw [if_pos he]
  generalize hu : State.latPeak _ p.cls p.weir cycles = u
  have hpeak := hu ▸ State.latPeak_onlyChanges
    { s with leat := { s.leat with arrived := Tbl.set s.leat.arrived p.dest rest } } p.cls p.weir cycles
  have hleat : u.leat = { s.leat with arrived := Tbl.set s.leat.arrived p.dest rest } := hpeak .leat (by decide)
  have hmill : u.mill (p.dest % 32) = s.mill (p.dest % 32) := congrArg (Tbl.getD · _ _) (hpeak .mills (by decide))
  have hpool : u.pool (8 * (p.dest % 32) + p.dest / 32) = s.pool (8 * (p.dest % 32) + p.dest / 32) :=
    congrArg (fun l : Ledger => Tbl.getD l.pools _ _) (hpeak .ledger (by decide))
  have hchanges : s.onlyChanges u [.mills, .ledger, .leat, .regs] := hu ▸ .latPeak (.setLeat (.refl s))
  obtain ⟨hslot, hheld⟩ := u.inSlot_spec hd p.weir
  rw [State.hopperWrite_of_takes (hmill ▸ htakes)]
  refine ⟨_, rfl, ?_, ?_, ?_, hchanges.then (u.inSlot_onlyChanges p p.weir) (by decide)⟩
  · show Tbl.getD u.leat.arrived _ _ = _
    rw [hleat]
    exact Tbl.getD_set_same ..
  · rw [hslot, hmill]
    exact Tbl.getD_set_same ..
  · rw [hheld, hpool]

theorem hopperWrite_fromLoopback {d m : Nat} (cycles : Nat) {p : Parcel} {s : State} (hd : d < 256) (hm : d % 32 = m)
    (hfind : (s.mill m).loop.find? (fun x => x.dest = d) = some p) (htakes : (s.mill m).takes) :
    Does (.hopperWrite d true m cycles) s fun t =>
      (t.mill m).loop = dropFirst (fun x => x.dest = d) (s.mill m).loop ∧
      Tbl.getD (t.mill m).hopper (d / 32) [] = Tbl.getD (s.mill m).hopper (d / 32) [] ++ [{ p with weir := m }] ∧
      t.pool (8 * m + d / 32) = (s.pool (8 * m + d / 32)).move .inFlight .held 1 ∧ s.onlyChanges t [.mills, .ledger] := by
  have hp := List.find?_some hfind
  rw [decide_eq_true_eq] at hp
  subst hp hm
  show ∃ t, execHopperWrite p.dest true (p.dest % 32) cycles s = .next t ∧ _
  unfold execHopperWrite
  rw [if_pos rfl, hfind]
  dsimp only
  rw [if_pos rfl]
  generalize hu : State.setMill s _ _ = u
  have hmill : u.mill (p.dest % 32) = { s.mill (p.dest % 32) with
      loop := dropFirst (fun x => x.dest = p.dest) (s.mill (p.dest % 32)).loop } := hu ▸ State.mill_setMill_same ..
  have hpool : u.pool (8 * (p.dest % 32) + p.dest / 32) = s.pool (8 * (p.dest % 32) + p.dest / 32) := hu ▸ rfl
  have hchanges : s.onlyChanges u [.mills, .ledger] := hu ▸ .setMill (.refl s)
  obtain ⟨hslot, hheld⟩ := u.inSlot_spec hd (p.dest % 32)
  rw [State.hopperWrite_of_takes (hmill ▸ htakes)]
  refine ⟨_, rfl, ?_, ?_, ?_, hchanges.then (u.inSlot_onlyChanges p (p.dest % 32)) fun _ => id⟩
  · rw [hslot, hmill]
  · rw [hslot, hmill]
    exact Tbl.getD_set_same ..
  · rw [hheld, hpool]

theorem execHopperWrite_answers (dest m cycles : Nat) (loop : Bool) (s : State) :
    s.Answers (execHopperWrite dest loop m cycles s) [.regs, .mem, .ledger, .ev, .hp, .mills, .leat] := by
  refine .ite ?_ ?_
  · split
    · exact .next (.refl s)
    · exact .ite (.next (.hopperWrite (.setMill (.refl s)))) (.next (.refl s))
  · split
    · exact .next (.refl s)
    · next p rest _ =>
      extract_lets _ t
      have ht : s.onlyChanges t [.regs, .mem, .ledger, .ev, .hp, .mills, .leat] := .setLeat (.refl s)
      exact .ite (.next (.hopperWrite (.latPeak ht))) (.ite (.next (.itemResult ht)) (.next (.refl s)))

/-! ### SLOT_FREE -/

section
variable {m q : Nat} {p : Parcel} {rest : List Parcel} {s : State}

theorem State.slotBack_of_open (hopen : (s.mill m).state ≠ .closed) : s.slotBack m q p =
    ({ s.move (8 * m + q) .held .returned 1 with leat := { s.leat with
      returning := Tbl.set s.leat.returning (creditKey (8 * m + q) p.weir)
        (Tbl.getD s.leat.returning (creditKey (8 * m + q) p.weir) 0 + 1) } } : State).move (8 * m + q) .returned .inFlight 1 :=
  if_neg hopen

theorem State.slotBack_of_closed (hclosed : (s.mill m).state = .closed) : s.slotBack m q p =
    ({ s.move (8 * m + q) .held .returned 1 with leat := { s.leat with
      parked := Tbl.set s.leat.parked (creditKey (8 * m + q) p.weir)
        (Tbl.getD s.leat.parked (creditKey (8 * m + q) p.weir) 0 + 1) } } : State).move (8 * m + q) .returned .parked 1 :=
  if_pos hclosed

/-- Mill m has read a parcel of queue q: the rest is being read still. -/
def State.endRead (s : State) (m q : Nat) (rest : List Parcel) : State :=
  s.setMill m { s.mill m with reading := Tbl.set (s.mill m).reading q rest }

theorem State.mill_endRead (s : State) (m q : Nat) (rest : List Parcel) :
    (s.endRead m q rest).mill m = { s.mill m with reading := Tbl.set (s.mill m).reading q rest } :=
  State.mill_setMill_same ..

theorem execSlotFree_of_read (hread : Tbl.getD (s.mill m).reading q [] = p :: rest) :
    exec (.slotFree m q) s = .next ((s.endRead m q rest).slotBack m q p) := by
  show execSlotFree m q s = _
  unfold execSlotFree
  extract_lets x
  have hread' : Tbl.getD x.reading q [] = p :: rest := hread
  rw [hread']
  rfl

theorem slotFree_returns (hread : Tbl.getD (s.mill m).reading q [] = p :: rest) (hopen : (s.mill m).state ≠ .closed) :
    Does (.slotFree m q) s fun t =>
      Tbl.getD (t.mill m).reading q [] = rest ∧
      t.pool (8 * m + q) = ((s.pool (8 * m + q)).move .held .returned 1).move .returned .inFlight 1 ∧
      Tbl.getD t.leat.returning (creditKey (8 * m + q) p.weir) 0 = Tbl.getD s.leat.returning (creditKey (8 * m + q) p.weir) 0 + 1 ∧
      s.onlyChanges t [.mills, .ledger, .leat] := by
  have hmill := s.mill_endRead m q rest
  have hexec := execSlotFree_of_read hread
  rw [State.slotBack_of_open (hmill ▸ hopen)] at hexec
  refine ⟨_, hexec, ?_, ?_, Tbl.getD_set_same .., .move (.setLeat (.move (.setMill (.refl s))))⟩
  · exact (congrArg (fun x : Mill => Tbl.getD x.reading q []) hmill).trans (Tbl.getD_set_same ..)
  · exact (State.pool_move_same ..).trans (congrArg (·.move .returned .inFlight 1) (State.pool_move_same ..))

theorem slotFree_parks (hread : Tbl.getD (s.mill m).reading q [] = p :: rest) (hclosed : (s.mill m).state = .closed) :
    Does (.slotFree m q) s fun t =>
      t.pool (8 * m + q) = ((s.pool (8 * m + q)).move .held .returned 1).move .returned .parked 1 ∧
      Tbl.getD t.leat.parked (creditKey (8 * m + q) p.weir) 0 = Tbl.getD s.leat.parked (creditKey (8 * m + q) p.weir) 0 + 1 ∧
      t.leat.returning = s.leat.returning := by
  have hexec := execSlotFree_of_read hread
  rw [State.slotBack_of_closed (s.mill_endRead m q rest ▸ hclosed)] at hexec
  exact ⟨_, hexec, (State.pool_move_same ..).trans (congrArg (·.move .returned .parked 1) (State.pool_move_same ..)),
    Tbl.getD_set_same .., rfl⟩

end

theorem execSlotFree_answers (m q : Nat) (s : State) : s.Answers (execSlotFree m q s) [.ledger, .mills, .leat] := by
  unfold execSlotFree
  extract_lets x
  split
  · exact .next (.refl s)
  · exact .next (.slotBack (.setMill (.refl s)))

/-! ### CREDIT_ARRIVE -/

/-- A credit of pool p has left the sideband to weir w. -/
def State.creditIn (s : State) (p w : Nat) : State :=
  { s with leat := { s.leat with
      returning := Tbl.set s.leat.returning (creditKey p w) (Tbl.getD s.leat.returning (creditKey p w) 0 - 1) } }

/-- Whether a credit of pool p that arrives at weir w is parked (log entry 20): its mill is closed with nothing left to emit, or it
goes toward a closed sluice and no producer that holds its credits is in the midst of an item. -/
def State.parksCredit (s : State) (p w : Nat) : Prop :=
  (w < 16 ∧ (s.mill w).state = .closed ∧ (s.mill w).spent = true) ∨
  ((decide (p < 128) && decide (w = p / 8)) = false ∧ s.poolShut p = true ∧
    (List.range 42).any (fun v => holderOf v = holderOf w && s.emitting v p) = false)

section
variable {p w : Nat} {s : State}

theorem execCreditArrive_of_parks (hsent : 0 < Tbl.getD s.leat.returning (creditKey p w) 0) (hparks : s.parksCredit p w) :
    exec (.creditArrive p w) s = .next (({ s.creditIn p w with leat := { (s.creditIn p w).leat with
      parked := Tbl.set s.leat.parked (creditKey p w) (Tbl.getD s.leat.parked (creditKey p w) 0 + 1) } } : State).move
        p .inFlight .parked 1) :=
  (if_neg hsent.ne').trans (if_pos hparks)

theorem execCreditArrive_of_used (hsent : 0 < Tbl.getD s.leat.returning (creditKey p w) 0) (hused : ¬ s.parksCredit p w) :
    exec (.creditArrive p w) s =
      .next (((s.creditIn p w).setCredits p w (s.credits p w + 1)).move p .inFlight .held 1) :=
  (if_neg hsent.ne').trans (if_neg hused)

theorem creditArrive_held (hsent : 0 < Tbl.getD s.leat.returning (creditKey p w) 0)
    (hmill : 16 ≤ w ∨ (s.mill w).state ≠ .closed ∨ (s.mill w).spent = false)
    (hpool : s.poolShut p = false ∨ p < 128 ∧ w = p / 8) : Does (.creditArrive p w) s fun t =>
      t.credits p w = s.credits p w + 1 ∧ t.pool p = (s.pool p).move .inFlight .held 1 ∧
      Tbl.getD t.leat.returning (creditKey p w) 0 + 1 = Tbl.getD s.leat.returning (creditKey p w) 0 ∧
      s.onlyChanges t [.leat, .ledger] := by
  have hused : ¬ s.parksCredit p w := by
    rintro (⟨hlt, hclosed, hspent⟩ | ⟨hother, hshut, -⟩)
    · rcases hmill with hge | hopen | hleft
      · exact absurd hlt (Nat.not_lt.mpr hge)
      · exact hopen hclosed
      · exact absurd (hleft.symm.trans hspent) (by decide)
    · rcases hpool with hopen | ⟨hp, hw⟩
      · exact absurd (hopen.symm.trans hshut) (by decide)
      · simp [← hw, hp] at hother
  refine ⟨_, execCreditArrive_of_used hsent hused, State.credits_setCredits_same .., State.pool_move_same .., ?_,
    .move (.setCredits (.setLeat (.refl s)))⟩
  exact (congrArg (· + 1) (Tbl.getD_set_same ..)).trans (Nat.sub_add_cancel hsent)

theorem creditArrive_parked (hsent : 0 < Tbl.getD s.leat.returning (creditKey p w) 0)
    (hparks : w < 16 ∧ (s.mill w).state = .closed ∧ (s.mill w).spent = true ∨
      s.poolShut p = true ∧ (128 ≤ p ∨ w ≠ p / 8) ∧ ∀ v, v < 42 → s.emitting v p = false) : Does (.creditArrive p w) s fun t =>
      t.credits p w = s.credits p w ∧ t.pool p = (s.pool p).move .inFlight .parked 1 ∧
      Tbl.getD t.leat.parked (creditKey p w) 0 = Tbl.getD s.leat.parked (creditKey p w) 0 + 1 ∧
      s.onlyChanges t [.leat, .ledger] := by
  have hparks' : s.parksCredit p w := by
    refine hparks.imp_right fun ⟨hshut, hother, hemits⟩ => ⟨?_, hshut, ?_⟩
    · rw [Bool.and_eq_false_iff, decide_eq_false_iff_not, decide_eq_false_iff_not]
      exact hother.imp_left Nat.not_lt.mpr
    · refine List.any_eq_false.mpr fun v hv => ?_
      rw [hemits v (List.mem_range.mp hv), Bool.and_false]
      decide
  have hchanges : s.onlyChanges (s.creditIn p w) [.leat, .ledger] := .setLeat (.refl s)
  exact ⟨_, execCreditArrive_of_parks hsent hparks', rfl, State.pool_move_same .., Tbl.getD_set_same ..,
    .move (.setLeat hchanges)⟩

end

theorem execCreditArrive_answers (p w : Nat) (s : State) : s.Answers (execCreditArrive p w s) [.ledger, .leat] :=
  .ite (.next (.refl s)) (.ite (.next (.move (.setLeat (.setLeat (.refl s))))) (.next (.move (.setCredits (.setLeat (.refl s))))))

/-! ### The family -/

/-- Settles O41: each clause is the equation of its command, and a command's frame is that of the operations it is made of. -/
theorem parcelsMove : Obligations.ParcelsMove := by
  unfold Obligations.ParcelsMove
  refine ⟨fun _ _ wait _ _ _ _ _ _ => tailraceEmit_takesCredit wait, fun m i wait d c r x s htail hdests h => ?_,
    fun _ _ wait _ _ _ => weirAdmit_admitsEdge wait, fun _ _ _ _ wait _ _ => weirAdmit_admitsTailrace wait,
    fun _ _ _ wait _ _ _ _ => routerHop_movesOne wait, fun m cycles d p rest s hd he harr hp hfault hempty hevac => ?_,
    fun m cycles d p s hd hm _ hfind hfault hempty hevac => ?_, fun _ _ _ _ _ => slotFree_returns,
    fun _ _ _ _ _ => slotFree_parks, fun _ _ _ => creditArrive_held, fun _ _ _ => creditArrive_parked,
    execTailraceEmit_answers, execWeirAdmit_answers, execRouterHop_answers, execHopperWrite_answers, execSlotFree_answers,
    execCreditArrive_answers⟩
  · exact ⟨_, execTailraceEmit_of_heldBack wait htail hdests h, .bump (.refl s)⟩
  · exact hopperWrite_fromLeat m cycles hd he harr hp ⟨hfault, hempty, hevac⟩
  · exact hopperWrite_fromLoopback cycles hd hm hfind ⟨hfault, hempty, hevac⟩

end Sys2Proof.Machine
end

section
/-!
PROOF. What the operations of the loader may change: `State.onlyChanges.f` for them and for the operations on streams, sequences and
mills that they are made of, under the headings of the model's files.
-/
-- One proof at a time, as in the tests: proofs that wait for the kernel side by side each hold a thread and its stack.
set_option Elab.async false
namespace Sys2Proof.Machine

section
variable {s₀ s : State} {ps : List Part} (h : s₀.onlyChanges s ps)
include h

/-! ### One part set -/

theorem State.onlyChanges.setLoader {x : Loader} (hp : .loader ∈ ps := by decide) : s₀.onlyChanges { s with loader := x } ps := by
  intro p hn
  cases p with
  | loader => exact absurd hp hn
  | _ => exact h _ hn

theorem State.onlyChanges.setOps {x : Ops} (hp : .ops ∈ ps := by decide) : s₀.onlyChanges { s with ops := x } ps := by
  intro p hn
  cases p with
  | ops => exact absurd hp hn
  | _ => exact h _ hn

theorem State.onlyChanges.setStreams {x : Tbl Stream} (hp : .streams ∈ ps := by decide) :
    s₀.onlyChanges { s with streams := x } ps := by
  intro p hn
  cases p with
  | streams => exact absurd hp hn
  | _ => exact h _ hn

theorem State.onlyChanges.setBolters {x : Tbl Bolter} (hp : .bolters ∈ ps := by decide) :
    s₀.onlyChanges { s with bolters := x } ps := by
  intro p hn
  cases p with
  | bolters => exact absurd hp hn
  | _ => exact h _ hn

theorem State.onlyChanges.setSn {x : Sensors} (hp : .sn ∈ ps := by decide) : s₀.onlyChanges { s with sn := x } ps := by
  intro p hn
  cases p with
  | sn => exact absurd hp hn
  | _ => exact h _ hn

/-! ### Two parts or more set at once -/

theorem State.onlyChanges.setLeatTiers {x : Leat} {y : Tiers} (hq : [.leat, .tiers] ⊆ ps := by decide) :
    s₀.onlyChanges { s with leat := x, tiers := y } ps := by
  intro p hn
  cases p with
  | leat | tiers => exact absurd (hq (by decide)) hn
  | _ => exact h _ hn

theorem State.onlyChanges.setLeatSn {x : Leat} {y : Sensors} (hq : [.leat, .sn] ⊆ ps := by decide) :
    s₀.onlyChanges { s with leat := x, sn := y } ps := by
  intro p hn
  cases p with
  | leat | sn => exact absurd (hq (by decide)) hn
  | _ => exact h _ hn

theorem State.onlyChanges.setLeatGov {x : Leat} {y : Gov} (hq : [.leat, .gov] ⊆ ps := by decide) :
    s₀.onlyChanges { s with leat := x, gov := y } ps := by
  intro p hn
  cases p with
  | leat | gov => exact absurd (hq (by decide)) hn
  | _ => exact h _ hn

/-- What UNLOAD leaves empty. -/
theorem State.onlyChanges.setUnloaded {l : Leat} {x : Loader} {o : Ops} {t : Tiers} {b : Tbl Bolter} {g : Gov} {n : Sensors}
    (hq : [.leat, .loader, .ops, .tiers, .bolters, .gov, .sn] ⊆ ps := by decide) :
    s₀.onlyChanges { s with leat := l, loader := x, ops := o, tiers := t, bolters := b, gov := g, sn := n } ps := by
  intro p hn
  cases p with
  | leat | loader | ops | tiers | bolters | gov | sn => exact absurd (hq (by decide)) hn
  | _ => exact h _ hn

/-! ### Machine, Ops and Shared -/

theorem State.onlyChanges.clearRegs {lo hi : Nat} (hq : [.regs, .hold] ⊆ ps := by decide) :
    s₀.onlyChanges (s.clearRegs lo hi) ps := by
  intro p hn
  cases p with
  | regs | hold => exact absurd (hq (by decide)) hn
  | _ => exact h _ hn

theorem State.onlyChanges.setPool {p : Nat} {x : Pool} (hp : .ledger ∈ ps := by decide) : s₀.onlyChanges (s.setPool p x) ps :=
  .setLedger h hp

theorem State.onlyChanges.resize {p n : Nat} (hq : [.regs, .ledger, .ev] ⊆ ps := by decide) : s₀.onlyChanges (s.resize p n) ps :=
  h.then (.ite (.refl s) (.ite (.refl s) (.record (.setPool (.refl s))))) hq

theorem State.onlyChanges.releasePool {p : Nat} (hq : [.regs, .ledger, .ev] ⊆ ps := by decide) :
    s₀.onlyChanges (s.releasePool p) ps :=
  h.then (.ite (.refl s) (.record (.move (.refl s)))) hq

theorem State.onlyChanges.faultReconcile {p n : Nat} (hq : [.regs, .ledger, .ev] ⊆ ps := by decide) :
    s₀.onlyChanges (s.faultReconcile p n) ps :=
  h.then (.ite (.setLedger (.setPool (.record (.refl s)))) (.refl s)) hq

theorem State.onlyChanges.sizePool {p n : Nat} (hq : [.regs, .ledger, .ev] ⊆ ps := by decide) :
    s₀.onlyChanges (s.sizePool p n) ps :=
  .ite (.faultReconcile h hq) (.resize h hq)

theorem State.onlyChanges.finishAt {ctx idx status result : Nat} (hp : .hp ∈ ps := by decide) :
    s₀.onlyChanges (s.finishAt ctx idx status result) ps := by
  unfold State.finishAt
  split
  · exact .finish h hp
  · exact h

theorem State.onlyChanges.stopPipelines {l : List Node} (hq : [.mills, .streams] ⊆ ps := by decide) :
    s₀.onlyChanges (s.stopPipelines l) ps :=
  h.then (.setStreams (.foldl (fun _ _ h => .setMill h) (.refl s))) hq

/-! ### Machine, Sensors -/

theorem State.onlyChanges.tear {n : Nat} (hq : [.regs, .sn] ⊆ ps := by decide) : s₀.onlyChanges (s.tear n) ps := by
  refine h.then ?_ hq
  unfold State.tear
  dsimp only
  split
  · exact .refl s
  · exact .setReg (.setSn (.refl s))

/-! ### Machine, Resets -/

theorem State.onlyChanges.reclaimTwo {p n f code : Nat} (hq : [.regs, .ledger, .ev] ⊆ ps := by decide) :
    s₀.onlyChanges (s.reclaimTwo p n f code) ps :=
  h.then (.ite (.refl s) (.record (.setLedger (.move (.move (.refl s)))))) hq

theorem State.onlyChanges.resetMill {m : Nat} {keep : MillState}
    (hq : [.regs, .hold, .ledger, .ev, .mills, .leat, .tiers] ⊆ ps := by decide) : s₀.onlyChanges (s.resetMill m keep) ps :=
  h.then (.setMill (.setLeatTiers (.clearRegs (.foldl (fun _ _ h => .reclaimTwo h) (.refl s))))) hq

theorem State.onlyChanges.releaseMills (hq : [.regs, .ledger, .ev] ⊆ ps := by decide) : s₀.onlyChanges s.releaseMills ps :=
  h.then (.foldl (fun _ _ h => .releasePool h) (.foldl (fun _ _ h => .ite h (.releasePool h)) (.refl s))) hq

/-! ### Machine, LoaderCore -/

theorem State.onlyChanges.ldAccept (hp : .loader ∈ ps := by decide) : s₀.onlyChanges s.ldAccept ps := .setLoader h hp

theorem State.onlyChanges.ldIgnore (hp : .loader ∈ ps := by decide) : s₀.onlyChanges s.ldIgnore ps := .setLoader h hp

theorem State.onlyChanges.ldDone (hq : [.regs, .loader] ⊆ ps := by decide) : s₀.onlyChanges s.ldDone ps :=
  h.then (.raise (.setLoader (.refl s))) hq

/-- A command that fails with a section draws no free value. -/
theorem State.onlyChanges.ldFailAt {result cause status n op : Nat} {source : Option Nat} {p : Plan} {mask : Nat}
    (hq : [.regs, .ev, .loader] ⊆ ps := by decide) :
    s₀.onlyChanges (s.ldFail result cause status (some n) op source p mask) ps :=
  h.then (.record (.raise (.setLoader (.refl s)))) hq

theorem State.onlyChanges.ldFail {result cause status : Nat} {sec : Option Nat} {op : Nat} {source : Option Nat} {p : Plan}
    {mask : Nat} (hq : [.regs, .ev, .loader, .freeN] ⊆ ps := by decide) :
    s₀.onlyChanges (s.ldFail result cause status sec op source p mask) ps := by
  refine h.then ?_ hq
  cases sec with
  | some n => exact .ldFailAt (.refl s)
  | none => exact .record (.raise (.setLoader (.drew (n := 1) (.refl s))))

theorem State.onlyChanges.uncharge (hq : [.ledger, .loader] ⊆ ps := by decide) : s₀.onlyChanges s.uncharge ps :=
  h.then (.setLoader (.foldl (fun _ _ h => .move h) (.refl s))) hq

theorem State.onlyChanges.discardStaged (hq : [.ledger, .loader] ⊆ ps := by decide) : s₀.onlyChanges s.discardStaged ps :=
  h.then (.setLoader (.uncharge (.refl s))) hq

/-! ### Machine, Fabric -/

theorem State.onlyChanges.reseed {m : Nat} {pass : Bool} (hq : [.regs, .ev, .mills] ⊆ ps := by decide) :
    s₀.onlyChanges (s.reseed m pass) ps := by
  refine h.then ?_ hq
  unfold State.reseed
  extract_lets _ _ s₁ s₂ s₃
  have h₂ : s.onlyChanges s₂ [.regs, .ev, .mills] := .ite (.setReg (.refl s)) (.bump (.setReg (.refl s)))
  exact .ite (.record (.setMill h₂)) (.setMill h₂)

theorem State.onlyChanges.dropParcels {m q : Nat} {f : Parcel → Bool} (hq : [.ledger, .mills, .leat] ⊆ ps := by decide) :
    s₀.onlyChanges (s.dropParcels m q f) ps :=
  h.then (.foldl (fun _ _ h => .slotBack h) (.setMill (.refl s))) hq

/-! ### Machine, Tiers -/

theorem State.onlyChanges.dropRun {c first n : Nat} (hq : [.ledger, .tiers] ⊆ ps := by decide) :
    s₀.onlyChanges (s.dropRun c first n) ps :=
  h.then (.move (.setTiers (.refl s))) hq

/-! ### Machine, Vision and Attention -/

theorem State.onlyChanges.setStripe {n : Node} {x : StripePos} (hp : .ops ∈ ps := by decide) :
    s₀.onlyChanges (s.setStripe n x) ps := .setOps h hp

theorem State.onlyChanges.setSeq {k : Nat} {d : SeqDesc} (hq : [.mem, .ops, .tiers] ⊆ ps := by decide) :
    s₀.onlyChanges (s.setSeq k d) ps :=
  h.then (.putMem (.setOps (.refl s))) hq

theorem State.onlyChanges.closeSeq {k : Nat} (hq : [.mem, .ledger, .ops, .tiers] ⊆ ps := by decide) :
    s₀.onlyChanges (s.closeSeq k) ps :=
  h.then (.ite (.setSeq (.setOps (.dropRun (.foldl (fun _ _ h => .dropRun h) (.refl s))))) (.refl s)) hq

theorem State.onlyChanges.endMillReads {m : Nat} (hq : [.mem, .ledger, .ops, .tiers] ⊆ ps := by decide) :
    s₀.onlyChanges (s.endMillReads m) ps :=
  h.then (.foldl (fun _ _ h => .closeSeq h) (.setOps (.refl s))) hq

theorem State.onlyChanges.discardMerges {steps : List Nat} (hq : [.regs, .ledger, .mills, .leat, .ops] ⊆ ps := by decide) :
    s₀.onlyChanges (s.discardMerges steps) ps := by
  refine h.then (.foldl (fun s _ h => ?_) (.setOps (.foldl (fun _ _ h => .bump h) (.refl s)))) hq
  split
  · exact .ite h (.foldl (fun _ _ h => .ite (.dropParcels h) h) h)
  · exact h

/-! ### Machine, Streams -/

theorem State.onlyChanges.setStrm {n : Nat} {x : Stream} (hp : .streams ∈ ps := by decide) : s₀.onlyChanges (s.setStrm n x) ps :=
  .setStreams h hp

theorem State.onlyChanges.zeroLayer {n : Nat} {c : StreamCfg} {i gen : Nat} (hq : [.mem, .streams, .tiers] ⊆ ps := by decide) :
    s₀.onlyChanges (s.zeroLayer n c i gen) ps := by
  refine h.then ?_ hq
  unfold State.zeroLayer
  split
  · exact .refl s
  · exact .setStrm (.putMem (.refl s))

theorem State.onlyChanges.zeroLayers {n : Nat} {c : StreamCfg} {gen : Nat} (hq : [.mem, .streams, .tiers] ⊆ ps := by decide) :
    s₀.onlyChanges (s.zeroLayers n c gen) ps :=
  .foldl (fun _ _ h => .zeroLayer h hq) h

theorem State.onlyChanges.chunkDone {k : Chunk} {status : Nat} (hp : .hp ∈ ps := by decide) :
    s₀.onlyChanges (s.chunkDone k status) ps := by
  unfold State.chunkDone
  split
  · exact .finishAt h hp
  · exact h

theorem State.onlyChanges.queuePages {ctx : Nat} {c : StreamCfg} {n : Nat} (hp : .ledger ∈ ps := by decide) :
    s₀.onlyChanges (s.queuePages ctx c n) ps := .move h hp

theorem State.onlyChanges.staleQueue {n ctx : Nat} {c : StreamCfg} (hq : [.regs, .ledger, .hp, .streams] ⊆ ps := by decide) :
    s₀.onlyChanges (s.staleQueue n ctx c) ps :=
  h.then (.foldl (fun _ _ h => .chunkDone (.bump h)) (.queuePages (.setStrm (.refl s)))) hq

/-! ### Machine, Loader: copies, pages and preloads -/

theorem State.onlyChanges.copyPass (hq : [.regs, .leat, .loader] ⊆ ps := by decide) : s₀.onlyChanges s.copyPass ps := by
  refine h.then ?_ hq
  unfold State.copyPass
  extract_lets
  split
  · exact .setLoader (.refl s)
  · exact .setLoader (.takeTokensOf (.refl s))

theorem State.onlyChanges.copyPage {src dst : Nat} (hq : [.mem, .freeN] ⊆ ps := by decide) :
    s₀.onlyChanges (s.copyPage src dst) ps :=
  h.then (.ite (.setLocal (.drew (.refl s))) (.setLocal (.refl s))) hq

theorem State.onlyChanges.chargePage {c : Nat} (hq : [.ledger, .loader] ⊆ ps := by decide) : s₀.onlyChanges (s.chargePage c) ps :=
  h.then (.setLoader (.move (.refl s))) hq

theorem State.onlyChanges.preloadPage {k : Nat} {e : PreloadPage}
    (hq : [.regs, .mem, .ledger, .leat, .loader, .freeN] ⊆ ps := by decide) : s₀.onlyChanges (s.preloadPage k e) ps :=
  have hpassed (x : Loader) : s.onlyChanges { (s.passWeir 16 e.cls e.ctx (64 - s.loader.passed % 64)).2 with loader := x }
      [.regs, .mem, .ledger, .leat, .loader, .freeN] := .setLoader (.passWeir (.refl s))
  h.then (.ite (.refl s) (.ite (.setLoader (.copyPage (.ite (.chargePage (hpassed _)) (hpassed _))))
    (.ite (.chargePage (hpassed _)) (hpassed _)))) hq

theorem State.onlyChanges.preloadRun {k : Nat} {es : List PreloadPage}
    (hq : [.regs, .mem, .ledger, .leat, .loader, .freeN] ⊆ ps := by decide) : s₀.onlyChanges (s.preloadRun k es) ps := by
  induction es generalizing s k with
  | nil => exact h
  | cons e es ih => exact .ite (ih (.preloadPage h hq)) (.preloadPage h hq)

theorem State.onlyChanges.preloadOn {xs : List Section}
    (hq : [.regs, .mem, .ledger, .leat, .loader, .freeN] ⊆ ps := by decide) : s₀.onlyChanges (s.preloadOn xs) ps :=
  .preloadRun h hq

theorem State.onlyChanges.preloadFrom {n : Nat} (hp : .loader ∈ ps := by decide) : s₀.onlyChanges (s.preloadFrom n) ps :=
  .setLoader h hp

theorem State.onlyChanges.chargePond {c n : Nat} (hp : .ledger ∈ ps := by decide) : s₀.onlyChanges (s.chargePond c n) ps :=
  .move h hp

theorem State.onlyChanges.releasePond {c n : Nat} (hp : .ledger ∈ ps := by decide) : s₀.onlyChanges (s.releasePond c n) ps :=
  .move h hp

/-! ### Machine, Loader: boundaries -/

theorem State.onlyChanges.parkKey {p w : Nat} (hq : [.ledger, .leat] ⊆ ps := by decide) : s₀.onlyChanges (s.parkKey p w) ps :=
  h.then (.move (.move (.setLeat (.refl s)))) hq

theorem State.onlyChanges.parkPool {p : Nat} (hq : [.ledger, .leat] ⊆ ps := by decide) : s₀.onlyChanges (s.parkPool p) ps :=
  .foldl (fun _ _ h => .parkKey h hq) h

theorem State.onlyChanges.parkSection {x : Section} (hq : [.ledger, .leat] ⊆ ps := by decide) :
    s₀.onlyChanges (s.parkSection x) ps :=
  h.then (.foldl (fun _ _ h => .ite (.parkKey h) (.ite (.parkPool h) (.move (.move h)))) (.refl s)) hq

theorem State.onlyChanges.unparkKey {p w : Nat} {now : Bool} (hq : [.ledger, .leat] ⊆ ps := by decide) :
    s₀.onlyChanges (s.unparkKey p w now) ps :=
  h.then (.ite (.refl s) (.ite (.move (.setCredits (.setLeat (.refl s)))) (.move (.setLeat (.setLeat (.refl s)))))) hq

theorem State.onlyChanges.unparkSection {x : Section} (hq : [.ledger, .leat] ⊆ ps := by decide) :
    s₀.onlyChanges (s.unparkSection x) ps :=
  h.then (.foldl (fun _ _ h => .ite (.unparkKey h) (.ite (.foldl (fun _ _ h => .unparkKey h) h) (.move h))) (.refl s)) hq

theorem State.onlyChanges.grantItems {p w n : Nat} (hq : [.ledger, .leat] ⊆ ps := by decide) :
    s₀.onlyChanges (s.grantItems p w n) ps :=
  h.then (.ite (.setCredits (.move (.refl s))) (.move (.refl s))) hq

theorem State.onlyChanges.regrant {old new : List Section} (hq : [.regs, .ledger, .ev, .leat] ⊆ ps := by decide) :
    s₀.onlyChanges (s.regrant old new) ps := by
  refine h.then (.foldl (fun _ _ h => .foldl (fun _ _ h => .grantItems h) h) (.foldl (fun t p h => ?_) (.refl s))) hq
  extract_lets _ s₁ _ _ s₂
  have h₁ : s.onlyChanges s₁ [.regs, .ledger, .ev, .leat] := .ite (.foldl (fun _ _ h => .move (.setLeat h)) h) (.move h)
  have h₂ : s.onlyChanges s₂ [.regs, .ledger, .ev, .leat] := by
    unfold s₂
    split
    · exact .sizePool (.releasePool h₁)
    · exact .ite (.sizePool (.move (.setLeat (.releasePool h₁)))) (.releasePool h₁)
  exact .ite (.foldl (fun _ _ h => .foldl (fun _ _ h => .grantItems h) h) (.setLeat h₂))
    (.ite (.foldl (fun _ _ h => .unparkKey h) h₂) h₂)

/-! ### Machine, Loader: sections written -/

theorem State.onlyChanges.writeMill {x : Section} {fb : Option Nat} (hq : [.regs, .ev, .mills, .loader, .freeN] ⊆ ps := by decide) :
    s₀.onlyChanges (s.writeMill x fb) ps :=
  h.then (.reseed (.setLoader (.setMill (.drew (n := 1) (.refl s))))) hq

theorem State.onlyChanges.writeWeir {x : Section} (hp : .leat ∈ ps := by decide) : s₀.onlyChanges (s.writeWeir x) ps :=
  .setLeat h hp

theorem State.onlyChanges.closeEdge {x : Section} (hp : .leat ∈ ps := by decide) : s₀.onlyChanges (s.closeEdge x) ps :=
  .setLeat h hp

theorem State.onlyChanges.openEdge (hp : .leat ∈ ps := by decide) : s₀.onlyChanges s.openEdge ps := .setLeat h hp

theorem State.onlyChanges.boundShown (hp : .leat ∈ ps := by decide) : s₀.onlyChanges s.boundShown ps := .setLeat h hp

theorem State.onlyChanges.writeLeat {x : Section} (hq : [.regs, .leat, .sn] ⊆ ps := by decide) :
    s₀.onlyChanges (s.writeLeat x) ps :=
  h.then (.setLeatSn (.foldl (fun _ _ h => .tear h) (.refl s))) hq

theorem State.onlyChanges.staleStream {n ctx : Nat} {c : StreamCfg} (hq : [.regs, .ledger, .hp, .streams] ⊆ ps := by decide) :
    s₀.onlyChanges (s.staleStream n ctx c) ps := by
  refine h.then ?_ hq
  unfold State.staleStream
  refine .staleQueue (.setStrm ?_)
  split
  · exact .finishAt (.refl s)
  · exact .refl s

theorem State.onlyChanges.renewStream {n ctx : Nat} {c : StreamCfg}
    (hq : [.regs, .mem, .ledger, .hp, .streams, .tiers] ⊆ ps := by decide) : s₀.onlyChanges (s.renewStream n ctx c) ps :=
  h.then (.zeroLayers (.setStrm (.staleStream (.refl s)))) hq

theorem State.onlyChanges.wakeStreams (hq : [.regs, .mem, .ledger, .hp, .streams, .tiers] ⊆ ps := by decide) :
    s₀.onlyChanges s.wakeStreams ps := by
  refine .foldl (fun s _ h => ?_) h
  split
  · exact h
  · exact .ite (.renewStream h hq) h

theorem State.onlyChanges.dropStarted {n ctx : Nat} {c : StreamCfg} (hq : [.ledger, .hp, .streams] ⊆ ps := by decide) :
    s₀.onlyChanges (s.dropStarted n ctx c) ps := by
  refine h.then (.queuePages (.setStrm (.foldl (fun s _ h => ?_) (.refl s)))) hq
  split
  · exact .finishAt h
  · exact h

theorem State.onlyChanges.openQuota {xs : List Section} {c : Nat} (hq : [.regs, .ledger, .ev, .tiers] ⊆ ps := by decide) :
    s₀.onlyChanges (s.openQuota xs c) ps :=
  h.then (.move (.setTiers (.move (.sizePool (.sizePool (.sizePool (.refl s))))))) hq

theorem State.onlyChanges.writeGovernor {x : Section} (hq : [.gov, .fus] ⊆ ps := by decide) :
    s₀.onlyChanges (s.writeGovernor x) ps :=
  h.then (.ite (.takeGovernor (.refl s)) (.setGov (.refl s))) hq

theorem State.onlyChanges.loadOpen {p : Plan} (hq : [.regs, .ledger, .ev, .leat, .tiers] ⊆ ps := by decide) :
    s₀.onlyChanges (s.loadOpen p) ps :=
  h.then (.foldl (fun _ _ h => .writeWeir h) (.foldl (fun _ _ h => .openQuota h) (.refl s))) hq

end

section
variable {s₀ s : State} {ps : List Part} (h : s₀.onlyChanges s ps)
include h

/-! ### Machine, Loader: UNLOAD -/

theorem State.onlyChanges.emptyPool {p : Nat} (hq : [.regs, .ledger, .ev] ⊆ ps := by decide) : s₀.onlyChanges (s.emptyPool p) ps :=
  h.then (.resize (.move (.move (.move (.releasePool (.refl s)))))) hq

theorem State.onlyChanges.unloadStreams (hq : [.regs, .ledger, .hp, .streams] ⊆ ps := by decide) :
    s₀.onlyChanges s.unloadStreams ps := by
  refine h.then (.foldl (fun s _ h => ?_) (.refl s)) hq
  split
  · exact h
  · exact .ite h (.setStrm (.staleStream (.dropStarted h)))

end

/-- What UNLOAD leaves of a mill: a mill in FAULT stays so. -/
def Mill.unloaded (x : Mill) : Mill :=
  let k : Mill := { coreRunning := x.coreRunning, heartbeat := x.heartbeat, srDegraded := x.srDegraded, tested := x.tested }
  if x.state = .fault then
    { k with state := .fault, ledgerStop := x.ledgerStop, watchdog := x.watchdog, uncorrectable := x.uncorrectable, faultPool := x.faultPool }
  else k

/-- The first part of `State.unloadPlan`: streams and mills. -/
def State.unloadMills (s : State) : State :=
  (List.range 16).foldl (fun s m => s.setMill m (s.mill m).unloaded) s.unloadStreams

theorem State.unloadMills_onlyChanges (s : State) : s.onlyChanges s.unloadMills [.regs, .ledger, .hp, .mills, .streams] :=
  .foldl (fun _ _ h => .setMill h) (.unloadStreams (.refl s))

theorem State.unloadMills_onlyChanges_unloadPlan (s : State) :
    s.unloadMills.onlyChanges s.unloadPlan [.regs, .ledger, .ev, .leat, .loader, .ops, .tiers, .bolters, .gov, .sn] :=
  .setUnloaded (.foldl (fun _ _ h => .emptyPool h) (.foldl (fun _ _ h => .emptyPool h) (.foldl (fun _ _ h => .emptyPool h)
    (.refl s.unloadMills))))

/-- The first part of `State.loadPlan`: the millplan is the loaded one, and its mills are written. -/
def State.loadMills (s : State) (p : Plan) : State :=
  (millSections p.sections).foldl (fun s x => (s.chargePond x.ctx x.working).writeMill x none)
    { s with loader := { s.loader with
        loaded := some p, staged := none, ready := false, reload := false, placed := [], placedFor := none, stopped := [],
        charged := [] } }

theorem State.loadMills_onlyChanges (s : State) (p : Plan) :
    s.onlyChanges (s.loadMills p) [.regs, .ledger, .ev, .mills, .loader, .freeN] :=
  .foldl (fun _ _ h => .writeMill (.chargePond h)) (.setLoader (.refl s))

theorem State.loadMills_onlyChanges_loadPlan (s : State) (p : Plan) : (s.loadMills p).onlyChanges (s.loadPlan p)
    [.regs, .mem, .ledger, .ev, .hp, .leat, .streams, .tiers, .bolters, .gov, .fus, .sn] :=
  .setLocal (.boundShown (.wakeStreams (.regrant (.foldl (fun _ _ h => .writeGovernor h) (.foldl (fun _ _ h => .setGq h)
    (.setGov (.foldl (fun _ _ h => .setBolters h) (.foldl (fun _ _ h => .writeLeat h) (.refl (s.loadMills p))))))))))

/-- The parts that an unloaded millplan may leave changed. -/
abbrev unloadParts : List Part :=
  [.regs, .mem, .ledger, .ev, .hp, .mills, .leat, .loader, .ops, .streams, .tiers, .bolters, .gov, .sn]

/-- The parts that an evacuation or a restore may change, once the failed mill has been reset. -/
abbrev evacParts : List Part :=
  [.regs, .mem, .ledger, .ev, .hp, .mills, .leat, .loader, .ops, .streams, .tiers, .sn, .freeN]

section
variable {s₀ s : State} {ps : List Part} (h : s₀.onlyChanges s ps)
include h

theorem State.onlyChanges.unloadPlan (hq : unloadParts ⊆ ps := by decide) : s₀.onlyChanges s.unloadPlan ps :=
  h.then (s.unloadMills_onlyChanges.mono.then s.unloadMills_onlyChanges_unloadPlan (by decide)) hq

/-! ### Machine, Loader: LOAD -/

theorem State.onlyChanges.loadPlan {p : Plan} (hq : .fus :: .freeN :: unloadParts ⊆ ps := by decide) :
    s₀.onlyChanges (s.loadPlan p) ps :=
  h.then ((s.loadMills_onlyChanges p).mono.then (s.loadMills_onlyChanges_loadPlan p) (by decide)) hq

theorem State.onlyChanges.loadFail {sec : Option Nat} (hq : .freeN :: unloadParts ⊆ ps := by decide) :
    s₀.onlyChanges (s.loadFail sec) ps :=
  h.then (.ldFail (.setLoader (.unloadPlan (.refl s)))) hq

theorem State.onlyChanges.loadStep (hq : .fus :: .freeN :: unloadParts ⊆ ps := by decide) : s₀.onlyChanges s.loadStep ps := by
  refine h.then ?_ hq
  unfold State.loadStep
  split
  · exact .refl s
  · exact .ite (.refl s) (.ite (.loadFail (.refl s)) (.setLoader (.ldDone (.loadPlan (.refl s)))))

/-! ### Machine, Loader: sluices, swaps and reloads -/

theorem State.onlyChanges.closeMill {m : Nat} (hq : [.ledger, .mills, .leat] ⊆ ps := by decide) :
    s₀.onlyChanges (s.closeMill m) ps :=
  h.then (.ite (.foldl (fun _ _ h => .recallPool h) (.setMill (.refl s))) (.refl s)) hq

theorem State.onlyChanges.reopen {m : Nat} (hq : [.ledger, .mills, .leat] ⊆ ps := by decide) : s₀.onlyChanges (s.reopen m) ps := by
  refine h.then ?_ hq
  unfold State.reopen
  refine .setMill ?_
  split
  · exact .unparkSection (.refl s)
  · exact .refl s

theorem State.onlyChanges.ldRun {st : LoaderState} {step m : Nat} (hp : .loader ∈ ps := by decide) :
    s₀.onlyChanges (s.ldRun st step m) ps := .setLoader h hp

theorem State.onlyChanges.ldTimed {kind : Nat} (hp : .loader ∈ ps := by decide) : s₀.onlyChanges (s.ldTimed kind) ps :=
  .setLoader h hp

theorem State.onlyChanges.adopted {x : Section} (hp : .loader ∈ ps := by decide) : s₀.onlyChanges (s.adopted x) ps :=
  .setLoader h hp

theorem State.onlyChanges.swapFinish {x : Section} (hq : evacParts ⊆ ps := by decide) : s₀.onlyChanges (s.swapFinish x) ps := by
  refine h.then ?_ hq
  unfold State.swapFinish
  refine .ldDone (.record (.ldTimed (.boundShown (.wakeStreams (.regrant (.writeMill (.adopted (.chargePond ?_))))))))
  split
  · exact .ite (.refl s) (.releasePond (.refl s))
  · exact .refl s

theorem State.onlyChanges.swapAbort {cause m : Nat} (hq : [.regs, .ledger, .ev, .mills, .leat, .loader] ⊆ ps := by decide) :
    s₀.onlyChanges (s.swapAbort cause m) ps :=
  h.then (.ldFailAt (.ite (.reopen (.refl s)) (.refl s))) hq

theorem State.onlyChanges.replaceStart {x : Section} (hq : [.ledger, .leat, .gov] ⊆ ps := by decide) :
    s₀.onlyChanges (s.replaceStart x) ps := by
  refine h.then ?_ hq
  unfold State.replaceStart
  split
  · exact .closeEdge (.refl s)
  · exact .setLeat (.refl s)
  · exact .recallPool (.setGq (.refl s))
  · exact .refl s

theorem State.onlyChanges.swapStart (hq : [.regs, .ledger, .ev, .mills, .leat, .loader, .gov] ⊆ ps := by decide) :
    s₀.onlyChanges s.swapStart ps := by
  refine h.then ?_ hq
  unfold State.swapStart
  extract_lets
  split
  · exact .ldFailAt (.refl s)
  · exact .ite (.ldFailAt (.refl s)) (.ite (.ldFailAt (.refl s)) (.ite (.ite (.ldFailAt (.refl s))
      (.closeMill (.ldRun (.refl s)))) (.replaceStart (.ldRun (.refl s)))))

/-! ### Machine, Loader: evacuations -/

theorem State.onlyChanges.abandon {m : Nat} (hq : [.mem, .ledger, .hp, .loader, .ops, .tiers] ⊆ ps := by decide) :
    s₀.onlyChanges (s.abandon m) ps := by
  refine h.then (.setLoader (.endMillReads (.foldl (fun s _ h => ?_) (.refl s)))) hq
  split
  · exact .ite (.finish h) h
  · exact h

theorem State.onlyChanges.loseStreams {ms : List Nat} (hq : [.regs, .mem, .ledger, .ev, .hp, .loader, .streams, .tiers] ⊆ ps := by decide) :
    s₀.onlyChanges (s.loseStreams ms) ps := by
  refine h.then (.foldl (fun s _ h => ?_) (.refl s)) hq
  split
  · exact .ite (.record (.setLoader (.renewStream (.dropStarted h)))) h
  · exact h

theorem State.onlyChanges.cutFrames {xs : List Section} (hp : .ops ∈ ps := by decide) : s₀.onlyChanges (s.cutFrames xs) ps :=
  .foldl (fun _ _ h => .foldl (fun _ _ h => .ite h (.setOps (.setOps h hp) hp)) h) h

theorem State.onlyChanges.moveFrames {old new : List Section} (hp : .ops ∈ ps := by decide) :
    s₀.onlyChanges (s.moveFrames old new) ps := by
  refine .foldl (fun s _ h => ?_) h
  split
  · exact .setOps h hp
  · exact h

theorem State.onlyChanges.reclaimedPond {c n : Nat} (hq : [.regs, .ledger, .ev] ⊆ ps := by decide) :
    s₀.onlyChanges (s.reclaimedPond c n) ps :=
  h.then (.ite (.refl s) (.record (.move (.refl s)))) hq

theorem State.onlyChanges.freePond {c n : Nat} (hq : [.regs, .ledger, .ev] ⊆ ps := by decide) :
    s₀.onlyChanges (s.freePond c n) ps :=
  h.then (.move (.reclaimedPond (.refl s))) hq

theorem State.onlyChanges.lostPond {x : Section} (hq : [.regs, .ledger, .ev] ⊆ ps := by decide) :
    s₀.onlyChanges (s.lostPond x) ps := by
  refine .ite h ?_
  split
  · exact .reclaimedPond h hq
  · exact h

theorem State.onlyChanges.chargeRest {news : List Section} (hq : [.ledger, .loader] ⊆ ps := by decide) :
    s₀.onlyChanges (s.chargeRest news) ps :=
  h.then (.setLoader (.foldl (fun _ _ h => .chargePond h) (.refl s))) hq

theorem State.onlyChanges.purgeTo {f : Nat} (hq : [.regs, .ledger, .ev, .leat] ⊆ ps := by decide) :
    s₀.onlyChanges (s.purgeTo f) ps := by
  refine h.then (.foldl (fun s _ h => ?_) (.setLeat (.refl s))) hq
  split
  · exact .reclaim h
  · exact h

theorem State.onlyChanges.evacFinish (hq : evacParts ⊆ ps := by decide) : s₀.onlyChanges s.evacFinish ps := by
  refine h.then ?_ hq
  unfold State.evacFinish
  extract_lets _ _ _ _ _ _ _ _ _ _ _ moved _ _ _ _ charged _ _ _ _ written _ _ _ _ _ timed _ _ noted
  have hm : s.onlyChanges moved evacParts :=
    .ite (.moveFrames (.purgeTo (.cutFrames (.refl s))))
      (.foldl (fun _ _ h => .parkPool h) (.moveFrames (.purgeTo (.cutFrames (.refl s)))))
  have hc : s.onlyChanges charged evacParts :=
    .setLoader (.chargeRest (.foldl (fun _ _ h => .lostPond h) (.foldl (fun _ _ h => .freePond h)
      (.foldl (fun _ _ h => .parkSection h) hm))))
  have hw : s.onlyChanges written evacParts :=
    .foldl (fun _ _ h => .writeLeat h) (.foldl (fun _ _ h => .writeWeir h)
      (.foldl (fun _ _ h => .writeMill h) (.foldl (fun _ _ h => .setMill h) hc)))
  have ht : s.onlyChanges timed evacParts :=
    .ldTimed (.boundShown (.openEdge (.discardMerges (.loseStreams (.wakeStreams (.regrant hw))))))
  have hn : s.onlyChanges noted evacParts := .record (.setMill ht)
  exact .ite (.ldDone (.record ht)) (.ldDone (.raise (.setLoader hn)))

theorem State.onlyChanges.evacClose (hq : evacParts ⊆ ps := by decide) : s₀.onlyChanges s.evacClose ps := by
  refine h.then ?_ hq
  unfold State.evacClose
  extract_lets _ s₁
  have h₁ : s.onlyChanges s₁ evacParts := .foldl (fun _ _ h => .closeEdge h) (.foldl (fun _ _ h => .closeMill h) (.refl s))
  exact .ite (.evacFinish (.setLoader h₁)) (.setLoader h₁)

theorem State.onlyChanges.evacPreload (hq : evacParts ⊆ ps := by decide) : s₀.onlyChanges s.evacPreload ps :=
  h.then (.ite (.evacClose (.setLoader (.preloadFrom (.refl s)))) (.setLoader (.preloadFrom (.refl s)))) hq

theorem State.onlyChanges.evacStart {f : Nat} (hq : .hold :: evacParts ⊆ ps := by decide) : s₀.onlyChanges (s.evacStart f) ps :=
  h.then (.evacPreload (.ldRun (.resetMill (.abandon (.setLoader (.refl s)))))) hq

theorem State.onlyChanges.noSpare {f : Nat} {ends : Bool} (hq : .hold :: evacParts ⊆ ps := by decide) :
    s₀.onlyChanges (s.noSpare f ends) ps := by
  refine h.then ?_ hq
  unfold State.noSpare
  extract_lets _ _ _ s₁
  have h₁ : s.onlyChanges s₁ (.hold :: evacParts) :=
    .releaseMills (.resetMill (.discardMerges (.abandon (.stopPipelines (.refl s)))))
  exact .ite (.ldFailAt (.raise (.setLoader h₁))) (.record (.setLoader (.raise (.setLoader h₁))))

theorem State.onlyChanges.unloadStep (hq : .hold :: unloadParts ⊆ ps := by decide) : s₀.onlyChanges s.unloadStep ps :=
  h.then (.ite (.ldDone (.unloadPlan (.foldl (fun _ _ h => .resetMill (.endMillReads h)) (.refl s)))) (.refl s)) hq

/-- An evacuation starts, or no spare mill takes the section's place. -/
theorem State.onlyChanges.evacOr {c : Prop} [Decidable c] {f : Nat} {ends : Bool} (hq : .hold :: evacParts ⊆ ps := by decide) :
    s₀.onlyChanges (if c then s.evacStart f else s.noSpare f ends) ps :=
  .ite (.evacStart h hq) (.noSpare h hq)

theorem State.onlyChanges.discardStagedIf {c : Prop} [Decidable c] (hq : [.ledger, .loader] ⊆ ps := by decide) :
    s₀.onlyChanges (if c then s.discardStaged else s) ps :=
  .ite (.discardStaged h hq) h

theorem State.onlyChanges.evacAsk {f : Nat} {host : Bool} (hq : .hold :: .freeN :: unloadParts ⊆ ps := by decide) :
    s₀.onlyChanges (s.evacAsk f host) ps := by
  refine h.then ?_ hq
  have hs := State.onlyChanges.refl s (ps := .hold :: .freeN :: unloadParts)
  unfold State.evacAsk
  split
  · exact .ite (.evacStart (.ldAccept hs)) (.noSpare (.ldAccept hs))
  · exact .evacOr (.ldFailAt hs)
  · exact .evacOr (.ldFailAt hs)
  · exact .evacOr (.discardStagedIf (.ldFailAt hs))
  · exact .ite (.setLoader hs) (.evacOr (.discardStagedIf (.ite (.swapAbort hs) (.ldFailAt (.setLeatGov (.openEdge hs))))))
  · exact .loadFail hs
  · exact .ite (.ldIgnore hs) (.unloadStep hs)
  · exact .ite (.ite (.ldIgnore hs) hs) (.ite (.evacFinish (.noSpare hs)) (.noSpare hs))
  · exact .ite (.ldFailAt (.noSpare (.uncharge (.openEdge (.foldl (fun _ _ h => .ite (.reopen h) h) hs))))) (.noSpare hs)

theorem State.onlyChanges.takeQueued (hq : .hold :: .freeN :: unloadParts ⊆ ps := by decide) :
    s₀.onlyChanges s.takeQueued ps := by
  refine h.then ?_ hq
  unfold State.takeQueued
  split
  · exact .ite (.evacAsk (.setLoader (.refl s))) (.setLoader (.refl s))
  · exact .refl s

end

end Sys2Proof.Machine
end

section
/-!
PROOF. COPY_VERIFY, COPY_DONE and VERIFY_DONE (O57).

`exec…_of_…` gives the state that a command answers under the hypotheses of a clause; what the clause says of that state follows from
what the operations write of the loader (`…_loader`) and of the memories, and from what else they may change (`State.onlyChanges`).
-/
-- One proof at a time, as in the tests: proofs that wait for the kernel side by side each hold a thread and its stack.
set_option Elab.async false
namespace Sys2Proof.Machine

/-! ### HBM bytes (R16) -/

theorem Mem.length_readBytes (m : Mem) (a n : Nat) : (m.readBytes a n).length = n := by
  induction n generalizing a with
  | zero => rfl
  | succ n ih => exact congrArg (· + 1) (ih (a + 1))

theorem State.hbm_wf {s : State} (h : s.memOk) : s.mem.hbm.wf = true := by
  simp only [State.memOk, Memories.wf, Bool.and_eq_true] at h
  obtain ⟨⟨⟨_, hhbm⟩, _⟩, _⟩ := h
  exact hhbm

theorem State.setLocal_hbm {a : Nat} (ha : tierOf a = some .hbm) (s : State) (bs : Bytes) :
    s.setLocal a bs = { s with mem := { s.mem with hbm := s.mem.hbm.writeBytes a bs } } := by
  simp only [State.setLocal, Memories.writeLocal, ha]

theorem State.local_hbm {a : Nat} (ha : tierOf a = some .hbm) (s : State) (n : Nat) : s.local a n = s.mem.hbm.readBytes a n := by
  simp only [State.local, Memories.readLocal, ha]

theorem State.local_setLocal_hbm {s : State} (h : s.memOk) {a : Nat} (ha : tierOf a = some .hbm) (bs : Bytes) :
    (s.setLocal a bs).local a bs.length = bs := by
  rw [State.local_hbm ha, State.setLocal_hbm ha]
  exact Mem.readBytes_writeBytes _ a bs (State.hbm_wf h)

theorem State.memBut_setLocal_hbm {s : State} (h : s.memOk) {a : Nat} (ha : tierOf a = some .hbm) (bs : Bytes) :
    s.memBut (s.setLocal a bs) .hbm a bs.length := by
  intro q b hb
  rw [State.setLocal_hbm ha]
  cases q with
  | hbm => exact Mem.read_writeBytes_outside _ a b bs (State.hbm_wf h) (hb.resolve_left fun hq => hq rfl)
  | pond | host | store => rfl

/-! ### What ends a command, or never starts it -/

@[simp] theorem State.ldFail_loader (s : State) (result cause status : Nat) (sec : Option Nat) (op : Nat) (source : Option Nat)
    (p : Plan) (mask : Nat) : (s.ldFail result cause status sec op source p mask).loader =
      { s.loader with state := .idle, result := result, cause := cause, status := status
                      failSection := sec.getD (s.free.1 % 256), step := 0 } := by
  cases sec <;> simp only [State.ldFail, State.record_loader, State.raise_loader] <;> rfl

@[simp] theorem State.discardStaged_loader (s : State) : s.discardStaged.loader =
    { s.loader with charged := [], preloadDone := 0, preloadTotal := 0, passed := 0, staged := none, reload := false, ready := false } := by
  have hmoves : (s.loader.charged.foldl (fun s (e : Nat × Nat) => s.move (160 + e.1) .held .returned e.2) s).loader = s.loader :=
    State.onlyChanges.foldl (ps := [.ledger]) (fun _ _ h => .move h) (.refl s) .loader (by decide)
  simp only [State.discardStaged, State.uncharge, hmoves]

theorem State.discardStaged_loaded (s : State) : s.discardStaged.loader.loaded = s.loader.loaded := by rw [State.discardStaged_loader]

theorem State.ldStart_of_idle {s : State} (hidle : s.loader.state = .idle) (hfree : s.mgmtReload = false) (k : State → State) :
    s.ldStart k = k s.ldAccept := if_pos ⟨hidle, hfree⟩

theorem State.ldStart_of_busy {s : State} (hbusy : s.loader.state ≠ .idle ∨ s.mgmtReload = true) (k : State → State) :
    s.ldStart k = s.ldIgnore := by
  refine if_neg fun ⟨hidle, hfree⟩ => ?_
  rcases hbusy with hrunning | hreload
  · exact hrunning hidle
  · exact Bool.false_ne_true (hfree.symm.trans hreload)

theorem State.onlyChanges.ldStart {s₀ s : State} {ps : List Part} (h : s₀.onlyChanges s ps) {k : State → State}
    (hk : ∀ t, s₀.onlyChanges t ps → s₀.onlyChanges (k t) ps) (hp : .loader ∈ ps := by decide) :
    s₀.onlyChanges (s.ldStart k) ps := .ite (hk _ (.ldAccept h hp)) (.ldIgnore h hp)

/-- A command that meets a running one is ignored (R138). -/
theorem does_ignored {c : Instr} {s : State} {k : State → State} (hc : exec c s = .next (s.ldStart k))
    (hbusy : s.loader.state ≠ .idle ∨ s.mgmtReload = true) :
    Does c s fun t => t.loader = { s.loader with ignored := true } ∧ s.onlyChanges t [.loader] :=
  ⟨s.ldIgnore, hc.trans (congrArg _ (State.ldStart_of_busy hbusy k)), rfl, .ldIgnore (.refl s)⟩

/-! ### COPY_VERIFY (R124, R482) -/

section
variable {s : State}

theorem execCopyVerify_of_manufacture (hidle : s.loader.state = .idle) (hfree : s.mgmtReload = false) (hlife : s.lifecycle = 0) :
    execCopyVerify s = .next (s.ldAccept.ldFail 2 0 0x16 none 1 none s.ldPlan 0) := by
  rw [execCopyVerify, State.ldStart_of_idle hidle hfree]
  exact congrArg _ (if_pos hlife)

theorem execCopyVerify_of_badRange (hidle : s.loader.state = .idle) (hfree : s.mgmtReload = false) (hlife : s.lifecycle ≠ 0)
    (hbad : s.regN Reg.mpSrcOffset % 4096 ≠ 0 ∨ s.regN Reg.mpSrcLength = 0 ∨
      33554432 < s.regN Reg.mpSrcLength ∨ 67108864 < s.regN Reg.mpSrcOffset + s.regN Reg.mpSrcLength) :
    execCopyVerify s = .next (s.ldAccept.ldFail 2 1 0 none 1 none s.ldPlan 0) := by
  rw [execCopyVerify, State.ldStart_of_idle hidle hfree]
  exact congrArg _ ((if_neg hlife).trans (if_pos hbad))

/-- A copy of the range that MP_SRC_OFFSET and MP_SRC_LENGTH name begins. -/
def State.beginCopy (s : State) : State :=
  { s.discardStaged with loader := { s.discardStaged.loader with
      state := .copying, srcOffset := s.regN Reg.mpSrcOffset, srcLength := s.regN Reg.mpSrcLength } }

theorem execCopyVerify_of_range (hidle : s.loader.state = .idle) (hfree : s.mgmtReload = false) (hlife : s.lifecycle ≠ 0)
    (hpage : s.regN Reg.mpSrcOffset % 4096 = 0) (hpos : 0 < s.regN Reg.mpSrcLength) (hmax : s.regN Reg.mpSrcLength ≤ 33554432)
    (hend : s.regN Reg.mpSrcOffset + s.regN Reg.mpSrcLength ≤ 67108864) : execCopyVerify s = .next s.ldAccept.beginCopy := by
  have hgood : ¬ (s.regN Reg.mpSrcOffset % 4096 ≠ 0 ∨ s.regN Reg.mpSrcLength = 0 ∨
      33554432 < s.regN Reg.mpSrcLength ∨ 67108864 < s.regN Reg.mpSrcOffset + s.regN Reg.mpSrcLength) := by omega
  rw [execCopyVerify, State.ldStart_of_idle hidle hfree]
  exact congrArg _ ((if_neg hlife).trans (if_neg hgood))

theorem copyVerify_inManufacture (hidle : s.loader.state = .idle) (hfree : s.mgmtReload = false) (hlife : s.lifecycle = 0) :
    Does .copyVerify s fun t => t.loader.state = .idle ∧ t.loader.result = 2 ∧ t.loader.status = 0x16 ∧
      t.loader.staged = s.loader.staged ∧ t.loader.loaded = s.loader.loaded ∧ s.onlyChanges t [.ev, .freeN, .loader, .regs] := by
  refine ⟨_, execCopyVerify_of_manufacture hidle hfree hlife, ?_⟩
  beta_reduce
  rw [State.ldFail_loader]
  exact ⟨rfl, rfl, rfl, rfl, rfl, .ldFail (.ldAccept (.refl s))⟩

theorem copyVerify_rejects (hidle : s.loader.state = .idle) (hfree : s.mgmtReload = false) (hlife : s.lifecycle ≠ 0)
    (hbad : s.regN Reg.mpSrcOffset % 4096 ≠ 0 ∨ s.regN Reg.mpSrcLength = 0 ∨
      33554432 < s.regN Reg.mpSrcLength ∨ 67108864 < s.regN Reg.mpSrcOffset + s.regN Reg.mpSrcLength) :
    Does .copyVerify s fun t => t.loader.state = .idle ∧ t.loader.result = 2 ∧ t.loader.cause = 1 ∧
      t.loader.staged = s.loader.staged ∧ t.loader.loaded = s.loader.loaded ∧ s.onlyChanges t [.ev, .freeN, .loader, .regs] := by
  refine ⟨_, execCopyVerify_of_badRange hidle hfree hlife hbad, ?_⟩
  beta_reduce
  rw [State.ldFail_loader]
  exact ⟨rfl, rfl, rfl, rfl, rfl, .ldFail (.ldAccept (.refl s))⟩

theorem copyVerify_copies (hidle : s.loader.state = .idle) (hfree : s.mgmtReload = false) (hlife : s.lifecycle ≠ 0)
    (hpage : s.regN Reg.mpSrcOffset % 4096 = 0) (hpos : 0 < s.regN Reg.mpSrcLength) (hmax : s.regN Reg.mpSrcLength ≤ 33554432)
    (hend : s.regN Reg.mpSrcOffset + s.regN Reg.mpSrcLength ≤ 67108864) : Does .copyVerify s fun t =>
      t.loader.state = .copying ∧ t.loader.srcOffset = s.regN Reg.mpSrcOffset ∧ t.loader.srcLength = s.regN Reg.mpSrcLength ∧
      t.loader.loaded = s.loader.loaded ∧ s.onlyChanges t [.ledger, .loader] :=
  ⟨_, execCopyVerify_of_range hidle hfree hlife hpage hpos hmax hend, rfl, rfl, rfl, s.ldAccept.discardStaged_loaded,
    .setLoader (.discardStaged (.ldAccept (.refl s)))⟩

theorem execCopyVerify_answers (s : State) : s.Answers (execCopyVerify s) [.regs, .ledger, .ev, .loader, .freeN] :=
  .next (.ldStart (.refl s) fun _ h => .ite (.ldFail h) (.ite (.ldFail h) (.setLoader (.discardStaged h))))

/-! ### COPY_DONE (R124) -/

theorem State.copyPass_loader (s : State) : ∃ n, s.copyPass.loader = { s.loader with passed := n } := by
  unfold State.copyPass
  extract_lets
  split
  · exact ⟨_, rfl⟩
  · exact ⟨_, rfl⟩

theorem State.copyPass_mem (s : State) : s.copyPass.mem = s.mem := by
  have hframe : s.onlyChanges s.copyPass [.regs, .leat, .loader] := .copyPass (.refl s)
  exact hframe .mem (by decide)

theorem execCopyDone_of_waiting (hcopy : s.loader.state = .copying) (hrun : s.pw.fabricPaused = false)
    (hwait : s.copyPass.loader.passed * 1024 < s.loader.srcLength) : execCopyDone s = .next s.copyPass := by
  obtain ⟨n, hload⟩ := s.copyPass_loader
  have hlen : s.copyPass.loader.srcLength = s.loader.srcLength := by rw [hload]
  rw [execCopyDone, if_neg (by simp [hcopy, hrun])]
  exact if_pos (hlen ▸ hwait)

/-- The copied image stands in the staging buffer. -/
def State.copied (s : State) : State :=
  { s.copyPass.setLocal stagingBase (s.pondRead s.loader.srcOffset s.loader.srcLength) with
    loader := { s.copyPass.loader with state := .verifying, passed := 0 } }

theorem execCopyDone_of_passed (hcopy : s.loader.state = .copying) (hrun : s.pw.fabricPaused = false)
    (hdone : s.loader.srcLength ≤ s.copyPass.loader.passed * 1024) : execCopyDone s = .next s.copied := by
  obtain ⟨n, hload⟩ := s.copyPass_loader
  have hlen : s.copyPass.loader.srcLength = s.loader.srcLength := by rw [hload]
  have hoff : s.copyPass.loader.srcOffset = s.loader.srcOffset := by rw [hload]
  have hread : s.copyPass.pondRead s.copyPass.loader.srcOffset s.copyPass.loader.srcLength =
      s.pondRead s.loader.srcOffset s.loader.srcLength := by rw [hlen, hoff, State.pondRead, s.copyPass_mem, State.pondRead]
  rw [execCopyDone, if_neg (by simp [hcopy, hrun]), State.copied, ← hread]
  exact if_neg (hlen ▸ Nat.not_lt.mpr hdone)

theorem execCopyDone_answers (s : State) : s.Answers (execCopyDone s) [.regs, .mem, .leat, .loader] :=
  .ite (.next (.refl s)) (.ite (.next (.copyPass (.refl s))) (.next (.setLoader (.setLocal (.copyPass (.refl s))))))

/-- What the staging buffer holds after the copy, and that no other byte has changed. -/
theorem State.copied_mem (h : s.memOk) : s.copied.local stagingBase s.loader.srcLength =
      s.pondRead s.loader.srcOffset s.loader.srcLength ∧ s.memBut s.copied .hbm stagingBase s.loader.srcLength := by
  have hok : s.copyPass.memOk := by rw [State.memOk, s.copyPass_mem]; exact h
  have hlen : (s.pondRead s.loader.srcOffset s.loader.srcLength).length = s.loader.srcLength := Mem.length_readBytes ..
  have hread := State.local_setLocal_hbm hok (a := stagingBase) (by decide) (s.pondRead s.loader.srcOffset s.loader.srcLength)
  have hbut := State.memBut_setLocal_hbm hok (a := stagingBase) (by decide) (s.pondRead s.loader.srcOffset s.loader.srcLength)
  rw [hlen] at hread hbut
  refine ⟨hread, fun q a ha => (hbut q a ha).trans ?_⟩
  rw [s.copyPass_mem]

theorem copyDone_waits (hcopy : s.loader.state = .copying) (hrun : s.pw.fabricPaused = false)
    (hwait : s.copyPass.loader.passed * 1024 < s.loader.srcLength) : Does .copyDone s fun t =>
      t = s.copyPass ∧ t.loader.state = .copying ∧ s.onlyChanges t [.leat, .loader, .regs] := by
  obtain ⟨n, hload⟩ := s.copyPass_loader
  exact ⟨_, execCopyDone_of_waiting hcopy hrun hwait, rfl, (congrArg Loader.state hload).trans hcopy, .copyPass (.refl s)⟩

theorem copyDone_fills (hok : s.memOk) (hcopy : s.loader.state = .copying) (hrun : s.pw.fabricPaused = false)
    (hdone : s.loader.srcLength ≤ s.copyPass.loader.passed * 1024) : Does .copyDone s fun t =>
      t.loader.state = .verifying ∧ t.local stagingBase s.loader.srcLength = s.pondRead s.loader.srcOffset s.loader.srcLength ∧
      s.memBut t .hbm stagingBase s.loader.srcLength ∧ s.onlyChanges t [.leat, .loader, .mem, .regs] := by
  obtain ⟨hread, hbut⟩ := State.copied_mem hok
  exact ⟨_, execCopyDone_of_passed hcopy hrun hdone, rfl, hread, hbut, .setLoader (.setLocal (.copyPass (.refl s)))⟩

/-! ### VERIFY_DONE (R122, R123) -/

theorem execVerifyDone_of_bad (hstate : s.loader.state = .verifying) {cause : Nat} {sec : Option Nat}
    (hbad : s.verify (s.local stagingBase s.loader.srcLength) = some (cause, sec)) : execVerifyDone s =
      .next (s.ldFail 2 cause (causeStatus cause) sec 1 none (imagePlan (s.local stagingBase s.loader.srcLength)) 0) := by
  rw [execVerifyDone, if_neg (not_not_intro hstate)]
  dsimp only
  rw [hbad]

/-- The loader after an image has been verified: what depends on the kind of the millplan is left open. -/
theorem execVerifyDone_of_good (hstate : s.loader.state = .verifying)
    (hgood : s.verify (s.local stagingBase s.loader.srcLength) = none) : ∃ reload ready total, execVerifyDone s =
      .next { s.ldDone with loader := { s.ldDone.loader with
        staged := some (imagePlan (s.local stagingBase s.loader.srcLength)), reload := reload, ready := ready, charged := []
        passed := 0, preloadDone := 0, preloadTotal := total } } := by
  rw [execVerifyDone, if_neg (not_not_intro hstate)]
  dsimp only
  rw [hgood]
  exact ⟨_, _, _, rfl⟩

theorem execVerifyDone_answers (s : State) : s.Answers (execVerifyDone s) [.regs, .ev, .loader, .freeN] := by
  refine .ite (.next (.refl s)) ?_
  extract_lets
  split
  · exact .next (.ldFail (.refl s))
  · exact .next (.setLoader (.ldDone (.refl s)))

theorem verifyDone_settles (hstate : s.loader.state = .verifying) : Does .verifyDone s fun t =>
    t.loader.state = .idle ∧ t.loader.loaded = s.loader.loaded ∧
    (s.verify (s.local stagingBase s.loader.srcLength) = none →
      t.loader.result = 1 ∧ t.loader.staged = some (imagePlan (s.local stagingBase s.loader.srcLength)) ∧ s.onlyChanges t [.loader, .regs]) ∧
    (∀ cause sec, s.verify (s.local stagingBase s.loader.srcLength) = some (cause, sec) →
      t.loader.result = 2 ∧ t.loader.cause = cause ∧ t.loader.status = (if 2 ≤ cause ∧ cause ≤ 5 then 0x0D else 0) ∧
      (∀ i, sec = some i → t.loader.failSection = i) ∧ t.loader.staged = s.loader.staged ∧
      s.onlyChanges t [.ev, .freeN, .loader, .regs]) := by
  cases hverify : s.verify (s.local stagingBase s.loader.srcLength) with
  | none =>
    obtain ⟨reload, ready, total, hexec⟩ := execVerifyDone_of_good hstate hverify
    refine ⟨_, hexec, rfl, rfl, fun _ => ⟨rfl, rfl, .setLoader (.ldDone (.refl s))⟩, fun _ _ hbad => ?_⟩
    exact absurd hbad (Option.some_ne_none _).symm
  | some v =>
    obtain ⟨cause, sec⟩ := v
    refine ⟨_, execVerifyDone_of_bad hstate hverify, ?_⟩
    beta_reduce
    rw [State.ldFail_loader]
    refine ⟨rfl, rfl, fun hgood => absurd hgood (Option.some_ne_none _), fun c i heq => ?_⟩
    obtain ⟨rfl, rfl⟩ := Prod.mk.inj (Option.some.inj heq)
    exact ⟨rfl, rfl, rfl, fun i hi => by rw [hi]; rfl, rfl, .ldFail (.refl s)⟩

end

end Sys2Proof.Machine
end

section
/-!
PROOF. PRELOAD, LOAD, DISCARD and UNLOAD (O57): what the operations write of the mills and of the loader, and the states that the
commands answer.
-/
-- One proof at a time, as in the tests: proofs that wait for the kernel side by side each hold a thread and its stack.
set_option Elab.async false
namespace Sys2Proof.Machine

/-! ### Mills written and closed -/

theorem State.mill_congr {s t : State} (h : t.mills = s.mills) (m : Nat) : t.mill m = s.mill m := by simp only [State.mill, h]

theorem State.mill_foldl_setMill (g : Mill → Mill) {ms : List Nat} (hms : ms.Nodup) (s : State) {m : Nat} (hm : m ∈ ms) :
    (ms.foldl (fun s k => s.setMill k (g (s.mill k))) s).mill m = g (s.mill m) := by
  have hother (ks : List Nat) (hk : m ∉ ks) (s : State) : (ks.foldl (fun s k => s.setMill k (g (s.mill k))) s).mill m = s.mill m := by
    refine List.foldlRecOn (motive := fun t : State => t.mill m = s.mill m) ks _ rfl fun t ht j hj => ?_
    rw [State.mill_setMill_other _ _ _ _ (ne_of_mem_of_not_mem hj hk).symm, ht]
  induction ms generalizing s with
  | nil => exact absurd hm List.not_mem_nil
  | cons k ks ih =>
    obtain ⟨hk, hks⟩ := List.nodup_cons.mp hms
    rw [List.foldl_cons]
    by_cases heq : m = k
    · subst heq
      rw [hother ks hk, State.mill_setMill_same]
    · rw [ih hks _ ((List.mem_cons.mp hm).resolve_left heq), State.mill_setMill_other _ _ _ _ heq]

theorem State.reseed_mills (s : State) (m : Nat) (pass : Bool) :
    (s.reseed m pass).mills = (s.setMill m { s.mill m with srDraws := 0, srDegraded := !pass }).mills := by
  unfold State.reseed
  extract_lets x n s₁ s₂ s₃
  have h₂ : s₂.mills = s.mills := by
    unfold s₂
    split <;> rfl
  have h₃ : s₃.mills = (s.setMill m { s.mill m with srDraws := 0, srDegraded := !pass }).mills :=
    congrArg (Tbl.set · m _) h₂
  split
  · rw [State.record_mills, h₃]
  · exact h₃

theorem State.mill_reseed_same (s : State) (m : Nat) (pass : Bool) :
    (s.reseed m pass).mill m = { s.mill m with srDraws := 0, srDegraded := !pass } :=
  (State.mill_congr (s.reseed_mills m pass) m).trans (State.mill_setMill_same ..)

theorem State.mill_reseed_other (s : State) {m k : Nat} (h : k ≠ m) (pass : Bool) : (s.reseed m pass).mill k = s.mill k :=
  (State.mill_congr (s.reseed_mills m pass) k).trans (State.mill_setMill_other _ _ _ _ h)

theorem State.mill_writeMill_same (s : State) (x : Section) (fb : Option Nat) :
    ((s.writeMill x fb).mill x.target).state = s.opened := by
  rw [State.writeMill, State.mill_reseed_same]
  exact congrArg Mill.state (State.mill_setMill_same ..)

theorem State.mill_writeMill_other (s : State) {x : Section} {k : Nat} (h : k ≠ x.target) (fb : Option Nat) :
    (s.writeMill x fb).mill k = s.mill k := by
  rw [State.writeMill, State.mill_reseed_other _ h]
  exact State.mill_setMill_other _ _ _ _ h

theorem State.opened_congr {s t : State} (h : t.pw = s.pw) : t.opened = s.opened := by simp only [State.opened, h]

theorem State.writeMill_loader (s : State) (x : Section) (fb : Option Nat) :
    (s.writeMill x fb).loader = { s.loader with stopped := remN s.loader.stopped x.target } := by
  have hframe (t : State) (pass : Bool) : t.onlyChanges (t.reseed x.target pass) [.regs, .ev, .mills] := .reseed (.refl t)
  rw [State.writeMill, (hframe _ _) .loader (by decide)]
  rfl

/-- Every mill that a LOAD writes opens. -/
theorem State.mill_loadMills {s : State} {p : Plan} {y : Section} (hy : y ∈ millSections p.sections) :
    ((s.loadMills p).mill y.target).state = s.opened := by
  have hfold (xs : List Section) (t : State) (hpw : t.pw = s.pw) (h : (t.mill y.target).state = s.opened ∨ y ∈ xs) :
      ((xs.foldl (fun s x => (s.chargePond x.ctx x.working).writeMill x none) t).mill y.target).state = s.opened := by
    induction xs generalizing t with
    | nil => exact h.resolve_right List.not_mem_nil
    | cons x xs ih =>
      have hwrite : t.onlyChanges ((t.chargePond x.ctx x.working).writeMill x none) [.regs, .ledger, .ev, .mills, .loader, .freeN] :=
        .writeMill (.chargePond (.refl t))
      refine ih _ (Eq.trans (hwrite .pw (by decide)) hpw) ?_
      by_cases htarget : y.target = x.target
      · refine .inl ?_
        rw [htarget, State.mill_writeMill_same]
        exact State.opened_congr hpw
      · rcases h with hopen | hmem
        · exact .inl ((congrArg Mill.state (State.mill_writeMill_other _ htarget none)).trans hopen)
        · exact .inr ((List.mem_cons.mp hmem).resolve_left fun heq => htarget (congrArg _ heq))
  exact hfold _ _ rfl (.inr hy)

theorem State.loadMills_loader (s : State) (p : Plan) :
    (s.loadMills p).loader.loaded = some p ∧ (s.loadMills p).loader.staged = none := by
  refine List.foldlRecOn (motive := fun t : State => t.loader.loaded = some p ∧ t.loader.staged = none) _ _ ⟨rfl, rfl⟩ ?_
  rintro t ⟨hloaded, hstaged⟩ x -
  rw [State.writeMill_loader]
  exact ⟨hloaded, hstaged⟩

theorem State.closeMill_of_run {s : State} {m : Nat} (h : (s.mill m).state = .run) : (s.closeMill m).mill m =
    { s.mill m with state := .closed, drained := false } := by
  have hrecalls (t : State) : t.onlyChanges ((List.range 8).foldl (fun s q => s.recallPool (8 * m + q)) t) [.ledger, .leat] :=
    .foldl (fun _ _ h => .recallPool h) (.refl t)
  have hclose : s.closeMill m = (List.range 8).foldl (fun s q => s.recallPool (8 * m + q))
    (s.setMill m { s.mill m with state := .closed, drained := false }) := if_pos h
  rw [hclose, State.mill_congr (hrecalls _ .mills (by decide)), State.mill_setMill_same]

theorem State.closeMill_of_not_run {s : State} {m : Nat} (h : (s.mill m).state ≠ .run) : s.closeMill m = s := if_neg h

theorem State.mill_closeMill_other (s : State) {m k : Nat} (h : k ≠ m) : (s.closeMill m).mill k = s.mill k := by
  have hrecalls (t : State) : t.onlyChanges ((List.range 8).foldl (fun s q => s.recallPool (8 * m + q)) t) [.ledger, .leat] :=
    .foldl (fun _ _ h => .recallPool h) (.refl t)
  unfold State.closeMill
  dsimp only
  split
  · rw [State.mill_congr (hrecalls _ .mills (by decide)), State.mill_setMill_other _ _ _ _ h]
  · rfl

/-- A closed sluice whose drain is awaited stays so as others close. -/
theorem State.mill_closeMill_of_closed {s : State} {m : Nat} (h : (s.mill m).state = .closed ∧ (s.mill m).drained = false) (k : Nat) :
    ((s.closeMill k).mill m).state = .closed ∧ ((s.closeMill k).mill m).drained = false := by
  by_cases hk : m = k
  · rw [← hk, State.closeMill_of_not_run (by simp [h.1])]
    exact h
  · rw [State.mill_closeMill_other s hk]
    exact h

theorem State.mill_closeMills {ms : List Nat} {s : State} {m : Nat} (hm : m ∈ ms) (hrun : (s.mill m).state = .run) :
    ((ms.foldl State.closeMill s).mill m).state = .closed ∧ ((ms.foldl State.closeMill s).mill m).drained = false := by
  induction ms generalizing s with
  | nil => exact absurd hm List.not_mem_nil
  | cons k ks ih =>
    rw [List.foldl_cons]
    by_cases hk : m = k
    · subst hk
      refine List.foldlRecOn (motive := fun t : State => (t.mill m).state = .closed ∧ (t.mill m).drained = false) ks _ ?_
        fun t ht j _ => State.mill_closeMill_of_closed ht j
      rw [State.closeMill_of_run hrun]
      exact ⟨rfl, rfl⟩
    · exact ih ((List.mem_cons.mp hm).resolve_left hk) (by rw [State.mill_closeMill_other s hk, hrun])

theorem State.closeMills_of_none_runs {ms : List Nat} {s : State} (h : ∀ m, m ∈ ms → (s.mill m).state ≠ .run) :
    ms.foldl State.closeMill s = s :=
  List.foldlRecOn (motive := fun t : State => t = s) ms _ rfl fun _ ht m hm => by
    rw [ht, State.closeMill_of_not_run (h m hm)]

/-! ### Preload lists (R130) -/

/-- Of the loader, the preload lists write the counts of pages alone, and of the registers, the count of weir 16 alone. -/
structure State.Preloads (s t : State) : Prop where
  loader : ∃ pages parcels charged, t.loader = { s.loader with preloadDone := pages, passed := parcels, charged := charged }
  reg : ∀ a, a ≠ Reg.wrAdmit 16 → t.reg a = s.reg a

theorem State.Preloads.refl (s : State) : s.Preloads s := ⟨⟨_, _, _, rfl⟩, fun _ _ => rfl⟩

section
variable {s₀ s t : State} (h : s₀.Preloads s)
include h

theorem State.Preloads.ite {c : Prop} [Decidable c] (ht : s₀.Preloads t) : s₀.Preloads (if c then s else t) := by
  split
  · exact h
  · exact ht

/-- Parts that are neither registers nor the loader. -/
theorem State.Preloads.then {ps : List Part} (ht : s.onlyChanges t ps) (hps : .loader ∉ ps ∧ .regs ∉ ps ∧ .sec ∉ ps := by decide) :
    s₀.Preloads t := by
  obtain ⟨hloader, hregs, hsec⟩ := hps
  obtain ⟨pages, parcels, charged, hload⟩ := h.loader
  exact ⟨⟨pages, parcels, charged, Eq.trans (ht .loader hloader) hload⟩, fun a ha => (ht.reg a hregs hsec).trans (h.reg a ha)⟩

theorem State.Preloads.count {pages parcels : Nat} {charged : Tbl Nat} : s₀.Preloads
    { s with loader := { s.loader with preloadDone := pages, passed := parcels, charged := charged } } := by
  obtain ⟨_, _, _, hload⟩ := h.loader
  exact ⟨⟨pages, parcels, charged, by rw [hload]⟩, h.reg⟩

theorem State.Preloads.takeTokensOf {r n : Nat} : s₀.Preloads (s.takeTokensOf 16 r n) :=
  ⟨h.loader, fun a ha => (State.reg_bump_other _ _ _ _ ha).trans (h.reg a ha)⟩

theorem State.Preloads.passWeir {cls ctx n : Nat} : s₀.Preloads (s.passWeir 16 cls ctx n).2 := by
  unfold State.passWeir
  split
  · exact h
  · exact .ite h (.takeTokensOf h)

theorem State.Preloads.chargePage {c : Nat} : s₀.Preloads (s.chargePage c) :=
  have hmove (n : Nat) : s₀.Preloads (s.chargePond c n) := h.then (ps := [.ledger]) (.chargePond (.refl s))
  .count (hmove _)

theorem State.Preloads.copyPage {src dst : Nat} : s₀.Preloads (s.copyPage src dst) :=
  h.then (ps := [.mem, .freeN]) (.copyPage (.refl s))

theorem State.Preloads.preloadPage {k : Nat} {e : PreloadPage} : s₀.Preloads (s.preloadPage k e) :=
  .ite h (.ite (.count (.copyPage (.ite (.chargePage (.count (.passWeir h))) (.count (.passWeir h)))))
    (.ite (.chargePage (.count (.passWeir h))) (.count (.passWeir h))))

theorem State.Preloads.preloadRun {k : Nat} {es : List PreloadPage} : s₀.Preloads (s.preloadRun k es) := by
  induction es generalizing s k with
  | nil => exact h
  | cons e es ih => exact .ite (ih (.preloadPage h)) (.preloadPage h)

end

theorem State.preloads_preloadOn (s : State) (xs : List Section) : s.Preloads (s.preloadOn xs) := .preloadRun (.refl s)

/-! ### PRELOAD and PRELOAD_DONE of a staged section (R130, R514) -/

section
variable {s : State} {x : Section}

theorem State.staged_of_stagedSection (h : s.stagedSection = some x) : ∃ p, s.loader.staged = some p ∧ p.replacement = true := by
  obtain ⟨p, hp, hx⟩ := Option.bind_eq_some_iff.mp h
  refine ⟨p, hp, ?_⟩
  by_contra hkind
  rw [if_neg hkind] at hx
  exact absurd hx (Option.some_ne_none x).symm

/-- The mill of a section, where it is a mill's, runs (R130). -/
theorem not_mill_stopped (hmill : x.typ = 1 → (s.mill x.target).state = .run) (hfused : x.typ = 10 → (s.mill x.target).state = .run) :
    ¬ ((decide (x.typ = 1) || decide (x.typ = 10)) = true ∧ (s.mill x.target).state ≠ .run) := by
  rintro ⟨htyp, hstop⟩
  rcases Bool.or_eq_true _ _ ▸ htyp with h | h
  · exact hstop (hmill (of_decide_eq_true h))
  · exact hstop (hfused (of_decide_eq_true h))

theorem execPreload_of_fits (hidle : s.loader.state = .idle) (hfree : s.mgmtReload = false) (hx : s.stagedSection = some x)
    (hmill : x.typ = 1 → (s.mill x.target).state = .run) (hfused : x.typ = 10 → (s.mill x.target).state = .run)
    (hready : s.loader.ready = false)
    (hfits : x.preloadPages - Tbl.getD s.loader.charged x.ctx 0 ≤ (s.pool (160 + x.ctx)).returned) :
    execPreload s = .next ((s.ldAccept.ldRun .preloading 0 x.target).preloadFrom x.preloadPages) := by
  have hx' : s.ldAccept.stagedSection = some x := hx
  have hready' : ¬ s.ldAccept.loader.ready = true := fun h => Bool.false_ne_true (hready.symm.trans h)
  rw [execPreload, State.ldStart_of_idle hidle hfree, hx']
  dsimp only
  rw [if_neg (not_mill_stopped (s := s.ldAccept) hmill hfused), if_neg hready']
  exact congrArg _ (if_neg (Nat.not_lt.mpr hfits))

theorem execPreload_of_short (hidle : s.loader.state = .idle) (hfree : s.mgmtReload = false) (hx : s.stagedSection = some x)
    (hmill : x.typ = 1 → (s.mill x.target).state = .run) (hfused : x.typ = 10 → (s.mill x.target).state = .run)
    (hready : s.loader.ready = false)
    (hshort : (s.pool (160 + x.ctx)).returned < x.preloadPages - Tbl.getD s.loader.charged x.ctx 0) :
    execPreload s = .next (s.ldAccept.ldFail 2 0x10 0 (some 0) 3 (some x.target) s.ldPlan 0) := by
  have hx' : s.ldAccept.stagedSection = some x := hx
  have hready' : ¬ s.ldAccept.loader.ready = true := fun h => Bool.false_ne_true (hready.symm.trans h)
  rw [execPreload, State.ldStart_of_idle hidle hfree, hx']
  dsimp only
  rw [if_neg (not_mill_stopped (s := s.ldAccept) hmill hfused), if_neg hready']
  exact congrArg _ (if_pos hshort)

theorem preload_starts (hidle : s.loader.state = .idle) (hfree : s.mgmtReload = false) (hx : s.stagedSection = some x)
    (hmill : x.typ = 1 → (s.mill x.target).state = .run) (hfused : x.typ = 10 → (s.mill x.target).state = .run)
    (hready : s.loader.ready = false)
    (hfits : x.preloadPages - Tbl.getD s.loader.charged x.ctx 0 ≤ (s.pool (160 + x.ctx)).returned) : Does .preload s fun t =>
      t.loader.state = .preloading ∧ t.loader.mill = x.target ∧ t.loader.preloadDone = 0 ∧ t.loader.preloadTotal = x.preloadPages ∧
      t.loader.staged = s.loader.staged ∧ t.loader.charged = s.loader.charged ∧ s.onlyChanges t [.loader] :=
  ⟨_, execPreload_of_fits hidle hfree hx hmill hfused hready hfits, rfl, rfl, rfl, rfl, rfl, rfl,
    .preloadFrom (.ldRun (.ldAccept (.refl s)))⟩

theorem preload_rejects (hidle : s.loader.state = .idle) (hfree : s.mgmtReload = false) (hx : s.stagedSection = some x)
    (hmill : x.typ = 1 → (s.mill x.target).state = .run) (hfused : x.typ = 10 → (s.mill x.target).state = .run)
    (hready : s.loader.ready = false)
    (hshort : (s.pool (160 + x.ctx)).returned < x.preloadPages - Tbl.getD s.loader.charged x.ctx 0) : Does .preload s fun t =>
      t.loader.state = .idle ∧ t.loader.result = 2 ∧ t.loader.cause = 0x10 ∧ t.loader.staged = s.loader.staged ∧
      s.onlyChanges t [.ev, .loader, .regs] := by
  refine ⟨_, execPreload_of_short hidle hfree hx hmill hfused hready hshort, ?_⟩
  beta_reduce
  rw [State.ldFail_loader]
  exact ⟨rfl, rfl, rfl, rfl, .ldFailAt (.ldAccept (.refl s))⟩

theorem execPreload_answers (s : State) : s.Answers (execPreload s) [.regs, .ev, .loader, .freeN] := by
  refine .next (.ldStart (.refl s) fun t h => ?_)
  split
  · exact .ldFail h
  · exact .ite (.ldFail h) (.ite (.ldDone h) (.ite (.ldFail h) (.preloadFrom (.ldRun h))))

theorem execPreloadDone_of_waiting (hrun : s.pw.fabricPaused = false) (hstate : s.loader.state = .preloading)
    (hx : s.stagedSection = some x) (hwait : (s.preloadOn [x]).preloaded = false) : execPreloadDone s = .next (s.preloadOn [x]) := by
  rw [execPreloadDone, if_neg (by simp [hrun]), hstate, hx]
  exact if_pos hwait

/-- The preload lists of a staged replacement have run: it is READY. -/
def State.madeReady (s : State) (x : Section) : State :=
  { (s.preloadOn [x]).ldDone with loader := { (s.preloadOn [x]).ldDone.loader with ready := true } }

theorem execPreloadDone_of_preloaded (hrun : s.pw.fabricPaused = false) (hstate : s.loader.state = .preloading)
    (hx : s.stagedSection = some x) (hdone : (s.preloadOn [x]).preloaded = true) (hstay : fld (s.reg Reg.mpCtrl) 1 1 = 0) :
    execPreloadDone s = .next (s.madeReady x) := by
  obtain ⟨p, hp, hkind⟩ := State.staged_of_stagedSection hx
  have hplan : s.ldPlan = p := by rw [State.ldPlan, hp]; rfl
  have hreg : (s.madeReady x).reg Reg.mpCtrl = s.reg Reg.mpCtrl :=
    (State.reg_raise_other _ _ _ _ (by decide)).trans ((s.preloads_preloadOn [x]).reg _ (by decide))
  have hready : { (s.preloadOn [x]).ldDone with loader := { (s.preloadOn [x]).ldDone.loader with
      ready := decide (s.ldPlan.replacement = true) } } = s.madeReady x := by
    rw [hplan, decide_eq_true hkind]
    rfl
  rw [execPreloadDone, if_neg (by simp [hrun]), hstate, hx]
  dsimp only
  rw [hdone, if_neg (by decide), hready, hreg, hstay]
  rfl

theorem preloadDone_readies (hrun : s.pw.fabricPaused = false) (hstate : s.loader.state = .preloading)
    (hx : s.stagedSection = some x) (hdone : (s.preloadOn [x]).preloaded = true) (hstay : fld (s.reg Reg.mpCtrl) 1 1 = 0) :
    Does .preloadDone s fun t =>
      t.loader.state = .idle ∧ t.loader.result = 1 ∧ t.loader.ready = true ∧ t.loader.staged = s.loader.staged ∧
      t.loader.loaded = s.loader.loaded ∧ t.mills = s.mills ∧ s.onlyChanges t [.freeN, .leat, .ledger, .loader, .mem, .regs] := by
  have hchanges : s.onlyChanges (s.madeReady x) [.freeN, .leat, .ledger, .loader, .mem, .regs] :=
    .setLoader (.ldDone (.preloadOn (.refl s)))
  obtain ⟨pages, parcels, charged, hload⟩ := (s.preloads_preloadOn [x]).loader
  have hstaged : (s.preloadOn [x]).loader.staged = s.loader.staged := by rw [hload]
  have hloaded : (s.preloadOn [x]).loader.loaded = s.loader.loaded := by rw [hload]
  exact ⟨_, execPreloadDone_of_preloaded hrun hstate hx hdone hstay, rfl, rfl, rfl, hstaged, hloaded,
    hchanges .mills (by decide), hchanges⟩

theorem preloadDone_waits (hrun : s.pw.fabricPaused = false) (hstate : s.loader.state = .preloading)
    (hx : s.stagedSection = some x) (hwait : (s.preloadOn [x]).preloaded = false) : Does .preloadDone s fun t =>
      t = s.preloadOn [x] ∧ t.loader.state = .preloading ∧ t.loader.staged = s.loader.staged ∧ t.mills = s.mills ∧
      s.onlyChanges t [.freeN, .leat, .ledger, .loader, .mem, .regs] := by
  have hchanges : s.onlyChanges (s.preloadOn [x]) [.freeN, .leat, .ledger, .loader, .mem, .regs] := .preloadOn (.refl s)
  obtain ⟨pages, parcels, charged, hload⟩ := (s.preloads_preloadOn [x]).loader
  refine ⟨_, execPreloadDone_of_waiting hrun hstate hx hwait, rfl, ?_, ?_, hchanges .mills (by decide), hchanges⟩
  · rw [hload, hstate]
  · rw [hload]

end

/-! ### LOAD (R126) -/

theorem sumN_eq_zero {l : List Nat} (h : ∀ n, n ∈ l → n = 0) : sumN l = 0 :=
  List.foldlRecOn (motive := fun k => k = 0) l _ rfl fun _ hk n hn => by rw [hk, h n hn]

section
variable {s : State} {x : Plan}

/-- A LOAD has begun: the quotas and weir rows are written, and the preload lists are about to run. -/
def State.loadBegun (s : State) (x : Plan) : State :=
  ((s.loadOpen x).preloadFrom (sumN ((millSections x.sections).map Section.preloadPages))).ldRun .loading 2 0

theorem State.loadBegun_onlyChanges (s : State) (x : Plan) :
    s.onlyChanges (s.loadBegun x) [.regs, .ledger, .ev, .leat, .loader, .tiers] :=
  .ldRun (.preloadFrom (.loadOpen (.refl s)))

theorem State.loadBegun_loader (s : State) (x : Plan) : ∃ started, (s.loadBegun x).loader =
    { s.loader with preloadDone := 0, preloadTotal := sumN ((millSections x.sections).map Section.preloadPages), passed := 0
                    state := .loading, step := 2, mill := 0, started := started } := by
  have hopen : s.onlyChanges (s.loadOpen x) [.regs, .ledger, .ev, .leat, .tiers] := .loadOpen (.refl s)
  have hload : (s.loadOpen x).loader = s.loader := hopen .loader (by decide)
  refine ⟨((s.loadOpen x).preloadFrom (sumN ((millSections x.sections).map Section.preloadPages))).now, ?_⟩
  rw [← hload]
  rfl

theorem execLoad_of_manufacture (hidle : s.loader.state = .idle) (hfree : s.mgmtReload = false) (hlife : s.lifecycle = 0) :
    execLoad s = .next (s.ldAccept.ldFail 2 0 0x16 none 2 (some 0) s.ldPlan 0) := by
  have hnot : s.ldAccept.lifecycle ≠ 1 := fun h => absurd (hlife.symm.trans h) (by decide)
  rw [execLoad, State.ldStart_of_idle hidle hfree]
  exact congrArg _ (if_pos hnot)

theorem load_inManufacture (hidle : s.loader.state = .idle) (hfree : s.mgmtReload = false) (hlife : s.lifecycle = 0) :
    Does .load s fun t => t.loader.state = .idle ∧ t.loader.result = 2 ∧ t.loader.status = 0x16 ∧
      t.loader.staged = s.loader.staged ∧ t.loader.loaded = s.loader.loaded ∧ s.onlyChanges t [.ev, .freeN, .loader, .regs] := by
  refine ⟨_, execLoad_of_manufacture hidle hfree hlife, ?_⟩
  beta_reduce
  rw [State.ldFail_loader]
  exact ⟨rfl, rfl, rfl, rfl, rfl, .ldFail (.ldAccept (.refl s))⟩

/-- What stops a LOAD: a replacement, a millplan already loaded, or a mill that is not EMPTY (R126). -/
theorem execLoad_of_unloadable (hidle : s.loader.state = .idle) (hfree : s.mgmtReload = false) (hx : s.loader.staged = some x)
    (hlife : s.lifecycle = 1)
    (hstop : x.replacement = true ∨ s.loader.loaded.isSome = true ∨ ∃ m, m < 16 ∧ (s.mill m).state ≠ .empty) :
    execLoad s = .next (s.ldAccept.ldFail 2 0 0 none 2 (some 0) s.ldPlan 0) := by
  have hx' : s.ldAccept.loader.staged = some x := hx
  have hlife' : ¬ s.ldAccept.lifecycle ≠ 1 := not_not_intro hlife
  have hstop' : x.replacement = true ∨ s.ldAccept.loader.loaded.isSome = true ∨
      (List.range 16).any (fun m => decide ((s.ldAccept.mill m).state ≠ .empty)) = true := by
    refine hstop.imp_right (Or.imp_right fun ⟨m, hm, hstate⟩ => ?_)
    exact List.any_eq_true.mpr ⟨m, List.mem_range.mpr hm, decide_eq_true hstate⟩
  rw [execLoad, State.ldStart_of_idle hidle hfree]
  dsimp only
  rw [if_neg hlife', hx']
  exact congrArg _ (if_pos hstop')

theorem load_rejects (hidle : s.loader.state = .idle) (hfree : s.mgmtReload = false) (hx : s.loader.staged = some x)
    (hlife : s.lifecycle = 1)
    (hstop : x.replacement = true ∨ s.loader.loaded.isSome = true ∨ ∃ m, m < 16 ∧ (s.mill m).state ≠ .empty) :
    Does .load s fun t => t.loader.result = 2 ∧ t.loader.cause = 0 ∧ t.loader.staged = some x ∧
      t.loader.loaded = s.loader.loaded ∧ s.onlyChanges t [.ev, .freeN, .loader, .regs] := by
  refine ⟨_, execLoad_of_unloadable hidle hfree hx hlife hstop, ?_⟩
  beta_reduce
  rw [State.ldFail_loader]
  exact ⟨rfl, rfl, hx, rfl, .ldFail (.ldAccept (.refl s))⟩

theorem execLoad_of_fits (hidle : s.loader.state = .idle) (hfree : s.mgmtReload = false) (hx : s.loader.staged = some x)
    (hlife : s.lifecycle = 1) (hkind : x.replacement = false) (hnone : s.loader.loaded = none)
    (hempty : ∀ m, m < 16 → (s.mill m).state = .empty) (hfits : s.loadFits x.sections = true) :
    execLoad s = .next (s.ldAccept.loadBegun x).loadStep := by
  have hx' : s.ldAccept.loader.staged = some x := hx
  have hlife' : ¬ s.ldAccept.lifecycle ≠ 1 := not_not_intro hlife
  have hfits' : s.ldAccept.loadFits x.sections = true := hfits
  have hloadable : ¬ (x.replacement = true ∨ s.ldAccept.loader.loaded.isSome = true ∨
      (List.range 16).any (fun m => decide ((s.ldAccept.mill m).state ≠ .empty)) = true) := by
    rintro (hrepl | hloaded | hmills)
    · exact Bool.false_ne_true (hkind.symm.trans hrepl)
    · exact Bool.false_ne_true ((congrArg Option.isSome hnone).symm.trans hloaded)
    · obtain ⟨m, hm, hstate⟩ := List.any_eq_true.mp hmills
      exact of_decide_eq_true hstate (hempty m (List.mem_range.mp hm))
  rw [execLoad, State.ldStart_of_idle hidle hfree]
  dsimp only
  rw [if_neg hlife', hx']
  dsimp only
  rw [if_neg hloadable]
  exact congrArg _ (if_neg (by rw [hfits']; decide))

theorem State.loadStep_of_waiting (hx : s.loader.staged = some x) (hwait : s.preloaded = false) : s.loadStep = s := by
  rw [State.loadStep, hx]
  exact if_pos hwait

theorem State.loadStep_of_preloaded (hx : s.loader.staged = some x) (hdone : s.preloaded = true)
    (hgood : ∀ y, y ∈ x.sections → s.preloadBad y = false) (hmills : ∀ m, m < 16 → (s.mill m).state ≠ .fault) : ∃ loads,
      s.loadStep = { (s.loadPlan x).ldDone with loader := { (s.loadPlan x).ldDone.loader with loads := loads } } := by
  have hrun : ¬ (x.sections.any s.preloadBad ∨ (List.range 16).any (fun m => (s.mill m).state = .fault) = true) := by
    rintro (hbad | hfault)
    · obtain ⟨y, hy, hbad⟩ := List.any_eq_true.mp hbad
      exact Bool.false_ne_true ((hgood y hy).symm.trans hbad)
    · obtain ⟨m, hm, hfault⟩ := List.any_eq_true.mp hfault
      exact hmills m (List.mem_range.mp hm) (of_decide_eq_true hfault)
  refine ⟨((s.loadPlan x).ldDone.loader.loads + 1) % 2 ^ 32, ?_⟩
  rw [State.loadStep, hx]
  dsimp only
  rw [hdone, if_neg (by decide), if_neg hrun]

/-- A LOAD whose preload lists have run puts its millplan in force. -/
theorem State.loadStep_loads (hx : s.loader.staged = some x) (hdone : s.preloaded = true)
    (hgood : ∀ y, y ∈ x.sections → s.preloadBad y = false) (hmills : ∀ m, m < 16 → (s.mill m).state ≠ .fault) :
    s.loadStep.loader.state = .idle ∧ s.loadStep.loader.result = 1 ∧ s.loadStep.loader.loaded = some x ∧
    s.loadStep.loader.staged = none ∧ ∀ y, y ∈ millSections x.sections → (s.loadStep.mill y.target).state = s.opened := by
  obtain ⟨loads, hstep⟩ := State.loadStep_of_preloaded hx hdone hgood hmills
  obtain ⟨hloaded, hstaged⟩ := s.loadMills_loader x
  have hrest := s.loadMills_onlyChanges_loadPlan x
  have hload : (s.loadPlan x).loader = (s.loadMills x).loader := hrest .loader (by decide)
  rw [hstep]
  generalize s.loadPlan x = t at hload hrest ⊢
  refine ⟨rfl, rfl, ?_, ?_, fun y hy => ?_⟩
  · exact (congrArg Loader.loaded hload).trans hloaded
  · exact (congrArg Loader.staged hload).trans hstaged
  · exact (congrArg Mill.state (State.mill_congr (hrest .mills (by decide)) y.target)).trans (State.mill_loadMills hy)

theorem execLoad_answers (s : State) : s.Answers (execLoad s) (.fus :: .freeN :: unloadParts) := by
  refine .next (.ldStart (.refl s) fun t h => .ite (.ldFail h) ?_)
  split
  · exact .ldFail h
  · exact .ite (.ldFail h) (.ite (.ldFail h) (.loadStep (.ldRun (.preloadFrom (.loadOpen h)))))

theorem load_opensAtOnce (hidle : s.loader.state = .idle) (hfree : s.mgmtReload = false) (hx : s.loader.staged = some x)
    (hlife : s.lifecycle = 1) (hkind : x.replacement = false) (hnone : s.loader.loaded = none)
    (hempty : ∀ m, m < 16 → (s.mill m).state = .empty) (hfits : s.loadFits x.sections = true)
    (hpreloads : ∀ y, y ∈ x.sections → y.preloads = []) : Does .load s fun t =>
      t.loader.state = .idle ∧ t.loader.result = 1 ∧ t.loader.loaded = some x ∧ t.loader.staged = none ∧
      (∀ y, y ∈ millSections x.sections → (t.mill y.target).state = s.opened) := by
  have hbegun := s.ldAccept.loadBegun_onlyChanges x
  obtain ⟨started, hload⟩ := s.ldAccept.loadBegun_loader x
  have hpages : sumN ((millSections x.sections).map Section.preloadPages) = 0 := by
    refine sumN_eq_zero fun n hn => ?_
    obtain ⟨y, hy, rfl⟩ := List.mem_map.mp hn
    rw [Section.preloadPages, hpreloads y (List.mem_of_mem_filter hy)]
    rfl
  have hmill (m : Nat) : (s.ldAccept.loadBegun x).mill m = s.mill m := State.mill_congr (hbegun .mills (by decide)) m
  have hopened : (s.ldAccept.loadBegun x).opened = s.opened := State.opened_congr (hbegun .pw (by decide))
  rw [← hopened]
  refine ⟨_, execLoad_of_fits hidle hfree hx hlife hkind hnone hempty hfits, State.loadStep_loads ?_ ?_ ?_ ?_⟩
  · rw [hload]
    exact hx
  · rw [State.preloaded, hload, hpages]
    rfl
  · intro y hy
    rw [State.preloadBad, hpreloads y hy]
    rfl
  · intro m hm
    rw [hmill, hempty m hm]
    decide

theorem load_awaitsPreloads (hidle : s.loader.state = .idle) (hfree : s.mgmtReload = false) (hx : s.loader.staged = some x)
    (hlife : s.lifecycle = 1) (hkind : x.replacement = false) (hnone : s.loader.loaded = none)
    (hempty : ∀ m, m < 16 → (s.mill m).state = .empty) (hfits : s.loadFits x.sections = true)
    (hpages : sumN ((millSections x.sections).map Section.preloadPages) ≠ 0) : Does .load s fun t =>
      t.loader.state = .loading ∧ t.loader.step = 2 ∧ t.loader.loaded = none ∧ t.loader.staged = some x ∧ t.mills = s.mills ∧
      t.mem = s.mem := by
  have hbegun := s.ldAccept.loadBegun_onlyChanges x
  obtain ⟨started, hload⟩ := s.ldAccept.loadBegun_loader x
  have hstaged : (s.ldAccept.loadBegun x).loader.staged = some x := by
    rw [hload]
    exact hx
  have hwait : (s.ldAccept.loadBegun x).preloaded = false := by
    rw [State.preloaded, hload]
    exact decide_eq_false hpages.symm
  refine ⟨_, execLoad_of_fits hidle hfree hx hlife hkind hnone hempty hfits, ?_⟩
  rw [State.loadStep_of_waiting hstaged hwait]
  refine ⟨?_, ?_, ?_, hstaged, hbegun .mills (by decide), hbegun .mem (by decide)⟩
  · rw [hload]
  · rw [hload]
  · rw [hload]
    exact hnone

theorem preloadDone_loads {u : State} (hstate : s.loader.state = .loading) (hrun : s.pw.fabricPaused = false)
    (hx : s.loader.staged = some x) (hu : u = s.preloadOn (millSections x.sections)) (hdone : u.preloaded = true)
    (hgood : ∀ y, y ∈ x.sections → u.preloadBad y = false) (hmills : ∀ m, m < 16 → (s.mill m).state ≠ .fault) :
    Does .preloadDone s fun t =>
      t.loader.state = .idle ∧ t.loader.result = 1 ∧ t.loader.loaded = some x ∧ t.loader.staged = none ∧
      (∀ y, y ∈ millSections x.sections → (t.mill y.target).state = .run) := by
  have hframe : s.onlyChanges u [.regs, .mem, .ledger, .leat, .loader, .freeN] := hu ▸ .preloadOn (.refl s)
  obtain ⟨pages, parcels, charged, hload⟩ := hu ▸ (s.preloads_preloadOn (millSections x.sections)).loader
  have hopened : u.opened = .run := by
    rw [State.opened_congr (hframe .pw (by decide)), State.opened, hrun]
    rfl
  have hmill (m : Nat) : u.mill m = s.mill m := State.mill_congr (hframe .mills (by decide)) m
  have hexec : exec .preloadDone s = .next u.loadStep := by
    show execPreloadDone s = _
    rw [execPreloadDone, if_neg (by simp [hrun]), hstate, hx, hu]
  rw [← hopened]
  refine ⟨_, hexec, State.loadStep_loads ?_ hdone hgood fun m hm => by rw [hmill]; exact hmills m hm⟩
  rw [hload]
  exact hx

end

/-! ### DISCARD and UNLOAD (R126, R127, R224) -/

section
variable {s : State}

theorem execDiscard_answers (s : State) : s.Answers (execDiscard s) [.regs, .ledger, .loader] :=
  .next (.ldStart (.refl s) fun _ h => .ldDone (.discardStaged h))

theorem discard_drops (hidle : s.loader.state = .idle) (hfree : s.mgmtReload = false) : Does .discard s fun t =>
    t.loader.staged = none ∧ t.loader.result = 1 ∧ t.loader.state = .idle ∧ t.loader.loaded = s.loader.loaded ∧
    s.onlyChanges t [.ledger, .loader, .regs] := by
  have hexec : exec .discard s = .next s.ldAccept.discardStaged.ldDone := congrArg Host.Outcome.next (State.ldStart_of_idle hidle hfree _)
  exact ⟨_, hexec, rfl, rfl, rfl, s.ldAccept.discardStaged_loaded, .ldDone (.discardStaged (.ldAccept (.refl s)))⟩

theorem State.mill_unloadPlan (s : State) {m : Nat} (hm : m < 16) : s.unloadPlan.mill m = (s.mill m).unloaded := by
  have hstreams : s.onlyChanges s.unloadStreams [.regs, .ledger, .hp, .streams] := .unloadStreams (.refl s)
  rw [State.mill_congr (s.unloadMills_onlyChanges_unloadPlan .mills (by decide)), State.unloadMills,
    State.mill_foldl_setMill Mill.unloaded List.nodup_range _ (List.mem_range.mpr hm),
    State.mill_congr (hstreams .mills (by decide))]

theorem State.unloadPlan_empties (s : State) :
    s.unloadPlan.loader.loaded = none ∧ s.unloadPlan.tiers.runs = [] ∧ s.unloadPlan.bolters = [] := by
  unfold State.unloadPlan
  extract_lets
  exact ⟨rfl, rfl, rfl⟩

theorem State.unloadPlan_mem (s : State) : s.unloadPlan.mem = s.mem := by
  have hplan : s.onlyChanges s.unloadPlan
      [.regs, .ledger, .ev, .hp, .mills, .leat, .loader, .ops, .streams, .tiers, .bolters, .gov, .sn] :=
    s.unloadMills_onlyChanges.mono.then s.unloadMills_onlyChanges_unloadPlan (by decide)
  exact hplan .mem (by decide)

/-- What an UNLOAD leaves where every mill is EMPTY. -/
theorem State.unloadPlan_ldDone_spec (h : ∀ m, m < 16 → (s.mill m).state = .empty) :
    s.unloadPlan.ldDone.loader.state = .idle ∧ s.unloadPlan.ldDone.loader.result = 1 ∧ s.unloadPlan.ldDone.loader.loaded = none ∧
    s.unloadPlan.ldDone.tiers.runs = [] ∧ s.unloadPlan.ldDone.bolters = [] ∧
    (∀ m, m < 16 → (s.unloadPlan.ldDone.mill m).state = .empty ∧ (s.unloadPlan.ldDone.mill m).sec = none) ∧
    s.unloadPlan.ldDone.mem = s.mem := by
  have hdone : s.unloadPlan.onlyChanges s.unloadPlan.ldDone [.regs, .loader] := .ldDone (.refl _)
  obtain ⟨hloaded, hruns, hbolters⟩ := s.unloadPlan_empties
  refine ⟨rfl, rfl, hloaded, (congrArg Tiers.runs (hdone .tiers (by decide))).trans hruns,
    Eq.trans (hdone .bolters (by decide)) hbolters, fun m hm => ?_, Eq.trans (hdone .mem (by decide)) s.unloadPlan_mem⟩
  rw [State.mill_congr (hdone .mills (by decide)), State.mill_unloadPlan _ hm]
  simp [Mill.unloaded, h m hm]

/-- UNLOAD ends where every mill is EMPTY. -/
theorem State.unloadStep_of_empty (h : ∀ m, m < 16 → (s.mill m).state = .empty) : s.unloadStep = s.unloadPlan.ldDone := by
  have hdrain : s.draining = [] := List.filter_eq_nil_iff.mpr fun m hm => by simp [h m (List.mem_range.mp hm)]
  have hpaused : (List.range 16).all (fun m => decide ((s.mill m).state ≠ .paused)) = true :=
    List.all_eq_true.mpr fun m hm => by simp [h m (List.mem_range.mp hm)]
  have hfailed : (List.range 16).filter (fun m => decide ((s.mill m).state = .fault)) = [] :=
    List.filter_eq_nil_iff.mpr fun m hm => by simp [h m (List.mem_range.mp hm)]
  unfold State.unloadStep
  dsimp only
  rw [hdrain, hpaused, hfailed, List.foldl_nil]
  exact if_pos rfl

/-- UNLOAD waits for a mill that has not drained (R132). -/
theorem State.unloadStep_of_draining {m : Nat} (hm : m < 16) (h : (s.mill m).state = .closed ∧ (s.mill m).drained = false) :
    s.unloadStep = s := by
  have hdrain : m ∈ s.draining := List.mem_filter.mpr ⟨List.mem_range.mpr hm, by simp [h]⟩
  refine if_neg fun hall => ?_
  rw [Bool.and_eq_true, List.isEmpty_iff] at hall
  exact List.not_mem_nil (hall.1 ▸ hdrain)

/-- The sluices of an UNLOAD close. -/
def State.beginUnload (s : State) : State := (List.range 16).foldl State.closeMill (s.discardStaged.ldRun .unloading 1 0)

theorem State.beginUnload_onlyChanges (s : State) : s.onlyChanges s.beginUnload [.ledger, .mills, .leat, .loader] :=
  .foldl (fun _ _ h => .closeMill h) (.ldRun (.discardStaged (.refl s)))

theorem State.beginUnload_loader (s : State) :
    s.beginUnload.loader.state = .unloading ∧ s.beginUnload.loader.loaded = s.loader.loaded := by
  have hclose : (s.discardStaged.ldRun .unloading 1 0).onlyChanges s.beginUnload [.ledger, .mills, .leat] :=
    .foldl (fun _ _ h => .closeMill h) (.refl _)
  have hload : s.beginUnload.loader = (s.discardStaged.ldRun .unloading 1 0).loader := hclose .loader (by decide)
  rw [hload]
  exact ⟨rfl, s.discardStaged_loaded⟩

theorem execUnload_of_loaded (hidle : s.loader.state = .idle) (hfree : s.mgmtReload = false)
    (hloaded : s.loader.loaded.isSome = true) : execUnload s = .next s.ldAccept.beginUnload.unloadStep := by
  have hsome : ¬ s.ldAccept.loader.loaded.isNone = true := by
    rw [Option.isNone_iff_eq_none]
    exact Option.isSome_iff_ne_none.mp hloaded
  rw [execUnload, State.ldStart_of_idle hidle hfree]
  exact congrArg _ (if_neg hsome)

/-- The mills as an UNLOAD begins. -/
theorem State.mill_beforeUnload (s : State) (m : Nat) : (s.discardStaged.ldRun .unloading 1 0).mill m = s.mill m := by
  have hframe : s.onlyChanges (s.discardStaged.ldRun .unloading 1 0) [.ledger, .loader] := .ldRun (.discardStaged (.refl s))
  exact State.mill_congr (hframe .mills (by decide)) m

/-- With no mill in RUN, no sluice closes. -/
theorem State.beginUnload_of_none_runs (h : ∀ m, m < 16 → (s.mill m).state ≠ .run) :
    s.beginUnload = s.discardStaged.ldRun .unloading 1 0 := by
  rw [State.beginUnload]
  refine State.closeMills_of_none_runs fun m hm => ?_
  rw [State.mill_beforeUnload]
  exact h m (List.mem_range.mp hm)

theorem State.beginUnload_mem (s : State) : s.beginUnload.mem = s.mem := s.beginUnload_onlyChanges .mem (by decide)

theorem unload_atOnce (hidle : s.loader.state = .idle) (hfree : s.mgmtReload = false) (hloaded : s.loader.loaded.isSome = true)
    (hempty : ∀ m, m < 16 → (s.mill m).state = .empty) : Does .unload s fun t =>
      t.loader.state = .idle ∧ t.loader.result = 1 ∧ t.loader.loaded = none ∧ t.tiers.runs = [] ∧ t.bolters = [] ∧
      (∀ m, m < 16 → (t.mill m).state = .empty ∧ (t.mill m).sec = none) ∧ t.mem = s.mem := by
  have hnone (m : Nat) (hm : m < 16) : (s.ldAccept.mill m).state ≠ .run :=
    fun hrun => absurd ((hempty m hm).symm.trans hrun) (by decide)
  have hstill (m : Nat) (hm : m < 16) : (s.ldAccept.beginUnload.mill m).state = .empty := by
    rw [State.beginUnload_of_none_runs hnone, State.mill_beforeUnload]
    exact hempty m hm
  have hunload := execUnload_of_loaded hidle hfree hloaded
  rw [State.unloadStep_of_empty hstill] at hunload
  obtain ⟨hstate, hresult, hplan, hruns, hbolters, hmills, hmem⟩ := State.unloadPlan_ldDone_spec hstill
  exact ⟨_, hunload, hstate, hresult, hplan, hruns, hbolters, hmills, hmem.trans s.ldAccept.beginUnload_mem⟩

theorem unload_awaitsDrains (hidle : s.loader.state = .idle) (hfree : s.mgmtReload = false) (hloaded : s.loader.loaded.isSome = true)
    (hrun : ∃ m, m < 16 ∧ (s.mill m).state = .run) : Does .unload s fun t =>
      t.loader.state = .unloading ∧ t.loader.loaded = s.loader.loaded ∧
      (∀ m, m < 16 → (s.mill m).state = .run → (t.mill m).state = .closed ∧ (t.mill m).drained = false) ∧
      s.onlyChanges t [.leat, .ledger, .loader, .mills] := by
  have hclosed (m : Nat) (hm : m < 16) (h : (s.mill m).state = .run) :
      (s.ldAccept.beginUnload.mill m).state = .closed ∧ (s.ldAccept.beginUnload.mill m).drained = false :=
    State.mill_closeMills (List.mem_range.mpr hm) (by rw [State.mill_beforeUnload]; exact h)
  obtain ⟨m, hm, hmrun⟩ := hrun
  have hunload := execUnload_of_loaded hidle hfree hloaded
  rw [State.unloadStep_of_draining hm (hclosed m hm hmrun)] at hunload
  obtain ⟨hstate, hkept⟩ := s.ldAccept.beginUnload_loader
  exact ⟨_, hunload, hstate, hkept, hclosed,
    (State.onlyChanges.ldAccept (.refl s)).then s.ldAccept.beginUnload_onlyChanges (by decide)⟩

theorem execUnload_answers (s : State) : s.Answers (execUnload s) (.hold :: unloadParts) :=
  .next (.ldStart (.refl s) fun _ h => .ite (.ldDone h)
    (.unloadStep (.foldl (fun _ _ h => .closeMill h) (.ldRun (.discardStaged h)))))

/-! ### SWAP, RESTORE and PRELOAD_DONE -/

theorem execSwap_answers (s : State) : s.Answers (execSwap s) [.regs, .ledger, .ev, .mills, .leat, .loader, .gov, .freeN] :=
  .next (.ldStart (.refl s) fun _ h => .swapStart h)

theorem execRestore_answers (m : Nat) (s : State) : s.Answers (execRestore m s) evacParts :=
  .next (.ldStart (.refl s) fun _ h => .ite (.ldFailAt h) (.evacPreload (.ldRun h)))

theorem execPreloadDone_answers (s : State) :
    s.Answers (execPreloadDone s) (.hold :: .fus :: .freeN :: unloadParts) := by
  have hon (xs : List Section) : s.onlyChanges (s.preloadOn xs) (.hold :: .fus :: .freeN :: unloadParts) := .preloadOn (.refl s)
  refine .ite (.next (.refl s)) ?_
  split
  · split
    · exact .next (.refl s)
    · exact .ite (.next (hon _)) (.next (.ite (.swapStart (.ldAccept (.setLoader (.ldDone (hon _))))) (.setLoader (.ldDone (hon _)))))
  · split
    · exact .ite (.next (.ite (.takeQueued (.swapFinish (hon _))) (hon _))) (.next (.refl s))
    · exact .next (.refl s)
  · exact .ite (.next (.ite (.evacClose (hon _)) (hon _))) (.next (.refl s))
  · exact .ite (.next (.ite (.evacClose (hon _)) (hon _))) (.next (.refl s))
  · split
    · exact .next (.loadStep (hon _))
    · exact .next (.refl s)
  · exact .next (.refl s)

end

/-! ### The family -/

theorem State.Answers.mono {s : State} {o : Out} {ps qs : List Part} (h : s.Answers o ps) (hq : ps ⊆ qs := by decide) :
    s.Answers o qs := by
  obtain ⟨t, hnext, hchanges⟩ := h
  exact ⟨t, hnext, hchanges.mono hq⟩

/-- Settles O57: each clause is the equation of its command, and a command's frame is that of the operations it is made of. -/
theorem millplanLoaded : Obligations.MillplanLoaded := by
  unfold Obligations.MillplanLoaded
  refine ⟨fun c m s hc hbusy => ?_, fun s => copyVerify_rejects, fun s => copyVerify_copies, fun c s hc hidle hfree hlife => ?_,
    fun s => copyDone_fills, fun s => copyDone_waits, fun s => verifyDone_settles, fun x s => load_opensAtOnce,
    fun x s => load_awaitsPreloads, fun x u s => preloadDone_loads, fun x s => load_rejects, fun x s => preload_starts,
    fun x s => preload_rejects, fun x s => preloadDone_readies, fun x s => preloadDone_waits, fun s => discard_drops,
    fun s => unload_atOnce, fun s => unload_awaitsDrains, execCopyVerify_answers, fun s => (execLoad_answers s).mono,
    fun c s hc => ?_, execSwap_answers, fun s => (execUnload_answers s).mono, execDiscard_answers, execRestore_answers,
    execCopyDone_answers, fun s => (execPreloadDone_answers s).mono⟩
  · simp only [List.mem_cons, List.not_mem_nil, or_false] at hc
    rcases hc with rfl | rfl | rfl | rfl | rfl | rfl | rfl <;> exact does_ignored rfl hbusy
  · simp only [List.mem_cons, List.not_mem_nil, or_false] at hc
    rcases hc with rfl | rfl
    · exact copyVerify_inManufacture hidle hfree hlife
    · exact load_inManufacture hidle hfree hlife
  · simp only [List.mem_cons, List.not_mem_nil, or_false] at hc
    rcases hc with rfl | rfl
    · exact execPreload_answers s
    · exact execVerifyDone_answers s

end Sys2Proof.Machine
end

section
/-!
PROOF. EVACUATE (O58): a stage of the failed mill may be the last reader of a closing sequence, and then its descriptor is cleared in
HBM as the mill's reads end (R177, R189).
-/
-- One proof at a time, as in the tests: proofs that wait for the kernel side by side each hold a thread and its stack.
set_option Elab.async false
namespace Sys2Proof.Machine

theorem exec_evacuate_of_spare {m : Nat} {s : State} (hm : m < 16) (hidle : s.loader.state = .idle) (hfault : (s.mill m).state = .fault)
    (hspare : s.loader.placedFor = none) : exec (.evacuate m) s = .next (s.ldAccept.evacStart m) := by
  have hask : s.evacAsk m true = s.ldAccept.evacStart m := by
    unfold State.evacAsk
    rw [hidle, hspare]
    rfl
  show execEvacuate m s = _
  rw [execEvacuate, if_neg (Nat.not_le.mpr hm), if_neg (not_not_intro hfault), hask]

/-- The header of a section (R114); its body, or its preload list, begins right behind it. -/
def headerBytes (typ bodyLen preloads : Nat) : Bytes :=
  le 1 typ ++ zeros 3 ++ le 4 bodyLen ++ zeros 2 ++ le 2 preloads ++ zeros 8 ++ le 4 64 ++ le 4 64 ++ zeros 36

/-- A FALLBACK section of mill 0 whose affected set is one MILL section that preloads a page. -/
def onePageFallback : Section :=
  { typ := 9, target := 0, bytes := headerBytes 9 128 0 ++ headerBytes 1 0 1 ++ zeros 12 ++ le 2 1 ++ zeros 50 }

/-- Mill 0 has failed while a stage of it reads a closing sequence, whose descriptor stands at the start of HBM (R172, R177). -/
def failedReader : State :=
  (({ State.reset with
      loader := { loaded := some { sections := [onePageFallback] } }
      ops := { reads := [{ mill := 0, stage := 0, slot := hbmBase, pos := 0 }] } } : State).setMill 0
    { state := .fault }).setSeq hbmBase { closing := true }

theorem onePageFallback_pages : sumN ((millSections onePageFallback.affected).map Section.preloadPages) = 1 := by decide +kernel

/-- The flags of the descriptor, 2 for CLOSING, before and after the evacuation has started. -/
theorem failedReader_descriptor : failedReader.mem.hbm.read (hbmBase + 44) = 2 ∧
    (failedReader.ldAccept.evacStart 0).mem.hbm.read (hbmBase + 44) = 0 := by
  decide +kernel

/-- Refutes O58: EVACUATE leaves the memories alone by its clause, and clears the descriptor of a closing sequence that the failed
mill was reading. -/
theorem not_sectionsReplaced : ¬ Obligations.SectionsReplaced := by
  rintro ⟨-, -, -, -, -, -, -, hevacuate, -⟩
  obtain ⟨t, ht, -, -, -, -, hmem⟩ := hevacuate (.evacuate 0) 0 onePageFallback failedReader (.inl rfl) (by decide) (by decide)
    (by decide) (by decide) (by decide) (by decide +kernel) (by rw [onePageFallback_pages]; decide)
  have hnext := Host.Outcome.next.inj ((exec_evacuate_of_spare (by decide) (by decide) (by decide) (by decide)).symm.trans ht)
  obtain ⟨hbefore, hafter⟩ := failedReader_descriptor
  rw [hnext, hmem, hbefore] at hafter
  exact absurd hafter (by decide)

end Sys2Proof.Machine
end

section
/-!
PROOF. What the operations of recurrent streams do (chapter 7): a stream after it is set, the chunks that return stale, the state slots
that become zero, and the parts of the state that each operation may change. The streams' statements (O45, O46) rest on these.
-/
namespace Sys2Proof.Machine

/-! ### What may change -/

section
variable {s₀ s : State} {ps : List Part} (h : s₀.onlyChanges s ps)
include h

theorem State.onlyChanges.begin {r : Request} (hp : .hp ∈ ps := by decide) : s₀.onlyChanges (s.begin r) ps := .setHp h hp

theorem State.onlyChanges.pxRequest {q : TierReq} {m : Nat} (hq : [.regs, .ledger, .tiers, .px] ⊆ ps := by decide) :
    s₀.onlyChanges (s.pxRequest q m) ps :=
  h.then (.ite (.endRemote (.refl s)) (.ite (.endRemote (.refl s))
    (.ite (.foldl (fun _ _ h => .enqueue (.setPx h)) (.refl s)) (.enqueue (.setPx (.refl s)))))) hq

theorem State.onlyChanges.dropChunk {n : Nat} {l : Layer} {k : Chunk} (hq : [.ledger, .mills, .leat] ⊆ ps := by decide) :
    s₀.onlyChanges (s.dropChunk n l k) ps :=
  .foldl (fun _ _ h => .ite (.dropParcels h hq) h) h

theorem State.onlyChanges.staleChunk {k : Chunk} (hq : [.regs, .hp] ⊆ ps := by decide) : s₀.onlyChanges (s.staleChunk k) ps :=
  h.then (.chunkDone (.bump (.refl s))) hq

theorem State.onlyChanges.raiseGen {n ctx : Nat} {c : StreamCfg} (hq : [.regs, .ledger, .hp, .streams] ⊆ ps := by decide) :
    s₀.onlyChanges (s.raiseGen n ctx c) ps :=
  h.then (.setStrm (.staleQueue (.refl s))) hq

theorem State.onlyChanges.releaseStream {n : Nat} (hp : .streams ∈ ps := by decide) : s₀.onlyChanges (s.releaseStream n) ps :=
  .setStrm h hp

theorem State.onlyChanges.packageRemote {n ctx : Nat} {write : Bool} {a len : Nat}
    (hq : [.regs, .ledger, .tiers, .px] ⊆ ps := by decide) : s₀.onlyChanges (s.packageRemote n ctx write a len) ps :=
  h.then (.foldl (fun _ _ h => .pxRequest (.setTiers h)) (.refl s)) hq

theorem State.onlyChanges.packageClear {n : Nat} (hp : .tiers ∈ ps := by decide) : s₀.onlyChanges (s.packageClear n) ps :=
  .setTiers h hp

theorem State.onlyChanges.countMove {imports : Bool} (hp : .regs ∈ ps := by decide) : s₀.onlyChanges (s.countMove imports) ps :=
  .setReg h hp

theorem State.onlyChanges.exported {n : Nat} {c : StreamCfg} {w : StreamWait}
    (hq : [.regs, .ledger, .hp, .streams] ⊆ ps := by decide) : s₀.onlyChanges (s.exported n c w) ps := by
  refine h.then ?_ hq
  unfold State.exported
  extract_lets
  split
  · exact .countMove (.refl s)
  · exact .ite (.finish (.setStrm (.countMove (.refl s))))
      (.finish (.releaseStream (.setHp (.queuePages (.countMove (.refl s))))))

theorem State.onlyChanges.exportFailed {n : Nat} {w : StreamWait} {status : Nat} (hq : [.hp, .streams] ⊆ ps := by decide) :
    s₀.onlyChanges (s.exportFailed n w status) ps :=
  h.then (.finishAt (.setStrm (.refl s))) hq

theorem State.onlyChanges.exportStep {n : Nat} {c : StreamCfg} {w : StreamWait}
    (hq : [.regs, .mem, .ledger, .hp, .streams, .tiers, .px] ⊆ ps := by decide) : s₀.onlyChanges (s.exportStep n c w) ps :=
  h.then (.ite (.ite (.refl s) (.ite (.exported (.packageClear (.refl s))) (.exportFailed (.packageClear (.refl s)))))
    (.ite (.exportFailed (.refl s)) (.ite (.setStrm (.packageRemote (.setLocal (.refl s)))) (.exported (.putMem (.refl s)))))) hq

theorem State.onlyChanges.importLayers {n : Nat} {c : StreamCfg} {gen : Nat} {b : Bytes} {k : Nat}
    (hq : [.mem, .streams, .tiers] ⊆ ps := by decide) : s₀.onlyChanges (s.importLayers n c gen b k) ps := by
  refine h.then ?_ hq
  clear h
  induction k generalizing s b with
  | zero => exact .refl s
  | succ k ih =>
    unfold State.importLayers
    dsimp only
    split
    · exact .refl s
    · exact .then (.setStrm (.putMem (.refl s))) ih (List.Subset.refl _)

theorem State.onlyChanges.importPackage {n ctx : Nat} {c : StreamCfg} {r : Request} {b : Bytes}
    (hq : [.regs, .mem, .ledger, .hp, .streams, .tiers] ⊆ ps := by decide) : s₀.onlyChanges (s.importPackage n ctx c r b) ps :=
  h.then (.ite (.finish (.setStrm (.refl s))) (.ite (.finish (.setStrm (.refl s))) (.ite (.finish (.setStrm (.refl s)))
    (.finish (.countMove (.move (.foldl (fun _ _ h => .putMem h) (.importLayers (.setStrm (.refl s)))))))))) hq

theorem State.onlyChanges.importStep {n : Nat} {c : StreamCfg} {w : StreamWait}
    (hq : [.regs, .mem, .ledger, .hp, .streams, .tiers] ⊆ ps := by decide) : s₀.onlyChanges (s.importStep n c w) ps := by
  refine h.then ?_ hq
  unfold State.importStep
  extract_lets
  split
  · exact .refl s
  · exact .ite (.refl s) (.ite (.importPackage (.packageClear (.refl s))) (.finish (.setStrm (.packageClear (.refl s)))))

/-- A stream command changes what it changes once its checks are passed, and completes its request otherwise. -/
theorem State.onlyChanges.streamCmd {ctx idx op : Nat} {states : List StreamState} {gen : Bool}
    {k : Request → Nat → StreamCfg → State} (hk : ∀ r n c, s₀.onlyChanges (k r n c) ps) (hp : .hp ∈ ps := by decide) :
    s₀.onlyChanges (s.streamCmd ctx idx op states gen k) ps := by
  unfold State.streamCmd
  split
  · exact h
  · refine .ite (.finish h hp) ?_
    split
    · exact .finish h hp
    · exact .ite (.finish h hp) (.ite (.finish h hp) (.ite (.finish h hp) (hk _ _ _)))

end

/-! ### One stream -/

@[simp] theorem State.strm_setStrm_same (s : State) (n : Nat) (x : Stream) : (s.setStrm n x).strm n = x := Tbl.getD_set_same ..

@[simp] theorem State.strm_finish (s : State) (r : Request) (status result extra n : Nat) :
    (s.finish r status result extra).strm n = s.strm n := rfl

theorem State.done_finish (s : State) (r : Request) (status result extra : Nat) :
    ∃ d : Done, (s.finish r status result extra).hp.done = s.hp.done ++ [d] ∧ d.req = r ∧ d.status = status := ⟨_, rfl, rfl, rfl⟩

@[simp] theorem State.strm_begin (s : State) (r : Request) (n : Nat) : (s.begin r).strm n = s.strm n := rfl

theorem State.pool_setStrm (s : State) (n : Nat) (x : Stream) (p : Nat) : (s.setStrm n x).pool p = s.pool p := rfl

theorem State.local_setStrm (s : State) (n : Nat) (x : Stream) (a m : Nat) : (s.setStrm n x).local a m = s.local a m := rfl

theorem State.onlyChanges.strm {s t : State} {ps : List Part} (h : s.onlyChanges t ps) (n : Nat)
    (hs : .streams ∉ ps := by decide) : t.strm n = s.strm n := by
  have hstreams : t.streams = s.streams := h .streams hs
  simp only [State.strm, hstreams]

theorem State.onlyChanges.regN {s t : State} {ps : List Part} (h : s.onlyChanges t ps) (a : Nat)
    (hr : .regs ∉ ps := by decide) (hs : .sec ∉ ps := by decide) : t.regN a = s.regN a :=
  congrArg BitVec.toNat (h.reg a hr hs)

theorem State.answered_congr {s u t : State} {r : Request} {status result : Nat} (h : s.answered t r status result)
    (hhp : s.hp = u.hp) : u.answered t r status result := by
  simpa only [State.answered, hhp] using h

/-! ### Chunks that return stale (R206) -/

theorem State.regN_staleChunk (s : State) (k : Chunk) :
    (s.staleChunk k).regN Reg.mpStreamStale = min (s.regN Reg.mpStreamStale + 1) 0xFFFFFFFF := by
  have hdone : (s.bump Reg.mpStreamStale 1).onlyChanges (s.staleChunk k) [.hp] := .chunkDone (.refl _)
  rw [hdone.regN, State.regN_bump_same]

theorem State.regN_foldl_staleChunk (ks : List Chunk) (s : State) : (ks.foldl (fun s k => s.staleChunk k) s).regN Reg.mpStreamStale =
    min (s.regN Reg.mpStreamStale + ks.length) 0xFFFFFFFF := by
  induction ks generalizing s with
  | nil =>
    have hlt : s.regN Reg.mpStreamStale < 2 ^ 32 := (s.reg Reg.mpStreamStale).isLt
    simp only [List.foldl_nil, List.length_nil]
    omega
  | cons k ks ih =>
    rw [List.foldl_cons, ih, State.regN_staleChunk, List.length_cons]
    omega

/-- The state from which the queued chunks of a stream return. -/
def State.emptied (s : State) (n ctx : Nat) (c : StreamCfg) : State :=
  (s.setStrm n { s.strm n with queue := [] }).queuePages ctx c (s.strm n).queue.length

theorem State.staleQueue_eq (s : State) (n ctx : Nat) (c : StreamCfg) :
    s.staleQueue n ctx c = (s.strm n).queue.foldl (fun s k => s.staleChunk k) (s.emptied n ctx c) := rfl

theorem State.strm_staleQueue_same (s : State) (n ctx : Nat) (c : StreamCfg) :
    (s.staleQueue n ctx c).strm n = { s.strm n with queue := [] } := by
  have hchunks : (s.emptied n ctx c).onlyChanges (s.staleQueue n ctx c) [.regs, .hp] := .foldl (fun _ _ h => .staleChunk h) (.refl _)
  exact (hchunks.strm n).trans (s.strm_setStrm_same n _)

theorem State.regN_staleQueue (s : State) (n ctx : Nat) (c : StreamCfg) : (s.staleQueue n ctx c).regN Reg.mpStreamStale =
    min (s.regN Reg.mpStreamStale + (s.strm n).queue.length) 0xFFFFFFFF :=
  State.regN_foldl_staleChunk ..

/-- A raise of the generation empties the queue and starts the numbering anew (R205). -/
theorem State.strm_raiseGen_same (s : State) (n ctx : Nat) (c : StreamCfg) : (s.raiseGen n ctx c).strm n =
    { s.strm n with queue := [], gen := nextGen (s.strm n).gen, fresh := nextGen (s.strm n).gen, nextSeq := 0, stepsDone := 0 } := by
  simp only [State.raiseGen, State.strm_setStrm_same, State.strm_staleQueue_same]

theorem State.regN_raiseGen (s : State) (n ctx : Nat) (c : StreamCfg) : (s.raiseGen n ctx c).regN Reg.mpStreamStale =
    min (s.regN Reg.mpStreamStale + (s.strm n).queue.length) 0xFFFFFFFF :=
  s.regN_staleQueue n ctx c

/-! ### The byte memories by tier (R48) -/

theorem Memories.wf_bank {m : Memories} (h : m.wf = true) (k : Tier) : (m.bank k).wf = true := by
  obtain ⟨hsram, hpond, hhbm, hstore, -⟩ := m.wf_iff.mp h
  cases k
  · exact hpond
  · exact hsram
  · exact hhbm
  · exact hstore

theorem Memories.readLocal_of_tier {m : Memories} {a : Nat} {k : Tier} (ha : tierOf a = some k) (n : Nat) :
    m.readLocal a n = (m.bank k).readBytes a n := by
  unfold Memories.readLocal
  rw [ha]
  cases k <;> rfl

theorem Memories.readLocal_of_unmapped {m : Memories} {a : Nat} (ha : tierOf a = none) (n : Nat) : m.readLocal a n = zeros n := by
  unfold Memories.readLocal
  rw [ha]

theorem Memories.bank_writeLocal (m : Memories) (a : Nat) (bs : Bytes) (k : Tier) :
    (m.writeLocal a bs).bank k = if tierOf a = some k then (m.bank k).writeBytes a bs else m.bank k := by
  unfold Memories.writeLocal
  rcases ha : tierOf a with _ | j
  · rfl
  · cases j <;> cases k <;> rfl

/-- Bytes stored where no descriptor stands are stored as they are (R172). -/
theorem State.putMem_mem {s : State} {a : Nat} {bs : Bytes} (hfree : s.noDescs a bs.length) :
    (s.putMem a bs).mem = s.mem.writeLocal a bs := by
  have hcleared : (s.setLocal a bs).onlyChanges ((s.setLocal a bs).clearPoison a bs.length) [.tiers] := .clearPoison (.refl _)
  have hops : ((s.setLocal a bs).clearPoison a bs.length).ops = s.ops := hcleared .ops (by decide)
  have hmem : ((s.setLocal a bs).clearPoison a bs.length).mem = s.mem.writeLocal a bs := hcleared .mem (by decide)
  have hnone : s.ops.seqs.filter (fun (e : Nat × SeqDesc) => decide (e.1 < a + bs.length) && decide (a < e.1 + 64)) = [] := by
    refine List.filter_eq_nil_iff.mpr fun e he hmet => ?_
    simp only [Bool.and_eq_true, decide_eq_true_eq] at hmet
    obtain hbelow | habove := hfree e he <;> omega
  simp only [State.putMem, State.keepDescs, hops, hnone, List.foldl_nil, hmem]

/-! ### Zero bytes -/

theorem length_zeros (n : Nat) : (zeros n).length = n := List.length_replicate

theorem Mem.readBytes_eq_zeros_iff (m : Mem) (a n : Nat) : m.readBytes a n = zeros n ↔ ∀ i, i < n → m.read (a + i) = 0 := by
  induction n generalizing a with
  | zero => exact iff_of_true rfl fun i hi => absurd hi (Nat.not_lt_zero i)
  | succ n ih =>
    have hcons : m.readBytes a (n + 1) = zeros (n + 1) ↔ m.read a = 0 ∧ m.readBytes (a + 1) n = zeros n := List.cons_eq_cons
    rw [hcons, ih, Nat.forall_lt_succ_left]
    simp only [Nat.add_zero, Nat.add_assoc, Nat.add_comm 1]

/-- Zeros written leave every zero byte zero. -/
theorem Mem.read_writeBytes_zeros {m : Mem} (h : m.wf = true) {b : Nat} (hb : m.read b = 0) (a n : Nat) :
    (m.writeBytes a (zeros n)).read b = 0 := by
  by_cases hin : a ≤ b ∧ b < a + n
  · have hwritten := m.readBytes_writeBytes a (zeros n) h
    rw [length_zeros, Mem.readBytes_eq_zeros_iff] at hwritten
    have hbyte := hwritten (b - a) (by omega)
    rwa [Nat.add_sub_cancel' hin.1] at hbyte
  · rw [Mem.read_writeBytes_outside _ _ _ _ h (by rw [length_zeros]; omega), hb]

theorem State.local_putMem_zeros_same {s : State} (h : s.memOk) {a n : Nat} (hfree : s.noDescs a n) :
    (s.putMem a (zeros n)).local a n = zeros n := by
  rw [State.local, State.putMem_mem (by rwa [length_zeros])]
  rcases ha : tierOf a with _ | k
  · exact Memories.readLocal_of_unmapped ha n
  · rw [Memories.readLocal_of_tier ha, Memories.bank_writeLocal, if_pos ha]
    simpa only [length_zeros] using Mem.readBytes_writeBytes _ a (zeros n) (Memories.wf_bank h k)

theorem State.local_putMem_zeros_of_zeros {s : State} (h : s.memOk) {a n : Nat} (hfree : s.noDescs a n) {b m : Nat}
    (hb : s.local b m = zeros m) : (s.putMem a (zeros n)).local b m = zeros m := by
  rw [State.local, State.putMem_mem (by rwa [length_zeros])]
  rcases ht : tierOf b with _ | k
  · exact Memories.readLocal_of_unmapped ht m
  · rw [State.local, Memories.readLocal_of_tier ht, Mem.readBytes_eq_zeros_iff] at hb
    rw [Memories.readLocal_of_tier ht, Memories.bank_writeLocal]
    split
    · exact (Mem.readBytes_eq_zeros_iff ..).mpr fun i hi => Mem.read_writeBytes_zeros (Memories.wf_bank h k) (hb i hi) a n
    · exact (Mem.readBytes_eq_zeros_iff ..).mpr hb

/-! ### Layers zeroed and relabelled (R199, R205) -/

theorem State.zeroLayer_of_layer {c : StreamCfg} {i : Nat} {l : Layer} (hl : c.layers[i]? = some l) (s : State) (n gen : Nat) :
    s.zeroLayer n c i gen = (s.putMem (l.slot c n) (zeros l.slotBytes)).setStrm n
      { s.strm n with layers := Tbl.set (s.strm n).layers i gen, bad := remN (s.strm n).bad i } := by
  have hput : s.onlyChanges (s.putMem (l.slot c n) (zeros l.slotBytes)) [.mem, .tiers] := .putMem (.refl s)
  simp only [State.zeroLayer, hl, hput.strm n]

/-- The state `t` comes of `s` as the first `k` layers of stream `n` become zero and take the generation `gen`. -/
structure State.Zeroes (s t : State) (n : Nat) (c : StreamCfg) (gen k : Nat) : Prop where
  memOk : t.memOk
  ops : t.ops = s.ops
  strm : ∃ layers bad, t.strm n = { s.strm n with layers := layers, bad := bad }
  layer : ∀ i l, i < k → c.layers[i]? = some l →
    Tbl.find (t.strm n).layers i = some gen ∧ t.local (l.slot c n) l.slotBytes = zeros l.slotBytes

theorem State.Zeroes.zeroLayer {s t : State} {n : Nat} {c : StreamCfg} {gen k : Nat} (h : s.Zeroes t n c gen k)
    (hfree : ∀ l, l ∈ c.layers → s.noDescs (l.slot c n) l.slotBytes) : s.Zeroes (t.zeroLayer n c k gen) n c gen (k + 1) := by
  have hframe : t.onlyChanges (t.zeroLayer n c k gen) [.mem, .streams, .tiers] := .zeroLayer (.refl t)
  have hops : (t.zeroLayer n c k gen).ops = t.ops := hframe .ops (by decide)
  refine ⟨(State.Keeps.zeroLayer (.refl t)).memOk h.memOk, hops.trans h.ops, ?_, fun i x hi hx => ?_⟩
  · obtain ⟨layers, bad, hstrm⟩ := h.strm
    rcases hl : c.layers[k]? with _ | l
    · exact ⟨layers, bad, by simp only [State.zeroLayer, hl, hstrm]⟩
    · exact ⟨_, _, by rw [State.zeroLayer_of_layer hl, State.strm_setStrm_same, hstrm]⟩
  · rcases hl : c.layers[k]? with _ | l
    · have hik : i ≠ k := fun hik => Option.some_ne_none x (hx.symm.trans (hik ▸ hl))
      simpa only [State.zeroLayer, hl] using h.layer i x (by omega) hx
    · have hdescs : t.noDescs (l.slot c n) l.slotBytes := by
        simpa only [State.noDescs, h.ops] using hfree l (List.mem_of_getElem? hl)
      rw [State.zeroLayer_of_layer hl, State.strm_setStrm_same, State.local_setStrm]
      by_cases hik : i = k
      · subst hik
        obtain rfl : l = x := Option.some.inj (hl.symm.trans hx)
        exact ⟨Tbl.find_set_same .., State.local_putMem_zeros_same h.memOk hdescs⟩
      · obtain ⟨hgen, hzero⟩ := h.layer i x (by omega) hx
        exact ⟨(Tbl.find_set_other _ _ _ _ hik).trans hgen, State.local_putMem_zeros_of_zeros h.memOk hdescs hzero⟩

theorem State.zeroes_zeroLayers {s : State} {n : Nat} {c : StreamCfg} (h : s.memOk)
    (hfree : ∀ l, l ∈ c.layers → s.noDescs (l.slot c n) l.slotBytes) (gen : Nat) :
    s.Zeroes (s.zeroLayers n c gen) n c gen c.layers.length := by
  unfold State.zeroLayers
  induction c.layers.length with
  | zero => exact ⟨h, rfl, ⟨_, _, rfl⟩, fun i _ hi => absurd hi (Nat.not_lt_zero i)⟩
  | succ k ih =>
    rw [List.range_succ, List.foldl_append]
    exact ih.zeroLayer hfree

end Sys2Proof.Machine
end

section
/-!
PROOF. START, PAUSE, RESUME, RESET, END, EXPORT and IMPORT (O45).

A command that passes the checks of every stream command answers what it goes on with (`State.streamCmd_of_accepted`); what a clause
says of that state is what the operations of which it is made write of the stream and of the requests.
-/
namespace Sys2Proof.Machine

/-! ### The checks that every command passes (R205) -/

section
variable {ctx idx : Nat} {r : Request} {c : StreamCfg} {s : State}

theorem State.streamCmd_of_accepted {op : Nat} (hask : s.streamAsk ctx idx op = some r) (hbad : streamBad r.body = false)
    (hsec : s.streamSection (leAt r.body 2 2) = some (ctx, c)) {states : List StreamState} {gen : Bool}
    (hgen : gen = true → leAt r.body 4 4 = (s.strm (leAt r.body 2 2)).gen)
    (hstate : (s.strm (leAt r.body 2 2)).state ∈ states)
    (hwait : ¬(op = 5 ∨ op = 6) ∨ (s.strm (leAt r.body 2 2)).wait = none) (k : Request → Nat → StreamCfg → State) :
    s.streamCmd ctx idx op states gen k = k r (leAt r.body 2 2) c := by
  have hfresh : ¬(gen = true ∧ leAt r.body 4 4 ≠ (s.strm (leAt r.body 2 2)).gen) := fun ⟨hg, hne⟩ => hne (hgen hg)
  have hfits : ¬(states.contains (s.strm (leAt r.body 2 2)).state = false ∨
      (op = 5 ∨ op = 6) ∧ (s.strm (leAt r.body 2 2)).wait.isSome = true) := by
    rintro (hno | ⟨hop, hwaits⟩)
    · exact Bool.false_ne_true (hno.symm.trans (List.contains_iff_mem.mpr hstate))
    · rw [hwait.resolve_left (not_not_intro hop)] at hwaits
      exact Bool.false_ne_true hwaits
  simp only [State.streamCmd, hask, hbad, hsec, Bool.false_eq_true, if_false, ne_eq, not_true_eq_false, if_neg hfresh, if_neg hfits]

theorem does_streamCmd {op : Nat} {states : List StreamState} {gen : Bool} {k : Request → Nat → StreamCfg → State} {i : Instr}
    {P : State → Prop} (hexec : exec i s = .next (s.streamCmd ctx idx op states gen k))
    (hask : s.streamAsk ctx idx op = some r) (hbad : streamBad r.body = false)
    (hsec : s.streamSection (leAt r.body 2 2) = some (ctx, c))
    (hgen : gen = true → leAt r.body 4 4 = (s.strm (leAt r.body 2 2)).gen)
    (hstate : (s.strm (leAt r.body 2 2)).state ∈ states)
    (hwait : ¬(op = 5 ∨ op = 6) ∨ (s.strm (leAt r.body 2 2)).wait = none) (h : P (k r (leAt r.body 2 2) c)) : Does i s P :=
  ⟨_, hexec.trans (congrArg _ (State.streamCmd_of_accepted hask hbad hsec hgen hstate hwait k)), h⟩

/-! ### START, PAUSE and RESUME -/

theorem streamStart_starts (hok : s.memOk) (hfree : ∀ l, l ∈ c.layers → s.noDescs (l.slot c (leAt r.body 2 2)) l.slotBytes)
    (hask : s.streamAsk ctx idx 1 = some r) (hbad : streamBad r.body = false)
    (hsec : s.streamSection (leAt r.body 2 2) = some (ctx, c)) (hstate : (s.strm (leAt r.body 2 2)).state = .free) :
    Does (.streamStart ctx idx) s fun t =>
      (t.strm (leAt r.body 2 2)).state = .active ∧ (t.strm (leAt r.body 2 2)).gen = nextGen (s.strm (leAt r.body 2 2)).gen ∧
      (t.strm (leAt r.body 2 2)).queue = [] ∧
      (∀ i l, c.layers[i]? = some l →
        Tbl.find (t.strm (leAt r.body 2 2)).layers i = some (nextGen (s.strm (leAt r.body 2 2)).gen) ∧
        t.local (l.slot c (leAt r.body 2 2)) l.slotBytes = zeros l.slotBytes) ∧
      s.answered t r 0 (streamResult (nextGen (s.strm (leAt r.body 2 2)).gen) 0) ∧ s.onlyChanges t [.hp, .mem, .streams, .tiers] := by
  refine does_streamCmd rfl hask hbad hsec nofun (List.mem_singleton.mpr hstate) (.inl (by decide)) ?_
  dsimp only
  generalize leAt r.body 2 2 = n at *
  generalize nextGen (s.strm n).gen = g
  generalize hu : s.setStrm n { state := .active, gen := g, ctx := ctx, fresh := g } = u
  have hset : s.onlyChanges u [.streams] := hu ▸ .setStrm (.refl s)
  have hx : u.strm n = { state := .active, gen := g, ctx := ctx, fresh := g } := hu ▸ s.strm_setStrm_same n _
  have hmem : u.mem = s.mem := hset .mem (by decide)
  have hops : u.ops = s.ops := hset .ops (by decide)
  have hzeroes := State.zeroes_zeroLayers (s := u) (n := n) (c := c) (by rwa [State.memOk, hmem])
    (fun l hl => by simpa only [State.noDescs, hops] using hfree l hl) g
  have hframe : u.onlyChanges (u.zeroLayers n c g) [.mem, .streams, .tiers] := .zeroLayers (.refl u)
  have hhp : (u.zeroLayers n c g).hp = s.hp := (show _ = u.hp from hframe .hp (by decide)).trans (hset .hp (by decide))
  obtain ⟨layers, bad, hstrm⟩ := hzeroes.strm
  generalize u.zeroLayers n c g = v at *
  rw [State.strm_finish]
  refine ⟨by rw [hstrm, hx], by rw [hstrm, hx], by rw [hstrm, hx], fun i l hl => ?_,
    State.answered_congr (v.finish_answered r 0 _ 0) hhp, .finish (hset.mono.then hframe (by decide))⟩
  exact hzeroes.layer i l (List.getElem?_eq_some_iff.mp hl).1 hl

theorem streamPause_pauses (hask : s.streamAsk ctx idx 2 = some r) (hbad : streamBad r.body = false)
    (hsec : s.streamSection (leAt r.body 2 2) = some (ctx, c)) (hgen : leAt r.body 4 4 = (s.strm (leAt r.body 2 2)).gen)
    (hstate : (s.strm (leAt r.body 2 2)).state = .active) : Does (.streamPause ctx idx) s fun t =>
      t.strm (leAt r.body 2 2) = { s.strm (leAt r.body 2 2) with state := .paused } ∧
      s.answered t r 0 (streamResult (s.strm (leAt r.body 2 2)).gen 0) ∧ s.onlyChanges t [.hp, .streams] :=
  does_streamCmd rfl hask hbad hsec (fun _ => hgen) (List.mem_singleton.mpr hstate) (.inl (by decide))
    ⟨s.strm_setStrm_same _ _, State.answered_congr (State.finish_answered ..) rfl, .finish (.setStrm (.refl s))⟩

theorem streamResume_resumes (hask : s.streamAsk ctx idx 3 = some r) (hbad : streamBad r.body = false)
    (hsec : s.streamSection (leAt r.body 2 2) = some (ctx, c)) (hgen : leAt r.body 4 4 = (s.strm (leAt r.body 2 2)).gen)
    (hstate : (s.strm (leAt r.body 2 2)).state = .paused) : Does (.streamResume ctx idx) s fun t =>
      t.strm (leAt r.body 2 2) = { s.strm (leAt r.body 2 2) with state := .active } ∧
      s.answered t r 0 (streamResult (s.strm (leAt r.body 2 2)).gen 0) ∧ s.onlyChanges t [.hp, .streams] :=
  does_streamCmd rfl hask hbad hsec (fun _ => hgen) (List.mem_singleton.mpr hstate) (.inl (by decide))
    ⟨s.strm_setStrm_same _ _, State.answered_congr (State.finish_answered ..) rfl, .finish (.setStrm (.refl s))⟩

/-! ### RESET and END -/

theorem mem_running {x : StreamState} (h : x = .active ∨ x = .paused) : x ∈ [StreamState.active, .paused] := by
  simpa only [List.mem_cons, List.not_mem_nil, or_false] using h

theorem streamReset_resets (hask : s.streamAsk ctx idx 4 = some r) (hbad : streamBad r.body = false)
    (hsec : s.streamSection (leAt r.body 2 2) = some (ctx, c)) (hgen : leAt r.body 4 4 = (s.strm (leAt r.body 2 2)).gen)
    (hstate : (s.strm (leAt r.body 2 2)).state = .active ∨ (s.strm (leAt r.body 2 2)).state = .paused) :
    Does (.streamReset ctx idx) s fun t =>
      (t.strm (leAt r.body 2 2)).gen = nextGen (s.strm (leAt r.body 2 2)).gen ∧ (t.strm (leAt r.body 2 2)).queue = [] ∧
      (t.strm (leAt r.body 2 2)).state = (s.strm (leAt r.body 2 2)).state ∧
      t.regN Reg.mpStreamStale =
        min (s.regN Reg.mpStreamStale + (s.strm (leAt r.body 2 2)).queue.length) 0xFFFFFFFF ∧
      (∃ d : Done, d ∈ t.hp.done ∧ d.req = r ∧ d.status = 0) ∧ s.onlyChanges t [.hp, .ledger, .regs, .streams] := by
  refine does_streamCmd rfl hask hbad hsec (fun _ => hgen) (mem_running hstate) (.inl (by decide)) ?_
  generalize leAt r.body 2 2 = n at *
  have hstrm := s.strm_raiseGen_same n ctx c
  have hstale := s.regN_raiseGen n ctx c
  have hframe : s.onlyChanges (s.raiseGen n ctx c) [.hp, .ledger, .regs, .streams] := .raiseGen (.refl s)
  dsimp only
  generalize s.raiseGen n ctx c = u at *
  rw [State.strm_finish, hstrm]
  exact ⟨rfl, rfl, rfl, hstale, ⟨_, List.mem_append_right _ (List.mem_singleton.mpr rfl), rfl, rfl⟩, .finish hframe⟩

theorem streamEnd_waits (hask : s.streamAsk ctx idx 5 = some r) (hbad : streamBad r.body = false)
    (hsec : s.streamSection (leAt r.body 2 2) = some (ctx, c)) (hgen : leAt r.body 4 4 = (s.strm (leAt r.body 2 2)).gen)
    (hstate : (s.strm (leAt r.body 2 2)).state = .active ∨ (s.strm (leAt r.body 2 2)).state = .paused)
    (hwait : (s.strm (leAt r.body 2 2)).wait = none) : Does (.streamEnd ctx idx) s fun t =>
      (t.strm (leAt r.body 2 2)).gen = nextGen (s.strm (leAt r.body 2 2)).gen ∧ (t.strm (leAt r.body 2 2)).queue = [] ∧
      (t.strm (leAt r.body 2 2)).ending = true ∧
      (∃ w : StreamWait, (t.strm (leAt r.body 2 2)).wait = some w ∧ w.idx = idx ∧ w.isExport = false) ∧
      s.onlyChanges t [.hp, .ledger, .regs, .streams] := by
  refine does_streamCmd rfl hask hbad hsec (fun _ => hgen) (mem_running hstate) (.inr hwait) ?_
  generalize leAt r.body 2 2 = n at *
  have hstrm := s.strm_raiseGen_same n ctx c
  have hframe : s.onlyChanges (s.raiseGen n ctx c) [.hp, .ledger, .regs, .streams] := .raiseGen (.refl s)
  dsimp only
  generalize s.raiseGen n ctx c = u at *
  rw [State.strm_setStrm_same, State.strm_begin, hstrm]
  exact ⟨rfl, rfl, rfl, ⟨_, rfl, rfl, rfl⟩, .setStrm (.begin hframe)⟩

/-! ### EXPORT -/

theorem streamExport_waits (hask : s.streamAsk ctx idx 6 = some r) (hbad : streamBad r.body = false)
    (hsec : s.streamSection (leAt r.body 2 2) = some (ctx, c)) (hgen : leAt r.body 4 4 = (s.strm (leAt r.body 2 2)).gen)
    (hstate : (s.strm (leAt r.body 2 2)).state = .active ∨ (s.strm (leAt r.body 2 2)).state = .paused)
    (hwait : (s.strm (leAt r.body 2 2)).wait = none) (hplace : s.packageAt ctx (leAt r.body 8 8) (leAt r.body 16 8) = 0) :
    Does (.streamExport ctx idx) s fun t =>
      (t.strm (leAt r.body 2 2)).state = .exporting ∧
      (t.strm (leAt r.body 2 2)).queue = (s.strm (leAt r.body 2 2)).queue ∧
      (bitN (leAt r.body 1 1) 0 = false → (t.strm (leAt r.body 2 2)).gen = nextGen (s.strm (leAt r.body 2 2)).gen) ∧
      (bitN (leAt r.body 1 1) 0 = true → (t.strm (leAt r.body 2 2)).gen = (s.strm (leAt r.body 2 2)).gen) ∧
      s.onlyChanges t [.hp, .streams] := by
  refine does_streamCmd rfl hask hbad hsec (fun _ => hgen) (mem_running hstate) (.inr hwait) ?_
  dsimp only
  rw [if_neg (not_not_intro hplace)]
  rw [State.strm_setStrm_same]
  refine ⟨rfl, rfl, fun hmoves => ?_, fun hkeeps => if_pos hkeeps, .setStrm (.begin (.refl s))⟩
  exact if_neg (Bool.eq_false_iff.mp hmoves)

/-! ### IMPORT (R210) -/

/-- The layers of a package change nothing of the stream but whose generation its slots hold and which are not certified. -/
theorem State.strm_importLayers (s : State) (n : Nat) (c : StreamCfg) (gen : Nat) (b : Bytes) (k : Nat) :
    ∃ layers bad, (s.importLayers n c gen b k).strm n = { s.strm n with layers := layers, bad := bad } := by
  induction k generalizing s b with
  | zero => exact ⟨_, _, rfl⟩
  | succ k ih =>
    unfold State.importLayers
    dsimp only
    split
    · exact ⟨_, _, rfl⟩
    · next l _ =>
      have hput : s.onlyChanges (s.putMem (l.slot c n) ((b.drop 16).take l.slotBytes)) [.mem, .tiers] := .putMem (.refl s)
      rw [hput.strm n]
      generalize s.putMem _ _ = u
      obtain ⟨layers, bad, hrest⟩ := ih (u.setStrm n _) _
      exact ⟨layers, bad, hrest.trans (by rw [State.strm_setStrm_same])⟩

/-- The bytes of a package are rejected, and the stream is free, or taken as the next generation of a paused stream. -/
theorem State.importPackage_eq (s : State) (n ctx : Nat) (c : StreamCfg) (r : Request) (b : Bytes) :
    (∃ status, status ≠ 0 ∧ s.importPackage n ctx c r b =
      (s.setStrm n { s.strm n with state := .free, wait := none }).finish r status (streamResult (s.strm n).gen 0) 0) ∨
    ∃ (u : State) (result : Nat), s.importPackage n ctx c r b = u.finish r 0 result 0 ∧ u.hp = s.hp ∧
      (u.strm n).state = .paused ∧ (u.strm n).gen = nextGen (s.strm n).gen ∧ (u.strm n).ctx = ctx := by
  unfold State.importPackage
  extract_lets x total q sig back g recs chunks s₁ s₂ s₃ s₄
  split
  · exact .inl ⟨0x0D, by decide, rfl⟩
  · split
    · exact .inl ⟨0x0A, by decide, rfl⟩
    · split
      · exact .inl ⟨0x0B, by decide, rfl⟩
      · have hlayers : s.onlyChanges s₂ [.mem, .streams, .tiers] := .importLayers (.setStrm (.refl s))
        have hrest : s₂.onlyChanges (s₄.countMove true) [.regs, .mem, .ledger, .tiers] :=
          .countMove (.move (.foldl (fun _ _ h => .putMem h) (.refl s₂)))
        obtain ⟨layers, bad, hstrm⟩ := s₁.strm_importLayers n c g (b.drop 128) c.layers.length
        have hx : (s₄.countMove true).strm n = { s₁.strm n with layers := layers, bad := bad } := (hrest.strm n).trans hstrm
        have hhp : (s₄.countMove true).hp = s₂.hp := hrest .hp (by decide)
        refine .inr ⟨s₄.countMove true, _, rfl, hhp.trans (hlayers .hp (by decide)), ?_⟩
        rw [hx, State.strm_setStrm_same]
        exact ⟨rfl, rfl, rfl⟩

theorem streamImport_completes (hask : s.streamAsk ctx idx 7 = some r) (hbad : streamBad r.body = false)
    (hsec : s.streamSection (leAt r.body 2 2) = some (ctx, c)) (hstate : (s.strm (leAt r.body 2 2)).state = .free)
    (hplace : s.packageAt ctx (leAt r.body 8 8) (leAt r.body 16 8) = 0) (hhere : moduleOf (leAt r.body 8 8) = s.moduleId) :
    Does (.streamImport ctx idx) s fun t => ∃ d : Done, t.hp.done = s.hp.done ++ [d] ∧ d.req = r ∧
      (d.status = 0 → (t.strm (leAt r.body 2 2)).state = .paused ∧
        (t.strm (leAt r.body 2 2)).gen = nextGen (s.strm (leAt r.body 2 2)).gen ∧ (t.strm (leAt r.body 2 2)).ctx = ctx) ∧
      (d.status ≠ 0 → (t.strm (leAt r.body 2 2)).state = .free ∧ (t.strm (leAt r.body 2 2)).gen = (s.strm (leAt r.body 2 2)).gen ∧
        t.mem = s.mem ∧ t.ledger = s.ledger) := by
  refine does_streamCmd rfl hask hbad hsec nofun (List.mem_singleton.mpr hstate) (.inl (by decide)) ?_
  dsimp only
  rw [if_neg (not_not_intro hplace), if_neg (not_not_intro hhere)]
  generalize leAt r.body 2 2 = n at *
  split
  · obtain ⟨d, hdone, hreq, hstatus⟩ := s.done_finish r 0x02 (streamResult (s.strm n).gen 0) 0
    exact ⟨d, hdone, hreq, fun hzero => (nomatch hstatus.symm.trans hzero), fun _ => ⟨hstate, rfl, rfl, rfl⟩⟩
  · obtain ⟨status, hnonzero, himport⟩ | ⟨u, result, himport, hhp, hpaused⟩ := s.importPackage_eq n ctx c r
      (s.local (localOf (leAt r.body 8 8)) (leAt r.body 16 8))
    · generalize hv : s.setStrm n { s.strm n with state := .free, wait := none } = v at himport
      have hset : s.onlyChanges v [.streams] := hv ▸ .setStrm (.refl s)
      have hx : v.strm n = { s.strm n with state := .free, wait := none } := hv ▸ s.strm_setStrm_same n _
      have hhp : v.hp = s.hp := hset .hp (by decide)
      obtain ⟨d, hdone, hreq, hstatus⟩ := v.done_finish r status (streamResult (s.strm n).gen 0) 0
      rw [himport, State.strm_finish, hx]
      rw [hhp] at hdone
      exact ⟨d, hdone, hreq, fun hzero => absurd (hstatus.symm.trans hzero) hnonzero,
        fun _ => ⟨rfl, rfl, hset .mem (by decide), hset .ledger (by decide)⟩⟩
    · obtain ⟨d, hdone, hreq, hstatus⟩ := u.done_finish r 0 result 0
      rw [himport, State.strm_finish]
      rw [hhp] at hdone
      exact ⟨d, hdone, hreq, fun _ => hpaused, fun hnonzero => absurd hstatus hnonzero⟩

/-! ### Frames -/

theorem execStreamStart_answers (ctx idx : Nat) (s : State) : s.Answers (execStreamStart ctx idx s) [.mem, .hp, .streams, .tiers] :=
  .next (.streamCmd (.refl s) fun _ _ _ => .finish (.zeroLayers (.setStrm (.refl s))))

theorem execStreamPause_answers (ctx idx : Nat) (s : State) : s.Answers (execStreamPause ctx idx s) [.hp, .streams] :=
  .next (.streamCmd (.refl s) fun _ _ _ => .finish (.setStrm (.refl s)))

theorem execStreamResume_answers (ctx idx : Nat) (s : State) : s.Answers (execStreamResume ctx idx s) [.hp, .streams] :=
  .next (.streamCmd (.refl s) fun _ _ _ => .finish (.setStrm (.refl s)))

theorem execStreamReset_answers (ctx idx : Nat) (s : State) :
    s.Answers (execStreamReset ctx idx s) [.regs, .ledger, .hp, .streams] :=
  .next (.streamCmd (.refl s) fun _ _ _ => .finish (.raiseGen (.refl s)))

theorem execStreamEnd_answers (ctx idx : Nat) (s : State) : s.Answers (execStreamEnd ctx idx s) [.regs, .ledger, .hp, .streams] :=
  .next (.streamCmd (.refl s) fun _ _ _ => .setStrm (.begin (.raiseGen (.refl s))))

theorem execStreamExport_answers (ctx idx : Nat) (s : State) : s.Answers (execStreamExport ctx idx s) [.hp, .streams] :=
  .next (.streamCmd (.refl s) fun _ _ _ => .ite (.finish (.refl s)) (.setStrm (.begin (.refl s))))

theorem execStreamImport_answers (ctx idx : Nat) (s : State) :
    s.Answers (execStreamImport ctx idx s) [.regs, .mem, .ledger, .hp, .streams, .tiers, .px] :=
  .next (.streamCmd (.refl s) fun _ _ _ => .ite (.finish (.refl s))
    (.ite (.setStrm (.packageRemote (.begin (.refl s)))) (.ite (.finish (.refl s)) (.importPackage (.refl s)))))

end

/-- Settles O45: a command that passes the checks answers what it goes on with, and its frame is that of the operations it is made of. -/
theorem streamCommands : Obligations.StreamCommands := by
  unfold Obligations.StreamCommands
  refine ⟨?_, ?_, ?_, ?_, ?_, ?_, ?_, execStreamStart_answers, fun ctx idx c s hc => ?_, fun ctx idx c s hc => ?_,
    execStreamImport_answers⟩
  · rintro ctx idx _ r c s hok hfree hask hbad rfl
    exact streamStart_starts hok hfree hask hbad
  · rintro ctx idx _ r c s hask hbad rfl
    exact streamPause_pauses hask hbad
  · rintro ctx idx _ r c s hask hbad rfl
    exact streamResume_resumes hask hbad
  · rintro ctx idx _ r c s hask hbad rfl
    exact streamReset_resets hask hbad
  · rintro ctx idx _ r c s hask hbad rfl
    exact streamEnd_waits hask hbad
  · rintro ctx idx _ r c s hask hbad rfl
    exact streamExport_waits hask hbad
  · rintro ctx idx _ r c s hask hbad rfl
    exact streamImport_completes hask hbad
  · simp only [List.mem_cons, List.not_mem_nil, or_false] at hc
    rcases hc with rfl | rfl | rfl
    · exact execStreamPause_answers ctx idx s
    · exact execStreamResume_answers ctx idx s
    · exact execStreamExport_answers ctx idx s
  · simp only [List.mem_cons, List.not_mem_nil, or_false] at hc
    rcases hc with rfl | rfl
    · exact execStreamReset_answers ctx idx s
    · exact execStreamEnd_answers ctx idx s

end Sys2Proof.Machine
end

section
/-!
PROOF. CHUNK, CHUNK_ENQUEUE, LAYER_CHUNK_START and CHUNK_BOUNDARY (O46).

`exec…_of_…` gives the state that a command answers under the hypotheses of a clause; the clauses then follow from what the operations
write of the stream, of its chunks and of the memories.
-/
namespace Sys2Proof.Machine

/-! ### CHUNK (R397) -/

/-- What becomes of a request as the unit begins the request `r`. -/
def Request.afterBegin (r q : Request) : Request := if q.ctx = r.ctx && q.idx = r.idx then { q with begun := true } else q

theorem Request.afterBegin_ctx (r q : Request) : (r.afterBegin q).ctx = q.ctx := by
  unfold Request.afterBegin
  split <;> rfl

theorem Request.afterBegin_idx (r q : Request) : (r.afterBegin q).idx = q.idx := by
  unfold Request.afterBegin
  split <;> rfl

theorem Request.afterBegin_self (r : Request) : r.afterBegin r = { r with begun := true } := if_pos (by simp)

theorem State.request_begin {s : State} {ctx idx : Nat} {r : Request} (h : s.request ctx idx = some r) :
    (s.begin r).request ctx idx = some { r with begun := true } := by
  have hkeys : (fun q : Request => decide (q.ctx = ctx) && decide (q.idx = idx)) ∘ r.afterBegin =
      fun q : Request => decide (q.ctx = ctx) && decide (q.idx = idx) :=
    funext fun q => by simp only [Function.comp, r.afterBegin_ctx, r.afterBegin_idx]
  calc (s.begin r).request ctx idx
      = (s.hp.requests.map r.afterBegin).find? fun q => q.ctx = ctx && q.idx = idx := rfl
    _ = (s.request ctx idx).map r.afterBegin := by rw [List.find?_map, hkeys, State.request]
    _ = some { r with begun := true } := by rw [h, Option.map_some, r.afterBegin_self]

theorem execChunk_of_wellFormed {s : State} {ctx idx : Nat} {r : Request} {c : StreamCfg} {b : Bytes}
    (hreq : s.request ctx idx = some r) (htarget : r.target = 3) (hnew : r.begun = false) (hzero : allZero (r.body.drop 12) = true)
    (hgrant : s.inGrant ctx (leAt r.body 0 8) (leAt r.body 8 4) = true) (hb : s.pondRead (leAt r.body 0 8) (leAt r.body 8 4) = b)
    (hsec : s.streamSection (leAt b 0 2) = some (ctx, c)) (hbad : chunkBad c b = false)
    (hlive : (s.strm (leAt b 0 2)).state ≠ .free ∨ leAt b 4 4 ≠ (s.strm (leAt b 0 2)).gen) :
    execChunk ctx idx s = .next (s.begin r) := by
  have hlive' : ¬((s.strm (leAt b 0 2)).state = .free ∧ leAt b 4 4 = (s.strm (leAt b 0 2)).gen) := not_and_or.mpr hlive
  simp only [execChunk, hreq, htarget, hnew, hzero, hgrant, hb, hsec, hbad, hlive', ne_eq, not_true_eq_false, Bool.true_eq_false,
    Bool.false_eq_true, or_self, if_false]

theorem execChunk_answers (ctx idx : Nat) (s : State) : s.Answers (execChunk ctx idx s) [.hp] := by
  unfold execChunk
  split
  · exact .next (.refl s)
  · refine .ite (.next (.refl s)) (.ite (.next (.finish (.refl s))) (.ite (.next (.finish (.refl s))) ?_))
    extract_lets
    split
    · exact .next (.finish (.refl s))
    · exact .ite (.next (.finish (.refl s))) (.ite (.next (.finish (.refl s))) (.next (.begin (.refl s))))

/-! ### Bytes of a chunk's header (R16, R195) -/

theorem length_le (n v : Nat) : (le n v).length = n := by
  induction n generalizing v with
  | zero => rfl
  | succ n ih => exact congrArg (· + 1) (ih (v / 256))

theorem leNat_le (n v : Nat) : leNat (le n v) = v % 256 ^ n := by
  induction n generalizing v with
  | zero => exact (Nat.mod_one v).symm
  | succ n ih => rw [le, leNat, ih, pow_succ', Nat.mod_mul, BitVec.toNat_ofNat]

/-- A patch leaves the fields before it as they are. -/
theorem leAt_patch_before {b : Bytes} {p off n : Nat} (hfield : off + n ≤ p) (hlen : p ≤ b.length) (new : Bytes) :
    leAt (patch b p new) off n = leAt b off n := by
  have hbefore : (patch b p new).take p = b.take p := by
    rw [patch, List.append_assoc, List.take_append_of_le_length (by rw [List.length_take]; omega), List.take_take, Nat.min_self]
  have htake (l : Bytes) : (l.drop off).take n = ((l.take p).drop off).take n := by
    rw [List.drop_take, List.take_take, Nat.min_eq_left (by omega)]
  rw [leAt, leAt, htake, hbefore, ← htake]

theorem leAt_patch_same {b : Bytes} {p : Nat} (hlen : p ≤ b.length) (new : Bytes) :
    leAt (patch b p new) p new.length = leNat new := by
  have htake : (b.take p).length = p := List.length_take_of_le hlen
  rw [leAt, patch, List.append_assoc, List.drop_append_of_le_length (by omega), List.drop_of_length_le (by omega), List.nil_append,
    List.take_append_of_le_length (Nat.le_refl _), List.take_length]

/-- A chunk that is in order has its header. -/
theorem header_le_of_chunkBad {c : StreamCfg} {b : Bytes} (h : chunkBad c b = false) : 32 ≤ b.length := by
  simp only [chunkBad, Bool.or_eq_false_iff, decide_eq_false_iff_not, ne_eq, not_not] at h
  omega

/-! ### CHUNK_ENQUEUE (R196, R206) -/

/-- The chunk that CHUNK_ENQUEUE takes: that of a producing stage, or that of an accepted request whose chunk is in no queue. -/
def State.ChunkFrom (s : State) (host : Bool) (ctx idx : Nat) (chunk b : Bytes) : Prop :=
  host = false ∧ b = chunk ∨ host = true ∧ (s.streams.flatMap (fun e => e.2.queue ++ e.2.started.map (·.chunk))).any
      (fun k => k.req = some (ctx, idx)) = false ∧
    ∃ r : Request, s.request ctx idx = some r ∧ r.target = 3 ∧ r.begun = true ∧ b = s.pondRead (leAt r.body 0 8) (leAt r.body 8 4)

/-- The bytes of a chunk with the stream's next number in them. -/
def Stream.numbered (x : Stream) (b : Bytes) : Bytes := patch b 8 (le 4 x.nextSeq)

/-- A chunk as it enters the queue of a stream. -/
def Stream.entering (x : Stream) (depth : Nat) (b : Bytes) (req : Option (Nat × Nat)) : Chunk :=
  { chunkOf (x.numbered b) req with slot := x.freeSlot depth }

theorem Stream.entering_gen {b : Bytes} (hlen : 32 ≤ b.length) (x : Stream) (depth : Nat) (req : Option (Nat × Nat)) :
    (x.entering depth b req).gen = leAt b 4 4 :=
  leAt_patch_before (by decide) (by omega) _

theorem Stream.entering_seq {b : Bytes} (hlen : 32 ≤ b.length) (x : Stream) (depth : Nat) (req : Option (Nat × Nat)) :
    (x.entering depth b req).seq = x.nextSeq % 2 ^ 32 := by
  have hseq := leAt_patch_same (p := 8) (by omega : 8 ≤ b.length) (le 4 x.nextSeq)
  rw [length_le, leNat_le] at hseq
  exact hseq

/-- The pages of a chunk are charged and its bytes stored in its slot (R196, R224). -/
def State.chunkStored (s : State) (n ctx : Nat) (c : StreamCfg) (b : Bytes) : State :=
  (s.move (hbmPool ctx) .returned .held c.slotPages).putMem (c.queueSlot n ((s.strm n).freeSlot c.depth)) ((s.strm n).numbered b)

/-- A chunk has entered the queue of its stream. -/
def State.enqueuedChunk (s : State) (n ctx : Nat) (c : StreamCfg) (b : Bytes) (req : Option (Nat × Nat)) : State :=
  (s.chunkStored n ctx c b).setStrm n
    { s.strm n with queue := (s.strm n).queue ++ [(s.strm n).entering c.depth b req], nextSeq := (s.strm n).nextSeq + 1 }

/-- The request that a chunk completes. -/
def chunkReq (host : Bool) (ctx idx : Nat) : Option (Nat × Nat) := if host then some (ctx, idx) else none

section
variable {s : State} {host : Bool} {ctx idx : Nat} {chunk b : Bytes} {c : StreamCfg}

theorem execChunkEnqueue_of_wellFormed (hfrom : s.ChunkFrom host ctx idx chunk b)
    (hsec : s.streamSection (leAt b 0 2) = some (ctx, c)) (hbad : chunkBad c b = false) :
    execChunkEnqueue host ctx idx chunk s =
      if leAt b 4 4 ≠ (s.strm (leAt b 0 2)).gen ∧ (s.strm (leAt b 0 2)).state ≠ .importing then
        .next (s.staleChunk (chunkOf b (chunkReq host ctx idx)))
      else if (s.strm (leAt b 0 2)).state = .free ∨ (s.strm (leAt b 0 2)).state = .importing ∨ s.streamWriting ctx = true ∨
          c.depth ≤ (s.strm (leAt b 0 2)).slotted.length ∨ (s.pool (hbmPool ctx)).returned < c.slotPages then .next s
      else .next (s.enqueuedChunk (leAt b 0 2) ctx c b (chunkReq host ctx idx)) := by
  rcases hfrom with ⟨rfl, rfl⟩ | ⟨rfl, hqueued, r, hreq, htarget, hbegun, rfl⟩
  · cases hreq : s.request ctx idx <;>
      simp only [execChunkEnqueue, hreq, hsec, hbad, Bool.false_eq_true, false_and, or_self, if_false, ne_eq, not_true_eq_false] <;> rfl
  · simp only [execChunkEnqueue, hreq, hsec, hbad, htarget, hbegun, hqueued, Bool.and_self, decide_true, Bool.true_eq_false,
      Bool.false_eq_true, and_false, or_self, if_true, if_false, ne_eq, not_true_eq_false]
    rfl

theorem State.finishAt_of_request {s : State} {ctx idx : Nat} {r : Request} (h : s.request ctx idx = some r) (status result : Nat) :
    s.finishAt ctx idx status result = s.finish r status result 0 := by
  simp only [State.finishAt, h]

/-- A chunk of another generation returns stale, and the request it came with completes (R206). -/
theorem State.staleChunk_spec (s : State) (host : Bool) (ctx idx : Nat) (b : Bytes) :
    (s.staleChunk (chunkOf b (chunkReq host ctx idx))).regN Reg.mpStreamStale = min (s.regN Reg.mpStreamStale + 1) 0xFFFFFFFF ∧
    ∀ r, host = true → s.request ctx idx = some r → s.answered (s.staleChunk (chunkOf b (chunkReq host ctx idx))) r 0x05 0 := by
  refine ⟨s.regN_staleChunk _, ?_⟩
  rintro r rfl hreq
  have hdone : s.staleChunk (chunkOf b (chunkReq true ctx idx)) = (s.bump Reg.mpStreamStale 1).finish r 0x05 0 0 :=
    State.finishAt_of_request (s := s.bump Reg.mpStreamStale 1) hreq 0x05 0
  rw [hdone]
  exact State.answered_congr (State.finish_answered ..) rfl

theorem State.chunkStored_onlyChanges (s : State) (n ctx : Nat) (c : StreamCfg) (b : Bytes) :
    s.onlyChanges (s.chunkStored n ctx c b) [.mem, .ledger, .tiers] := .putMem (.move (.refl s))

theorem State.pool_chunkStored (s : State) (n ctx : Nat) (c : StreamCfg) (b : Bytes) :
    (s.chunkStored n ctx c b).pool (hbmPool ctx) = (s.pool (hbmPool ctx)).move .returned .held c.slotPages := by
  have hput : (s.move (hbmPool ctx) .returned .held c.slotPages).onlyChanges (s.chunkStored n ctx c b) [.mem, .tiers] :=
    .putMem (.refl _)
  have hledger : (s.chunkStored n ctx c b).ledger = (s.move (hbmPool ctx) .returned .held c.slotPages).ledger :=
    hput .ledger (by decide)
  have hmoved := s.pool_setPool_same (hbmPool ctx) ((s.pool (hbmPool ctx)).move .returned .held c.slotPages)
  rw [State.pool, hledger]
  exact hmoved

theorem State.enqueuedChunk_onlyChanges (s : State) (n ctx : Nat) (c : StreamCfg) (b : Bytes) (req : Option (Nat × Nat)) :
    s.onlyChanges (s.enqueuedChunk n ctx c b req) [.mem, .ledger, .streams, .tiers] :=
  .setStrm (s.chunkStored_onlyChanges n ctx c b).mono

theorem chunkEnqueue_enqueues (hfrom : s.ChunkFrom host ctx idx chunk b) (hsec : s.streamSection (leAt b 0 2) = some (ctx, c))
    (hbad : chunkBad c b = false) : Does (.chunkEnqueue host ctx idx chunk) s fun t =>
      (leAt b 4 4 = (s.strm (leAt b 0 2)).gen → (s.strm (leAt b 0 2)).state ≠ .free → (s.strm (leAt b 0 2)).state ≠ .importing →
        s.streamWriting ctx = false → (s.strm (leAt b 0 2)).slotted.length < c.depth →
        c.slotPages ≤ (s.pool (hbmPool ctx)).returned →
        (∃ k : Chunk, (t.strm (leAt b 0 2)).queue = (s.strm (leAt b 0 2)).queue ++ [k] ∧ k.gen = (s.strm (leAt b 0 2)).gen ∧
          k.seq = (s.strm (leAt b 0 2)).nextSeq % 2 ^ 32 ∧ k.slot = (s.strm (leAt b 0 2)).freeSlot c.depth ∧
          k.req = if host then some (ctx, idx) else none) ∧
        (t.strm (leAt b 0 2)).nextSeq = (s.strm (leAt b 0 2)).nextSeq + 1 ∧
        t.pool (hbmPool ctx) = (s.pool (hbmPool ctx)).move .returned .held c.slotPages ∧ t.regs = s.regs ∧ t.hp = s.hp) ∧
      (leAt b 4 4 ≠ (s.strm (leAt b 0 2)).gen → (s.strm (leAt b 0 2)).state ≠ .importing →
        t.streams = s.streams ∧ t.mem = s.mem ∧ t.ledger = s.ledger ∧
        t.regN Reg.mpStreamStale = min (s.regN Reg.mpStreamStale + 1) 0xFFFFFFFF ∧
        (∀ r, host = true → s.request ctx idx = some r → s.answered t r 0x05 0)) ∧
      ((s.strm (leAt b 0 2)).state = .importing ∨ s.streamWriting ctx = true ∧ leAt b 4 4 = (s.strm (leAt b 0 2)).gen ∨
        leAt b 4 4 = (s.strm (leAt b 0 2)).gen ∧ c.depth ≤ (s.strm (leAt b 0 2)).slotted.length → t = s) ∧
      s.onlyChanges t [.regs, .mem, .ledger, .hp, .streams, .tiers] := by
  have heq := execChunkEnqueue_of_wellFormed hfrom hsec hbad
  have hlen := header_le_of_chunkBad hbad
  generalize leAt b 0 2 = n at *
  by_cases hstale : leAt b 4 4 ≠ (s.strm n).gen ∧ (s.strm n).state ≠ .importing
  · rw [if_pos hstale] at heq
    have hframe : s.onlyChanges (s.staleChunk (chunkOf b (chunkReq host ctx idx))) [.regs, .hp] := .staleChunk (.refl s)
    obtain ⟨hcount, hanswered⟩ := s.staleChunk_spec host ctx idx b
    refine ⟨_, heq, fun hgen => absurd hgen hstale.1,
      fun _ _ => ⟨hframe .streams (by decide), hframe .mem (by decide), hframe .ledger (by decide), hcount, hanswered⟩, ?_,
      hframe.mono⟩
    rintro (himporting | ⟨-, hgen⟩ | ⟨hgen, -⟩)
    · exact absurd himporting hstale.2
    · exact absurd hgen hstale.1
    · exact absurd hgen hstale.1
  · rw [if_neg hstale] at heq
    have hcurrent (hne : leAt b 4 4 ≠ (s.strm n).gen) (hopen : (s.strm n).state ≠ .importing) := hstale ⟨hne, hopen⟩
    split at heq
    · next hnone =>
      refine ⟨s, heq, fun _ hfree himporting hwriting hdepth hpages => absurd hnone ?_,
        fun hne hopen => (hcurrent hne hopen).elim, fun _ => rfl, .refl s⟩
      simp only [hfree, himporting, hwriting, Bool.false_eq_true, false_or]
      omega
    · next hroom =>
      simp only [not_or] at hroom
      obtain ⟨-, hopen, hwriting, hdepth, -⟩ := hroom
      have hframe := s.enqueuedChunk_onlyChanges n ctx c b (chunkReq host ctx idx)
      refine ⟨_, heq, fun hgen _ _ _ _ _ => ?_, fun hne hopen => (hcurrent hne hopen).elim, ?_, hframe.mono⟩
      · refine ⟨⟨(s.strm n).entering c.depth b (chunkReq host ctx idx), ?_, ?_, (s.strm n).entering_seq hlen .., rfl, rfl⟩, ?_,
          ?_, hframe .regs (by decide), hframe .hp (by decide)⟩
        · rw [State.enqueuedChunk, State.strm_setStrm_same]
        · rw [Stream.entering_gen hlen, hgen]
        · rw [State.enqueuedChunk, State.strm_setStrm_same]
        · rw [State.enqueuedChunk, State.pool_setStrm, State.pool_chunkStored]
      · rintro (himporting | ⟨hwrites, -⟩ | ⟨-, hfull⟩)
        · exact absurd himporting hopen
        · exact absurd hwrites hwriting
        · exact absurd hfull hdepth

theorem execChunkEnqueue_answers (host : Bool) (ctx idx : Nat) (chunk : Bytes) (s : State) :
    s.Answers (execChunkEnqueue host ctx idx chunk s) [.regs, .mem, .ledger, .hp, .streams, .tiers] := by
  refine .ite (.next (.refl s)) ?_
  extract_lets
  split
  · exact .next (.refl s)
  · exact .ite (.next (.refl s)) (.ite (.next (.staleChunk (.refl s)))
      (.ite (.next (.refl s)) (.next (.setStrm (.putMem (.move (.refl s)))))))

end

/-! ### LAYER_CHUNK_START (R197, R206) -/

section
variable {s : State} {n ctx layer : Nat} {c : StreamCfg} {k : Chunk} {rest : List Chunk} {r : ChunkRun}

theorem State.meets_eq_run_iff : s.meets n layer k = .run ↔ k.gen = Tbl.getD (s.strm n).layers layer 0 := by
  unfold State.meets
  dsimp only
  split_ifs with hrun hnewer
  · exact iff_of_true rfl hrun
  · exact iff_of_false nofun hrun
  · exact iff_of_false nofun hrun

theorem State.meets_eq_relabel_iff : s.meets n layer k = .relabel ↔
    Tbl.getD (s.strm n).layers layer 0 < k.gen ∧ k.gen ≤ (s.strm n).fresh := by
  unfold State.meets
  dsimp only
  split_ifs with hrun hnewer
  · exact iff_of_false nofun fun ⟨hlt, _⟩ => Nat.ne_of_gt hlt hrun
  · exact iff_of_true rfl hnewer
  · exact iff_of_false nofun hnewer

theorem State.meets_eq_stale_of_lt (h : k.gen < Tbl.getD (s.strm n).layers layer 0) : s.meets n layer k = .stale := by
  rcases hmeet : s.meets n layer k
  · exact absurd (State.meets_eq_run_iff.mp hmeet) (Nat.ne_of_lt h)
  · exact absurd (State.meets_eq_relabel_iff.mp hmeet).1 (Nat.not_lt.mpr (Nat.le_of_lt h))
  · rfl

theorem State.exists_of_layerFree (h : s.layerFree n c layer = true) : ∃ l, c.layers[layer]? = some l := by
  rcases hl : c.layers[layer]? with _ | l
  · simp only [State.layerFree, hl, Bool.false_eq_true] at h
  · exact ⟨l, rfl⟩

theorem State.strm_zeroLayer_same {l : Layer} (hl : c.layers[layer]? = some l) (gen : Nat) :
    (s.zeroLayer n c layer gen).strm n =
      { s.strm n with layers := Tbl.set (s.strm n).layers layer gen, bad := remN (s.strm n).bad layer } := by
  rw [State.zeroLayer_of_layer hl, State.strm_setStrm_same]

/-- The layer that meets a chunk of a newer generation has become zero and taken that generation. -/
def State.relabelled (s : State) (n : Nat) (c : StreamCfg) (layer : Nat) (k : Chunk) : State :=
  if s.meets n layer k = .relabel then s.zeroLayer n c layer k.gen else s

/-- Layer 0 has started a chunk, with the rest of the queue left. -/
def State.firstStarted (s : State) (n : Nat) (k : Chunk) (rest : List Chunk) : State :=
  s.setStrm n { s.strm n with
    queue := rest, started := (s.strm n).started ++ [{ chunk := k, layer := 0, running := true }], ending := k.endAfter }

/-- A further layer has started a chunk. -/
def State.nextStarted (s : State) (n : Nat) (r : ChunkRun) : State :=
  s.setStrm n { s.strm n with started := replaceFirst (fun q => q = r) { r with running := true } (s.strm n).started }

/-- A further layer has dropped a chunk of an older generation, with its parcels. -/
def State.staleRun (s : State) (n layer : Nat) (c : StreamCfg) (r : ChunkRun) : State :=
  let s := s.setStrm n { s.strm n with started := (s.strm n).started.filter (fun q => q ≠ r) }
  (match c.layers[layer]? with
    | some l => s.dropChunk n l r.chunk
    | none => s).bump Reg.mpStreamStale 1

theorem execLayerChunkStart_zero (hsec : s.streamSection n = some (ctx, c)) (hfree : s.layerFree n c 0 = true)
    (hqueue : (s.strm n).queue = k :: rest) (hactive : (s.strm n).state = .active)
    (hending : (s.strm n).ending = false) (hwait : (s.strm n).wait = none) :
    execLayerChunkStart n 0 s = .next (if s.meets n 0 k = .stale then
      ((s.setStrm n { s.strm n with queue := rest }).queuePages (s.strm n).ctx c 1).staleChunk k
      else (s.relabelled n c 0 k).firstStarted n k rest) := by
  simp only [execLayerChunkStart, hsec, hfree, hqueue, hactive, hending, hwait, Bool.true_eq_false, if_false, if_true, ne_eq,
    not_true_eq_false, Bool.false_eq_true, Option.isSome_none, or_self]
  unfold State.relabelled
  rcases hmeet : s.meets n 0 k <;> rfl

theorem execLayerChunkStart_succ (hsec : s.streamSection n = some (ctx, c)) (hfree : s.layerFree n c layer = true)
    (hlayer : layer ≠ 0) (hrun : (s.strm n).started.find? (fun q => q.layer = layer) = some r) :
    execLayerChunkStart n layer s = .next (if s.meets n layer r.chunk = .stale then s.staleRun n layer c r
      else (s.relabelled n c layer r.chunk).nextStarted n r) := by
  simp only [execLayerChunkStart, hsec, hfree, hlayer, hrun, Bool.true_eq_false, if_false]
  unfold State.relabelled
  rcases hmeet : s.meets n layer r.chunk <;> rfl

theorem State.relabelled_of_run (h : s.meets n layer k = .run) : s.relabelled n c layer k = s :=
  if_neg (by rw [h]; decide)

theorem State.relabelled_onlyChanges (s : State) (n : Nat) (c : StreamCfg) (layer : Nat) (k : Chunk) :
    s.onlyChanges (s.relabelled n c layer k) [.mem, .streams, .tiers] := .ite (.zeroLayer (.refl s)) (.refl s)

/-- A layer that takes a chunk's generation leaves the chunks of the stream where they are. -/
theorem State.strm_relabelled_same (hfree : s.layerFree n c layer = true) (k : Chunk) : ∃ layers bad,
    (s.relabelled n c layer k).strm n = { s.strm n with layers := layers, bad := bad } ∧
    (s.meets n layer k = .relabel → Tbl.find layers layer = some k.gen) := by
  obtain ⟨l, hl⟩ := State.exists_of_layerFree hfree
  by_cases hmeet : s.meets n layer k = .relabel
  · refine ⟨_, remN (s.strm n).bad layer, ?_, fun _ => Tbl.find_set_same (s.strm n).layers layer k.gen⟩
    rw [State.relabelled, if_pos hmeet, State.strm_zeroLayer_same hl]
  · refine ⟨(s.strm n).layers, (s.strm n).bad, ?_, fun h => absurd h hmeet⟩
    rw [State.relabelled, if_neg hmeet]

theorem layerChunkStart_first (hsec : s.streamSection n = some (ctx, c)) (hfree : s.layerFree n c 0 = true)
    (hqueue : (s.strm n).queue = k :: rest) (hactive : (s.strm n).state = .active)
    (hending : (s.strm n).ending = false) (hwait : (s.strm n).wait = none) : Does (.layerChunkStart n 0) s fun t =>
      (t.strm n).queue = rest ∧
      (k.gen = Tbl.getD (s.strm n).layers 0 0 →
        (t.strm n).started = (s.strm n).started ++ [{ chunk := k, layer := 0, running := true }] ∧ t.mem = s.mem) ∧
      (k.gen < Tbl.getD (s.strm n).layers 0 0 → (t.strm n).started = (s.strm n).started ∧ t.mem = s.mem ∧
        t.regN Reg.mpStreamStale = min (s.regN Reg.mpStreamStale + 1) 0xFFFFFFFF) ∧
      (Tbl.getD (s.strm n).layers 0 0 < k.gen → k.gen ≤ (s.strm n).fresh → Tbl.find (t.strm n).layers 0 = some k.gen ∧
        (t.strm n).started = (s.strm n).started ++ [{ chunk := k, layer := 0, running := true }]) ∧
      s.onlyChanges t [.regs, .mem, .ledger, .hp, .streams, .tiers] := by
  refine ⟨_, execLayerChunkStart_zero hsec hfree hqueue hactive hending hwait, ?_⟩
  by_cases hstale : s.meets n 0 k = .stale
  · rw [if_pos hstale]
    generalize hu : (s.setStrm n { s.strm n with queue := rest }).queuePages (s.strm n).ctx c 1 = u
    have hset : s.onlyChanges u [.ledger, .streams] := hu ▸ .queuePages (.setStrm (.refl s))
    have hx : u.strm n = { s.strm n with queue := rest } := hu ▸ s.strm_setStrm_same n _
    have hdone : u.onlyChanges (u.staleChunk k) [.regs, .hp] := .staleChunk (.refl u)
    have hmem : (u.staleChunk k).mem = u.mem := hdone .mem (by decide)
    rw [hdone.strm n, hx, u.regN_staleChunk, hset.regN, hmem]
    exact ⟨rfl, fun hgen => (nomatch hstale.symm.trans (State.meets_eq_run_iff.mpr hgen)), fun _ => ⟨rfl, hset .mem (by decide), rfl⟩,
      fun hold hfresh => (nomatch hstale.symm.trans (State.meets_eq_relabel_iff.mpr ⟨hold, hfresh⟩)),
      hset.mono.then hdone (by decide)⟩
  · rw [if_neg hstale]
    obtain ⟨layers, bad, hx, hgen⟩ := State.strm_relabelled_same hfree k
    have hframe := s.relabelled_onlyChanges n c 0 k
    have hsame (h : s.meets n 0 k = .run) := State.relabelled_of_run (c := c) h
    generalize s.relabelled n c 0 k = u at *
    rw [State.firstStarted, State.strm_setStrm_same, hx]
    refine ⟨rfl, fun h => ⟨rfl, ?_⟩, fun hold => absurd (State.meets_eq_stale_of_lt hold) hstale,
      fun hold hfresh => ⟨hgen (State.meets_eq_relabel_iff.mpr ⟨hold, hfresh⟩), rfl⟩, .setStrm hframe.mono⟩
    rw [State.setStrm_mem, hsame (State.meets_eq_run_iff.mpr h)]

theorem layerChunkStart_next (hsec : s.streamSection n = some (ctx, c)) (hfree : s.layerFree n c layer = true)
    (hlayer : layer ≠ 0) (hfind : (s.strm n).started.find? (fun q => q.layer = layer) = some r) :
    Does (.layerChunkStart n layer) s fun t =>
      (r.chunk.gen = Tbl.getD (s.strm n).layers layer 0 → (t.strm n).started =
        replaceFirst (fun q => q = r) { r with running := true } (s.strm n).started ∧ s.onlyChanges t [.streams]) ∧
      (r.chunk.gen < Tbl.getD (s.strm n).layers layer 0 → (t.strm n).started = (s.strm n).started.filter (fun q => q ≠ r) ∧
        t.mem = s.mem ∧ t.regN Reg.mpStreamStale = min (s.regN Reg.mpStreamStale + 1) 0xFFFFFFFF) ∧
      (t.strm n).queue = (s.strm n).queue := by
  refine ⟨_, execLayerChunkStart_succ hsec hfree hlayer hfind, ?_⟩
  by_cases hstale : s.meets n layer r.chunk = .stale
  · rw [if_pos hstale]
    obtain ⟨l, hl⟩ := State.exists_of_layerFree hfree
    generalize hu : s.setStrm n { s.strm n with started := (s.strm n).started.filter (fun q => q ≠ r) } = u
    have hset : s.onlyChanges u [.streams] := hu ▸ .setStrm (.refl s)
    have hx : u.strm n = { s.strm n with started := (s.strm n).started.filter (fun q => q ≠ r) } := hu ▸ s.strm_setStrm_same n _
    have hdrop : u.onlyChanges (u.dropChunk n l r.chunk) [.ledger, .mills, .leat] := .dropChunk (.refl u)
    have hall : u.onlyChanges (s.staleRun n layer c r) [.regs, .ledger, .mills, .leat] := by
      simp only [State.staleRun, hl, hu]
      exact .bump hdrop.mono
    have hcount : (s.staleRun n layer c r).regN Reg.mpStreamStale = min (u.regN Reg.mpStreamStale + 1) 0xFFFFFFFF := by
      simp only [State.staleRun, hl, hu]
      rw [State.regN_bump_same, hdrop.regN]
    have hmem : (s.staleRun n layer c r).mem = u.mem := hall .mem (by decide)
    rw [hall.strm n, hx, hcount, hset.regN, hmem]
    exact ⟨fun hgen => (nomatch hstale.symm.trans (State.meets_eq_run_iff.mpr hgen)), fun _ => ⟨rfl, hset .mem (by decide), rfl⟩, rfl⟩
  · rw [if_neg hstale]
    obtain ⟨layers, bad, hx, -⟩ := State.strm_relabelled_same hfree r.chunk
    have hsame (h : s.meets n layer r.chunk = .run) := State.relabelled_of_run (c := c) h
    generalize s.relabelled n c layer r.chunk = u at *
    rw [State.nextStarted, State.strm_setStrm_same, hx]
    refine ⟨fun h => ⟨rfl, ?_⟩, fun hold => absurd (State.meets_eq_stale_of_lt hold) hstale, rfl⟩
    rw [hsame (State.meets_eq_run_iff.mpr h)]
    exact .setStrm (.refl s)

end

theorem execLayerChunkStart_answers (n layer : Nat) (s : State) :
    s.Answers (execLayerChunkStart n layer s) [.regs, .mem, .ledger, .hp, .mills, .leat, .streams, .tiers] := by
  unfold execLayerChunkStart
  split
  · exact .next (.refl s)
  · refine .ite (.next (.refl s)) (.ite ?_ ?_)
    · split
      · exact .next (.refl s)
      · refine .ite (.next (.refl s)) ?_
        split
        · exact .next (.staleChunk (.queuePages (.setStrm (.refl s))))
        · exact .next (.setStrm (.ite (.zeroLayer (.refl s)) (.refl s)))
    · split
      · exact .next (.refl s)
      · split
        · extract_lets s₁ s₂
          have h₂ : s.onlyChanges s₂ [.regs, .mem, .ledger, .hp, .mills, .leat, .streams, .tiers] := by
            unfold s₂
            split
            · exact .dropChunk (.setStrm (.refl s))
            · exact .setStrm (.refl s)
          exact .next (.bump h₂)
        · exact .next (.setStrm (.ite (.zeroLayer (.refl s)) (.refl s)))

/-! ### CHUNK_BOUNDARY (R205, R209) -/

section
variable {s : State} {n ctx : Nat} {c : StreamCfg} {w : StreamWait}

theorem execChunkBoundary_of_end (hsec : s.streamSection n = some (ctx, c)) (hstarted : (s.strm n).started = [])
    (hheld : s.streamHeld c = false) (hwait : (s.strm n).wait = some w) (hopen : (s.strm n).state ≠ .importing)
    (hend : w.isExport = false) : execChunkBoundary n s =
      .next (((s.staleQueue n (s.strm n).ctx c).releaseStream n).finishAt w.ctx w.idx 0 (streamResult (s.strm n).gen 0)) := by
  simp only [execChunkBoundary, hsec, hstarted, hheld, hwait, hopen, hend, ne_eq, not_true_eq_false, Bool.false_eq_true, or_self,
    if_false]

theorem execChunkBoundary_of_export (hsec : s.streamSection n = some (ctx, c)) (hstarted : (s.strm n).started = [])
    (hheld : s.streamHeld c = false) (hwait : (s.strm n).wait = some w) (hstate : (s.strm n).state = .exporting)
    (hexport : w.isExport = true) : execChunkBoundary n s = .next (s.exportStep n c w) := by
  have hopen : StreamState.exporting ≠ .importing := by decide
  simp only [execChunkBoundary, hsec, hstarted, hheld, hwait, hstate, hopen, hexport, ne_eq, not_true_eq_false, Bool.false_eq_true,
    or_self, if_false, if_true]

theorem chunkBoundary_ends (hsec : s.streamSection n = some (ctx, c)) (hstarted : (s.strm n).started = [])
    (hheld : s.streamHeld c = false) (hwait : (s.strm n).wait = some w) (hopen : (s.strm n).state ≠ .importing)
    (hend : w.isExport = false) : Does (.chunkBoundary n) s fun t =>
      t.strm n = { gen := (s.strm n).gen } ∧ t.mem = s.mem ∧
      ((s.strm n).queue = [] → ∀ r, s.request w.ctx w.idx = some r → s.answered t r 0 (streamResult (s.strm n).gen 0)) ∧
      s.onlyChanges t [.regs, .ledger, .hp, .streams] := by
  refine ⟨_, execChunkBoundary_of_end hsec hstarted hheld hwait hopen hend, ?_⟩
  have hframe : s.onlyChanges ((s.staleQueue n (s.strm n).ctx c).releaseStream n) [.regs, .ledger, .hp, .streams] :=
    .releaseStream (.staleQueue (.refl s))
  have hx : ((s.staleQueue n (s.strm n).ctx c).releaseStream n).strm n = { gen := (s.strm n).gen } := by
    rw [State.releaseStream, State.strm_setStrm_same, State.strm_staleQueue_same]
  have hhp (hempty : (s.strm n).queue = []) : ((s.staleQueue n (s.strm n).ctx c).releaseStream n).hp = s.hp := by
    rw [State.releaseStream, State.setStrm_hp, State.staleQueue_eq, hempty]
    rfl
  generalize (s.staleQueue n (s.strm n).ctx c).releaseStream n = u at *
  have hdone : u.onlyChanges (u.finishAt w.ctx w.idx 0 (streamResult (s.strm n).gen 0)) [.hp] := .finishAt (.refl u)
  have hall := hframe.then hdone (by decide)
  refine ⟨(hdone.strm n).trans hx, hall .mem (by decide), fun hempty r hreq => ?_, hall⟩
  have hreq' : u.request w.ctx w.idx = some r := by
    rw [State.request, hhp hempty]
    exact hreq
  rw [State.finishAt_of_request hreq']
  exact State.answered_congr (State.finish_answered ..) (hhp hempty)

/-- An EXPORT that moves the stream releases it and completes its request. -/
theorem State.exported_of_moved {r : Request} (hreq : s.request w.ctx w.idx = some r) (hmoves : w.keep = false) :
    ∃ (u : State) (result extra : Nat), s.exported n c w = (u.releaseStream n).finish r 0 result extra ∧
      s.onlyChanges u [.regs, .ledger, .hp] := by
  have hreq' : (s.countMove false).request w.ctx w.idx = some r := hreq
  unfold State.exported
  extract_lets x s₁
  simp only [s₁, hreq', hmoves, Bool.false_eq_true, if_false]
  exact ⟨_, _, _, rfl, .setHp (.queuePages (.countMove (.refl s)))⟩

theorem State.exportStep_of_local (hpages : w.remotePages = 0) (hroom : (s.package n c w.keep).length ≤ w.length)
    (hhere : moduleOf w.address = s.moduleId) :
    s.exportStep n c w = (s.putMem (localOf w.address) (s.package n c w.keep)).exported n c w := by
  simp only [State.exportStep, hpages, Nat.not_lt.mpr hroom, hhere, ne_eq, not_true_eq_false, if_false]

theorem chunkBoundary_exports {r : Request} (hok : s.memOk)
    (hfree : s.noDescs (localOf w.address) (s.package n c false).length) (hsec : s.streamSection n = some (ctx, c))
    (hstarted : (s.strm n).started = []) (hheld : s.streamHeld c = false) (hwait : (s.strm n).wait = some w)
    (hstate : (s.strm n).state = .exporting) (hexport : w.isExport = true) (hmoves : w.keep = false) (hpages : w.remotePages = 0)
    (hhere : moduleOf w.address = s.moduleId) (htier : tierOf (localOf w.address) = some .hbm)
    (hroom : (s.package n c false).length ≤ w.length) (hreq : s.request w.ctx w.idx = some r) :
    Does (.chunkBoundary n) s fun t =>
      t.strm n = { gen := (s.strm n).gen } ∧
      t.local (localOf w.address) (s.package n c false).length = s.package n c false ∧
      s.memBut t .hbm (localOf w.address) (s.package n c false).length ∧ (∃ d : Done, d ∈ t.hp.done ∧ d.req = r ∧ d.status = 0) := by
  have hstep := State.exportStep_of_local hpages (hmoves ▸ hroom) hhere
  rw [hmoves] at hstep
  generalize s.package n c false = pkg at *
  have hput : s.onlyChanges (s.putMem (localOf w.address) pkg) [.mem, .tiers] := .putMem (.refl s)
  have hstored : (s.putMem (localOf w.address) pkg).mem = (s.setLocal (localOf w.address) pkg).mem := State.putMem_mem hfree
  have hhp : (s.putMem (localOf w.address) pkg).hp = s.hp := hput .hp (by decide)
  have hreq' : (s.putMem (localOf w.address) pkg).request w.ctx w.idx = some r := by
    rw [State.request, hhp]
    exact hreq
  obtain ⟨u, result, extra, hexported, hframe⟩ := State.exported_of_moved (n := n) (c := c) hreq' hmoves
  have hmem : u.mem = (s.setLocal (localOf w.address) pkg).mem :=
    (show u.mem = (s.putMem (localOf w.address) pkg).mem from hframe .mem (by decide)).trans hstored
  have hx : u.strm n = s.strm n := (hframe.strm n).trans (hput.strm n)
  have hlocal := State.local_setLocal_hbm hok htier pkg
  have hbut := State.memBut_setLocal_hbm hok htier pkg
  rw [State.local, ← hmem] at hlocal
  rw [State.memBut, ← hmem] at hbut
  refine ⟨_, (execChunkBoundary_of_export hsec hstarted hheld hwait hstate hexport).trans
    (congrArg _ (hstep.trans hexported)), ?_, hlocal, hbut, _, List.mem_append_right _ (List.mem_singleton.mpr rfl), rfl, rfl⟩
  rw [State.strm_finish, State.releaseStream, State.strm_setStrm_same, hx]

end

theorem execChunkBoundary_answers (n : Nat) (s : State) :
    s.Answers (execChunkBoundary n s) [.regs, .mem, .ledger, .hp, .streams, .tiers, .px] := by
  unfold execChunkBoundary
  extract_lets
  split
  · exact .next (.refl s)
  · refine .ite (.next (.refl s)) ?_
    split
    · exact .ite (.next (.importStep (.refl s)))
        (.ite (.next (.exportStep (.refl s))) (.next (.finishAt (.releaseStream (.staleQueue (.refl s))))))
    · exact .ite (.next (.releaseStream (.raiseGen (.refl s)))) (.next (.refl s))

/-- Settles O46: each clause is the equation of its command, and a command's frame is that of the operations it is made of. -/
theorem chunks : Obligations.Chunks := by
  unfold Obligations.Chunks
  refine ⟨fun ctx idx r c s hreq htarget hnew hzero hgrant hsec hbad hlive => ?_, ?_,
    fun n ctx k rest c s => layerChunkStart_first, fun n ctx layer r c s => layerChunkStart_next,
    fun n ctx c w s => chunkBoundary_ends, fun n ctx c w r s => chunkBoundary_exports, execChunk_answers, execChunkEnqueue_answers,
    execLayerChunkStart_answers, execChunkBoundary_answers⟩
  · exact ⟨s.begin r, execChunk_of_wellFormed hreq htarget hnew hzero hgrant rfl hsec hbad hlive, State.request_begin hreq, rfl,
      .begin (.refl s)⟩
  · rintro host ctx idx _ chunk b c s hfrom rfl hsec hbad
    exact chunkEnqueue_enqueues hfrom hsec hbad

end Sys2Proof.Machine
end
